-- ==== Sys2Proof/Word.lean ====
section
/-!
DEFINITION. The word types of the module and their plainest arithmetic: a byte, a 64-bit register (R8: "All registers
are 64 bits wide"), and the tagged memory spaces. Bit ranges are written [msb:lsb] in the spec; a field here is (lsb, width).
-/
namespace Sys2Proof

/-- A byte of a packet, of SRAM or of HBM. -/
abbrev Byte := BitVec 8

/-- A register of the register space (00_scope.md, "Register conventions"). -/
abbrev U64 := BitVec 64

/-- The field of `w` bits whose least significant bit is `l`. -/
def fieldOf (v : U64) (l w : Nat) : Nat := (v.toNat >>> l) % 2 ^ w

/-- `v` with the field of `w` bits at `l` set to `x` (taken modulo 2^w). -/
def withField (v : U64) (l w x : Nat) : U64 :=
  let old := (v.toNat >>> l) % 2 ^ w
  BitVec.ofNat 64 (v.toNat - old <<< l + (x % 2 ^ w) <<< l)

/-- A count that stops at 2^w - 1 (the "saturates" of the register tables). -/
def satAdd (w a b : Nat) : Nat := min (a + b) (2 ^ w - 1)

/-- Integer division rounded up. -/
def ceilDiv (a b : Nat) : Nat := (a + b - 1) / b

/-- `if b then 1 else 0`. -/
def bit01 (b : Bool) : Nat := if b then 1 else 0

end Sys2Proof
end

