-- ==== Sys2Proof/Syntax.lean ====
section
/-!
DEFINITION. The commands of the block, one constructor for each row of spec/opcode_table.json, and the packets, frames and
operand records they carry. A number is a `Nat` whose range `WellFormed.lean` states; a flag is a `Bool`; reserved header
bits are kept, because R55 forwards them unchanged and R58 and R59 judge some of them.
-/
namespace Sys2Proof

/-- The key of a collective block (R144). -/
structure Key where
  group : Nat
  epoch : Nat
  window : Nat
  block : Nat
deriving DecidableEq, Repr

/-- The 32-byte collective extension header (02_fabric_transport.md, "Collective extension header"; R58). -/
structure ExtHdr where
  group : Nat
  epoch : Nat
  window : Nat
  block : Nat
  accFmt : Nat
  lo : Nat
  hiIncl : Nat
  pgen : Nat
  wfmt : Nat
  rfmt : Nat
  spfmt : Nat
  denseRx : Bool
  esc : Bool
  srnd : Bool
  accum : Bool
  eow : Bool
  /-- bytes 8-15 bits [55:53] -/
  rsvA : Nat
  status : Nat
  nelem : Nat
  cNan : Nat
  cInf : Nat
  cRsv : Nat
  cScale : Nat
  cSat : Nat
  /-- bytes 16-23 bits [63:56] -/
  rsvB : Nat
  digest : Nat
deriving DecidableEq, Repr

/-- A JFP packet other than LCTL: the common header (02_fabric_transport.md, "Common header"), the extension header when
its ext bit is 1, and the payload. `rsv0` is bytes 0-7 [39:37], `rsv1` bytes 0-7 [63:60], `rsv2` bytes 8-15 [63:60],
`rsv3` bytes 16-23 [63:56], `rsv4` bytes 24-27 [31:24]. -/
structure Packet where
  ver : Nat
  ptype : Nat
  vc : Nat
  tc : Nat
  ce : Bool
  dm : Bool
  ttl : Nat
  last : Bool
  plen : Nat
  rsv0 : Nat
  dst : Nat
  rsv1 : Nat
  src : Nat
  seq : Nat
  tag : Nat
  rsv2 : Nat
  addr : Nat
  rsv3 : Nat
  linkSeq : Nat
  rsv4 : Nat
  crc : Nat
  ext : Option ExtHdr
  payload : List Byte
deriving DecidableEq, Repr

/-- A 64-byte link control frame (02_fabric_transport.md, "Link control frames"). -/
structure Lctl where
  ver : Nat
  ptype : Nat
  kind : Nat
  rsv : Nat
  ackSeq : Nat
  rsv2 : Nat
  credit : List Nat
  body : List Byte
  lcrc : Nat
deriving DecidableEq, Repr

/-- An Ethernet frame (R81): addresses, C-tag (PCP, VID), EtherType, body, and whether its FCS is right. -/
structure EthFrame where
  dmac : Nat
  smac : Nat
  tag : Option (Nat × Nat)
  etype : Nat
  body : List Byte
  fcsOk : Bool
deriving DecidableEq, Repr

/-- What the RS(544,514) decoder of a port counted while something arrived: corrected symbols and uncorrectable codewords
(R42, R80, R82). -/
structure RxFec where
  corrected : Nat
  uncorrectable : Nat
deriving DecidableEq, Repr

/-- Something that arrived at a port, with what the port's decoder counted while it did. -/
structure Rx (α : Type) where
  fec : RxFec
  it : α
deriving DecidableEq, Repr

/-- How the receiver of a link finds a packet (R42, R44, R70). -/
inductive RxClass where
  | clean
  | corrupted
  | aborted
deriving DecidableEq, Repr

/-- Outcome of the parity check of the data a step reads (R345): right, cleared from its source, or with no source. -/
inductive Parity where
  | good
  | replayed
  | hard
deriving DecidableEq, Repr

/-- Outcome of the RS(67,64) check of an HBM line (R349). -/
inductive EccOutcome where
  | clean
  | corrected
  | rereadOk
  | uncorrectable
  /-- the line was right and a word of it failed on the on-die path once (R345) -/
  | pathReread
  /-- a word failed on the on-die path a second time (R345) -/
  | pathHard
deriving DecidableEq, Repr

/-- What an HBM line that was read belongs to (the rows of R350). -/
inductive HbmUse where
  | replay (port : Nat)
  | landing (port vc : Nat)
  | spill (k : Key) (lo hi : Nat)
  | accum (group block : Nat)
  | mask (k : Key)
  | retention (k : Key)
  | completionLog
  | programStore (core : Nat)
  | curdData (core : Nat)
  | whey (core block : Nat)
  | rindLoad (core : Nat)
  | rindFetch (core : Nat)
  | rindPrefetch (core : Nat)
deriving DecidableEq, Repr

/-- The fields of a Curd instruction word other than its opcode (R225). -/
structure CurdWord where
  pr : Nat
  pn : Nat
  rep : Nat
  afmt : Nat
  sa : Nat
  sb : Nat
  sc : Nat
  dd : Nat
  de : Nat
  rd : Nat
  rs1 : Nat
  rs2 : Nat
  rg0 : Nat
  rg1 : Nat
  rg2 : Nat
  rg3 : Nat
  imm : Nat
deriving DecidableEq, Repr

/-- A row stream for the library's row routines (09_sparsity.md, "Heavy rows"): value format (0 FP32, 1 FP16, 2 BF16),
row count, the space and the quadrant it stands in (0 local data area, 1 Cellar slice, 2 HBM stacks), and the byte offsets
there of the directory, the values, the row factors (row scaling only) and the output. -/
structure RowStream where
  fmt : Nat
  rows : Nat
  space : Nat
  qd : Nat
  dirOff : Nat
  valOff : Nat
  facOff : Nat
  outOff : Nat
deriving DecidableEq, Repr

/-- What a boot meets outside Rennet (R426, R429, R434, R391): whether the fuses read with good parity, how many
clock-alignment attempts fail (0 to 3), the stacks that fail training, whether the SFDP offers the profile 1.0 read,
whether the header and signature reads of each slot complete in time, whether the reads of each body do, and whether the
copy of each body meets no uncorrectable line. -/
structure BootEnv where
  fuseOk : Bool
  alignFailures : Nat
  failedStacks : List Nat
  sfdpOk : Bool
  readOkA : Bool
  readOkB : Bool
  bodyOkA : Bool
  bodyOkB : Bool
  copyOkA : Bool
  copyOkB : Bool
deriving DecidableEq, Repr

/-- The commands and events of the block: one constructor for each row of spec/opcode_table.json. `req` is the requester
number of a register write (R341, R453); a `page` is the BAR address of a block page; `v` is the value written. -/
inductive Instr where
  /-- REGISTER_WRITE (R9). A write to a register or field that has no row of its own takes effect under its access code. -/
  | registerWrite (req addr : Nat) (v : U64)
  /-- UNALIGNED_ACCESS (R12). A narrow or unaligned register access is discarded, or reads 0, and is counted in BLK_ERR_CNT of the addressed page. -/
  | unalignedAccess (req addr size : Nat) (isWrite : Bool)
  /-- COUNTER_CLEAR (R489). A write of 0 to a counter field clears that counter and leaves the other fields under their own codes. -/
  | counterClear (req addr : Nat) (v : U64)
  /-- ERR_CNT_CLEAR (R456). A write of 0 to BLK_ERR_CNT clears every field of the register. -/
  | errCntClear (req page : Nat)
  /-- EVENT_TEST (R456). A write of 1 to a BLK_EV_TEST bit sets the event bit as the event itself would. -/
  | eventTest (req page : Nat) (v : U64)
  /-- BLOCK_RESET (R455). A write of BLK_CTRL.reset restores the page's block-specific registers and state, or is discarded while the unit is enabled or holds items. -/
  | blockReset (req page : Nat)
  /-- UNIT_ENABLE (R456). A write of 1 to BLK_CTRL.enable returns a disabled unit to service. -/
  | unitEnable (req page : Nat)
  /-- DRAIN (R377). A write of 1 to BLK_CTRL.drain places a unit in DRAINING, where it accepts no new work and completes its items. -/
  | drainUnit (req page : Nat)
  /-- DRAIN_CANCEL (R456). A write of 0 to BLK_CTRL.drain with enable 1 returns a draining unit to service. -/
  | drainCancel (req page : Nat)
  /-- FORCED_DISABLE (R377). A write of 0 to BLK_CTRL.enable disables the unit at once and reports every item it holds. -/
  | forcedDisable (req page : Nat)
  /-- PORT_UP_REQ (R460). A write of up_req 1 forms a port from its lanes and starts bring-up, or is discarded if the lanes are misaligned, absent or taken. -/
  | portUpReq (req lane : Nat) (v : U64)
  /-- PORT_DOWN_REQ (R461). A write of up_req 0 takes the port's link down as R46 does and dissolves the port once it is DOWN. -/
  | portDownReq (req lane : Nat) (v : U64)
  /-- PMD_TRAINING_DONE (R490). 802.3dj PMD training ends or fails, completing or failing step 1 of bring-up. -/
  | pmdTrainingDone (port : Nat) (ok : Bool)
  /-- FEC_LOCK (R490). FEC codeword lock is reached on every lane of the port, completing step 2 of bring-up. -/
  | fecLock (port : Nat)
  /-- HELLO_TIMER (R490). Every 10 us from step 3 until step 4 ends, the port sends a HELLO frame. -/
  | helloTimer (port : Nat)
  /-- HELLO (R40). A HELLO frame arrives and completes step 3 when its width and mode match the port's, or fails the step otherwise. -/
  | helloFrame (port : Nat) (f : Rx Lctl)
  /-- ECHO_REQ (R490). An ECHO_REQ frame arrives and the port answers with an ECHO_RSP carrying its always-on count unchanged. -/
  | echoReqFrame (port : Nat) (f : Rx Lctl)
  /-- ECHO_RSP (R40). An ECHO_RSP arrives, gives one round-trip sample, and the port sends the next ECHO_REQ or ends step 4 and places its replay store. -/
  | echoRspFrame (port : Nat) (f : Rx Lctl)
  /-- BRINGUP_STEP_TIMEOUT (R490). A bring-up step's time limit expires and the step fails with its event. -/
  | bringupStepTimeout (port : Nat)
  /-- BRINGUP_RETRY (R40). One millisecond after a failed step or a link down with up_req 1, the port restarts bring-up from step 1. -/
  | bringupRetry (port : Nat)
  /-- STATE (R41). A STATE frame arrives carrying ack_seq and cumulative credit grants, which the sender applies. -/
  | stateFrame (port : Nat) (f : Rx Lctl)
  /-- STATE_SEND (R41). The port sends a STATE frame within 160 ns of a change in ack_seq or credit, and at least every 1 us. -/
  | stateSend (port : Nat)
  /-- PACKET_ARRIVE (R44). A JFP packet arrives on a link and the receiver accepts, discards or NAKs it by its state table. -/
  | packetArrive (port : Nat) (cls : RxClass) (fec : RxFec) (p : Packet)
  /-- NAK_TIMER_EXPIRE (R44). The receiver's nak timer expires in NAK_SENT and it sends NAK(E) again, restarts the timer and counts a retry. -/
  | nakTimerExpire (port : Nat)
  /-- NAK (R45). A NAK frame arrives and the sender replays from E out of its replay store. -/
  | nakFrame (port : Nat) (f : Rx Lctl)
  /-- REPLAY_DONE (R45). The newest sent packet has been resent and the sender returns to NORMAL. -/
  | replayDone (port : Nat)
  /-- ACK_TIMER_EXPIRE (R45). The ack timer expires and the sender resends from the oldest unacknowledged packet and counts a timeout. -/
  | ackTimerExpire (port : Nat)
  /-- LCTL_SILENCE_TIMEOUT (R46). No valid LCTL frame arrives for 20 us and the port takes its link down. -/
  | lctlSilenceTimeout (port : Nat)
  /-- DOWN (R46). A DOWN frame arrives and the port takes its link down. -/
  | downFrame (port : Nat) (f : Rx Lctl)
  /-- LREFCLK_LOSS (R485). A lane reference clock stops and the ports on its 16 lanes lose FEC lock and go down. -/
  | lrefclkLoss (clock : Nat)
  /-- CREDIT_GRANT (R494). The port takes a further step of 65 credits on a VC, backed by a newly allocated buffer or free landing space. -/
  | creditGrant (port vc : Nat)
  /-- SWITCH_ENTRY (R24). A waiting packet whose chosen egress port has room for it on its VC enters the switching core, fixing its route choice. -/
  | switchEntry (unit vc n : Nat) (par : Parity)
  /-- PACKET_SEND (R313). At a packet boundary the egress port sends a PFC frame, a resent packet or a new packet chosen by strict priority and DWRR. -/
  | packetSend (port : Nat) (abort : Bool)
  /-- REPLAY_COPY_DONE (R23). A sent packet's last byte is copied into the replay store and the egress port releases its buffer reference. -/
  | replayCopyDone (port : Nat)
  /-- MGMT_READ (R57). An MGMT request with plen 0 reads a register and is answered by an MGMT reply, or REJECTED when mgmt_en is 0. -/
  | mgmtRead (port : Nat) (p : Packet)
  /-- MGMT_WRITE (R57). An MGMT request with plen 8 writes a register unless a kept reply shows it as a duplicate, and is answered by an MGMT reply. -/
  | mgmtWrite (port : Nat) (p : Packet)
  /-- RESPONSE_DELIVERY (R492). A READ_RSP, WRITE_ACK, MGMT reply or transport STATUS addressed to the switch goes by its tag to a program, a hardware unit or discard. -/
  | responseDelivery (port : Nat) (p : Packet)
  /-- PORT_SNAPSHOT (R80). A write of PRT_CFG.snap copies every port counter and gauge at once with an always-on timestamp. -/
  | portSnapshot (req port : Nat)
  /-- TELEMETRY_CLEAR (R461). A write of PRT_CFG.tel_clr clears every live port counter. -/
  | telemetryClear (req port : Nat)
  /-- HIGH_WATER_RESET (R462). A write of 0 to a high-water snapshot register resets the live high-water mark of its VC. -/
  | highWaterReset (req port vc : Nat)
  /-- ETHERNET_FRAME (R81). An Ethernet-mode port receives a frame and discards, learns, bridges or floods it. -/
  | ethernetFrame (port : Nat) (f : Rx EthFrame)
  /-- MAC_AGE_OUT (R81). A MAC-table entry reaches its ageing time and is removed. -/
  | macAgeOut (vid mac : Nat)
  /-- PFC_FRAME (R330). A PFC frame arrives and pauses or resumes new frames of its priority. -/
  | pfcFrame (port prio : Nat) (quanta : Rx Nat)
  /-- PFC_PAUSE_EXPIRE (R330). The pause time of a priority runs out and the port resumes its frames. -/
  | pfcPauseExpire (port prio : Nat)
  /-- PFC_REFRESH (R329). Every 32,768 quanta while held bytes stay above xon, the port repeats the PFC frame. -/
  | pfcRefresh (port prio : Nat)
  /-- CDN_PAUSE_LIMIT (R84). A pause on cdn_pcp lasts beyond cdn_pause_limit and the port discards its queued CDN frames and reports FAILED_LINK. -/
  | cdnPauseLimit (port : Nat)
  /-- CWRITE (R135). A CWRITE is consumed at its switch, checked, and placed in a slot, opening it when needed. -/
  | cwrite (port : Nat) (p : Packet)
  /-- CNODE (R127). A CNODE is consumed at its switch, checked, and placed in a slot as a kind-1 input. -/
  | cnode (port : Nat) (p : Packet)
  /-- MASK_READ_DONE (R302). The bulk read of a resident mask entry returns and the waiting opening input latches c and proceeds. -/
  | maskReadDone (k : Key) (ok : Bool)
  /-- PRESS_ADD (R126). A Press array performs a ready add of two sibling partials and forms their parent node. -/
  | pressAdd (array : Nat) (par : Parity)
  /-- ACCUM_ADD (R159). Once a block's tag settles at e minus 1, the root adds the epoch sum into the accumulator and sends a CRESULT or release. -/
  | accumAdd (group block : Nat)
  /-- CRESULT (R142). A CRESULT from the parent is accepted for a HELD slot, forwarded to the scope destinations and the slot freed. -/
  | cresult (port : Nat) (p : Packet)
  /-- FAILURE_STATUS (R165). A failing STATUS from the parent aborts the slot and is forwarded to every input destination of the scope. -/
  | failureStatus (port : Nat) (p : Packet)
  /-- ITEM_TIMEOUT (R167). An item held in flight for item_to without any status is re-sent and its timer restarted. -/
  | itemTimeout (core n : Nat)
  /-- GROUP_ENABLE (R123). A write of enable 1 starts scope validation, or returns a stopping group to service at once. -/
  | groupEnable (req group : Nat) (v : U64)
  /-- SCOPE_VALIDATION_DONE (R123). Scope validation ends and the group becomes enabled, or stays disabled with PRS_SCOPE_INVALID and PRS_SCOPE_ERR recorded. -/
  | scopeValidationDone (group : Nat)
  /-- GROUP_DISABLE (R147). A write of enable 0 stops new slots from opening, and enabled clears when the last slot frees. -/
  | groupDisable (req group : Nat) (v : U64)
  /-- EPOCH_CLOSE (R156). A GRP_CMD EPOCH_CLOSE request makes a boundary, defers it, or is counted as early. -/
  | epochClose (req group : Nat)
  /-- ACCUM_RELEASE (R161). A GRP_CMD ACCUM_RELEASE marks the next epoch as a release epoch. -/
  | accumRelease (req group : Nat)
  /-- MIGRATE (R178). A GRP_CMD MIGRATE is accepted and the Cellar copies the scope table and rank map to the new home, or it is ignored and counted. -/
  | migrate (req group qd : Nat)
  /-- MIGRATE_COPY_DONE (R178). The copy ends and home_qd, pgen and mig_busy change in one cycle. -/
  | migrateCopyDone (group : Nat)
  /-- SYNC_IN_EDGE (R156). A SYNC_IN rising edge acts as a boundary request for esrc groups, aligns gate cycles and drives a SYNC_OUT pulse. -/
  | syncInEdge
  /-- DEFERRED_BOUNDARY (R156). A group's age reaches epoch_min with early_pending set and the deferred boundary takes effect. -/
  | deferredBoundary (group : Nat)
  /-- EPOCH_MAX_TIMEOUT (R156). A group's age reaches epoch_max without a request and a boundary is forced and counted in timeout. -/
  | epochMaxTimeout (group : Nat)
  /-- CHAIN_START (R176). The chain engine takes a start from its queue when fewer than 256 chains run and runs its descriptors in turn. -/
  | chainStart (qd : Nat) (par : Parity)
  /-- CHAIN_SEND_DONE (R176). A chain SEND completes when its packet is in the replay store or discarded, and the chain follows next. -/
  | chainSendDone (chain : Nat)
  /-- VAT_START (R217). A write of VAT_START enters a start request in the Vat's start queue, or is discarded and counted when full. -/
  | vatStart (req vat desc : Nat)
  /-- PROGRAM_START (R218). The head start request starts on all its cores once they are IDLE, setting registers and binding queues. -/
  | programStart (vat : Nat)
  /-- CACHE_FILL_DONE (R211). An instruction cache or program cache line fill completes and fetch resumes, moving a STARTING core to RUNNING. -/
  | cacheFillDone (core : Nat) (par : Parity)
  /-- CACHE_INVALIDATE (R213). A write of VAT_CFG.inval invalidates the Vat's instruction and program caches while every core is IDLE. -/
  | cacheInvalidate (req vat : Nat) (v : U64)
  /-- INSTRUCTION_START (R201). An issued instruction starts once its queue, region and register holds have cleared. -/
  | instructionStart (core : Nat) (par : Parity)
  /-- INSTRUCTION_COMPLETE (R201). An instruction makes its last push or write, completes and frees its scoreboard entry. -/
  | instructionComplete (core : Nat)
  /-- BUDGET_EXHAUSTED (R220). A program's cycle budget runs out and its core takes a BUDGET exception. -/
  | budgetExhausted (core : Nat)
  /-- PROGRAM_END (R219). An ENDING core with every instruction complete and no item outstanding releases its state and becomes IDLE. -/
  | programEnd (core : Nat)
  /-- CORE_STOP (R221). A write of a VAT_CORE_CTRL stop bit raises STOPPED on a running core. -/
  | coreStop (req vat mask : Nat)
  /-- CORE_CLEAR (R218). A write of a VAT_CORE_CTRL clear bit returns a FAULTED core without outstanding items to IDLE. -/
  | coreClear (req vat mask : Nat)
  /-- INBOUND_DELIVERY (R191). A WRITE, SEND or SCOUNT to the switch is delivered into the STREAM_IN queue its inbound entry names, or discarded and counted. -/
  | inboundDelivery (port : Nat) (p : Packet)
  /-- SWAIT_WAKE (R215). The Cellar slice notifies a core that its sync object has reached the SWAIT value and the SWAIT completes. -/
  | swaitWake (core : Nat)
  /-- ADD (R241). Vector add of A and B into D. -/
  | cAdd (core : Nat) (w : CurdWord)
  /-- SUB (R241). Vector subtract of B from A into D. -/
  | cSub (core : Nat) (w : CurdWord)
  /-- MUL (R241). Vector multiply of A and B into D. -/
  | cMul (core : Nat) (w : CurdWord)
  /-- FMA (R241). Vector fused multiply-add A times B plus C with one rounding. -/
  | cFma (core : Nat) (w : CurdWord)
  /-- MAX (R242). Vector maximum of A and B. -/
  | cMax (core : Nat) (w : CurdWord)
  /-- MIN (R242). Vector minimum of A and B. -/
  | cMin (core : Nat) (w : CurdWord)
  /-- CMP (R242). Vector compare producing a mask. -/
  | cCmp (core : Nat) (w : CurdWord)
  /-- SEL (R242). Vector select of A or B by a mask. -/
  | cSel (core : Nat) (w : CurdWord)
  /-- CVT (R235). Vector conversion of A to D's format with one rounding. -/
  | cCvt (core : Nat) (w : CurdWord)
  /-- RSUM (R243). Canonical sum of each step's elements. -/
  | cRsum (core : Nat) (w : CurdWord)
  /-- RMAX (R243). Canonical maximum of each step's elements. -/
  | cRmax (core : Nat) (w : CurdWord)
  /-- EXP2 (R254). Special function 2 to the power A. -/
  | cExp2 (core : Nat) (w : CurdWord)
  /-- LOG2 (R254). Special function log2 of A. -/
  | cLog2 (core : Nat) (w : CurdWord)
  /-- RCP (R254). Special function reciprocal of A. -/
  | cRcp (core : Nat) (w : CurdWord)
  /-- RSQ (R254). Special function reciprocal square root of A. -/
  | cRsq (core : Nat) (w : CurdWord)
  /-- IADD (R241). Wrapping lane sum. -/
  | cIadd (core : Nat) (w : CurdWord)
  /-- ISUB (R241). Wrapping lane difference. -/
  | cIsub (core : Nat) (w : CurdWord)
  /-- AND (R241). Bitwise and of lanes. -/
  | cAnd (core : Nat) (w : CurdWord)
  /-- OR (R241). Bitwise or of lanes. -/
  | cOr (core : Nat) (w : CurdWord)
  /-- XOR (R241). Bitwise exclusive or of lanes. -/
  | cXor (core : Nat) (w : CurdWord)
  /-- SHL (R241). Lane shift left. -/
  | cShl (core : Nat) (w : CurdWord)
  /-- SHR (R241). Lane shift right, arithmetic or logical. -/
  | cShr (core : Nat) (w : CurdWord)
  /-- ICMP (R241). Integer lane compare producing a mask. -/
  | cIcmp (core : Nat) (w : CurdWord)
  /-- MOV (R241). Copies each vector to one or two destinations. -/
  | cMov (core : Nat) (w : CurdWord)
  /-- COMPACT (R241). Pushes the masked lanes packed and writes their count. -/
  | cCompact (core : Nat) (w : CurdWord)
  /-- GATH (R244). Gathers indexed records into D. -/
  | cGath (core : Nat) (w : CurdWord)
  /-- SCAT (R244). Scatters records to indexed addresses. -/
  | cScat (core : Nat) (w : CurdWord)
  /-- KEYX (R246). Order-preserving key transform of each lane. -/
  | cKeyx (core : Nat) (w : CurdWord)
  /-- SORTV (R247). Stable sort of the records of each vector. -/
  | cSortv (core : Nat) (w : CurdWord)
  /-- MERGE (R247). Merges two record streams by key with ties to A. -/
  | cMerge (core : Nat) (w : CurdWord)
  /-- NOP (R241). Does nothing. -/
  | cNop (core : Nat) (w : CurdWord)
  /-- ASEND (R248). Contributes blocks to a collective as a member rank, waiting on window and ring room. -/
  | cAsend (core : Nat) (w : CurdWord)
  /-- CPOP (R249). Pops the oldest completion record into four scalar registers, waiting while the ring is empty. -/
  | cCpop (core : Nat) (w : CurdWord)
  /-- SINC (R214). Increments a sync object. -/
  | cSinc (core : Nat) (w : CurdWord)
  /-- SWAIT (R215). Waits until a sync object's counter reaches a value. -/
  | cSwait (core : Nat) (w : CurdWord)
  /-- BARRIER (R209). Orders later instructions after every earlier one that names a masked queue. -/
  | cBarrier (core : Nat) (w : CurdWord)
  /-- OHDR (R250). Copies 64 bytes into a STREAM_OUT queue's header template. -/
  | cOhdr (core : Nat) (w : CurdWord)
  /-- END (R218). Ends the program and the core stops issuing. -/
  | cEnd (core : Nat) (w : CurdWord)
  /-- SADD (R241). Scalar add. -/
  | cSadd (core : Nat) (w : CurdWord)
  /-- SSUB (R241). Scalar subtract. -/
  | cSsub (core : Nat) (w : CurdWord)
  /-- SMUL (R241). Scalar multiply, low 64 bits. -/
  | cSmul (core : Nat) (w : CurdWord)
  /-- SAND (R241). Scalar and. -/
  | cSand (core : Nat) (w : CurdWord)
  /-- SOR (R241). Scalar or. -/
  | cSor (core : Nat) (w : CurdWord)
  /-- SXOR (R241). Scalar exclusive or. -/
  | cSxor (core : Nat) (w : CurdWord)
  /-- SSHL (R241). Scalar shift left. -/
  | cSshl (core : Nat) (w : CurdWord)
  /-- SSHR (R241). Scalar logical shift right. -/
  | cSshr (core : Nat) (w : CurdWord)
  /-- SSRA (R241). Scalar arithmetic shift right. -/
  | cSsra (core : Nat) (w : CurdWord)
  /-- SCEQ (R241). Scalar compare equal into a predicate. -/
  | cSceq (core : Nat) (w : CurdWord)
  /-- SCNE (R241). Scalar compare not equal into a predicate. -/
  | cScne (core : Nat) (w : CurdWord)
  /-- SCLTU (R241). Scalar unsigned less-than into a predicate. -/
  | cScltu (core : Nat) (w : CurdWord)
  /-- SCLTS (R241). Scalar signed less-than into a predicate. -/
  | cSclts (core : Nat) (w : CurdWord)
  /-- SCGEU (R241). Scalar unsigned greater-or-equal into a predicate. -/
  | cScgeu (core : Nat) (w : CurdWord)
  /-- SCGES (R241). Scalar signed greater-or-equal into a predicate. -/
  | cScges (core : Nat) (w : CurdWord)
  /-- SLD (R241). Scalar load of a u64 from local memory. -/
  | cSld (core : Nat) (w : CurdWord)
  /-- SST (R241). Scalar store of a u64 to local memory. -/
  | cSst (core : Nat) (w : CurdWord)
  /-- BR (R251). Branches to a word. -/
  | cBr (core : Nat) (w : CurdWord)
  /-- LOOP (R251). Decrements a register and branches while it is non-zero. -/
  | cLoop (core : Nat) (w : CurdWord)
  /-- SCYC (R241). Reads the cycles since the program started. -/
  | cScyc (core : Nat) (w : CurdWord)
  /-- AGATHER (R268). Library call that all-gathers every rank's stream in rank order to every member. -/
  | callAgather (core : Nat)
  /-- SORT (R272). Library call that sorts all records by (key, rank, index). -/
  | callSort (core : Nat)
  /-- FILTER (R273). Library call that passes records whose field satisfies a comparison. -/
  | callFilter (core : Nat)
  /-- TOPK (R274). Library call that outputs the first k records of the sort order. -/
  | callTopk (core : Nat)
  /-- DISPATCH (R276). Library call that sends token rows to the ranks serving their experts. -/
  | callDispatch (core : Nat)
  /-- COMBINE (R278). Library call that combines returned expert rows by gate in slot order. -/
  | callCombine (core : Nat)
  /-- LSEMERGE (R280). Library call that merges log-sum-exp partials along the canonical tree. -/
  | callLsemerge (core : Nat)
  /-- PGATHER (R281). Library call that gathers active blocks with a fast path for predicted ones. -/
  | callPgather (core : Nat)
  /-- SERVER_STOP (R258). A call block with prog 0x00 ends the library server with END. -/
  | serverStop (core : Nat)
  /-- LIBRARY_PACKET (R263). The intake core pops a delivered library packet and keeps or discards it, closing the call when streams complete. -/
  | libraryPacket (core : Nat)
  /-- CALL_LIMIT_EXPIRE (R265). A call's time limit expires and the call ends MISSING. -/
  | callLimitExpire (core : Nat)
  /-- PGATHER_RESERVE (R282). A PGATHER call's whole Cellar and whey reservations are granted after waiting and intake begins. -/
  | pgatherReserve (core : Nat)
  /-- ROW_SCALE (R307). Library row routine that scales each entry by its row factor. -/
  | rowScale (core : Nat) (rs : RowStream)
  /-- ROW_SUM (R307). Library row routine that forms a canonical sum per row over chunks. -/
  | rowSum (core : Nat) (rs : RowStream)
  /-- GATE_ENABLE (R319). A write of gate_en 1 validates the gate list and starts it, or raises GATE_INVALID. -/
  | gateEnable (req port : Nat) (v : U64)
  /-- GATE_DISABLE (R321). A write of gate_en 0 opens every gate in the next cycle. -/
  | gateDisable (req port : Nat) (v : U64)
  /-- GATE_ENTRY (R320). A gate entry's interval ends and the next entry's mask applies, starting a new gate cycle with its correction. -/
  | gateEntry (port : Nat)
  /-- BUFFER_ALLOCATE (R339). A waiting requester is served a Cellar buffer from its pool when allocation becomes possible. -/
  | bufferAllocate (qd pool : Nat)
  /-- CEL_IND_DATA_READ (R337). A read of CEL_IND_DATA returns the u64 at off and advances off when inc is 1. -/
  | celIndDataRead (req qd : Nat)
  /-- CEL_IND_DATA_WRITE (R337). A write of CEL_IND_DATA stores at off, or is discarded for sync, buffer, beyond-slice or locked scope-table offsets. -/
  | celIndDataWrite (req qd : Nat) (v : U64)
  /-- POOL_WRITE (R342). A write to CEL_POOL sets reserve and cap, or is discarded when inconsistent. -/
  | poolWrite (req qd pool : Nat) (v : U64)
  /-- OPEN_PAGES_WRITE (R342). A write to open_pages resizes the open and buffer areas, only while ports are down and pools empty. -/
  | openPagesWrite (req qd : Nat) (v : U64)
  /-- HBM_READ_DONE (R349). An HBM read returns, correcting, retrying or marking a line uncorrectable. -/
  | hbmReadDone (qd page line : Nat) (use : HbmUse) (outcome : EccOutcome)
  /-- SCRUB (R351). Every scrub_us a pseudo-channel reads its next line and writes back a corrected one. -/
  | scrub (stack pc : Nat) (outcome : EccOutcome)
  /-- TWIN_MODE_SET (R360). A non-zero write to TWN_CFG.mode sets the module's Twin role while state is OFF. -/
  | twinModeSet (req : Nat) (v : U64)
  /-- TWIN_UNPAIR (R360). A write of mode 0 returns the Twin state to OFF, releases held results and runs groups unpaired. -/
  | twinUnpair (req : Nat) (v : U64)
  /-- TAKEOVER (R373). TWN_CMD TAKEOVER makes the standby apply its log, serve alias_fid, send sweep statuses and become ACTIVE. -/
  | takeover (req : Nat)
  /-- SOLO (R364). TWN_CMD SOLO moves a PAIRED module to SOLO. -/
  | solo (req : Nat)
  /-- REJOIN (R364). TWN_CMD REJOIN with a HEART received returns the module to PAIRED. -/
  | rejoin (req : Nat)
  /-- HEART_TIMER (R364). Every hb_us the module sends a HEART to its twin. -/
  | heartTimer
  /-- HEART (R364). A HEART arrives, acknowledging entries and pairing an OFF module whose mode is set. -/
  | heart (port : Nat) (p : Packet)
  /-- DIGEST (R367). A twin DIGEST entry arrives and is compared with the root's own digest or held in the digest table. -/
  | digest (port : Nat) (p : Packet)
  /-- TWIN_CFG (R372). A CFG entry arrives and the standby applies the register write to its group table. -/
  | twinCfg (port : Nat) (p : Packet)
  /-- TWIN_EPOCH (R372). An EPOCH entry arrives and the standby applies the new cur_epoch. -/
  | twinEpoch (port : Nat) (p : Packet)
  /-- TWIN_OPEN (R372). An OPEN entry arrives and is kept in the mirrored log. -/
  | twinOpen (port : Nat) (p : Packet)
  /-- TWIN_DONE (R372). A DONE entry arrives, is kept in the mirrored log and written to the completion log. -/
  | twinDone (port : Nat) (p : Packet)
  /-- TWIN_ABORT (R369). An ABORT entry arrives and the root releases its held result for the key unverified. -/
  | twinAbort (port : Nat) (p : Packet)
  /-- TWIN_RESEND (R363). An entry unacknowledged after twice the mirror round trip is sent again. -/
  | twinResend
  /-- TWIN_LOST (R364). No TWIN packet arrives for lost_us and the twin is declared lost, raising TWN_LOST. -/
  | twinLost
  /-- DIG_WAIT_EXPIRE (R369). A twin digest has not arrived within dig_wait and the root releases the result unverified. -/
  | digWaitExpire (k : Key)
  /-- TALLY_ENTRY_CLOSE (R381). An open Tally entry reaches close_at and its record is written to the ring, or it stays open while the ring is full. -/
  | tallyEntryClose (subject cls : Nat)
  /-- TALLY_TAIL_WRITE (R382). A write of TLY_TAIL advances past read records, or is discarded when beyond head. -/
  | tallyTailWrite (req : Nat) (v : U64)
  /-- TALLY_SNAP (R385). A write of TLY_SNAP.snap copies every present port's telemetry in one cycle with one timestamp. -/
  | tallySnap (req : Nat)
  /-- VAT_BIST (R386). TLY_TEST kind 1 drains a Vat and runs its BIST. -/
  | vatBist (req : Nat) (v : U64)
  /-- PRESS_BIST (R386). TLY_TEST kind 2 drains a Press array and runs its BIST. -/
  | pressBist (req : Nat) (v : U64)
  /-- LANE_RECAL (R386). TLY_TEST kind 3 recalibrates a lane by lane request or in an idle window. -/
  | laneRecal (req : Nat) (v : U64)
  /-- BIST_DONE (R386). A BIST ends, reports PASS or FAIL and returns the unit to service. -/
  | bistDone (pass : Bool)
  /-- TEST_WAIT_EXPIRE (R386). The drain or idle wait of a test expires and the result is BUSY. -/
  | testWaitExpire
  /-- LANE_REQUEST (R387). A lane request write to PRT_LANE_REQ arrives and the module drops, parks, wakes or restores its end of the lane and answers. -/
  | laneRequest (port : Nat) (p : Packet)
  /-- LANE_REQ_TIMEOUT (R387). A lane request has no reply within 100 us and the port leaves the lane as it was. -/
  | laneReqTimeout (port : Nat)
  /-- RECAL_DONE (R387). A lane's recalibration ends and the lane is restored to striping. -/
  | recalDone (port lane : Nat)
  /-- IDLE_RECAL (R388). A single-lane port meets an idle window and recalibrates for at most 40 us. -/
  | idleRecal (port : Nat)
  /-- NORMAL_DELIVERY (R402). The EVC delivers its selected normal source as a machine external interrupt. -/
  | normalDelivery (core : Nat)
  /-- FAST_DELIVERY (R403). The EVC delivers its selected fast source to mftvec on the shadow bank. -/
  | fastDelivery (core : Nat)
  /-- EVC_DONE (R407). A write of EVC_DONE completes an in-service source, or counts a stray completion. -/
  | evcDone (req core src : Nat)
  /-- EVC_SSET (R400). A write of EVC_SSET sets a soft source, or counts soft_bad for a source below 512. -/
  | evcSset (req core src : Nat)
  /-- EVC_SCLR (R400). A write of EVC_SCLR clears a soft source. -/
  | evcSclr (req core src : Nat)
  /-- UNWIND (R408). A write of EVC_CTRL.unwind clears both slots and the order fault. -/
  | unwind (req core : Nat)
  /-- MRET_FAST (R404). An MRET with mfstat.active set returns from a fast handler to mfepc and the main bank. -/
  | mretFast (core : Nat)
  /-- WFI_WAKE (R406). A core in WFI resumes when any enabled source has a high level. -/
  | wfiWake (core : Nat)
  /-- CORE_RELEASE (R398). A write of EVC_CORE.hold 0 starts a Rind core in M-mode at rvec. -/
  | coreRelease (req core : Nat) (v : U64)
  /-- RIND_HOLD (R398). A write of EVC_CORE.hold 1 holds a Rind core in reset. -/
  | rindHold (req core : Nat) (v : U64)
  /-- AUTO_PARK (R412). A unit idle for its class's idle time is placed from GOLD into SLATE. -/
  | autoPark (unit : Nat)
  /-- WAKE_COMPLETE (R411). A unit finishes a power transition and reaches GOLD or SLATE, releasing traffic that waited for it. -/
  | wakeComplete (unit : Nat)
  /-- DARK_REQUEST (R414). A write of 1 to a PWR_DARK bit places an idle unit in DARK, or is counted in dark_refused. -/
  | darkRequest (req unit : Nat)
  /-- DARK_EXIT (R414). A write of 0 to a PWR_DARK bit brings a DARK unit to SLATE, retraining a stack. -/
  | darkExit (req unit : Nat)
  /-- LANE_PARK (R416). A port whose egress has been idle for park_us parks its next lane through a lane request. -/
  | lanePark (port : Nat)
  /-- AVS_UPDATE (R419). Every 1 ms the on-die monitors update rec_mv and temperature in PWR_AVS. -/
  | avsUpdate (qd mv temp : Nat)
  /-- PMBUS_GO (R423). A write of PWR_PMB_CMD.go starts a PMBus transaction, or is discarded while busy. -/
  | pmbusGo (req : Nat) (v : U64)
  /-- PMBUS_DONE (R423). A PMBus transaction ends, setting fail on error and raising PWR_PMB_DONE. -/
  | pmbusDone (ok : Bool) (data : Nat)
  /-- PMB_ALERT (R399). The PMBus alert input changes and EVC source 9 follows it. -/
  | pmbAlert (level : Bool)
  /-- PORESET_ASSERT (R455). PORESET_N goes low and every register takes its Reset value. -/
  | poresetAssert
  /-- PWRGOOD_FALL (R479). PWRGOOD goes low and the module acts as if PORESET_N were low. -/
  | pwrgoodFall
  /-- PORESET_RELEASE (R434). PORESET_N rises and Rennet runs the boot sequence from fuse load to releasing core 0. -/
  | poresetRelease (env : BootEnv)
  /-- SYSRESET_RELEASE (R481). SYSRESET_N rises, registers reset while HBM and alignment are kept, and Rennet restarts at step 5. -/
  | sysresetRelease (env : BootEnv)
  /-- PCIE_PERST_ASSERT (R482). PCIE_PERST_N goes low and the PCIe endpoint alone is reset and its path closed. -/
  | pciePerstAssert
  /-- PCIE_PERST_RELEASE (R482). PCIE_PERST_N rises and the PCIe endpoint becomes ready for configuration. -/
  | pciePerstRelease
  /-- PCIE_LINK (R458). The PCIe link state changes and the PCIe page raises PCIE_LINK. -/
  | pcieLink (up : Bool) (speed width : Nat)
  /-- PCIE_FLR (R458). A function-level reset is received and the PCIe page raises PCIE_FLR. -/
  | pcieFlr
  /-- THERM_TRIP (R488). A die sensor reaches 115 C or a stack 105 C and THERM_TRIP_N is pulled low until reset. -/
  | thermTrip (stack : Bool) (temp : Nat)
  /-- EXTEND (R440). RNT_CMD EXTEND extends measurement slot 4 to 7 with RNT_MEAS_IN. -/
  | extend (req : Nat) (v : U64)
  /-- ATTEST (R443). RNT_CMD ATTEST writes a dual-signed attestation report over the nonce. -/
  | attest (req : Nat) (v : U64)
  /-- UNLOCK (R446). RNT_CMD UNLOCK checks a debug token, grants its levels and draws a new nonce. -/
  | unlock (req : Nat) (v : U64)
  /-- SVN_ADV (R444). RNT_CMD SVN_ADV blows rollback fuses up to arg, or is refused. -/
  | svnAdv (req : Nat) (v : U64)
  /-- REVOKE (R444). RNT_CMD REVOKE blows a key slot's revoke bit, or is refused for the running key. -/
  | revoke (req : Nat) (v : U64)
  /-- REC_GO (R435). RNT_CMD REC_GO runs boot steps 6 to 11 on the recovery image in QD0 page 0. -/
  | recGo (req : Nat) (v : U64)
  /-- REC_DATA (R447). A write of RNT_REC_DATA appends 8 recovery bytes while recovery is open. -/
  | recData (req : Nat) (v : U64)
  /-- RENNET_CMD_DONE (R441). A Rennet command ends, clearing busy and raising its done event. -/
  | rennetCmdDone (bodyOk : Bool)
  /-- XSPI_READ (R468). RNT_XSPI_CMD op 1 reads flash bytes into the transfer buffer. -/
  | xspiRead (req : Nat) (v : U64)
  /-- XSPI_PROGRAM (R431). RNT_XSPI_CMD op 2 programs flash bytes, refused in the identity region. -/
  | xspiProgram (req : Nat) (v : U64)
  /-- XSPI_ERASE (R431). RNT_XSPI_CMD op 3 erases 4 KiB of flash, refused in the identity region. -/
  | xspiErase (req : Nat) (v : U64)
  /-- XSPI_DONE (R468). An xSPI transfer completes, clearing busy and raising DONE. -/
  | xspiDone
  /-- I3C_PRIVATE_WRITE (R468). An I3C private write writes 8 bytes at a BAR offset. -/
  | i3cPrivateWrite (target addr : Nat) (v : U64)
  /-- I3C_PRIVATE_READ (R468). An I3C private read returns 8 bytes from the offset last written. -/
  | i3cPrivateRead (target : Nat)
  /-- I3C_DYNAMIC_ADDRESS (R468). The board controller assigns the I3C target a dynamic address. -/
  | i3cDynamicAddress (da : Nat)
  /-- MGMT_PORT_FRAME (R468). The management port receives or sends a frame through the firmware descriptor rings and raises DONE. -/
  | mgmtPortFrame (received : Bool) (frame : List Byte)
  /-- JTAG_ACCESS (R498). A JTAG register access is served when debug level 1 is granted, and reads 0 otherwise. -/
  | jtagAccess (isWrite : Bool) (addr : Nat) (v : U64)
  /-- PWRGOOD_RISE (R479). PWRGOOD goes high while PORESET_N is high and the module leaves the reset state it held while PWRGOOD was low. -/
  | pwrgoodRise (env : BootEnv)
  /-- SYSRESET_ASSERT (R481). SYSRESET_N goes low while PORESET_N and PWRGOOD are high, interrupting any boot in progress until it rises again. -/
  | sysresetAssert
  /-- SYNCHRONOUS_EXCEPTION (R405). A synchronous exception taken while mfstat.active is 1 goes through mtvec with the shadow bank still live and overwrites mepc and mcause. -/
  | synchronousException (core cause : Nat) (tval : U64)
deriving DecidableEq, Repr

end Sys2Proof
end

