-- ==== Sys2Proof/WellFormed.lean ====
section
/-!
DEFINITION. Which commands are well formed: every operand in the range that its field has in the spec. `exec` is total on
every command, well formed or not; the statements name the operand ranges they need.
-/
namespace Sys2Proof

/-- A requester number of R341, R380 and R453. -/
def reqOk (r : Nat) : Bool := decide (r < 1688)

/-- The BAR address of a block page (R448, R449). -/
def pageOk (a : Nat) : Bool :=
  decide (a % 0x1000 = 0) &&
    ((decide (a < 0x0F000000) && decide (a % 0x4000000 < 0xA0000)) || (decide (0x0F000000 ≤ a) && decide (a < 0x0F00A000)))

/-- A power-managed unit: Press arrays 0-31, Vats 32-63, stacks 64-83, Rind cores 96-111, pseudo-channels 128-767,
lanes 1,024-1,535. -/
def unitOk (u : Nat) : Bool :=
  decide (u < 84) || (decide (96 ≤ u) && decide (u < 112)) || (decide (128 ≤ u) && decide (u < 768))
    || (decide (1024 ≤ u) && decide (u < 1536))

def keyOk (k : Key) : Bool :=
  decide (k.group < 4096) && decide (k.epoch < 65536) && decide (k.window < 1024) && decide (k.block < 2 ^ 24)

def extOk (e : ExtHdr) : Bool :=
  decide (e.group < 4096) && decide (e.epoch < 65536) && decide (e.window < 1024) && decide (e.block < 2 ^ 24)
    && decide (e.accFmt < 4) && decide (e.lo < 2 ^ 17) && decide (e.hiIncl < 2 ^ 17) && decide (e.pgen < 16)
    && decide (e.wfmt < 16) && decide (e.rfmt < 16) && decide (e.spfmt < 4) && decide (e.rsvA < 8)
    && decide (e.status < 256) && decide (e.nelem < 65536) && decide (e.cNan < 256) && decide (e.cInf < 256)
    && decide (e.cRsv < 256) && decide (e.cScale < 256) && decide (e.cSat < 256) && decide (e.rsvB < 256)
    && decide (e.digest < 2 ^ 64)

/-- Every field of the common header in its width, and the payload as long as plen says when plen is at most 4,096. -/
def packetOk (p : Packet) : Bool :=
  decide (p.ver < 16) && decide (p.ptype < 16) && decide (p.vc < 8) && decide (p.tc < 8) && decide (p.ttl < 64)
    && decide (p.plen < 8192) && decide (p.rsv0 < 8) && decide (p.dst < 2 ^ 20) && decide (p.rsv1 < 16)
    && decide (p.src < 2 ^ 20) && decide (p.seq < 2 ^ 24) && decide (p.tag < 65536) && decide (p.rsv2 < 16)
    && decide (p.addr < 2 ^ 56) && decide (p.rsv3 < 256) && decide (p.linkSeq < 2 ^ 24) && decide (p.rsv4 < 256)
    && decide (p.crc < 2 ^ 32) && decide (p.payload.length = p.plen)
    && (match p.ext with | some e => extOk e | none => true)

def lctlOk (f : Lctl) : Bool :=
  decide (f.ver < 16) && decide (f.ptype < 16) && decide (f.kind < 256) && decide (f.rsv < 65536)
    && decide (f.ackSeq < 2 ^ 24) && decide (f.rsv2 < 256) && decide (f.credit.length = 7)
    && f.credit.all (fun c => decide (c < 2 ^ 32)) && decide (f.body.length = 24) && decide (f.lcrc < 2 ^ 32)

def ethOk (f : EthFrame) : Bool :=
  decide (f.dmac < 2 ^ 48) && decide (f.smac < 2 ^ 48) && decide (f.etype < 65536)
    && (match f.tag with | some t => decide (t.1 < 8) && decide (t.2 < 4096) | none => true)

/-- Every field of an instruction word in its width (R225). -/
def curdOk (w : CurdWord) : Bool :=
  decide (w.pr < 8) && decide (w.pn < 2) && decide (w.rep < 65536) && decide (w.afmt < 4) && decide (w.sa < 2048)
    && decide (w.sb < 2048) && decide (w.sc < 2048) && decide (w.dd < 2048) && decide (w.de < 2048)
    && decide (w.rd < 32) && decide (w.rs1 < 32) && decide (w.rs2 < 32) && decide (w.rg0 < 2 ^ 23)
    && decide (w.rg1 < 2 ^ 23) && decide (w.rg2 < 2 ^ 23) && decide (w.rg3 < 2 ^ 23) && decide (w.imm < 2 ^ 64)

def rowsOk (r : RowStream) : Bool :=
  decide (r.fmt < 3) && decide (r.space < 3) && decide (r.qd < 4) && decide (r.dirOff < 2 ^ 38) && decide (r.valOff < 2 ^ 38)
    && decide (r.facOff < 2 ^ 38) && decide (r.outOff < 2 ^ 38)

/-- Every operand of a command in its range. -/
def Instr.wf : Instr → Bool
  | .registerWrite req addr _ => reqOk req && decide (addr < 2 ^ 28)
  | .unalignedAccess req addr size _ => reqOk req && decide (addr < 2 ^ 28) && decide (size < 9)
  | .counterClear req addr _ => reqOk req && decide (addr < 2 ^ 28)
  | .errCntClear req page => reqOk req && pageOk page
  | .eventTest req page _ => reqOk req && pageOk page
  | .blockReset req page => reqOk req && pageOk page
  | .unitEnable req page => reqOk req && pageOk page
  | .drainUnit req page => reqOk req && pageOk page
  | .drainCancel req page => reqOk req && pageOk page
  | .forcedDisable req page => reqOk req && pageOk page
  | .portUpReq req lane _ => reqOk req && decide (lane < 512)
  | .portDownReq req lane _ => reqOk req && decide (lane < 512)
  | .pmdTrainingDone port _ => decide (port < 512)
  | .fecLock port => decide (port < 512)
  | .helloTimer port => decide (port < 512)
  | .helloFrame port f => decide (port < 512) && lctlOk f.it
  | .echoReqFrame port f => decide (port < 512) && lctlOk f.it
  | .echoRspFrame port f => decide (port < 512) && lctlOk f.it
  | .bringupStepTimeout port => decide (port < 512)
  | .bringupRetry port => decide (port < 512)
  | .stateFrame port f => decide (port < 512) && lctlOk f.it
  | .stateSend port => decide (port < 512)
  | .packetArrive port _ _ p => decide (port < 512) && packetOk p
  | .nakTimerExpire port => decide (port < 512)
  | .nakFrame port f => decide (port < 512) && lctlOk f.it
  | .replayDone port => decide (port < 512)
  | .ackTimerExpire port => decide (port < 512)
  | .lctlSilenceTimeout port => decide (port < 512)
  | .downFrame port f => decide (port < 512) && lctlOk f.it
  | .lrefclkLoss clock => decide (clock < 32)
  | .creditGrant port vc => decide (port < 512) && decide (vc < 7)
  | .switchEntry unit vc _ _ => reqOk unit && decide (vc < 7)
  | .packetSend port _ => decide (port < 512)
  | .replayCopyDone port => decide (port < 512)
  | .mgmtRead port p => reqOk port && packetOk p
  | .mgmtWrite port p => reqOk port && packetOk p
  | .responseDelivery port p => reqOk port && packetOk p
  | .portSnapshot req port => reqOk req && decide (port < 512)
  | .telemetryClear req port => reqOk req && decide (port < 512)
  | .highWaterReset req port vc => reqOk req && decide (port < 512) && decide (vc < 7)
  | .ethernetFrame port f => decide (port < 512) && ethOk f.it
  | .macAgeOut vid mac => decide (vid < 4096) && decide (mac < 2 ^ 48)
  | .pfcFrame port prio quanta => decide (port < 512) && decide (prio < 8) && decide (quanta.it < 65536)
  | .pfcPauseExpire port prio => decide (port < 512) && decide (prio < 8)
  | .pfcRefresh port prio => decide (port < 512) && decide (prio < 8)
  | .cdnPauseLimit port => decide (port < 512)
  | .cwrite port p => reqOk port && packetOk p
  | .cnode port p => reqOk port && packetOk p
  | .maskReadDone k _ => keyOk k
  | .pressAdd array _ => decide (array < 32)
  | .accumAdd group block => decide (group < 4096) && decide (block < 2 ^ 24)
  | .cresult port p => reqOk port && packetOk p
  | .failureStatus port p => reqOk port && packetOk p
  | .itemTimeout core _ => decide (core < 256)
  | .groupEnable req group _ => reqOk req && decide (group < 4096)
  | .scopeValidationDone group => decide (group < 4096)
  | .groupDisable req group _ => reqOk req && decide (group < 4096)
  | .epochClose req group => reqOk req && decide (group < 4096)
  | .accumRelease req group => reqOk req && decide (group < 4096)
  | .migrate req group qd => reqOk req && decide (group < 4096) && decide (qd < 4)
  | .migrateCopyDone group => decide (group < 4096)
  | .syncInEdge => true
  | .deferredBoundary group => decide (group < 4096)
  | .epochMaxTimeout group => decide (group < 4096)
  | .chainStart qd _ => decide (qd < 4)
  | .chainSendDone _ => true
  | .vatStart req vat desc => reqOk req && decide (vat < 32) && decide (desc < 2 ^ 24)
  | .programStart vat => decide (vat < 32)
  | .cacheFillDone core _ => decide (core < 256)
  | .cacheInvalidate req vat _ => reqOk req && decide (vat < 32)
  | .instructionStart core _ => decide (core < 256)
  | .instructionComplete core => decide (core < 256)
  | .budgetExhausted core => decide (core < 256)
  | .programEnd core => decide (core < 256)
  | .coreStop req vat mask => reqOk req && decide (vat < 32) && decide (mask < 256)
  | .coreClear req vat mask => reqOk req && decide (vat < 32) && decide (mask < 256)
  | .inboundDelivery port p => reqOk port && packetOk p
  | .swaitWake core => decide (core < 256)
  | .cAdd core w => decide (core < 256) && curdOk w
  | .cSub core w => decide (core < 256) && curdOk w
  | .cMul core w => decide (core < 256) && curdOk w
  | .cFma core w => decide (core < 256) && curdOk w
  | .cMax core w => decide (core < 256) && curdOk w
  | .cMin core w => decide (core < 256) && curdOk w
  | .cCmp core w => decide (core < 256) && curdOk w
  | .cSel core w => decide (core < 256) && curdOk w
  | .cCvt core w => decide (core < 256) && curdOk w
  | .cRsum core w => decide (core < 256) && curdOk w
  | .cRmax core w => decide (core < 256) && curdOk w
  | .cExp2 core w => decide (core < 256) && curdOk w
  | .cLog2 core w => decide (core < 256) && curdOk w
  | .cRcp core w => decide (core < 256) && curdOk w
  | .cRsq core w => decide (core < 256) && curdOk w
  | .cIadd core w => decide (core < 256) && curdOk w
  | .cIsub core w => decide (core < 256) && curdOk w
  | .cAnd core w => decide (core < 256) && curdOk w
  | .cOr core w => decide (core < 256) && curdOk w
  | .cXor core w => decide (core < 256) && curdOk w
  | .cShl core w => decide (core < 256) && curdOk w
  | .cShr core w => decide (core < 256) && curdOk w
  | .cIcmp core w => decide (core < 256) && curdOk w
  | .cMov core w => decide (core < 256) && curdOk w
  | .cCompact core w => decide (core < 256) && curdOk w
  | .cGath core w => decide (core < 256) && curdOk w
  | .cScat core w => decide (core < 256) && curdOk w
  | .cKeyx core w => decide (core < 256) && curdOk w
  | .cSortv core w => decide (core < 256) && curdOk w
  | .cMerge core w => decide (core < 256) && curdOk w
  | .cNop core w => decide (core < 256) && curdOk w
  | .cAsend core w => decide (core < 256) && curdOk w
  | .cCpop core w => decide (core < 256) && curdOk w
  | .cSinc core w => decide (core < 256) && curdOk w
  | .cSwait core w => decide (core < 256) && curdOk w
  | .cBarrier core w => decide (core < 256) && curdOk w
  | .cOhdr core w => decide (core < 256) && curdOk w
  | .cEnd core w => decide (core < 256) && curdOk w
  | .cSadd core w => decide (core < 256) && curdOk w
  | .cSsub core w => decide (core < 256) && curdOk w
  | .cSmul core w => decide (core < 256) && curdOk w
  | .cSand core w => decide (core < 256) && curdOk w
  | .cSor core w => decide (core < 256) && curdOk w
  | .cSxor core w => decide (core < 256) && curdOk w
  | .cSshl core w => decide (core < 256) && curdOk w
  | .cSshr core w => decide (core < 256) && curdOk w
  | .cSsra core w => decide (core < 256) && curdOk w
  | .cSceq core w => decide (core < 256) && curdOk w
  | .cScne core w => decide (core < 256) && curdOk w
  | .cScltu core w => decide (core < 256) && curdOk w
  | .cSclts core w => decide (core < 256) && curdOk w
  | .cScgeu core w => decide (core < 256) && curdOk w
  | .cScges core w => decide (core < 256) && curdOk w
  | .cSld core w => decide (core < 256) && curdOk w
  | .cSst core w => decide (core < 256) && curdOk w
  | .cBr core w => decide (core < 256) && curdOk w
  | .cLoop core w => decide (core < 256) && curdOk w
  | .cScyc core w => decide (core < 256) && curdOk w
  | .callAgather core => decide (core < 256)
  | .callSort core => decide (core < 256)
  | .callFilter core => decide (core < 256)
  | .callTopk core => decide (core < 256)
  | .callDispatch core => decide (core < 256)
  | .callCombine core => decide (core < 256)
  | .callLsemerge core => decide (core < 256)
  | .callPgather core => decide (core < 256)
  | .serverStop core => decide (core < 256)
  | .libraryPacket core => decide (core < 256)
  | .callLimitExpire core => decide (core < 256)
  | .pgatherReserve core => decide (core < 256)
  | .rowScale core rs => decide (core < 256) && rowsOk rs
  | .rowSum core rs => decide (core < 256) && rowsOk rs
  | .gateEnable req port _ => reqOk req && decide (port < 512)
  | .gateDisable req port _ => reqOk req && decide (port < 512)
  | .gateEntry port => decide (port < 512)
  | .bufferAllocate qd pool => decide (qd < 4) && decide (pool < 7)
  | .celIndDataRead req qd => reqOk req && decide (qd < 4)
  | .celIndDataWrite req qd _ => reqOk req && decide (qd < 4)
  | .poolWrite req qd pool _ => reqOk req && decide (qd < 4) && decide (pool < 7)
  | .openPagesWrite req qd _ => reqOk req && decide (qd < 4)
  | .hbmReadDone qd page line _ _ => decide (qd < 4) && decide (page < 2 ^ 26) && decide (line < 64)
  | .scrub stack pc _ => decide (stack < 20) && decide (pc < 32)
  | .twinModeSet req _ => reqOk req
  | .twinUnpair req _ => reqOk req
  | .takeover req => reqOk req
  | .solo req => reqOk req
  | .rejoin req => reqOk req
  | .heartTimer => true
  | .heart port p => reqOk port && packetOk p
  | .digest port p => reqOk port && packetOk p
  | .twinCfg port p => reqOk port && packetOk p
  | .twinEpoch port p => reqOk port && packetOk p
  | .twinOpen port p => reqOk port && packetOk p
  | .twinDone port p => reqOk port && packetOk p
  | .twinAbort port p => reqOk port && packetOk p
  | .twinResend => true
  | .twinLost => true
  | .digWaitExpire k => keyOk k
  | .tallyEntryClose subject cls => decide (subject < 2 ^ 20) && decide (cls < 256)
  | .tallyTailWrite req _ => reqOk req
  | .tallySnap req => reqOk req
  | .vatBist req _ => reqOk req
  | .pressBist req _ => reqOk req
  | .laneRecal req _ => reqOk req
  | .bistDone _ => true
  | .testWaitExpire => true
  | .laneRequest port p => decide (port < 512) && packetOk p
  | .laneReqTimeout port => decide (port < 512)
  | .recalDone port lane => decide (port < 512) && decide (lane < 8)
  | .idleRecal port => decide (port < 512)
  | .normalDelivery core => decide (core < 16)
  | .fastDelivery core => decide (core < 16)
  | .evcDone req core src => reqOk req && decide (core < 16) && decide (src < 1024)
  | .evcSset req core src => reqOk req && decide (core < 16) && decide (src < 1024)
  | .evcSclr req core src => reqOk req && decide (core < 16) && decide (src < 1024)
  | .unwind req core => reqOk req && decide (core < 16)
  | .mretFast core => decide (core < 16)
  | .wfiWake core => decide (core < 16)
  | .coreRelease req core _ => reqOk req && decide (core < 16)
  | .rindHold req core _ => reqOk req && decide (core < 16)
  | .autoPark unit => unitOk unit
  | .wakeComplete unit => unitOk unit
  | .darkRequest req unit => reqOk req && unitOk unit
  | .darkExit req unit => reqOk req && unitOk unit
  | .lanePark port => decide (port < 512)
  | .avsUpdate qd mv temp => decide (qd < 4) && decide (mv < 4096) && decide (temp < 256)
  | .pmbusGo req _ => reqOk req
  | .pmbusDone _ data => decide (data < 65536)
  | .pmbAlert _ => true
  | .poresetAssert => true
  | .pwrgoodFall => true
  | .poresetRelease _ => true
  | .sysresetRelease _ => true
  | .pciePerstAssert => true
  | .pciePerstRelease => true
  | .pcieLink _ speed width => decide (speed < 7) && decide (width < 9)
  | .pcieFlr => true
  | .thermTrip _ temp => decide (temp < 256)
  | .extend req _ => reqOk req
  | .attest req _ => reqOk req
  | .unlock req _ => reqOk req
  | .svnAdv req _ => reqOk req
  | .revoke req _ => reqOk req
  | .recGo req _ => reqOk req
  | .recData req _ => reqOk req
  | .rennetCmdDone _ => true
  | .xspiRead req _ => reqOk req
  | .xspiProgram req _ => reqOk req
  | .xspiErase req _ => reqOk req
  | .xspiDone => true
  | .i3cPrivateWrite target addr _ => decide (target < 128) && decide (addr < 2 ^ 28)
  | .i3cPrivateRead target => decide (target < 128)
  | .i3cDynamicAddress da => decide (da < 128)
  | .mgmtPortFrame _ frame => decide (frame.length ≤ 9216)
  | .jtagAccess _ addr _ => decide (addr < 2 ^ 28)
  | .pwrgoodRise _ => true
  | .sysresetAssert => true
  | .synchronousException core cause _ => decide (core < 16) && decide (cause < 64)

end Sys2Proof
end

