-- ==== Sys2Proof/Decode.lean ====
section
/-!
DEFINITION. What the encodings of the spec spell. The rows of spec/opcode_table.json give no bits, so `decodeTableWord`
answers none for every word. The Curd instruction word of R225 is the one encoding of commands that the spec prints: its
fields are read and written here, and the opcode tables of R241 chooses the constructor.
-/
namespace Sys2Proof

/-- The command that a word spells by the opcode table's bits: the table gives no row any bits. -/
def decodeTableWord (_nbits _w : Nat) : Option Instr := none

/-- The field of `n` bits at bit `l` of a 256-bit instruction word. -/
def bitsAt (x l n : Nat) : Nat := x / 2 ^ l % 2 ^ n

/-- The fields of an instruction word (R225). -/
def curdFields (x : Nat) : CurdWord :=
  { pr := bitsAt x 8 3, pn := bitsAt x 11 1, rep := bitsAt x 12 16, afmt := bitsAt x 28 2, sa := bitsAt x 30 11,
    sb := bitsAt x 41 11, sc := bitsAt x 52 11, dd := bitsAt x 63 11, de := bitsAt x 74 11, rd := bitsAt x 85 5,
    rs1 := bitsAt x 90 5, rs2 := bitsAt x 95 5, rg0 := bitsAt x 100 23, rg1 := bitsAt x 123 23,
    rg2 := bitsAt x 146 23, rg3 := bitsAt x 169 23, imm := bitsAt x 192 64 }

/-- The 256-bit word of an opcode and its fields (R225). -/
def curdBits (op : Nat) (w : CurdWord) : Nat :=
  op + w.pr * 2 ^ 8 + w.pn * 2 ^ 11 + w.rep * 2 ^ 12 + w.afmt * 2 ^ 28 + w.sa * 2 ^ 30 + w.sb * 2 ^ 41 + w.sc * 2 ^ 52
    + w.dd * 2 ^ 63 + w.de * 2 ^ 74 + w.rd * 2 ^ 85 + w.rs1 * 2 ^ 90 + w.rs2 * 2 ^ 95 + w.rg0 * 2 ^ 100
    + w.rg1 * 2 ^ 123 + w.rg2 * 2 ^ 146 + w.rg3 * 2 ^ 169 + w.imm * 2 ^ 192

/-- The instruction of an opcode (R241); `none` for a reserved opcode. -/
def curdInstr (core op : Nat) (w : CurdWord) : Option Instr :=
  match op with
  | 0x10 => some (.cAdd core w)
  | 0x11 => some (.cSub core w)
  | 0x12 => some (.cMul core w)
  | 0x13 => some (.cFma core w)
  | 0x14 => some (.cMax core w)
  | 0x15 => some (.cMin core w)
  | 0x16 => some (.cCmp core w)
  | 0x17 => some (.cSel core w)
  | 0x18 => some (.cCvt core w)
  | 0x19 => some (.cRsum core w)
  | 0x1A => some (.cRmax core w)
  | 0x1B => some (.cExp2 core w)
  | 0x1C => some (.cLog2 core w)
  | 0x1D => some (.cRcp core w)
  | 0x1E => some (.cRsq core w)
  | 0x20 => some (.cIadd core w)
  | 0x21 => some (.cIsub core w)
  | 0x22 => some (.cAnd core w)
  | 0x23 => some (.cOr core w)
  | 0x24 => some (.cXor core w)
  | 0x25 => some (.cShl core w)
  | 0x26 => some (.cShr core w)
  | 0x27 => some (.cIcmp core w)
  | 0x28 => some (.cMov core w)
  | 0x29 => some (.cCompact core w)
  | 0x2A => some (.cGath core w)
  | 0x2B => some (.cScat core w)
  | 0x30 => some (.cKeyx core w)
  | 0x31 => some (.cSortv core w)
  | 0x32 => some (.cMerge core w)
  | 0x00 => some (.cNop core w)
  | 0x40 => some (.cAsend core w)
  | 0x41 => some (.cCpop core w)
  | 0x42 => some (.cSinc core w)
  | 0x43 => some (.cSwait core w)
  | 0x44 => some (.cBarrier core w)
  | 0x45 => some (.cOhdr core w)
  | 0x46 => some (.cEnd core w)
  | 0x50 => some (.cSadd core w)
  | 0x51 => some (.cSsub core w)
  | 0x52 => some (.cSmul core w)
  | 0x53 => some (.cSand core w)
  | 0x54 => some (.cSor core w)
  | 0x55 => some (.cSxor core w)
  | 0x56 => some (.cSshl core w)
  | 0x57 => some (.cSshr core w)
  | 0x58 => some (.cSsra core w)
  | 0x59 => some (.cSceq core w)
  | 0x5A => some (.cScne core w)
  | 0x5B => some (.cScltu core w)
  | 0x5C => some (.cSclts core w)
  | 0x5D => some (.cScgeu core w)
  | 0x5E => some (.cScges core w)
  | 0x60 => some (.cSld core w)
  | 0x61 => some (.cSst core w)
  | 0x68 => some (.cBr core w)
  | 0x69 => some (.cLoop core w)
  | 0x6A => some (.cScyc core w)
  | _ => none

/-- The instruction that a 256-bit word spells for a core. -/
def decodeCurd (core x : Nat) : Option Instr := curdInstr core (bitsAt x 0 8) (curdFields x)

/-- The word of a Curd instruction; `none` for every other command. -/
def encodeCurd : Instr → Option Nat
  | .cAdd _ w => some (curdBits 0x10 w)
  | .cSub _ w => some (curdBits 0x11 w)
  | .cMul _ w => some (curdBits 0x12 w)
  | .cFma _ w => some (curdBits 0x13 w)
  | .cMax _ w => some (curdBits 0x14 w)
  | .cMin _ w => some (curdBits 0x15 w)
  | .cCmp _ w => some (curdBits 0x16 w)
  | .cSel _ w => some (curdBits 0x17 w)
  | .cCvt _ w => some (curdBits 0x18 w)
  | .cRsum _ w => some (curdBits 0x19 w)
  | .cRmax _ w => some (curdBits 0x1A w)
  | .cExp2 _ w => some (curdBits 0x1B w)
  | .cLog2 _ w => some (curdBits 0x1C w)
  | .cRcp _ w => some (curdBits 0x1D w)
  | .cRsq _ w => some (curdBits 0x1E w)
  | .cIadd _ w => some (curdBits 0x20 w)
  | .cIsub _ w => some (curdBits 0x21 w)
  | .cAnd _ w => some (curdBits 0x22 w)
  | .cOr _ w => some (curdBits 0x23 w)
  | .cXor _ w => some (curdBits 0x24 w)
  | .cShl _ w => some (curdBits 0x25 w)
  | .cShr _ w => some (curdBits 0x26 w)
  | .cIcmp _ w => some (curdBits 0x27 w)
  | .cMov _ w => some (curdBits 0x28 w)
  | .cCompact _ w => some (curdBits 0x29 w)
  | .cGath _ w => some (curdBits 0x2A w)
  | .cScat _ w => some (curdBits 0x2B w)
  | .cKeyx _ w => some (curdBits 0x30 w)
  | .cSortv _ w => some (curdBits 0x31 w)
  | .cMerge _ w => some (curdBits 0x32 w)
  | .cNop _ w => some (curdBits 0x00 w)
  | .cAsend _ w => some (curdBits 0x40 w)
  | .cCpop _ w => some (curdBits 0x41 w)
  | .cSinc _ w => some (curdBits 0x42 w)
  | .cSwait _ w => some (curdBits 0x43 w)
  | .cBarrier _ w => some (curdBits 0x44 w)
  | .cOhdr _ w => some (curdBits 0x45 w)
  | .cEnd _ w => some (curdBits 0x46 w)
  | .cSadd _ w => some (curdBits 0x50 w)
  | .cSsub _ w => some (curdBits 0x51 w)
  | .cSmul _ w => some (curdBits 0x52 w)
  | .cSand _ w => some (curdBits 0x53 w)
  | .cSor _ w => some (curdBits 0x54 w)
  | .cSxor _ w => some (curdBits 0x55 w)
  | .cSshl _ w => some (curdBits 0x56 w)
  | .cSshr _ w => some (curdBits 0x57 w)
  | .cSsra _ w => some (curdBits 0x58 w)
  | .cSceq _ w => some (curdBits 0x59 w)
  | .cScne _ w => some (curdBits 0x5A w)
  | .cScltu _ w => some (curdBits 0x5B w)
  | .cSclts _ w => some (curdBits 0x5C w)
  | .cScgeu _ w => some (curdBits 0x5D w)
  | .cScges _ w => some (curdBits 0x5E w)
  | .cSld _ w => some (curdBits 0x60 w)
  | .cSst _ w => some (curdBits 0x61 w)
  | .cBr _ w => some (curdBits 0x68 w)
  | .cLoop _ w => some (curdBits 0x69 w)
  | .cScyc _ w => some (curdBits 0x6A w)
  | _ => none

end Sys2Proof
end

