-- ==== Sys2Proof/Machine/Hash.lean ====
section
/-!
DEFINITION. The hash functions that 14_boot_and_security.md names by their standards, written from those standards: SHA-256,
SHA-384 and SHA-512 (FIPS 180-4), HMAC (RFC 2104), HKDF-SHA-384 (RFC 5869) and MGF1 (RFC 8017). Octet strings are lists of
bytes, and integers in them are big-endian.
-/
namespace Sys2Proof.Machine

/-! ### Octet strings -/

/-- The integer of a big-endian octet string. -/
def beVal (bs : List Byte) : Nat := bs.foldl (fun a b => a * 256 + b.toNat) 0

/-- The big-endian octet string of `n` bytes of an integer. -/
def beBytes (n v : Nat) : List Byte := (List.range n).map (fun i => BitVec.ofNat 8 (v / 256 ^ (n - 1 - i)))

/-- The bytes of an ASCII string. -/
def asciiBytes (t : String) : List Byte := t.toList.map (fun c => BitVec.ofNat 8 c.toNat)

def xorBytes (a b : List Byte) : List Byte := List.zipWith (fun x y => x ^^^ y) a b

/-! ### SHA-2 (FIPS 180-4) -/

/-- The first 64 fraction bits of the cube roots of the first 80 primes (FIPS 180-4). -/
def cubeRoots : List Nat :=
  [0x428A2F98D728AE22, 0x7137449123EF65CD, 0xB5C0FBCFEC4D3B2F, 0xE9B5DBA58189DBBC,
      0x3956C25BF348B538, 0x59F111F1B605D019, 0x923F82A4AF194F9B, 0xAB1C5ED5DA6D8118,
      0xD807AA98A3030242, 0x12835B0145706FBE, 0x243185BE4EE4B28C, 0x550C7DC3D5FFB4E2,
      0x72BE5D74F27B896F, 0x80DEB1FE3B1696B1, 0x9BDC06A725C71235, 0xC19BF174CF692694,
      0xE49B69C19EF14AD2, 0xEFBE4786384F25E3, 0x0FC19DC68B8CD5B5, 0x240CA1CC77AC9C65]
    ++ [0x2DE92C6F592B0275, 0x4A7484AA6EA6E483, 0x5CB0A9DCBD41FBD4, 0x76F988DA831153B5,
      0x983E5152EE66DFAB, 0xA831C66D2DB43210, 0xB00327C898FB213F, 0xBF597FC7BEEF0EE4,
      0xC6E00BF33DA88FC2, 0xD5A79147930AA725, 0x06CA6351E003826F, 0x142929670A0E6E70,
      0x27B70A8546D22FFC, 0x2E1B21385C26C926, 0x4D2C6DFC5AC42AED, 0x53380D139D95B3DF,
      0x650A73548BAF63DE, 0x766A0ABB3C77B2A8, 0x81C2C92E47EDAEE6, 0x92722C851482353B]
    ++ [0xA2BFE8A14CF10364, 0xA81A664BBC423001, 0xC24B8B70D0F89791, 0xC76C51A30654BE30,
      0xD192E819D6EF5218, 0xD69906245565A910, 0xF40E35855771202A, 0x106AA07032BBD1B8,
      0x19A4C116B8D2D0C8, 0x1E376C085141AB53, 0x2748774CDF8EEB99, 0x34B0BCB5E19B48A8,
      0x391C0CB3C5C95A63, 0x4ED8AA4AE3418ACB, 0x5B9CCA4F7763E373, 0x682E6FF3D6B2B8A3,
      0x748F82EE5DEFB2FC, 0x78A5636F43172F60, 0x84C87814A1F0AB72, 0x8CC702081A6439EC]
    ++ [0x90BEFFFA23631E28, 0xA4506CEBDE82BDE9, 0xBEF9A3F7B2C67915, 0xC67178F2E372532B,
      0xCA273ECEEA26619C, 0xD186B8C721C0C207, 0xEADA7DD6CDE0EB1E, 0xF57D4F7FEE6ED178,
      0x06F067AA72176FBA, 0x0A637DC5A2C898A6, 0x113F9804BEF90DAE, 0x1B710B35131C471B,
      0x28DB77F523047D84, 0x32CAAB7B40C72493, 0x3C9EBE0A15C9BEBC, 0x431D67C49C100D4C,
      0x4CC5D4BECB3E42B6, 0x597F299CFC657E2A, 0x5FCB6FAB3AD6FAEC, 0x6C44198C4A475817]

/-- The first 64 fraction bits of the square roots of the first 16 primes (FIPS 180-4). -/
def squareRoots : List Nat :=
  [0x6A09E667F3BCC908, 0xBB67AE8584CAA73B, 0x3C6EF372FE94F82B, 0xA54FF53A5F1D36F1,
      0x510E527FADE682D1, 0x9B05688C2B3E6C1F, 0x1F83D9ABFB41BD6B, 0x5BE0CD19137E2179,
      0xCBBB9D5DC1059ED8, 0x629A292A367CD507, 0x9159015A3070DD17, 0x152FECD8F70E5939,
      0x67332667FFC00B31, 0x8EB44A8768581511, 0xDB0C2E0D64F98FA7, 0x47B5481DBEFA4FA4]

/-- The rotation and shift amounts of one word width of SHA-2. -/
structure Sha2 where
  sum0 : Nat × Nat × Nat
  sum1 : Nat × Nat × Nat
  sig0 : Nat × Nat × Nat
  sig1 : Nat × Nat × Nat

def sha2w32 : Sha2 := ⟨(2, 13, 22), (6, 11, 25), (7, 18, 3), (17, 19, 10)⟩
def sha2w64 : Sha2 := ⟨(28, 34, 39), (14, 18, 41), (1, 8, 7), (19, 61, 6)⟩

/-- The functions written with a capital sigma: three rotations. -/
def shaSum {w : Nat} (r : Nat × Nat × Nat) (x : BitVec w) : BitVec w :=
  x.rotateRight r.1 ^^^ x.rotateRight r.2.1 ^^^ x.rotateRight r.2.2

/-- The functions written with a small sigma: two rotations and a shift. -/
def shaSig {w : Nat} (r : Nat × Nat × Nat) (x : BitVec w) : BitVec w :=
  x.rotateRight r.1 ^^^ x.rotateRight r.2.1 ^^^ (x >>> r.2.2)

/-- One round with the constant `k` on the eight working variables; the schedule's next 16 words stand in `ws`. -/
def shaRound {w : Nat} (a : Sha2) (k : BitVec w) (vs ws : List (BitVec w)) : List (BitVec w) × List (BitVec w) :=
  let v := fun i => vs.getD i 0
  let x := fun i => ws.getD i 0
  let t1 := v 7 + shaSum a.sum1 (v 4) + ((v 4 &&& v 5) ^^^ (~~~(v 4) &&& v 6)) + k + x 0
  let t2 := shaSum a.sum0 (v 0) + ((v 0 &&& v 1) ^^^ (v 0 &&& v 2) ^^^ (v 1 &&& v 2))
  ([t1 + t2, v 0, v 1, v 2, v 3 + t1, v 4, v 5, v 6],
    ws.drop 1 ++ [shaSig a.sig1 (x 14) + x 9 + shaSig a.sig0 (x 1) + x 0])

/-- The 16 words of a block. -/
def shaWords (w : Nat) (block : List Byte) : List (BitVec w) :=
  (List.range 16).map (fun i => BitVec.ofNat w (beVal ((block.drop (i * (w / 8))).take (w / 8))))

/-- The hash value after one more block. -/
def shaBlock {w : Nat} (a : Sha2) (ks h : List (BitVec w)) (block : List Byte) : List (BitVec w) :=
  let r := ks.foldl (fun x k => shaRound a k x.1 x.2) (h, shaWords w block)
  List.zipWith (fun x y => x + y) h r.1

/-- `n` blocks, one after the other. -/
def shaBlocks {w : Nat} (a : Sha2) (ks : List (BitVec w)) : Nat → List (BitVec w) → List Byte → List (BitVec w)
  | 0, h, _ => h
  | n + 1, h, bs => shaBlocks a ks n (shaBlock a ks h (bs.take (2 * w))) (bs.drop (2 * w))

/-- A message with its padding: a one bit, zeros, and the length in bits. -/
def shaPad (w : Nat) (m : List Byte) : List Byte :=
  let b := 2 * w
  m ++ 0x80 :: List.replicate ((b - (m.length + 1 + w / 4) % b) % b) 0 ++ beBytes (w / 4) (8 * m.length)

/-- A hash of the family: its rounds, its initial hash value and the number of its bytes. -/
def sha2 (w : Nat) (a : Sha2) (ks h0 : List Nat) (out : Nat) (m : List Byte) : List Byte :=
  let p := shaPad w m
  let h := shaBlocks a (ks.map (BitVec.ofNat w)) (p.length / (2 * w)) (h0.map (BitVec.ofNat w)) p
  (h.flatMap (fun x => beBytes (w / 8) x.toNat)).take out

/-- SHA-256: the first 32 bits of the constants. -/
@[irreducible] def sha256 (m : List Byte) : List Byte :=
  sha2 32 sha2w32 ((cubeRoots.take 64).map (fun x => x / 2 ^ 32)) ((squareRoots.take 8).map (fun x => x / 2 ^ 32)) 32 m

/-- SHA-512. -/
@[irreducible] def sha512 (m : List Byte) : List Byte := sha2 64 sha2w64 cubeRoots (squareRoots.take 8) 64 m

/-- SHA-384 (R427, R432, R438): SHA-512's rounds from another initial value, and 48 bytes. -/
@[irreducible] def sha384 (m : List Byte) : List Byte := sha2 64 sha2w64 cubeRoots (squareRoots.drop 8) 48 m

/-! ### HMAC, HKDF and MGF1 -/

/-- HMAC over a hash with blocks of 128 bytes (RFC 2104). -/
def hmac (hash : List Byte → List Byte) (key m : List Byte) : List Byte :=
  let k0 := if 128 < key.length then hash key else key
  let k := k0 ++ List.replicate (128 - k0.length) 0
  hash (k.map (fun b => b ^^^ 0x5C) ++ hash (k.map (fun b => b ^^^ 0x36) ++ m))

/-- The blocks T(i), T(i + 1), … of HKDF's expansion, `n` of them after the block `t`. -/
def hkdfBlocks (prk info : List Byte) : Nat → Nat → List Byte → List Byte
  | 0, _, _ => []
  | n + 1, i, t =>
    let u := hmac sha384 prk (t ++ info ++ [BitVec.ofNat 8 i])
    u ++ hkdfBlocks prk info n (i + 1) u

/-- HKDF-SHA-384 (RFC 5869) without a salt, which is then 48 zeros: `len` bytes. -/
def hkdf384 (ikm info : List Byte) (len : Nat) : List Byte :=
  (hkdfBlocks (hmac sha384 (List.replicate 48 0) ikm) info (ceilDiv len 48) 1 []).take len

/-- MGF1 (RFC 8017, B.2.1) over a hash of `hLen` bytes. -/
def mgf1 (hash : List Byte → List Byte) (hLen : Nat) (seed : List Byte) (len : Nat) : List Byte :=
  ((List.range (ceilDiv len hLen)).flatMap (fun i => hash (seed ++ beBytes 4 i))).take len

end Sys2Proof.Machine
end

