-- ==== Sys2Proof/Machine/Gcm.lean ====
section
/-!
DEFINITION. AES-256-GCM, which encrypts the identity key blob (R442): the AES-256 cipher (FIPS 197) and the authenticated
decryption of NIST SP 800-38D.
-/
namespace Sys2Proof.Machine

/-! ### AES-256 -/

/-- Multiplication by x in the field of AES. -/
def aesTime (a : Byte) : Byte := if a.getLsbD 7 then (a <<< 1) ^^^ 0x1B else a <<< 1

/-- The product of `a` with the low `n` bits of `b`. -/
def aesMul : Nat → Byte → Byte → Byte
  | 0, _, _ => 0
  | n + 1, a, b => (if b.getLsbD 0 then a else 0) ^^^ aesMul n (aesTime a) (b >>> 1)

/-- a to the power 2^(n + 1) - 2; with n = 7 the inverse of `a`, and 0 for 0. -/
def aesPow : Nat → Byte → Byte
  | 0, _ => 1
  | n + 1, a => let b := aesMul 8 a a; aesMul 8 b (aesPow n b)

/-- The S-box: the inverse, then the affine map. -/
def aesSub (a : Byte) : Byte :=
  let b := aesPow 7 a
  b ^^^ b.rotateLeft 1 ^^^ b.rotateLeft 2 ^^^ b.rotateLeft 3 ^^^ b.rotateLeft 4 ^^^ 0x63

/-- `n` more words of the key schedule, the newest first; `i` is the number of the next word. -/
def aesExpand : Nat → Nat → Byte → List (List Byte) → List (List Byte)
  | 0, _, _, ws => ws
  | n + 1, i, rcon, ws =>
    let t := ws.getD 0 []
    let u := if i % 8 = 0 then xorBytes ((t.drop 1 ++ t.take 1).map aesSub) [rcon, 0, 0, 0]
             else if i % 8 = 4 then t.map aesSub else t
    aesExpand n (i + 1) (if i % 8 = 0 then aesTime rcon else rcon) (xorBytes (ws.getD 7 []) u :: ws)

/-- The 15 round keys of a 32-byte key. -/
def aesKeys (key : List Byte) : List (List Byte) :=
  let ws := (aesExpand 52 8 1 ((List.range 8).map (fun i => (key.drop (4 * i)).take 4)).reverse).reverse
  (List.range 15).map (fun i => ((ws.drop (4 * i)).take 4).flatten)

/-- SubBytes and ShiftRows: byte 4c + r of the state takes the S-box of byte 4 (c + r) + r. -/
def aesShift (st : List Byte) : List Byte :=
  (List.range 16).map (fun i => aesSub (st.getD ((i + 4 * (i % 4)) % 16) 0))

/-- MixColumns. -/
def aesMix (st : List Byte) : List Byte :=
  (List.range 16).map (fun i =>
    let x := fun k => st.getD (i / 4 * 4 + (i + k) % 4) 0
    aesTime (x 0) ^^^ (aesTime (x 1) ^^^ x 1) ^^^ x 2 ^^^ x 3)

/-- One block under the round keys. -/
def aesBlock (keys : List (List Byte)) (b : List Byte) : List Byte :=
  let add := fun (st : List Byte) i => xorBytes st (keys.getD i [])
  let st := (List.range 13).foldl (fun st i => add (aesMix (aesShift st)) (i + 1)) (add b 0)
  add (aesShift st) 14

/-! ### GCM -/

def block128 (bs : List Byte) : BitVec 128 :=
  BitVec.ofNat 128 (beVal (bs ++ List.replicate (16 - bs.length) 0))

def bytes128 (x : BitVec 128) : List Byte := beBytes 16 x.toNat

/-- The product in the field of GHASH of the top `n` bits of `x`, whose bit 127 is the coefficient of 1, with `v`. -/
def ghashMul : Nat → BitVec 128 → BitVec 128 → BitVec 128
  | 0, _, _ => 0
  | n + 1, x, v =>
    (if x.getLsbD 127 then v else 0)
      ^^^ ghashMul n (x <<< 1) (if v.getLsbD 0 then (v >>> 1) ^^^ 0xE1000000000000000000000000000000 else v >>> 1)

/-- GHASH of `n` blocks of a string, the last one filled with zeros. -/
def ghash (h : BitVec 128) : Nat → BitVec 128 → List Byte → BitVec 128
  | 0, y, _ => y
  | n + 1, y, bs => ghash h n (ghashMul 128 (y ^^^ block128 (bs.take 16)) h) (bs.drop 16)

def ghashAll (h y : BitVec 128) (bs : List Byte) : BitVec 128 := ghash h (ceilDiv bs.length 16) y bs

/-- The counter block after `x`: its low 32 bits count up. -/
def inc32 (x : BitVec 128) : BitVec 128 :=
  BitVec.ofNat 128 (x.toNat / 2 ^ 32 * 2 ^ 32 + (x.toNat + 1) % 2 ^ 32)

/-- Counter mode over `n` blocks after the counter block `c`. -/
def gctr (keys : List (List Byte)) : Nat → BitVec 128 → List Byte → List Byte
  | 0, _, _ => []
  | n + 1, c, bs =>
    let d := inc32 c
    xorBytes (bs.take 16) (aesBlock keys (bytes128 d)) ++ gctr keys n d (bs.drop 16)

/-- The lengths block of GHASH. -/
def gcmLens (a c : Nat) : BitVec 128 := BitVec.ofNat 128 (8 * a * 2 ^ 64 + 8 * c)

/-- AES-256-GCM decryption: the plaintext, or nothing where the tag of 16 bytes does not hold. -/
@[irreducible] def gcmOpen (key iv aad ct tag : List Byte) : Option (List Byte) :=
  let keys := aesKeys key
  let h := block128 (aesBlock keys (List.replicate 16 0))
  let j0 := if iv.length = 12 then block128 (iv ++ [0, 0, 0, 1]) else ghashMul 128 (ghashAll h 0 iv ^^^ gcmLens 0 iv.length) h
  let y := ghashMul 128 (ghashAll h (ghashAll h 0 aad) ct ^^^ gcmLens aad.length ct.length) h
  if bytes128 (y ^^^ block128 (aesBlock keys (bytes128 j0))) = tag then some (gctr keys (ceilDiv ct.length 16) j0 ct) else none

end Sys2Proof.Machine
end

