-- ==== Sys2Proof/Machine/Signature.lean ====
section
/-!
DEFINITION. The signatures of R428, written from the standards that it names: RSASSA-PSS (RFC 8017, 8.1 and 9.1) with SHA-384,
and pure SLH-DSA-SHA2-192s with an empty context (FIPS 205). Both verify and sign; what a signer draws at random is an argument.
-/
namespace Sys2Proof.Machine

/-! ### RSA -/

/-- b to the power e modulo n; e has at most `k` bits. -/
def modPow (n : Nat) : Nat → Nat → Nat → Nat
  | 0, _, _ => 1 % n
  | k + 1, b, e =>
    let r := modPow n k (b * b % n) (e / 2)
    if e % 2 = 1 then b * r % n else r

/-- The number of bits of an integer that is not 0. -/
def bitLen (n : Nat) : Nat := if n = 0 then 0 else Nat.log2 n + 1

/-- The public exponent (R427). -/
def rsaE : Nat := 65537

/-- The salt length of R428. -/
def pssSaltLen : Nat := 48

/-- The bytes of the encoded message whose data block is `db` and whose hash is `h` (RFC 8017, 9.1.1 steps 9 to 12); the unused
bits at the left are 0. -/
def pssMask (emLen emBits : Nat) (h db : List Byte) : List Byte :=
  let x := xorBytes db (mgf1 sha384 48 h (emLen - 49))
  beBytes (emLen - 49) (beVal x % 2 ^ (emBits - 8 * 49))

/-- The hash H of an encoded message (step 6). -/
def pssHash (m salt : List Byte) : List Byte := sha384 (List.replicate 8 0 ++ sha384 m ++ salt)

/-- EMSA-PSS-ENCODE. -/
def pssEncode (emBits : Nat) (m salt : List Byte) : List Byte :=
  let emLen := ceilDiv emBits 8
  let h := pssHash m salt
  let db := List.replicate (emLen - pssSaltLen - 50) 0 ++ 0x01 :: salt
  pssMask emLen emBits h db ++ h ++ [0xBC]

/-- EMSA-PSS-VERIFY: the trailer, the unused bits, the padding of the data block, and the hash. -/
def pssOk (emBits : Nat) (m em : List Byte) : Bool :=
  let emLen := ceilDiv emBits 8
  let h := (em.drop (emLen - 49)).take 48
  let masked := em.take (emLen - 49)
  let db := pssMask emLen emBits h masked
  let zeros := emLen - pssSaltLen - 50
  decide (48 + pssSaltLen + 2 ≤ emLen) && em.drop (emLen - 1) == [0xBC]
    && decide (beVal masked < 2 ^ (emBits - 8 * 49))
    && db.take (zeros + 1) == List.replicate zeros 0 ++ [0x01]
    && h == pssHash m (db.drop (zeros + 1))

/-- RSASSA-PSS-VERIFY of a big-endian signature under a big-endian modulus of 384 bytes (R428). -/
@[irreducible] def rsaVerify (modulus m sig : List Byte) : Bool :=
  let n := beVal modulus
  let emBits := bitLen n - 1
  decide (ceilDiv (bitLen n) 8 = 384) && decide (sig.length = 384) && decide (beVal sig < n)
    && (let x := modPow n 17 (beVal sig) rsaE
        decide (x < 256 ^ ceilDiv emBits 8) && pssOk emBits m (beBytes (ceilDiv emBits 8) x))

/-- RSASSA-PSS-SIGN under a modulus and a private exponent, with a salt of 48 bytes. -/
@[irreducible] def rsaSign (n d : Nat) (m salt : List Byte) : List Byte :=
  beBytes 384 (modPow n (bitLen d) (beVal (pssEncode (bitLen n - 1) m salt)) d)

/-! ### SLH-DSA-SHA2-192s: n = 24, h = 63, d = 7, h' = 9, a = 14, k = 17, w = 16 (FIPS 205, tables 2 and 11.2) -/

/-- The compressed address of 22 bytes: layer, tree, type, and three words, of which the first is the key pair. -/
structure SlhAdrs where
  layer : Nat
  tree : Nat
  ty : Nat
  pair : Nat
  b : Nat
  c : Nat

def SlhAdrs.bytes (x : SlhAdrs) : List Byte :=
  beBytes 1 x.layer ++ beBytes 8 x.tree ++ beBytes 1 x.ty ++ beBytes 4 x.pair ++ beBytes 4 x.b ++ beBytes 4 x.c

/-- F and PRF: SHA-256 behind a block that holds PK.seed. -/
def slhF (pkSeed : List Byte) (x : SlhAdrs) (m : List Byte) : List Byte :=
  (sha256 (pkSeed ++ List.replicate 40 0 ++ x.bytes ++ m)).take 24

/-- H and T: SHA-512 behind a block that holds PK.seed. -/
def slhT (pkSeed : List Byte) (x : SlhAdrs) (m : List Byte) : List Byte :=
  (sha512 (pkSeed ++ List.replicate 104 0 ++ x.bytes ++ m)).take 24

/-- The message digest of 39 bytes. -/
def slhDigest (r pkSeed pkRoot m : List Byte) : List Byte :=
  mgf1 sha512 64 (r ++ pkSeed ++ sha512 (r ++ pkSeed ++ pkRoot ++ m)) 39

/-- `n` digits of b bits of a string of `len` bits, the most significant first. -/
def digits (b n len v : Nat) : List Nat := (List.range n).map (fun i => v / 2 ^ (len - b * (i + 1)) % 2 ^ b)

/-- The 51 digits of a WOTS+ message: 48 of the message, 3 of the checksum. -/
def wotsDigits (m : List Byte) : List Nat :=
  let ds := digits 4 48 192 (beVal m)
  ds ++ digits 4 3 12 (ds.foldl (fun a x => a + (15 - x)) 0)

/-- `n` steps of a WOTS+ chain from position `i`. -/
def wotsChain (pkSeed : List Byte) (x : SlhAdrs) : Nat → Nat → List Byte → List Byte
  | 0, _, v => v
  | n + 1, i, v => wotsChain pkSeed x n (i + 1) (slhF pkSeed { x with c := i } v)

/-- The bytes of part `i` of `n` bytes each. -/
def part (n i : Nat) (bs : List Byte) : List Byte := (bs.drop (n * i)).take n

/-- The WOTS+ public key from the ends of its chains; `x` names the layer, the tree and the key pair. -/
def wotsPk (pkSeed : List Byte) (x : SlhAdrs) (ends : List Byte) : List Byte :=
  slhT pkSeed { x with ty := 1, b := 0, c := 0 } ends

/-- The WOTS+ public key that a signature of a message leads to. -/
def wotsFromSig (pkSeed : List Byte) (x : SlhAdrs) (m sig : List Byte) : List Byte :=
  wotsPk pkSeed x ((List.zipIdx (wotsDigits m)).flatMap (fun y =>
    wotsChain pkSeed { x with ty := 0, b := y.2 } (15 - y.1) y.1 (part 24 y.2 sig)))

/-- The root of a Merkle tree from a node at height 0, its number and its authentication path, of nodes of type `x.ty`. -/
def climb (pkSeed : List Byte) (x : SlhAdrs) : Nat → Nat → Nat → List Byte → List Byte → List Byte
  | 0, _, _, v, _ => v
  | n + 1, z, i, v, auth =>
    let o := auth.take 24
    climb pkSeed x n (z + 1) (i / 2)
      (slhT pkSeed { x with b := z + 1, c := i / 2 } (if i % 2 = 0 then v ++ o else o ++ v)) (auth.drop 24)

/-- The root of one XMSS tree that a signature of a message leads to. -/
def xmssFromSig (pkSeed : List Byte) (layer tree leaf : Nat) (m sig : List Byte) : List Byte :=
  let v := wotsFromSig pkSeed ⟨layer, tree, 0, leaf, 0, 0⟩ m (sig.take 1224)
  climb pkSeed ⟨layer, tree, 2, 0, 0, 0⟩ 9 0 leaf v (sig.drop 1224)

/-- The root of the hypertree that `n` more layers of a signature lead to. -/
def htFromSig (pkSeed : List Byte) : Nat → Nat → Nat → Nat → List Byte → List Byte → List Byte
  | 0, _, _, _, m, _ => m
  | n + 1, layer, tree, leaf, m, sig =>
    htFromSig pkSeed n (layer + 1) (tree / 512) (tree % 512) (xmssFromSig pkSeed layer tree leaf m (part 1440 0 sig)) (sig.drop 1440)

/-- The indices that a message's digest selects in the 17 FORS trees, its hypertree tree and its leaf. -/
def forsIndices (digest : List Byte) : List Nat := digits 14 17 240 (beVal (digest.take 30))
def slhTree (digest : List Byte) : Nat := beVal ((digest.drop 30).take 7) % 2 ^ 54
def slhLeaf (digest : List Byte) : Nat := beVal ((digest.drop 37).take 2) % 512

/-- The FORS public key from the roots of its trees. -/
def forsPk (pkSeed : List Byte) (tree leaf : Nat) (roots : List Byte) : List Byte :=
  slhT pkSeed ⟨0, tree, 4, leaf, 0, 0⟩ roots

/-- The FORS public key that a signature leads to: of each tree 24 bytes of secret and 14 nodes. -/
def forsFromSig (pkSeed : List Byte) (tree leaf : Nat) (digest sig : List Byte) : List Byte :=
  let x : SlhAdrs := ⟨0, tree, 3, leaf, 0, 0⟩
  forsPk pkSeed tree leaf ((List.zipIdx (forsIndices digest)).flatMap (fun y =>
    let s := part 360 y.2 sig
    let i := y.2 * 2 ^ 14 + y.1
    climb pkSeed x 14 0 i (slhF pkSeed { x with c := i } (s.take 24)) (s.drop 24)))

/-- A message of pure SLH-DSA with an empty context. -/
def slhMessage (m : List Byte) : List Byte := 0 :: 0 :: m

/-- Verification under PK.seed and PK.root. -/
@[irreducible] def slhVerify (pk m sig : List Byte) : Bool :=
  let pkSeed := pk.take 24
  let pkRoot := (pk.drop 24).take 24
  let r := sig.take 24
  let digest := slhDigest r pkSeed pkRoot (slhMessage m)
  let tree := slhTree digest
  let leaf := slhLeaf digest
  decide (sig.length = 16224)
    && htFromSig pkSeed 7 0 tree leaf (forsFromSig pkSeed tree leaf digest ((sig.drop 24).take 6120)) (sig.drop 6144) == pkRoot

/-! ### Signing with SLH-DSA -/

/-- The secret seeds of a key pair. -/
structure SlhKey where
  skSeed : List Byte
  skPrf : List Byte
  pkSeed : List Byte

/-- The three seeds, in the order of the key's 72 bytes. -/
def slhKeyOf (bs : List Byte) : SlhKey := ⟨part 24 0 bs, part 24 1 bs, part 24 2 bs⟩

/-- The start of chain `j` of a WOTS+ key pair. -/
def wotsSecret (k : SlhKey) (x : SlhAdrs) (j : Nat) : List Byte := slhF k.pkSeed { x with ty := 5, b := j, c := 0 } k.skSeed

/-- Chains of a WOTS+ key pair, each run by the steps that `n` gives it. -/
def wotsChains (k : SlhKey) (x : SlhAdrs) (n : Nat → Nat) : List Byte :=
  (List.range 51).flatMap (fun j => wotsChain k.pkSeed { x with ty := 0, b := j } (n j) 0 (wotsSecret k x j))

/-- The node at height `z` with number `i` of an XMSS tree. -/
def xmssNode (k : SlhKey) (layer tree : Nat) : Nat → Nat → List Byte
  | 0, i =>
    let x : SlhAdrs := ⟨layer, tree, 0, i, 0, 0⟩
    wotsPk k.pkSeed x (wotsChains k x (fun _ => 15))
  | z + 1, i =>
    slhT k.pkSeed ⟨layer, tree, 2, 0, z + 1, i⟩ (xmssNode k layer tree z (2 * i) ++ xmssNode k layer tree z (2 * i + 1))

/-- The sibling of node `i`. -/
def sibling (i : Nat) : Nat := if i % 2 = 0 then i + 1 else i - 1

def xmssSign (k : SlhKey) (layer tree leaf : Nat) (m : List Byte) : List Byte :=
  let ds := wotsDigits m
  wotsChains k ⟨layer, tree, 0, leaf, 0, 0⟩ (fun j => ds.getD j 0)
    ++ (List.range 9).flatMap (fun z => xmssNode k layer tree z (sibling (leaf / 2 ^ z)))

/-- `n` more layers of a hypertree signature. -/
def htSign (k : SlhKey) : Nat → Nat → Nat → Nat → List Byte → List Byte
  | 0, _, _, _, _ => []
  | n + 1, layer, tree, leaf, m =>
    let s := xmssSign k layer tree leaf m
    s ++ htSign k n (layer + 1) (tree / 512) (tree % 512) (xmssFromSig k.pkSeed layer tree leaf m s)

/-- The node at height `z` with number `i` of the FORS trees, and the secret behind a leaf. -/
def forsSecret (k : SlhKey) (tree leaf i : Nat) : List Byte := slhF k.pkSeed ⟨0, tree, 6, leaf, 0, i⟩ k.skSeed

def forsNode (k : SlhKey) (tree leaf : Nat) : Nat → Nat → List Byte
  | 0, i => slhF k.pkSeed ⟨0, tree, 3, leaf, 0, i⟩ (forsSecret k tree leaf i)
  | z + 1, i =>
    slhT k.pkSeed ⟨0, tree, 3, leaf, z + 1, i⟩ (forsNode k tree leaf z (2 * i) ++ forsNode k tree leaf z (2 * i + 1))

def forsSign (k : SlhKey) (tree leaf : Nat) (digest : List Byte) : List Byte :=
  (List.zipIdx (forsIndices digest)).flatMap (fun y =>
    let i := y.2 * 2 ^ 14 + y.1
    forsSecret k tree leaf i ++ (List.range 14).flatMap (fun z => forsNode k tree leaf z (sibling (i / 2 ^ z))))

/-- PK.root: the root of the top tree. -/
def slhRoot (k : SlhKey) : List Byte := xmssNode k 6 0 9 0

/-- A signature with the given randomness. -/
@[irreducible] def slhSign (k : SlhKey) (m rand : List Byte) : List Byte :=
  let r := (hmac sha512 k.skPrf (rand ++ slhMessage m)).take 24
  let digest := slhDigest r k.pkSeed (slhRoot k) (slhMessage m)
  let tree := slhTree digest
  let leaf := slhLeaf digest
  let f := forsSign k tree leaf digest
  r ++ f ++ htSign k 7 0 tree leaf (forsFromSig k.pkSeed tree leaf digest f)

end Sys2Proof.Machine
end

