-- ==== Sys2Proof/Machine/State.lean ====
section
/-!
DEFINITION. The state of the block as plain data: the register file by BAR address, one byte memory for every addressed
RAM, and the records of each unit (ports, switching core, Cellar, Press, sync objects and chains, Vats and Curd cores,
library servers, Twin, Tally, event controllers, power, Rennet, interfaces). `State.reset` is the module while PORESET_N
has just been released from reset with nothing done yet. INVENTORY.md, "State", lists every field with its rule.
-/
namespace Sys2Proof.Machine

/-- The commands of this block never end in a fault: every rule of the spec that stops a unit (a FAULTED core, a halted
boot, a link that is down) leaves the module in a next state. The type therefore has no value. -/
inductive Fault where
deriving DecidableEq

/-- Why a command has no next state. -/
inductive Refusal where
  /-- Raised by `exec` alone, for a command that has no meaning yet. Safe: nothing is claimed of what it would do. -/
  | notModelled (mnemonic : String)
deriving DecidableEq, Repr

/-- A sparse table: the entries that differ from the value an unlisted key has, keys strictly rising. -/
abbrev Tab (α : Type) := List (Nat × α)

/-- The grades of R1. -/
inductive Grade where
  | xgl9240
  | xgl9228
  | xgl9216
deriving DecidableEq, Repr

/-- The fused values (R425, R455, R459): what every part leaves manufacture with, and what its owner has blown. -/
structure Fuses where
  grade : Grade
  rev : Nat
  serial : Nat
  macBase : Nat
  uds : List Byte
  keyHash : List (List Byte)
  revoked : Nat
  svn : Nat
  /-- size in bytes of the boot flash on the board (R430) -/
  flashSize : Nat
deriving DecidableEq, Repr

/-- The pins of R473 that a rule of the spec reads or drives. -/
structure Pins where
  poresetN : Bool
  sysresetN : Bool
  pwrgood : Bool
  perstN : Bool
  thermTripN : Bool
  faultN : Bool
  pmbAlert : Bool
  /-- SYNC_OUT pulses driven so far (R486) -/
  syncOut : Nat
  /-- cycle of the last SYNC_IN edge that was detected (R486) -/
  syncIn : Option Nat
deriving DecidableEq, Repr

/-- The group fields that a slot latches when it opens (R116). -/
structure Latch where
  scaleLo : Nat
  scaleHi : Nat
  escShift : Nat
  escFmt : Nat
  seed : Nat
deriving DecidableEq, Repr

/-- Bytes written in the present cycle: where, by which requester, and, for local memory, what stood there before (R245,
R352). -/
structure Store where
  sp : Nat
  off : Nat
  len : Nat
  req : Nat
  old : List Byte
deriving DecidableEq, Repr

/-- A scoreboard entry (R201): an issued instruction, whether it has started, how many steps it has made, and the
elements and counts it carries between steps. -/
structure Sb where
  /-- its number in the core's order of issue -/
  ord : Nat
  op : Nat
  w : CurdWord
  pc : Nat
  started : Bool
  steps : Nat
  acc : List Nat
  flag : Nat
  cntA : Nat
  cntB : Nat
  sent : Nat
  /-- what it read when it started: s[rs1], s[rs2], s[rd], s28, s29 and the bases of its four regions (R204, R227) -/
  cap : List Nat
deriving DecidableEq, Repr

/-- What a command of the present cycle did, for the rules that order the events of one cycle. -/
inductive Act where
  /-- an input of the key was taken; the order is its port (R130, R157) -/
  | input (k : Key)
  /-- a HELD slot of the key was freed by a CRESULT (R130) -/
  | freed (k : Key)
  /-- meter `m` coloured a packet; the order is the ingress port (R327) -/
  | meter (m : Nat)
  /-- a start request entered a Vat's queue or was taken from it (R222) -/
  | start (vat : Nat)
  /-- an instruction of the core completed, with its scoreboard entry (R207) -/
  | retired (core : Nat) (e : Sb)
  /-- vectors were pushed to, or popped from, ring `ring` of a Vat; the order is their number (R188). Rings 64 to 71 are the
  completion rings of the cores -/
  | pushed (vat ring : Nat)
  | popped (vat ring : Nat)
  /-- a source was delivered to a Rind core, or a completion at its EVC was an order fault (R409) -/
  | delivered (core : Nat)
  | orderFault (core : Nat)
  /-- a buffer of the quadrant's slice was allocated; the order is the requester (R341) -/
  | alloc (qd : Nat)
  /-- an instruction of the core was issued, or started; the order of a start is the instruction's number (R201, R207) -/
  | issued (core : Nat)
  | begun (core : Nat)
  /-- the group's epoch ended at epoch_max; the order is what that added to GRP_CNT.timeout (R156) -/
  | expired (group : Nat)
deriving DecidableEq, Repr

/-- An open Tally entry (R381). -/
structure TEntry where
  subj : Nat
  cls : Nat
  first : Nat
  last : Nat
  detail : Nat
  count : Nat
  t0 : Nat
  t1 : Nat
  closeAt : Nat
deriving DecidableEq, Repr

structure Tally where
  entries : List TEntry
  storm : Option TEntry
deriving DecidableEq, Repr

/-- A report of the present cycle: reporter, subject, class, detail, and the count at which an entry that it opens closes (R381). -/
structure Report where
  rep : Nat
  subj : Nat
  cls : Nat
  det : Nat
  close : Nat
deriving DecidableEq, Repr

/-- What has happened in the present 2.0 GHz cycle, for the rules that order events of one cycle (R11, R32, R116, R130,
R188, R203, R207, R222, R245, R317, R327, R339, R352, R381, R454, R456, R494). Emptied by every cycle. -/
structure SameCycle where
  /-- (page, bit) pairs of BLK_EV_STAT that hardware set in this cycle (R11) -/
  evSet : List (Nat × Nat)
  /-- (object, amount) increments applied in this cycle (R32) -/
  incr : List (Nat × Nat)
  /-- (address, requester) register writes taken in this cycle (R454) -/
  writes : List (Nat × Nat)
  /-- (page, counts) of BLK_ERR_CNT in this cycle (R456) -/
  errs : List (Nat × Nat)
  /-- the R116 fields of a group before this cycle's first write to them -/
  oldLatch : List (Nat × Latch)
  /-- buffers freed in this cycle, as 8 x buffer + pool: they leave used_p at the next (R339) -/
  freed : List Nat
  /-- registers that were written in this cycle, with the value they had before: what a read of the cycle returns (R454), and
  what the cycle goes by where a write acts from the next one on (R317, R327, R333, R466) -/
  oldReg : List (Nat × U64)
  /-- Rind cores whose EVC_DONE was applied in this cycle (R409) -/
  dones : List Nat
  stores : List Store
  /-- sync objects that were incremented in this cycle: (object, threshold before, armed before) (R32, R173) -/
  oldSync : List (Nat × Nat × Nat)
  /-- acts with their order number -/
  acts : List (Act × Nat)
  /-- the reports of this cycle in ascending reporter number, and Tally's entries as it began (R381) -/
  reports : List Report := []
  tally0 : Option Tally := .none
deriving DecidableEq, Repr

/-- What the module keeps about a packet of its own, or about whom it came for, until it has left. -/
inductive Origin where
  | none
  /-- a CNODE of a slot (R129, R135) -/
  | cnode (k : Key) (lo hi : Nat)
  /-- a CRESULT or STATUS to the destination of one input (R141, R166) -/
  | down (k : Key) (lo hi : Nat)
  /-- a chain SEND (R176) -/
  | chain (id : Nat)
  /-- a lane request or its reply, sent through its own port (R387) -/
  | lane (port : Nat)
  /-- an Ethernet frame bridged to a port (R81) -/
  | bridge (port : Nat)
  /-- a CNODE that is still on its way when its slot has been aborted -/
  | stale
deriving DecidableEq, Repr

/-- The form of a partial or a result (R292, R365 desc). -/
inductive Form where
  | dense
  | sb64
  | cx16
  | masked
deriving DecidableEq, Repr

/-- The four saturating decode counts (R97). -/
structure Census where
  nan : Nat
  inf : Nat
  rsv : Nat
  scale : Nat
deriving DecidableEq, Repr

/-- A block held in the accumulation format: (position, code) in ascending position. -/
abbrev Pattern := List (Nat × Nat)

/-- A result block with all that its encoding for a member depends on (R107). -/
structure ResultBlk where
  k : Key
  accFmt : Nat
  nelem : Nat
  form : Form
  pat : Pattern
  cen : Census
  digest : Nat
  status : Nat
  latch : Latch
deriving DecidableEq, Repr

/-- What a member asked for in its CWRITE (slot item "Member requests"). -/
structure MemberReq where
  idx : Nat
  rfmt : Nat
  srnd : Bool
  denseRx : Bool
deriving DecidableEq, Repr

/-- What waits or is queued: a JFP packet, an Ethernet frame, or a result whose last encoding the egress port makes
(R106, R143). -/
inductive Load where
  | jfp (p : Packet)
  | eth (f : EthFrame)
  | result (hdr : Packet) (r : ResultBlk) (q : Option MemberReq)
deriving DecidableEq, Repr

/-- A packet that waits to enter the switching core (R24): the unit it comes from (port number or requester number). -/
structure Waiting where
  unit : Nat
  vc : Nat
  load : Load
  landed : Bool
  org : Origin
  /-- credits that its ingress space returns when it leaves (R50, R53) -/
  credits : Nat
  /-- buffers it reads from, one reference each (R22, R335) -/
  bufs : List Nat
  /-- the frame of an Ethernet-mode port that it is or came in, numbered from 1; 0 for none (R329) -/
  frame : Nat
  /-- the class of that frame (R311) -/
  tc : Nat
  /-- where a landed packet stands in its landing zone, as (offset, length) pieces in order (R54) -/
  spots : List (Nat × Nat)
  /-- its number in the order of arrival at the switch (R192) -/
  seq : Nat := 0
  /-- the ingress buffer of a native port that it stands in (R338) -/
  home : Option Nat := .none
  /-- bytes of the frame of an Ethernet-mode port that it is or came in (R329) -/
  flen : Nat := 0
deriving DecidableEq, Repr

/-- A packet delivered to the switch's own units and not yet consumed (R65): the port or unit it came from, the shared
buffer it holds a reference to, whom it is for when the switch itself formed it, and whether it waits for a slot, a buffer
or room in a queue, so that its port withholds credit on its VC (R20, R26, R194). -/
structure InPkt where
  port : Nat
  pkt : Packet
  buf : Option Nat
  org : Origin
  held : Bool
  /-- its number in the order of arrival (R192) -/
  seq : Nat
  /-- the VC_MGT buffer that it stands in, once it has left its ingress space (R79, R338) -/
  pool : Option Nat
  frame : Nat
  tc : Nat
  /-- the ingress buffer of a native port that it stands in (R338) -/
  home : Option Nat := .none
  flen : Nat := 0
deriving DecidableEq, Repr

/-- A packet in an egress buffer (R24, R310). -/
structure EPkt where
  load : Load
  vc : Nat
  tc : Nat
  org : Origin
  bufs : List Nat
  /-- the port or the unit that it came from (R70) -/
  unit : Nat
deriving DecidableEq, Repr

/-- A packet in the replay store (R43, R45). -/
structure Sent where
  linkSeq : Nat
  pkt : Packet
  org : Origin
  /-- it was ended with an abort marker (R70) -/
  aborted : Bool
  /-- where it stands in a replay store in HBM, in bytes (R47, R49) -/
  pos : Nat
deriving DecidableEq, Repr

inductive LinkState where
  | down
  | bringup
  | up
deriving DecidableEq, Repr

/-- A lane request of this port that has no reply yet (R387, R418). -/
structure LaneReq where
  lane : Nat
  drop : Bool
  park : Bool
  deadline : Nat
  /-- its reply has arrived and it waits for its own end of the lane -/
  answered : Bool
deriving DecidableEq, Repr

/-- A shaper's token count in units of 1/2,000 byte (R316) and the cycle it was last brought up to date. -/
structure Shaper where
  t : Int
  at_ : Nat
deriving DecidableEq, Repr

/-- A port, keyed by its first lane (R35, R460). -/
structure Port where
  formed : Bool
  w : Nat
  eth : Bool
  st : LinkState
  step : Nat
  stepAt : Nat
  stepEnd : Option Nat
  retryAt : Option Nat
  helloAt : Option Nat
  echoDone : Nat
  echoAt : Option Nat
  rtt : Nat
  longReach : Bool
  /-- (first page, pages) of the HBM replay store and landing zone (R47) -/
  replayPg : Option (Nat × Nat)
  landPg : Option (Nat × Nat)
  /-- receiver: E, NAK_SENT and the nak timer (R44, R491) -/
  rxOn : Bool
  e : Nat
  nakSent : Bool
  nakAt : Option Nat
  /-- sender: next link_seq, replay store, REPLAY position, ack timer (R43, R45, R46) -/
  txSeq : Nat
  replay : List Sent
  resend : Option Nat
  replayAt : Option Nat
  replayRuns : Nat
  ackAt : Option Nat
  lastLctl : Nat
  /-- credits granted by this receiver, received packets' credits, last arrival, per VC (R51, R53, R494) -/
  gRx : List Nat
  cRx : List Nat
  lastIn : List (Option Nat)
  /-- (VC, buffer) that back granted steps of a short port, and steps of landing space per VC of a long-reach port (R494) -/
  credBufs : List (Nat × Nat)
  landSteps : List Nat
  /-- (priority, buffer) of the PFC headroom of an Ethernet-mode port (R82, R329) -/
  headBufs : List (Nat × Nat)
  /-- credits received from the far side and consumed, per VC (R51) -/
  gTx : List Nat
  cTx : List Nat
  stateAt : Option Nat
  egress : List EPkt
  copying : List EPkt
  /-- cycle in which the packet being sent ends, and its class -/
  sendEnd : Nat
  sendTc : Option Nat
  /-- the new packet that is sent until then: it still holds its room (R24) -/
  sending : Option EPkt
  deficit : List Nat
  drrPos : Nat
  inVisit : Bool
  lastVc : List Nat
  shaper : List Shaper
  /-- time gates (R318 to R324) -/
  gateIdx : Nat
  gateEnd : Option Nat
  gateStart : Nat
  gateArmed : Bool
  stepCur : Int
  gatePend : Int
  /-- Ethernet mode: pauses received, pauses sent, refresh times, due PFC frames (R329, R330) -/
  pausedTo : List (Option Nat)
  xoffSent : List Bool
  refreshAt : List (Option Nat)
  pfcDue : List (Nat × Nat)
  cdnSince : Option Nat
  /-- lanes (R387, R416) -/
  parkedLanes : List Nat
  dropped : List Nat
  laneReqs : List LaneReq
  /-- lane requests of the far side that wait until a lane of this end is in GOLD -/
  laneAns : List (Nat × Packet)
  /-- lanes of this end that recalibrate, and the end of an idle-window recalibration (R387, R388) -/
  recalLanes : List Nat
  recalTo : Option Nat
  idleSince : Nat
  /-- before this cycle a refused unpark is not tried again (R418) -/
  unparkAt : Nat
  /-- the ack_seq of the last LCTL frame that it sent (R41, R388) -/
  acked : Nat := 0
deriving DecidableEq, Repr

/-- State of a Cellar buffer (R343); an unlisted buffer is FREE. -/
inductive BufState where
  | free
  | owned
  | shared
deriving DecidableEq, Repr

structure Buf where
  st : BufState
  pool : Nat
  freer : Nat
  slotKey : Option Key
  ref : Nat
  freePending : Bool
deriving DecidableEq, Repr

/-- What a waiting allocation is for (R341). -/
inductive Purpose where
  | credit (port vc : Nat)
  | streamOut (core q : Nat)
  | result (k : Key)
  | frame (port : Nat)
  /-- the buffer of a VC_MGT packet that waits at a unit (R79, R338) -/
  | mgmt (unit : Nat)
  /-- the buffer of delivered packet number `seq` for its STREAM_IN queue (R191, R338) -/
  | inbound (seq : Nat)
  /-- the buffers that a PGATHER call of the core reserves (R282) -/
  | pgather (core : Nat)
deriving DecidableEq, Repr

structure Waiter where
  qd : Nat
  pool : Nat
  req : Nat
  purpose : Purpose
  /-- the cycle in which it began to wait -/
  at_ : Nat
deriving DecidableEq, Repr

inductive SlotState where
  | free
  | opened
  | held
deriving DecidableEq, Repr

/-- One partial of a slot (R131): its node, its value, its census, and where it lies. -/
structure Partial where
  lo : Nat
  hi : Nat
  form : Form
  pat : Pattern
  cen : Census
  sram : Bool
  buf : Option Nat
  /-- the cycle in which it became present (R139) -/
  at_ : Nat
deriving DecidableEq, Repr

/-- A reduction slot ("Slots" of 04_canonical_reduction.md). -/
structure Slot where
  k : Key
  st : SlotState
  pgen : Nat
  nelem : Nat
  accFmt : Nat
  spfmt : Nat
  latch : Latch
  array : Nat
  qd : Nat
  accepted : List Nat
  emitted : List (Nat × Nat)
  parts : List Partial
  cen : Census
  reqs : List MemberReq
  reserved : Nat
  /-- sram_bufs when the slot opened (R134) -/
  sramQuota : Nat
  /-- CNODEs queued whose last byte is not in the replay store yet (R135) -/
  sends : Nat
  result : Option ResultBlk
  resBuf : Option Nat
  /-- the input that waits for the mask read, and the latched value count (R302) -/
  maskWait : Option (Nat × Packet)
  values : Option Nat
  /-- dual rail: cycle of forming while the result is held (R367) -/
  twinAt : Option Nat
  /-- an ACCUM sum that waits for its tag (R159) -/
  sumWait : Bool
  /-- destinations of the result not yet sent -/
  downs : Nat
deriving DecidableEq, Repr

/-- An entry of a retention ring (R169). -/
structure RetEntry where
  k : Key
  r : ResultBlk
  hasData : Bool
  /-- its place in the ring: which of the res_keep pages of the auxiliary region holds its bytes (R148) -/
  pos : Nat
deriving DecidableEq, Repr

/-- Progress of a migration (R178). -/
inductive MigState where
  | idle
  | copying (qd : Nat)
  | awaitRelease (qd : Nat)
  | draining (oldQd : Nat)
deriving DecidableEq, Repr

/-- A scope validation under way (R123, R493): where its table lies, what the entry says of N and the root, the cycle in which
entry 0 is read, and the words read so far, as far as a write has made it keep them. -/
structure Scan where
  qd : Nat
  base : Nat
  len : Nat
  n : Nat
  root : Bool
  start : Nat
  seen : List Nat
deriving DecidableEq, Repr

/-- A group's state beyond its registers. -/
structure Grp where
  validAt : Option Nat
  /-- the configuration was found wrong before the first entry was read (R493) -/
  cfgBad : Bool
  scan : Option Scan
  ageStart : Nat
  ageHeld : Nat
  lastBoundary : Option Nat
  ret : List RetEntry
  oldRet : List RetEntry
  /-- the next place of the retention ring -/
  retPos : Nat
  /-- closed release epochs of which the group still has slots (R161, R162) -/
  rels : List Nat
  mig : MigState
  /-- a write has lowered sram_bufs below the partials in SRAM, and these have not fallen below it since (R134) -/
  sramHold : Bool
  /-- (epoch, block) that a boundary has left to settle, oldest first, while the pseudo-channel of the tag wakes (R160, R355) -/
  settles : List (Nat × Nat)
deriving DecidableEq, Repr

/-- A firing sync object whose action waits for room (R26, R176, R217). -/
structure Fire where
  action : Nat
  arg : Nat
  qd : Nat
deriving DecidableEq, Repr

/-- A running chain (R176). -/
structure Chain where
  id : Nat
  qd : Nat
  desc : Nat
  sending : Bool
deriving DecidableEq, Repr

/-- A start request of a Vat (R217). -/
structure StartReq where
  desc : Nat
  bySync : Bool
deriving DecidableEq, Repr

structure Ring where
  head : Nat
  count : Nat
deriving DecidableEq, Repr

/-- A line of a core's instruction cache (R181): core within the Vat, line number in the program store, its 256 bytes. -/
structure ILine where
  core : Nat
  line : Nat
  bytes : List Byte
deriving DecidableEq, Repr

structure Vat where
  startQ : List StartReq
  rings : Tab Ring
  /-- the instruction caches of the eight cores, each core's lines oldest first (R181, R211) -/
  icache : List ILine
  /-- the program cache: line number of each 256-byte place at the top of local memory (R181, R211) -/
  pcache : List Nat
deriving DecidableEq, Repr

inductive CoreState where
  | idle
  | starting
  | running
  | ending
  | faulted
deriving DecidableEq, Repr

/-- A delivered buffer of a STREAM_IN queue: the vectors still to be popped (R193), and its packet. -/
structure InBuf where
  vecs : List (List Byte)
  pkt : Packet
  buf : Option Nat
deriving DecidableEq, Repr

/-- A packet being assembled by a STREAM_OUT queue (R196). -/
structure Asm where
  vecs : List (List Byte)
  /-- payload vectors it takes, known from its header -/
  need : Nat
  buf : Nat
  /-- the header template in force when its first vector was pushed (R250) -/
  template : List Byte
deriving DecidableEq, Repr

/-- A bound queue (R186, R189); kind 0 NULL, 1 RING, 2 WINDOW, 3 STREAM_IN, 4 STREAM_OUT. -/
structure Queue where
  bound : Bool
  kind : Nat
  space : Nat
  qd : Nat
  ring : Nat
  ends : Nat
  hdr : Bool
  sync : Nat
  syncEn : Bool
  base : Nat
  len : Nat
  rpos : Nat
  wpos : Nat
  bufs : List InBuf
  asm : Option Asm
  template : List Byte
deriving DecidableEq, Repr

/-- An outstanding ASEND item (R198, R200). -/
structure Item where
  n : Nat
  /-- its position in the core's order of the group (R198) -/
  pos : Nat
  k : Key
  rank : Nat
  pkt : Packet
  q : Nat
  deadline : Nat
deriving DecidableEq, Repr

structure Core where
  st : CoreState
  cmode : Bool
  pc : Nat
  s : Tab U64
  p : Nat
  sb : List Sb
  /-- instructions issued to the scoreboard so far -/
  issued : Nat
  items : List Item
  nextItem : Nat
  /-- items that this core has sent in each group (R198) -/
  order : Tab Nat
  /-- core_mask of the start descriptor (R216, R263) -/
  mask : Nat
  queues : Tab Queue
  crg : Nat
  crgLog2 : Nat
  crgHead : Nat
  crgTail : Nat
  startAt : Nat
  budgetAt : Option Nat
  doneSync : Nat
  doneEn : Bool
  /-- after a branch, the first cycle in which the next instruction issues (R251) -/
  issueFrom : Nat
  /-- a line fill is awaited (R211) -/
  fetching : Bool
  bySync : Bool
deriving DecidableEq, Repr

/-- The bytes of one member's stream in a library call (R261). -/
structure LibStream where
  rank : Nat
  segs : List (Nat × List Byte)
  total : Option Nat
  scount : Option Nat
  blocks : Nat
deriving DecidableEq, Repr

/-- A row that DISPATCH sent (R276). -/
structure DispRow where
  expert : Nat
  rank : Nat
  token : Nat
  slot : Nat
  gate : Nat
deriving DecidableEq, Repr

/-- The dispatch index of an ended DISPATCH call (R276). -/
structure DispCall where
  num : Nat
  rows : List DispRow
deriving DecidableEq, Repr

/-- An open library call (R259, R262, R263). -/
structure Call where
  off : Nat
  prog : Nat
  num : Nat
  /-- its block failed the check of R262 -/
  failed : Bool
  refused : Bool
  /-- the FIDs of the group's ranks, read when the call was taken (R148, R267) -/
  fids : List Nat
  streams : List LibStream
  rej : Nat
  dup : Nat
  late : Nat
  deadline : Option Nat
  /-- PGATHER: reservations held, with their buffers, and blocks held in staging only (R282) -/
  reserved : Bool
  wheyHeld : List Nat
  poolHeld : List Nat
  overflow : Nat
  /-- blocks kept, each with the whey buffer that holds it -/
  fetched : List (Nat × Option Nat)
deriving DecidableEq, Repr

/-- A library server, keyed by its intake core (R258). -/
structure Server where
  active : Bool
  ring : Nat
  log2 : Nat
  obj : Nat
  next : Nat
  call : Option Call
  /-- dispatch indexes kept until their COMBINE ends (R276) -/
  disps : List DispCall
deriving DecidableEq, Repr

structure TwinEntry where
  tseq : Nat
  kind : Nat
  bytes : List Byte
  sentAt : Nat
deriving DecidableEq, Repr

/-- The Twin interface beyond its registers (R360 to R375). -/
structure Twin where
  txSeq : Nat
  unacked : List TwinEntry
  rxNext : Nat
  held : List TwinEntry
  digests : List (Key × Nat)
  openLog : List Key
  doneLog : List Key
  unverified : List (Key × Nat)
  /-- keys that the twin aborted before this root's node was formed (R369) -/
  aborted : List Key
  lastRx : Option Nat
  heartSeen : Bool
  heartAt : Nat
  farCount : Nat
  aliasOn : Bool
  epochs : List (Nat × Nat)
  /-- DONE records that wait until every CRESULT of the key is acknowledged at link level (R372) -/
  doneWait : List (Key × List Byte)
deriving DecidableEq, Repr

/-- A self-test in progress (R386); `lane` is the lane of a multi-lane port that recalibrates by request. -/
structure TestRun where
  kind : Nat
  inst : Nat
  lane : Option Nat
  running : Bool
  deadline : Nat
deriving DecidableEq, Repr

/-- The architectural state of a Rind core (R394, R398, R402 to R406): its integer registers with the shadow bank of the first
fifteen, its floating-point registers, the control and status registers that a trap or a return writes, every other one by its
number (fcsr 0x003, the supervisor's, mscratch, mip, the delegation and counter registers, the 16 PMP entries), and the
reservation of LR. -/
structure Rind where
  x : Tab U64
  shadow : Tab U64
  pc : U64
  priv : Nat
  mstatus : U64
  mie : U64
  mtvec : U64
  mepc : U64
  mcause : U64
  mtval : U64
  mfepc : U64
  mfcause : U64
  fie : Bool
  active : Bool
  ppriv : Nat
  mftvec : U64
  csrs : Tab U64 := []
  fr : Tab U64 := []
  resv : Option Nat := .none
deriving DecidableEq, Repr

/-- A 64-byte line that caches of the Rind cores hold (R394): its bytes, the same in every cache that holds it (R396), and these
caches: k for the instruction cache of core k, 16 + k for its data cache, 32 + q for the level-2 cache of quadrant q. -/
structure RLine where
  bytes : List Byte
  caches : List Nat
deriving DecidableEq, Repr

inductive Pwr where
  | dark
  | slate
  | amber
  | gold
deriving DecidableEq, Repr

/-- A power-managed unit (R410): its state, the end of the transition under way (from GOLD to SLATE, from AMBER to GOLD,
from DARK upward), since when it is idle, and the always-on count of an accepted DARK write (R415). -/
structure PwrUnit where
  st : Pwr
  until_ : Option Nat
  idleSince : Nat
  darkAt : Option Nat
deriving DecidableEq, Repr

/-- A running Rennet command, with what it read when it started (R441). -/
structure RCmd where
  cmd : Nat
  slot : Nat
  pg : Nat
  arg : Nat
  input : List Byte
  meas : List Byte
deriving DecidableEq, Repr

/-- Rennet beyond its registers: the running command, the draws of its random number generator, and the code of a boot that
halted without recovery since the last power-on reset, 0 for none (R426, R434). -/
structure Rennet where
  cmd : Option RCmd
  draws : Nat
  halt : Nat
  /-- core 0 of QD0 has been released since the last reset (R431) -/
  released : Bool
  /-- the result of the last ATTEST, which no register shows (R442) -/
  attResult : Nat
deriving DecidableEq, Repr

/-- A running xSPI transfer (R468). -/
structure XCmd where
  op : Nat
  addr : Nat
  len : Nat
deriving DecidableEq, Repr

/-- The interface units (R468, R482). -/
structure Iface where
  i3cAddr : Nat
  i3cDyn : Option Nat
  xspi : Option XCmd
  mgmtRx : List (List Byte)
  pcieReady : Bool
  /-- the PMBus transaction under way: whether it reads, and its length code (R423) -/
  pmb : Option (Bool × Nat)
deriving DecidableEq, Repr

/-- A learned MAC address (R81). -/
structure MacEntry where
  vid : Nat
  mac : Nat
  port : Nat
  at_ : Nat
deriving DecidableEq, Repr

/-- A meter's token counts (R326) and the cycle they were last brought up to date. -/
structure Meter where
  tc : Nat
  tp : Nat
  at_ : Nat
deriving DecidableEq, Repr

/-- A kept MGMT reply (R74). -/
structure MgmtKept where
  src : Nat
  seq : Nat
  reply : Packet
deriving DecidableEq, Repr

/-- What a receiver has taken of a (src, dst, VC) (R73): the highest seq, and the seqs of accepted WRITEs not further than
2^23 behind it. -/
structure SeqSeen where
  src : Nat
  dst : Nat
  vc : Nat
  high : Nat
  got : List Nat
deriving DecidableEq, Repr

/-- Patrol scrub of a pseudo-channel: its next line, and the cycle of its last scrub read (R351). -/
structure Scrub where
  line : Nat
  at_ : Nat
deriving DecidableEq, Repr

/-- Bursts of reads and writes that wait in a pseudo-channel's queues (R353): landing-zone writes and the other latency-critical
ones, bulk ones, and the latency-critical bursts served since the last bulk burst while both queues had requests. -/
structure HbmQ where
  land : Nat
  lc : Nat
  bulk : Nat
  run : Nat
deriving DecidableEq, Repr

/-- What has left the module, in order (the model's own record of its outputs). -/
inductive Out where
  | lctl (port : Nat) (f : Lctl)
  | packet (port : Nat) (p : Packet) (aborted : Bool)
  | eth (port : Nat) (f : EthFrame)
  | pfc (port prio quanta : Nat)
  | readData (req addr : Nat) (v : U64)
  | syncOut
  | pmbus (addr code len : Nat) (isRead pec : Bool) (data : Nat)
  | mgmtFrame (frame : List Byte)
  | ns (port : Nat) (f : EthFrame)
deriving DecidableEq, Repr

structure State where
  pending : List Instr
  cyc : Nat
  same : SameCycle
  fuses : Fuses
  pins : Pins
  regs : Tab U64
  mem : List Host.Cell
  tele : Tab U64
  out : List Out
  ports : Tab Port
  waiting : List Waiting
  inbox : List InPkt
  /-- packets delivered to the switch's own units so far: the number of the next in order of arrival (R192) -/
  arrivals : Nat
  /-- frames received so far -/
  frames : Nat
  seqs : Tab Nat
  mgmtKept : List MgmtKept
  seen : List SeqSeen
  candPos : Tab Nat
  macs : List MacEntry
  meters : Tab Meter
  bufs : Tab Buf
  waiters : List Waiter
  /-- 1 for pool 8 x quadrant + p whose reserve a write has lowered below used_p, until used_p has fallen below it (R342) -/
  poolHold : Tab Nat
  /-- 32-bit words of SRAM whose parity is wrong: slice, or 4 + Vat for its local memory, and offset; nothing in the table makes
  one, a rewrite mends it (R345) -/
  upset : List (Nat × Nat)
  /-- 1 for a quadrant whose CEL_WHEY_STAT.low holds a value since it was last cleared (R358) -/
  wheySeen : Tab Nat
  slots : List Slot
  grps : Tab Grp
  fires : List Fire
  chainQ : List (Nat × Nat)
  chains : List Chain
  nextChain : Nat
  vats : Tab Vat
  cores : Tab Core
  servers : Tab Server
  /-- (group, rank, Vat) of the ranks that ASENDs have contributed for: the Vat is the member, and what comes for the rank is
  addressed to it (R146, R223) -/
  members : List (Nat × Nat × Nat)
  twin : Twin
  tally : Tally
  soft : List Nat
  rinds : Tab Rind
  /-- the lines in the caches of the Rind cores, by (2^38 x quadrant + byte address) / 64 (R394, R396) -/
  rlines : Tab RLine
  pwr : Tab PwrUnit
  /-- wake requests of the present always-on count, as (unit, count) (R415) -/
  asked : List (Nat × Nat)
  /-- units as they stood before a DARK write that has not yet taken them to DARK (R415) -/
  back : List (Nat × PwrUnit)
  test : Option TestRun
  /-- patrol scrub of pseudo-channel 32 x stack + k (R351) -/
  scrubs : Tab Scrub
  /-- the queues of pseudo-channel `puPc stack k` (R353) -/
  hbmQ : Tab HbmQ
  rennet : Rennet
  ifc : Iface
  draws : Nat
deriving DecidableEq, Repr

/-! ### Reset values of the records -/

def SameCycle.empty : SameCycle := ⟨[], [], [], [], [], [], [], [], [], [], [], [], .none⟩

/-- The part of this model: a XGL-9240 with no fuse of its owner blown and a 128 MiB flash (assumption 3). -/
def Fuses.reset : Fuses :=
  { grade := .xgl9240, rev := 0, serial := 0, macBase := 0, uds := List.replicate 48 0,
    keyHash := List.replicate 4 (List.replicate 48 0), revoked := 0, svn := 0, flashSize := 134217728 }

def Pins.reset : Pins :=
  { poresetN := true, sysresetN := true, pwrgood := true, perstN := true, thermTripN := true, faultN := true,
    pmbAlert := false, syncOut := 0, syncIn := none }

def Latch.zero : Latch := ⟨0, 0xFE, 0, 0, 0⟩

def Census.zero : Census := ⟨0, 0, 0, 0⟩

/-- A lane that belongs to no port (R460). -/
def Port.none : Port :=
  { formed := false, w := 1, eth := false, st := .down, step := 0, stepAt := 0, stepEnd := .none, retryAt := .none,
    helloAt := .none, echoDone := 0, echoAt := .none, rtt := 0, longReach := false, replayPg := .none, landPg := .none,
    rxOn := false, e := 0, nakSent := false, nakAt := .none, txSeq := 0, replay := [], resend := .none,
    replayAt := .none, replayRuns := 0, ackAt := .none, lastLctl := 0, gRx := List.replicate 7 0,
    cRx := List.replicate 7 0, lastIn := List.replicate 7 .none,
    credBufs := [], landSteps := List.replicate 7 0, headBufs := [], gTx := List.replicate 7 0, cTx := List.replicate 7 0,
    stateAt := .none, egress := [], copying := [], sendEnd := 0, sendTc := .none, sending := .none, deficit := List.replicate 8 0,
    drrPos := 0, inVisit := false, lastVc := List.replicate 8 6, shaper := List.replicate 8 ⟨0, 0⟩, gateIdx := 0,
    gateEnd := .none, gateStart := 0, gateArmed := false, stepCur := 0, gatePend := 0,
    pausedTo := List.replicate 8 .none, xoffSent := List.replicate 8 false, refreshAt := List.replicate 8 .none,
    pfcDue := [], cdnSince := .none, parkedLanes := [], dropped := [], laneReqs := [], laneAns := [],
    recalLanes := [], recalTo := .none, idleSince := 0, unparkAt := 0 }

def HbmQ.empty : HbmQ := ⟨0, 0, 0, 0⟩

def Buf.free : Buf := ⟨.free, 0, 0, .none, 0, false⟩

def Grp.reset : Grp := ⟨.none, false, .none, 0, 0, .none, [], [], 0, [], .idle, false, []⟩

def Vat.reset : Vat := ⟨[], [], [], []⟩

def Ring.empty : Ring := ⟨0, 0⟩

def Queue.unbound : Queue :=
  { bound := false, kind := 0, space := 0, qd := 0, ring := 0, ends := 0, hdr := false, sync := 0, syncEn := false,
    base := 0, len := 0, rpos := 0, wpos := 0, bufs := [], asm := .none, template := List.replicate 64 0 }

/-- An IDLE core (R218). -/
def Core.idle : Core :=
  { st := .idle, cmode := false, pc := 0, s := [], p := 0, sb := [], issued := 0, items := [], nextItem := 0,
    order := [], mask := 0, queues := [], crg := 0,
    crgLog2 := 4, crgHead := 0, crgTail := 0, startAt := 0, budgetAt := .none, doneSync := 0, doneEn := false,
    issueFrom := 0, fetching := false, bySync := false }

def Server.none : Server := ⟨false, 0, 0, 0, 0, .none, []⟩

def Twin.reset : Twin :=
  { txSeq := 0, unacked := [], rxNext := 0, held := [], digests := [], openLog := [], doneLog := [], unverified := [], aborted := [],
    lastRx := .none, heartSeen := false, heartAt := 0, farCount := 0, aliasOn := false, epochs := [],
    doneWait := [] }

def Tally.reset : Tally := ⟨[], .none⟩

/-- A Rind core held in reset (R398): M-mode, fast delivery disabled (R403). -/
def Rind.reset : Rind :=
  { x := [], shadow := [], pc := 0, priv := 3, mstatus := 0, mie := 0, mtvec := 0, mepc := 0, mcause := 0, mtval := 0,
    mfepc := 0, mfcause := 0, fie := false, active := false, ppriv := 0, mftvec := 0 }

/-- A line that no cache holds. -/
def RLine.none : RLine := ⟨[], []⟩

/-- A unit that runs (R410). -/
def PwrUnit.gold : PwrUnit := ⟨.gold, .none, 0, .none⟩

def Rennet.reset : Rennet := ⟨.none, 0, 0, false, 0⟩

def Iface.reset : Iface := ⟨0, .none, .none, [], true, .none⟩

/-- The module right after reset: every register at its Reset value (R455), nothing in any queue, memory with nothing
listed, the boot sequence of R434 not yet run (the row PORESET_RELEASE runs it). -/
def State.reset : State :=
  { pending := [], cyc := 0, same := .empty, fuses := .reset, pins := .reset, regs := [], mem := [], tele := [],
    out := [], ports := [], waiting := [], inbox := [], arrivals := 0, frames := 0, seqs := [], mgmtKept := [],
    seen := [], candPos := [], macs := [], meters := [], bufs := [], waiters := [], poolHold := [], upset := [],
    wheySeen := [], slots := [], grps := [], fires := [], chainQ := [], chains := [],
    nextChain := 0, vats := [], cores := [], servers := [], members := [], twin := .reset, tally := .reset, soft := [],
    rinds := [], rlines := [],
    pwr := [], asked := [], back := [], test := .none, scrubs := [], hbmQ := [], rennet := .reset, ifc := .reset, draws := 0 }

end Sys2Proof.Machine
end

