-- ==== Sys2Proof/Machine/RegMap.lean ====
section
/-!
DEFINITION. The register map of 15_registers.md: every field of every register as (offset in its page or window entry,
least significant bit, width), its access code (R9; `cnt` is a counter of R489) and its Reset value; the pages of R448 and
the windows of R449; which of them each grade carries (R1 to R4).
-/
namespace Sys2Proof.Machine

/-- A field: offset of its register in the page (or window entry), lsb, width. -/
structure Fd where
  off : Nat
  l : Nat
  w : Nat
deriving DecidableEq, Repr

/-- The access codes of R9, and `cnt` for the counters of R489. -/
inductive Acc where
  | rw
  | ro
  | w1c
  | wo
  | cnt
deriving DecidableEq, Repr

structure FieldRow where
  fd : Fd
  acc : Acc
  reset : Nat
deriving DecidableEq, Repr

/-- A register or an array of `count` registers, `stride` bytes apart. -/
structure RegRow where
  off : Nat
  stride : Nat
  count : Nat
  fields : List FieldRow
deriving DecidableEq, Repr

/-- The block pages of R448 and R449 and the array windows of R449. -/
inductive PKind where
  | lane
  | press
  | vat
  | cellar
  | hbm
  | swc
  | rind
  | pwr
  | rennet
  | tally
  | twin
  | grpctl
  | routectl
  | pcie
  | mgmt
  | i3c
  | xspi
  | wGrp
  | wMask
  | wMeter
  | wCand
  | wUdp
  | wInb
  | wRoute
  | wSync
deriving DecidableEq, Repr

/-- Where a BAR address lies: the kind of page or window, the number of the unit or entry, the BAR address at which the page
or entry begins, and the offset in it. -/
structure Loc where
  kind : PKind
  inst : Nat
  base : Nat
  off : Nat
deriving DecidableEq, Repr

/-! ### Fields -/

/-- BLK_ID.type (R456). -/
def blkId_type : Fd := ⟨0x0, 0, 8⟩

/-- BLK_ID.inst (R456). -/
def blkId_inst : Fd := ⟨0x0, 8, 16⟩

/-- BLK_ID.rev (R456). -/
def blkId_rev : Fd := ⟨0x0, 24, 8⟩

/-- BLK_ID.vendor (R456). -/
def blkId_vendor : Fd := ⟨0x0, 32, 16⟩

/-- BLK_CAP.present (R456). -/
def blkCap_present : Fd := ⟨0x8, 0, 1⟩

/-- BLK_CAP.dark_ok (R456). -/
def blkCap_darkOk : Fd := ⟨0x8, 1, 1⟩

/-- BLK_CAP.drain_ok (R456). -/
def blkCap_drainOk : Fd := ⟨0x8, 2, 1⟩

/-- BLK_CAP.ver (R456). -/
def blkCap_ver : Fd := ⟨0x8, 8, 8⟩

/-- BLK_CAP.spec (R456). -/
def blkCap_spec : Fd := ⟨0x8, 16, 48⟩

/-- BLK_CTRL.enable (R456). -/
def blkCtrl_enable : Fd := ⟨0x10, 0, 1⟩

/-- BLK_CTRL.drain (R456). -/
def blkCtrl_drain : Fd := ⟨0x10, 1, 1⟩

/-- BLK_CTRL.reset (R456). -/
def blkCtrl_reset : Fd := ⟨0x10, 2, 1⟩

/-- BLK_STAT.pwr (R456). -/
def blkStat_pwr : Fd := ⟨0x18, 0, 2⟩

/-- BLK_STAT.draining (R456). -/
def blkStat_draining : Fd := ⟨0x18, 2, 1⟩

/-- BLK_STAT.drained (R456). -/
def blkStat_drained : Fd := ⟨0x18, 3, 1⟩

/-- BLK_STAT.disabled (R456). -/
def blkStat_disabled : Fd := ⟨0x18, 4, 1⟩

/-- BLK_STAT.fault (R456). -/
def blkStat_fault : Fd := ⟨0x18, 5, 1⟩

/-- BLK_EV_STAT.ev (R456). -/
def blkEvStat_ev : Fd := ⟨0x20, 0, 64⟩

/-- BLK_EV_EN.en (R456). -/
def blkEvEn_en : Fd := ⟨0x28, 0, 64⟩

/-- BLK_EV_TEST.test (R456). -/
def blkEvTest_test : Fd := ⟨0x30, 0, 64⟩

/-- BLK_ERR_CNT.count (R456). -/
def blkErrCnt_count : Fd := ⟨0x38, 0, 32⟩

/-- BLK_ERR_CNT.last_off (R456). -/
def blkErrCnt_lastOff : Fd := ⟨0x38, 32, 24⟩

/-- BLK_ERR_CNT.cause (R456). -/
def blkErrCnt_cause : Fd := ⟨0x38, 56, 4⟩

/-- PRT_CFG.width (R461). -/
def prtCfg_width : Fd := ⟨0x100, 0, 2⟩

/-- PRT_CFG.mode (R461). -/
def prtCfg_mode : Fd := ⟨0x100, 2, 1⟩

/-- PRT_CFG.dateline (R461). -/
def prtCfg_dateline : Fd := ⟨0x100, 3, 1⟩

/-- PRT_CFG.mgmt_en (R461). -/
def prtCfg_mgmtEn : Fd := ⟨0x100, 4, 1⟩

/-- PRT_CFG.up_req (R461). -/
def prtCfg_upReq : Fd := ⟨0x100, 5, 1⟩

/-- PRT_CFG.snap (R461). -/
def prtCfg_snap : Fd := ⟨0x100, 6, 1⟩

/-- PRT_CFG.tel_clr (R461). -/
def prtCfg_telClr : Fd := ⟨0x100, 7, 1⟩

/-- PRT_STAT.state (R461). -/
def prtStat_state : Fd := ⟨0x108, 0, 2⟩

/-- PRT_STAT.step (R461). -/
def prtStat_step : Fd := ⟨0x108, 2, 4⟩

/-- PRT_STAT.long_reach (R461). -/
def prtStat_longReach : Fd := ⟨0x108, 6, 1⟩

/-- PRT_STAT.rtt (R461). -/
def prtStat_rtt : Fd := ⟨0x108, 8, 28⟩

/-- PRT_STAT.lanes (R461). -/
def prtStat_lanes : Fd := ⟨0x108, 36, 4⟩

/-- PRT_MAC.mac (R461). -/
def prtMac_mac : Fd := ⟨0x110, 0, 48⟩

/-- PRT_ETH.pvid (R461). -/
def prtEth_pvid : Fd := ⟨0x118, 0, 12⟩

/-- PRT_ETH.eth_rtt (R461). -/
def prtEth_ethRtt : Fd := ⟨0x118, 12, 6⟩

/-- PRT_SCHED.sp (R333). -/
def prtSched_sp : Fd := ⟨0x200, 0, 8⟩

/-- PRT_SCHED.orig_tc (R333). -/
def prtSched_origTc : Fd := ⟨0x200, 8, 21⟩

/-- PRT_SCHED.ovh_nat (R333). -/
def prtSched_ovhNat : Fd := ⟨0x200, 29, 6⟩

/-- PRT_SCHED.ovh_eth (R333). -/
def prtSched_ovhEth : Fd := ⟨0x200, 35, 6⟩

/-- PRT_SCHED.ce_th (R333). -/
def prtSched_ceTh : Fd := ⟨0x200, 41, 20⟩

/-- PRT_QUANTUM.quantum t (R333). -/
def prtQuantum_quantum (t : Nat) : Fd := ⟨0x208, 8 * t + 0, 8⟩

/-- PRT_METER.mbase (R333). -/
def prtMeter_mbase : Fd := ⟨0x210, 0, 12⟩

/-- PRT_METER.men (R333). -/
def prtMeter_men : Fd := ⟨0x210, 12, 8⟩

/-- PRT_GATE_CFG.gate_en (R333). -/
def prtGateCfg_gateEn : Fd := ⟨0x218, 0, 1⟩

/-- PRT_GATE_CFG.gate_on (R333). -/
def prtGateCfg_gateOn : Fd := ⟨0x218, 1, 1⟩

/-- PRT_GATE_CFG.sync_en (R333). -/
def prtGateCfg_syncEn : Fd := ⟨0x218, 2, 1⟩

/-- PRT_GATE_CFG.len_m1 (R333). -/
def prtGateCfg_lenM1 : Fd := ⟨0x218, 3, 8⟩

/-- PRT_GATE_CFG.shift_max (R333). -/
def prtGateCfg_shiftMax : Fd := ⟨0x218, 11, 22⟩

/-- PRT_GATE_CFG.bad_idx (R333). -/
def prtGateCfg_badIdx : Fd := ⟨0x218, 33, 8⟩

/-- PRT_GATE_SYNC.sync_off (R333). -/
def prtGateSync_syncOff : Fd := ⟨0x220, 0, 31⟩

/-- PRT_GATE_SYNC.pending (R333). -/
def prtGateSync_pending : Fd := ⟨0x220, 32, 32⟩

/-- PRT_GATE_STAT.cycles (R333). -/
def prtGateStat_cycles : Fd := ⟨0x228, 0, 32⟩

/-- PRT_GATE_STAT.overrun (R333). -/
def prtGateStat_overrun : Fd := ⟨0x228, 32, 16⟩

/-- PRT_GATE_STAT.edges (R333). -/
def prtGateStat_edges : Fd := ⟨0x228, 48, 16⟩

/-- PRT_PFC.pfc_en (R333). -/
def prtPfc_pfcEn : Fd := ⟨0x230, 0, 8⟩

/-- PRT_PFC.cup_pcp (R333). -/
def prtPfc_cupPcp : Fd := ⟨0x230, 8, 3⟩

/-- PRT_PFC.cdn_pcp (R333). -/
def prtPfc_cdnPcp : Fd := ⟨0x230, 11, 3⟩

/-- PRT_PFC.cdn_pause_limit (R333). -/
def prtPfc_cdnPauseLimit : Fd := ⟨0x230, 14, 18⟩

/-- PRT_PFC.taildrop (R333). -/
def prtPfc_taildrop : Fd := ⟨0x230, 32, 16⟩

/-- PRT_PFC_TH.xoff (R333). -/
def prtPfcTh_xoff : Fd := ⟨0x238, 0, 24⟩

/-- PRT_PFC_TH.xon (R333). -/
def prtPfcTh_xon : Fd := ⟨0x238, 24, 24⟩

/-- PRT_PARK.park_en (R424). -/
def prtPark_parkEn : Fd := ⟨0x240, 0, 1⟩

/-- PRT_PARK.cup_wake (R424). -/
def prtPark_cupWake : Fd := ⟨0x240, 1, 1⟩

/-- PRT_PARK.park_us (R424). -/
def prtPark_parkUs : Fd := ⟨0x240, 2, 16⟩

/-- PRT_PARK.unpark_bytes (R424). -/
def prtPark_unparkBytes : Fd := ⟨0x240, 18, 24⟩

/-- PRT_PARK.parked (R424). -/
def prtPark_parked : Fd := ⟨0x240, 42, 3⟩

/-- PRT_SHAPE.rate (R333). -/
def prtShape_rate : Fd := ⟨0x280, 0, 20⟩

/-- PRT_SHAPE.burst (R333). -/
def prtShape_burst : Fd := ⟨0x280, 20, 24⟩

/-- PRT_TEL_VC.value (R462). -/
def prtTelVc_value : Fd := ⟨0x400, 0, 64⟩

/-- PRT_TEL.value (R462). -/
def prtTel_value : Fd := ⟨0x5C0, 0, 64⟩

/-- PRT_TEL_PFC.value (R462). -/
def prtTelPfc_value : Fd := ⟨0x660, 0, 64⟩

/-- PRT_TEL_RETRY.value (R462). -/
def prtTelRetry_value : Fd := ⟨0x6E0, 0, 64⟩

/-- PRT_GCL.open (R333). -/
def prtGcl_open : Fd := ⟨0x800, 0, 8⟩

/-- PRT_GCL.interval (R333). -/
def prtGcl_interval : Fd := ⟨0x800, 8, 24⟩

/-- PRS_SCOPE_ERR.group (R463). -/
def prsScopeErr_group : Fd := ⟨0x100, 0, 12⟩

/-- PRS_SCOPE_ERR.index (R463). -/
def prsScopeErr_index : Fd := ⟨0x100, 12, 18⟩

/-- PRS_SCOPE_ERR.check (R463). -/
def prsScopeErr_check : Fd := ⟨0x100, 30, 3⟩

/-- PRS_SCOPE_ERR.valid (R463). -/
def prsScopeErr_valid : Fd := ⟨0x100, 33, 1⟩

/-- PRS_DUP_CNT.dup (R463). -/
def prsDupCnt_dup : Fd := ⟨0x108, 0, 32⟩

/-- PRS_SPILL_CNT.spill (R463). -/
def prsSpillCnt_spill : Fd := ⟨0x110, 0, 32⟩

/-- PRS_REDELIVER_CNT.redeliver (R463). -/
def prsRedeliverCnt_redeliver : Fd := ⟨0x118, 0, 32⟩

/-- PRS_LOAD.slots (R463). -/
def prsLoad_slots : Fd := ⟨0x120, 0, 20⟩

/-- PRS_LOAD.adds (R463). -/
def prsLoad_adds : Fd := ⟨0x120, 20, 44⟩

/-- VAT_CFG.pc_size (R224). -/
def vatCfg_pcSize : Fd := ⟨0x100, 0, 3⟩

/-- VAT_CFG.inval (R224). -/
def vatCfg_inval : Fd := ⟨0x100, 3, 1⟩

/-- VAT_CFG.scale_lo (R224). -/
def vatCfg_scaleLo : Fd := ⟨0x100, 8, 8⟩

/-- VAT_CFG.scale_hi (R224). -/
def vatCfg_scaleHi : Fd := ⟨0x100, 16, 8⟩

/-- VAT_PSTORE.ps_pg (R224). -/
def vatPstore_psPg : Fd := ⟨0x108, 0, 26⟩

/-- VAT_PSTORE.ps_pages (R224). -/
def vatPstore_psPages : Fd := ⟨0x108, 26, 17⟩

/-- VAT_START.desc (R224). -/
def vatStart_desc : Fd := ⟨0x110, 0, 24⟩

/-- VAT_SQ.depth (R224). -/
def vatSq_depth : Fd := ⟨0x118, 0, 7⟩

/-- VAT_CORE_CTRL.stop (R224). -/
def vatCoreCtrl_stop : Fd := ⟨0x120, 0, 8⟩

/-- VAT_CORE_CTRL.clear (R224). -/
def vatCoreCtrl_clear : Fd := ⟨0x120, 8, 8⟩

/-- VAT_CNT.refused (R224). -/
def vatCnt_refused : Fd := ⟨0x128, 0, 16⟩

/-- VAT_CNT.inb (R224). -/
def vatCnt_inb : Fd := ⟨0x128, 16, 16⟩

/-- VAT_CNT.rdisc (R224). -/
def vatCnt_rdisc : Fd := ⟨0x128, 32, 16⟩

/-- VAT_CNT.partial (R224). -/
def vatCnt_partial : Fd := ⟨0x128, 48, 16⟩

/-- VAT_CORE_STAT.state (R224). -/
def vatCoreStat_state : Fd := ⟨0x140, 0, 3⟩

/-- VAT_CORE_STAT.cmode (R224). -/
def vatCoreStat_cmode : Fd := ⟨0x140, 3, 1⟩

/-- VAT_CORE_STAT.sb_used (R224). -/
def vatCoreStat_sbUsed : Fd := ⟨0x140, 4, 6⟩

/-- VAT_CORE_STAT.items (R224). -/
def vatCoreStat_items : Fd := ⟨0x140, 10, 16⟩

/-- VAT_CORE_STAT.pc (R224). -/
def vatCoreStat_pc : Fd := ⟨0x140, 26, 24⟩

/-- VAT_EXC.code (R224). -/
def vatExc_code : Fd := ⟨0x180, 0, 8⟩

/-- VAT_EXC.pc (R224). -/
def vatExc_pc : Fd := ⟨0x180, 8, 24⟩

/-- VAT_EXC.vec (R224). -/
def vatExc_vec : Fd := ⟨0x180, 32, 16⟩

/-- VAT_CENSUS.nan (R224). -/
def vatCensus_nan : Fd := ⟨0x1C0, 0, 16⟩

/-- VAT_CENSUS.inf (R224). -/
def vatCensus_inf : Fd := ⟨0x1C0, 16, 16⟩

/-- VAT_CENSUS.rsv_code (R224). -/
def vatCensus_rsvCode : Fd := ⟨0x1C0, 32, 16⟩

/-- VAT_CENSUS.scale (R224). -/
def vatCensus_scale : Fd := ⟨0x1C0, 48, 16⟩

/-- CEL_AREA.open_pages (R358). -/
def celArea_openPages : Fd := ⟨0x100, 0, 16⟩

/-- CEL_AREA.n_bufs (R358). -/
def celArea_nBufs : Fd := ⟨0x100, 16, 16⟩

/-- CEL_IND_ADDR.off (R358). -/
def celIndAddr_off : Fd := ⟨0x108, 3, 24⟩

/-- CEL_IND_ADDR.inc (R358). -/
def celIndAddr_inc : Fd := ⟨0x108, 27, 1⟩

/-- CEL_IND_DATA.data (R358). -/
def celIndData_data : Fd := ⟨0x110, 0, 64⟩

/-- CEL_WHEY.whey_pg (R358). -/
def celWhey_wheyPg : Fd := ⟨0x118, 0, 26⟩

/-- CEL_WHEY.whey_n (R358). -/
def celWhey_wheyN : Fd := ⟨0x118, 26, 24⟩

/-- CEL_WHEY_STAT.free (R358). -/
def celWheyStat_free : Fd := ⟨0x120, 0, 24⟩

/-- CEL_WHEY_STAT.low (R358). -/
def celWheyStat_low : Fd := ⟨0x120, 24, 24⟩

/-- CEL_WHEY_STAT.waits (R358). -/
def celWheyStat_waits : Fd := ⟨0x120, 48, 16⟩

/-- CEL_LINK.lr_pg (R358). -/
def celLink_lrPg : Fd := ⟨0x128, 0, 26⟩

/-- CEL_LINK.lr_pages (R358). -/
def celLink_lrPages : Fd := ⟨0x128, 26, 26⟩

/-- CEL_CNT.ptr (R358). -/
def celCnt_ptr : Fd := ⟨0x130, 0, 16⟩

/-- CEL_CNT.dfree (R358). -/
def celCnt_dfree : Fd := ⟨0x130, 16, 16⟩

/-- CEL_CNT.badfree (R358). -/
def celCnt_badfree : Fd := ⟨0x130, 32, 16⟩

/-- CEL_CNT.runder (R358). -/
def celCnt_runder : Fd := ⟨0x130, 48, 16⟩

/-- CEL_PAR.replay (R358). -/
def celPar_replay : Fd := ⟨0x138, 0, 32⟩

/-- CEL_PAR.hard (R358). -/
def celPar_hard : Fd := ⟨0x138, 32, 16⟩

/-- CEL_POOL.res (R358). -/
def celPool_res : Fd := ⟨0x140, 0, 16⟩

/-- CEL_POOL.cap (R358). -/
def celPool_cap : Fd := ⟨0x140, 16, 16⟩

/-- CEL_POOL.used (R358). -/
def celPool_used : Fd := ⟨0x140, 32, 16⟩

/-- CEL_POOL.hwm (R358). -/
def celPool_hwm : Fd := ⟨0x140, 48, 16⟩

/-- CEL_POOL_WAIT.wait t (R358). -/
def celPoolWait_wait (t : Nat) : Fd := ⟨0x180, 8 * t + 0, 8⟩

/-- HBM_CFG.floor (R359). -/
def hbmCfg_floor : Fd := ⟨0x100, 0, 2⟩

/-- HBM_CFG.scrub_en (R359). -/
def hbmCfg_scrubEn : Fd := ⟨0x100, 2, 1⟩

/-- HBM_CFG.scrub_us (R359). -/
def hbmCfg_scrubUs : Fd := ⟨0x100, 3, 20⟩

/-- HBM_ECC.corr (R359). -/
def hbmEcc_corr : Fd := ⟨0x108, 0, 24⟩

/-- HBM_ECC.uncorr (R359). -/
def hbmEcc_uncorr : Fd := ⟨0x108, 24, 16⟩

/-- HBM_ECC.reread_ok (R359). -/
def hbmEcc_rereadOk : Fd := ⟨0x108, 40, 16⟩

/-- HBM_ERR_ADDR.page (R359). -/
def hbmErrAddr_page : Fd := ⟨0x110, 0, 26⟩

/-- HBM_ERR_ADDR.line (R359). -/
def hbmErrAddr_line : Fd := ⟨0x110, 26, 6⟩

/-- HBM_ERR_ADDR.valid (R359). -/
def hbmErrAddr_valid : Fd := ⟨0x110, 32, 1⟩

/-- HBM_BW_LC.bytes (R359). -/
def hbmBwLc_bytes : Fd := ⟨0x118, 0, 64⟩

/-- HBM_BW_BULK.bytes (R359). -/
def hbmBwBulk_bytes : Fd := ⟨0x120, 0, 64⟩

/-- HBM_STAT.sr (R359). -/
def hbmStat_sr : Fd := ⟨0x128, 0, 32⟩

/-- HBM_STAT.temp (R359). -/
def hbmStat_temp : Fd := ⟨0x128, 32, 8⟩

/-- EVC_CTRL.norm_en (R422). -/
def evcCtrl_normEn : Fd := ⟨0x100, 0, 1⟩

/-- EVC_CTRL.fast_en (R422). -/
def evcCtrl_fastEn : Fd := ⟨0x100, 1, 1⟩

/-- EVC_CTRL.unwind (R422). -/
def evcCtrl_unwind : Fd := ⟨0x100, 2, 1⟩

/-- EVC_CUR.n_src (R422). -/
def evcCur_nSrc : Fd := ⟨0x108, 0, 10⟩

/-- EVC_CUR.n_valid (R422). -/
def evcCur_nValid : Fd := ⟨0x108, 10, 1⟩

/-- EVC_CUR.f_src (R422). -/
def evcCur_fSrc : Fd := ⟨0x108, 16, 10⟩

/-- EVC_CUR.f_valid (R422). -/
def evcCur_fValid : Fd := ⟨0x108, 26, 1⟩

/-- EVC_CUR.order (R422). -/
def evcCur_order : Fd := ⟨0x108, 27, 1⟩

/-- EVC_DONE.src (R422). -/
def evcDone_src : Fd := ⟨0x110, 0, 10⟩

/-- EVC_SSET.src (R422). -/
def evcSset_src : Fd := ⟨0x118, 0, 10⟩

/-- EVC_SCLR.src (R422). -/
def evcSclr_src : Fd := ⟨0x120, 0, 10⟩

/-- EVC_ERR.stray (R422). -/
def evcErr_stray : Fd := ⟨0x128, 0, 16⟩

/-- EVC_ERR.order (R422). -/
def evcErr_order : Fd := ⟨0x128, 16, 16⟩

/-- EVC_ERR.soft_bad (R422). -/
def evcErr_softBad : Fd := ⟨0x128, 32, 16⟩

/-- EVC_MEM.mem_pg (R422). -/
def evcMem_memPg : Fd := ⟨0x130, 0, 26⟩

/-- EVC_MEM.mem_pages (R422). -/
def evcMem_memPages : Fd := ⟨0x130, 26, 24⟩

/-- EVC_CORE.hold (R422). -/
def evcCore_hold : Fd := ⟨0x138, 0, 1⟩

/-- EVC_CORE.wfi (R422). -/
def evcCore_wfi : Fd := ⟨0x138, 1, 1⟩

/-- EVC_CORE.rvec (R422). -/
def evcCore_rvec : Fd := ⟨0x138, 2, 46⟩

/-- EVC_LEVEL.level (R422). -/
def evcLevel_level : Fd := ⟨0x200, 0, 64⟩

/-- EVC_PEND.pend (R422). -/
def evcPend_pend : Fd := ⟨0x280, 0, 64⟩

/-- EVC_CFG.cfg t (R422). -/
def evcCfg_cfg (t : Nat) : Fd := ⟨0x400, 8 * t + 0, 6⟩

/-- EVC_BPEND0.bits (R422). -/
def evcBpend0_bits : Fd := ⟨0x800, 0, 64⟩

/-- EVC_BPEND1.bits (R422). -/
def evcBpend1_bits : Fd := ⟨0x820, 0, 64⟩

/-- EVC_BPEND2.bits (R422). -/
def evcBpend2_bits : Fd := ⟨0x840, 0, 64⟩

/-- EVC_BPEND3.bits (R422). -/
def evcBpend3_bits : Fd := ⟨0x860, 0, 64⟩

/-- GRP_CMD.group (R149). -/
def grpCmd_group : Fd := ⟨0x100, 0, 12⟩

/-- GRP_CMD.cmd (R149). -/
def grpCmd_cmd : Fd := ⟨0x100, 12, 4⟩

/-- GRP_CMD.qd (R149). -/
def grpCmd_qd : Fd := ⟨0x100, 16, 2⟩

/-- GRP_EPOCH_LIM.epoch_min (R149). -/
def grpEpochLim_epochMin : Fd := ⟨0x108, 0, 28⟩

/-- GRP_EPOCH_LIM.epoch_max (R149). -/
def grpEpochLim_epochMax : Fd := ⟨0x108, 32, 28⟩

/-- GRP_CNT.chk (R149). -/
def grpCnt_chk : Fd := ⟨0x110, 0, 16⟩

/-- GRP_CNT.range (R149). -/
def grpCnt_range : Fd := ⟨0x110, 16, 16⟩

/-- GRP_CNT.early (R149). -/
def grpCnt_early : Fd := ⟨0x110, 32, 16⟩

/-- GRP_CNT.timeout (R149). -/
def grpCnt_timeout : Fd := ⟨0x110, 48, 16⟩

/-- GRP_CLOG.clog_pg (R149). -/
def grpClog_clogPg : Fd := ⟨0x118, 0, 26⟩

/-- GRP_CLOG.clog_log2 (R149). -/
def grpClog_clogLog2 : Fd := ⟨0x118, 26, 5⟩

/-- GRP_CLOG_HEAD.head (R149). -/
def grpClogHead_head : Fd := ⟨0x120, 0, 64⟩

/-- PRT_RTE_CFG.own_fid (R464). -/
def prtRteCfg_ownFid : Fd := ⟨0x100, 0, 20⟩

/-- PRT_UDP_CFG.udp_dport (R464). -/
def prtUdpCfg_udpDport : Fd := ⟨0x108, 0, 16⟩

/-- PRT_UDP_CFG.mac_age (R464). -/
def prtUdpCfg_macAge : Fd := ⟨0x108, 16, 16⟩

/-- PRT_UDP_CFG.learn_full (R464). -/
def prtUdpCfg_learnFull : Fd := ⟨0x108, 32, 16⟩

/-- PRT_IP6_LO.ip6_lo (R464). -/
def prtIp6Lo_ip6Lo : Fd := ⟨0x110, 0, 64⟩

/-- PRT_IP6_HI.ip6_hi (R464). -/
def prtIp6Hi_ip6Hi : Fd := ⟨0x118, 0, 64⟩

/-- PWR_CTRL.auto_park (R423). -/
def pwrCtrl_autoPark : Fd := ⟨0x100, 0, 1⟩

/-- PWR_CTRL.warn_c (R423). -/
def pwrCtrl_warnC : Fd := ⟨0x100, 8, 8⟩

/-- PWR_IDLE.press_idle (R423). -/
def pwrIdle_pressIdle : Fd := ⟨0x108, 0, 16⟩

/-- PWR_IDLE.vat_idle (R423). -/
def pwrIdle_vatIdle : Fd := ⟨0x108, 16, 16⟩

/-- PWR_IDLE.hbm_idle (R423). -/
def pwrIdle_hbmIdle : Fd := ⟨0x108, 32, 16⟩

/-- PWR_HOLD.press (R423). -/
def pwrHold_press : Fd := ⟨0x110, 0, 32⟩

/-- PWR_HOLD.vats (R423). -/
def pwrHold_vats : Fd := ⟨0x110, 32, 32⟩

/-- PWR_DARK_A.press (R423). -/
def pwrDarkA_press : Fd := ⟨0x118, 0, 32⟩

/-- PWR_DARK_A.vats (R423). -/
def pwrDarkA_vats : Fd := ⟨0x118, 32, 32⟩

/-- PWR_DARK_B.stacks (R423). -/
def pwrDarkB_stacks : Fd := ⟨0x120, 0, 20⟩

/-- PWR_DARK_B.rind (R423). -/
def pwrDarkB_rind : Fd := ⟨0x120, 20, 16⟩

/-- PWR_STATE_PRS.state (R423). -/
def pwrStatePrs_state : Fd := ⟨0x128, 0, 64⟩

/-- PWR_STATE_VAT.state (R423). -/
def pwrStateVat_state : Fd := ⟨0x130, 0, 64⟩

/-- PWR_STATE_HBM.state (R423). -/
def pwrStateHbm_state : Fd := ⟨0x138, 0, 40⟩

/-- PWR_CNT.wakes (R423). -/
def pwrCnt_wakes : Fd := ⟨0x140, 0, 32⟩

/-- PWR_CNT.dark_refused (R423). -/
def pwrCnt_darkRefused : Fd := ⟨0x140, 32, 16⟩

/-- PWR_AVS.rec_mv (R423). -/
def pwrAvs_recMv : Fd := ⟨0x180, 0, 12⟩

/-- PWR_AVS.temp (R423). -/
def pwrAvs_temp : Fd := ⟨0x180, 16, 8⟩

/-- PWR_PMB_CMD.addr (R423). -/
def pwrPmbCmd_addr : Fd := ⟨0x1C0, 0, 7⟩

/-- PWR_PMB_CMD.code (R423). -/
def pwrPmbCmd_code : Fd := ⟨0x1C0, 7, 8⟩

/-- PWR_PMB_CMD.len (R423). -/
def pwrPmbCmd_len : Fd := ⟨0x1C0, 15, 2⟩

/-- PWR_PMB_CMD.read (R423). -/
def pwrPmbCmd_read : Fd := ⟨0x1C0, 17, 1⟩

/-- PWR_PMB_CMD.pec (R423). -/
def pwrPmbCmd_pec : Fd := ⟨0x1C0, 18, 1⟩

/-- PWR_PMB_CMD.go (R423). -/
def pwrPmbCmd_go : Fd := ⟨0x1C0, 19, 1⟩

/-- PWR_PMB_CMD.busy (R423). -/
def pwrPmbCmd_busy : Fd := ⟨0x1C0, 20, 1⟩

/-- PWR_PMB_CMD.fail (R423). -/
def pwrPmbCmd_fail : Fd := ⟨0x1C0, 21, 1⟩

/-- PWR_PMB_DATA.data (R423). -/
def pwrPmbData_data : Fd := ⟨0x1C8, 0, 16⟩

/-- RNT_BOOT.code_a (R447). -/
def rntBoot_codeA : Fd := ⟨0x100, 0, 8⟩

/-- RNT_BOOT.code_b (R447). -/
def rntBoot_codeB : Fd := ⟨0x100, 8, 8⟩

/-- RNT_BOOT.code_rec (R447). -/
def rntBoot_codeRec : Fd := ⟨0x100, 16, 8⟩

/-- RNT_BOOT.src (R447). -/
def rntBoot_src : Fd := ⟨0x100, 24, 2⟩

/-- RNT_BOOT.halted (R447). -/
def rntBoot_halted : Fd := ⟨0x100, 26, 1⟩

/-- RNT_BOOT.svn_fused (R447). -/
def rntBoot_svnFused : Fd := ⟨0x100, 27, 7⟩

/-- RNT_BOOT.svn_img (R447). -/
def rntBoot_svnImg : Fd := ⟨0x100, 34, 7⟩

/-- RNT_BOOT.key_idx (R447). -/
def rntBoot_keyIdx : Fd := ⟨0x100, 41, 2⟩

/-- RNT_BOOT.revoked (R447). -/
def rntBoot_revoked : Fd := ⟨0x100, 43, 4⟩

/-- RNT_BOOT.hbm_fail (R447). -/
def rntBoot_hbmFail : Fd := ⟨0x100, 47, 15⟩

/-- RNT_HANDOFF.entry_addr (R447). -/
def rntHandoff_entryAddr : Fd := ⟨0x108, 0, 64⟩

/-- RNT_SERIAL.serial (R447). -/
def rntSerial_serial : Fd := ⟨0x110, 0, 64⟩

/-- RNT_CMD.cmd (R447). -/
def rntCmd_cmd : Fd := ⟨0x118, 0, 3⟩

/-- RNT_CMD.slot (R447). -/
def rntCmd_slot : Fd := ⟨0x118, 3, 3⟩

/-- RNT_CMD.pg (R447). -/
def rntCmd_pg : Fd := ⟨0x118, 6, 26⟩

/-- RNT_CMD.arg (R447). -/
def rntCmd_arg : Fd := ⟨0x118, 32, 7⟩

/-- RNT_STAT.busy (R447). -/
def rntStat_busy : Fd := ⟨0x120, 0, 1⟩

/-- RNT_STAT.levels (R447). -/
def rntStat_levels : Fd := ⟨0x120, 4, 4⟩

/-- RNT_STAT.tok_result (R447). -/
def rntStat_tokResult : Fd := ⟨0x120, 8, 8⟩

/-- RNT_STAT.refused (R447). -/
def rntStat_refused : Fd := ⟨0x120, 16, 16⟩

/-- RNT_STAT.tok_fail (R447). -/
def rntStat_tokFail : Fd := ⟨0x120, 32, 16⟩

/-- RNT_REC_LEN.len (R447). -/
def rntRecLen_len : Fd := ⟨0x128, 0, 26⟩

/-- RNT_REC_DATA.data (R447). -/
def rntRecData_data : Fd := ⟨0x130, 0, 64⟩

/-- RNT_MEAS_IN.in (R447). -/
def rntMeasIn_in : Fd := ⟨0x140, 0, 64⟩

/-- RNT_NONCE.nonce (R447). -/
def rntNonce_nonce : Fd := ⟨0x180, 0, 64⟩

/-- RNT_ATT_NONCE.att (R447). -/
def rntAttNonce_att : Fd := ⟨0x1A0, 0, 64⟩

/-- RNT_MEAS.meas (R447). -/
def rntMeas_meas : Fd := ⟨0x200, 0, 64⟩

/-- RNT_CAP_GRADE.part (R459). -/
def rntCapGrade_part : Fd := ⟨0x800, 0, 14⟩

/-- RNT_CAP_GRADE.qd_mask (R459). -/
def rntCapGrade_qdMask : Fd := ⟨0x800, 14, 4⟩

/-- RNT_CAP_GRADE.twin (R459). -/
def rntCapGrade_twin : Fd := ⟨0x800, 18, 1⟩

/-- RNT_CAP_LANE.lanes (R459). -/
def rntCapLane_lanes : Fd := ⟨0x808, 0, 64⟩

/-- RNT_CAP_UNIT.press (R459). -/
def rntCapUnit_press : Fd := ⟨0x848, 0, 32⟩

/-- RNT_CAP_UNIT.vats (R459). -/
def rntCapUnit_vats : Fd := ⟨0x848, 32, 32⟩

/-- RNT_CAP_UNIT2.stacks (R459). -/
def rntCapUnit2_stacks : Fd := ⟨0x850, 0, 20⟩

/-- RNT_CAP_UNIT2.rind (R459). -/
def rntCapUnit2_rind : Fd := ⟨0x850, 20, 16⟩

/-- TLY_CFG.hold_us (R393). -/
def tlyCfg_holdUs : Fd := ⟨0x100, 0, 16⟩

/-- TLY_CFG.en (R393). -/
def tlyCfg_en : Fd := ⟨0x100, 16, 1⟩

/-- TLY_RING.ring_pg (R393). -/
def tlyRing_ringPg : Fd := ⟨0x108, 0, 26⟩

/-- TLY_RING.ring_log2 (R393). -/
def tlyRing_ringLog2 : Fd := ⟨0x108, 26, 5⟩

/-- TLY_HEAD.head (R393). -/
def tlyHead_head : Fd := ⟨0x110, 0, 64⟩

/-- TLY_TAIL.tail (R393). -/
def tlyTail_tail : Fd := ⟨0x118, 0, 64⟩

/-- TLY_STAT.open (R393). -/
def tlyStat_open : Fd := ⟨0x120, 0, 13⟩

/-- TLY_STAT.storm (R393). -/
def tlyStat_storm : Fd := ⟨0x120, 13, 1⟩

/-- TLY_STAT.full (R393). -/
def tlyStat_full : Fd := ⟨0x120, 14, 1⟩

/-- TLY_STAT.reports (R393). -/
def tlyStat_reports : Fd := ⟨0x120, 32, 32⟩

/-- TLY_ABSENT.absent (R393). -/
def tlyAbsent_absent : Fd := ⟨0x128, 0, 32⟩

/-- TLY_ABSENT.aborted (R393). -/
def tlyAbsent_aborted : Fd := ⟨0x128, 32, 32⟩

/-- TLY_TEST.kind (R393). -/
def tlyTest_kind : Fd := ⟨0x130, 0, 4⟩

/-- TLY_TEST.instance (R393). -/
def tlyTest_instance : Fd := ⟨0x130, 4, 9⟩

/-- TLY_TEST.go (R393). -/
def tlyTest_go : Fd := ⟨0x130, 13, 1⟩

/-- TLY_TEST.result (R393). -/
def tlyTest_result : Fd := ⟨0x130, 14, 2⟩

/-- TLY_TEST.busy (R393). -/
def tlyTest_busy : Fd := ⟨0x130, 16, 1⟩

/-- TLY_TEST.wait (R393). -/
def tlyTest_wait : Fd := ⟨0x130, 20, 28⟩

/-- TLY_SNAP.snap (R393). -/
def tlySnap_snap : Fd := ⟨0x138, 0, 1⟩

/-- TLY_SNAP_TIME.time (R393). -/
def tlySnapTime_time : Fd := ⟨0x140, 0, 64⟩

/-- TLY_ALIGN.done (R393). -/
def tlyAlign_done : Fd := ⟨0x148, 0, 1⟩

/-- TLY_ALIGN.fail (R393). -/
def tlyAlign_fail : Fd := ⟨0x148, 1, 1⟩

/-- TLY_ALIGN.tries (R393). -/
def tlyAlign_tries : Fd := ⟨0x148, 2, 2⟩

/-- TWN_CFG.mode (R392). -/
def twnCfg_mode : Fd := ⟨0x100, 0, 2⟩

/-- TWN_CFG.auto_take (R392). -/
def twnCfg_autoTake : Fd := ⟨0x100, 2, 1⟩

/-- TWN_CFG.twin_fid (R392). -/
def twnCfg_twinFid : Fd := ⟨0x100, 4, 20⟩

/-- TWN_CFG.alias_fid (R392). -/
def twnCfg_aliasFid : Fd := ⟨0x100, 24, 20⟩

/-- TWN_TIME.hb_us (R392). -/
def twnTime_hbUs : Fd := ⟨0x108, 0, 16⟩

/-- TWN_TIME.lost_us (R392). -/
def twnTime_lostUs : Fd := ⟨0x108, 16, 16⟩

/-- TWN_TIME.dig_wait (R392). -/
def twnTime_digWait : Fd := ⟨0x108, 32, 28⟩

/-- TWN_STAT.state (R392). -/
def twnStat_state : Fd := ⟨0x110, 0, 3⟩

/-- TWN_STAT.rtt (R392). -/
def twnStat_rtt : Fd := ⟨0x110, 32, 32⟩

/-- TWN_CMD.cmd (R392). -/
def twnCmd_cmd : Fd := ⟨0x118, 0, 4⟩

/-- TWN_CNT.mismatch (R392). -/
def twnCnt_mismatch : Fd := ⟨0x120, 0, 16⟩

/-- TWN_CNT.unverified (R392). -/
def twnCnt_unverified : Fd := ⟨0x120, 16, 16⟩

/-- TWN_CNT.recovered (R392). -/
def twnCnt_recovered : Fd := ⟨0x120, 32, 16⟩

/-- TWN_CNT.late (R392). -/
def twnCnt_late : Fd := ⟨0x120, 48, 16⟩

/-- TWN_BACKLOG.unacked (R392). -/
def twnBacklog_unacked : Fd := ⟨0x128, 0, 32⟩

/-- TWN_BACKLOG.held (R392). -/
def twnBacklog_held : Fd := ⟨0x128, 32, 32⟩

/-- TWN_GMODE.twin (R392). -/
def twnGmode_twin : Fd := ⟨0x400, 0, 64⟩

/-- PRT_PCIE_STAT.speed (R468). -/
def prtPcieStat_speed : Fd := ⟨0x100, 0, 3⟩

/-- PRT_PCIE_STAT.width (R468). -/
def prtPcieStat_width : Fd := ⟨0x100, 3, 4⟩

/-- PRT_PCIE_STAT.up (R468). -/
def prtPcieStat_up : Fd := ⟨0x100, 7, 1⟩

/-- PRT_MGMT_MAC.mac (R468). -/
def prtMgmtMac_mac : Fd := ⟨0x100, 0, 48⟩

/-- PRT_MGMT_RING.ring_pg (R468). -/
def prtMgmtRing_ringPg : Fd := ⟨0x108, 0, 26⟩

/-- PWR_I3C_CFG.sa (R468). -/
def pwrI3cCfg_sa : Fd := ⟨0x100, 0, 7⟩

/-- RNT_XSPI_ADDR.addr (R468). -/
def rntXspiAddr_addr : Fd := ⟨0x100, 0, 32⟩

/-- RNT_XSPI_CMD.op (R468). -/
def rntXspiCmd_op : Fd := ⟨0x108, 0, 2⟩

/-- RNT_XSPI_CMD.len (R468). -/
def rntXspiCmd_len : Fd := ⟨0x108, 2, 12⟩

/-- RNT_XSPI_CMD.busy (R468). -/
def rntXspiCmd_busy : Fd := ⟨0x108, 14, 1⟩

/-- RNT_XSPI_DATA.data (R468). -/
def rntXspiData_data : Fd := ⟨0x800, 0, 64⟩

/-- GRP_CFG.enable (R147). -/
def grpCfg_enable : Fd := ⟨0x0, 0, 1⟩

/-- GRP_CFG.enabled (R147). -/
def grpCfg_enabled : Fd := ⟨0x0, 1, 1⟩

/-- GRP_CFG.esrc (R147). -/
def grpCfg_esrc : Fd := ⟨0x0, 2, 1⟩

/-- GRP_CFG.accum (R147). -/
def grpCfg_accum : Fd := ⟨0x0, 3, 1⟩

/-- GRP_CFG.acc_fmt (R147). -/
def grpCfg_accFmt : Fd := ⟨0x0, 4, 2⟩

/-- GRP_CFG.spfmt (R147). -/
def grpCfg_spfmt : Fd := ⟨0x0, 6, 2⟩

/-- GRP_CFG.home_qd (R147). -/
def grpCfg_homeQd : Fd := ⟨0x0, 8, 2⟩

/-- GRP_CFG.pgen (R147). -/
def grpCfg_pgen : Fd := ⟨0x0, 10, 4⟩

/-- GRP_CFG.esc_fmt (R147). -/
def grpCfg_escFmt : Fd := ⟨0x0, 14, 1⟩

/-- GRP_CFG.mig_busy (R147). -/
def grpCfg_migBusy : Fd := ⟨0x0, 15, 1⟩

/-- GRP_CFG.esc_shift (R147). -/
def grpCfg_escShift : Fd := ⟨0x0, 16, 6⟩

/-- GRP_CFG.scale_lo (R147). -/
def grpCfg_scaleLo : Fd := ⟨0x0, 22, 8⟩

/-- GRP_CFG.scale_hi (R147). -/
def grpCfg_scaleHi : Fd := ⟨0x0, 30, 8⟩

/-- GRP_CFG.n_m1 (R147). -/
def grpCfg_nM1 : Fd := ⟨0x0, 38, 17⟩

/-- GRP_LINK.parent_fid (R147). -/
def grpLink_parentFid : Fd := ⟨0x8, 0, 20⟩

/-- GRP_LINK.w_credits (R147). -/
def grpLink_wCredits : Fd := ⟨0x8, 20, 16⟩

/-- GRP_LINK.acc_period (R147). -/
def grpLink_accPeriod : Fd := ⟨0x8, 36, 16⟩

/-- GRP_SCOPE.scope_base (R147). -/
def grpScope_scopeBase : Fd := ⟨0x10, 0, 27⟩

/-- GRP_SCOPE.scope_len (R147). -/
def grpScope_scopeLen : Fd := ⟨0x10, 32, 19⟩

/-- GRP_QUOTA.q_slots (R147). -/
def grpQuota_qSlots : Fd := ⟨0x18, 0, 16⟩

/-- GRP_QUOTA.q_bufs (R147). -/
def grpQuota_qBufs : Fd := ⟨0x18, 16, 24⟩

/-- GRP_QUOTA.sram_bufs (R147). -/
def grpQuota_sramBufs : Fd := ⟨0x18, 40, 24⟩

/-- GRP_SYNC.sync_node (R147). -/
def grpSync_syncNode : Fd := ⟨0x20, 0, 16⟩

/-- GRP_SYNC.sync_done (R147). -/
def grpSync_syncDone : Fd := ⟨0x20, 16, 16⟩

/-- GRP_SYNC.node_en (R147). -/
def grpSync_nodeEn : Fd := ⟨0x20, 32, 1⟩

/-- GRP_SYNC.done_en (R147). -/
def grpSync_doneEn : Fd := ⟨0x20, 33, 1⟩

/-- GRP_SYNC.res_keep (R147). -/
def grpSync_resKeep : Fd := ⟨0x20, 34, 12⟩

/-- GRP_SYNC.acc_blocks (R147). -/
def grpSync_accBlocks : Fd := ⟨0x20, 46, 18⟩

/-- GRP_SEED.srnd_seed (R147). -/
def grpSeed_srndSeed : Fd := ⟨0x28, 0, 64⟩

/-- GRP_EPOCH.cur_epoch (R147). -/
def grpEpoch_curEpoch : Fd := ⟨0x30, 0, 16⟩

/-- GRP_EPOCH.age (R147). -/
def grpEpoch_age : Fd := ⟨0x30, 16, 28⟩

/-- GRP_EPOCH.early_pending (R147). -/
def grpEpoch_earlyPending : Fd := ⟨0x30, 44, 1⟩

/-- GRP_EPOCH.rel_next (R147). -/
def grpEpoch_relNext : Fd := ⟨0x30, 45, 1⟩

/-- GRP_EPOCH.rel_cur (R147). -/
def grpEpoch_relCur : Fd := ⟨0x30, 46, 1⟩

/-- GRP_EPOCH.period_count (R147). -/
def grpEpoch_periodCount : Fd := ⟨0x30, 47, 16⟩

/-- GRP_HBM.spill_pg (R147). -/
def grpHbm_spillPg : Fd := ⟨0x38, 0, 26⟩

/-- GRP_HBM.aux_pg (R147). -/
def grpHbm_auxPg : Fd := ⟨0x38, 26, 26⟩

/-- GRP_MASK.mask_pg (R299). -/
def grpMask_maskPg : Fd := ⟨0x0, 0, 26⟩

/-- GRP_MASK.mask_blocks (R299). -/
def grpMask_maskBlocks : Fd := ⟨0x0, 26, 24⟩

/-- GRP_MASK.res_en (R299). -/
def grpMask_resEn : Fd := ⟨0x0, 50, 1⟩

/-- PRT_MTR_RATE.cir (R333). -/
def prtMtrRate_cir : Fd := ⟨0x0, 0, 20⟩

/-- PRT_MTR_RATE.pir (R333). -/
def prtMtrRate_pir : Fd := ⟨0x0, 20, 20⟩

/-- PRT_MTR_BURST.cbs (R333). -/
def prtMtrBurst_cbs : Fd := ⟨0x8, 0, 24⟩

/-- PRT_MTR_BURST.pbs (R333). -/
def prtMtrBurst_pbs : Fd := ⟨0x8, 24, 24⟩

/-- PRT_MTR_CNT.green (R333). -/
def prtMtrCnt_green : Fd := ⟨0x10, 0, 21⟩

/-- PRT_MTR_CNT.yellow (R333). -/
def prtMtrCnt_yellow : Fd := ⟨0x10, 21, 21⟩

/-- PRT_MTR_CNT.red (R333). -/
def prtMtrCnt_red : Fd := ⟨0x10, 42, 21⟩

/-- PRT_CAND.cand t (R465). -/
def prtCand_cand (t : Nat) : Fd := ⟨0x0, 16 * t + 0, 11⟩

/-- PRT_UDP_W0.fid (R467). -/
def prtUdpW0_fid : Fd := ⟨0x0, 0, 20⟩

/-- PRT_UDP_W0.port (R467). -/
def prtUdpW0_port : Fd := ⟨0x0, 20, 9⟩

/-- PRT_UDP_W0.valid (R467). -/
def prtUdpW0_valid : Fd := ⟨0x0, 29, 1⟩

/-- PRT_UDP_W0.vid (R467). -/
def prtUdpW0_vid : Fd := ⟨0x0, 32, 12⟩

/-- PRT_UDP_W1.mac (R467). -/
def prtUdpW1_mac : Fd := ⟨0x8, 0, 48⟩

/-- PRT_UDP_W2.ip6 (R467). -/
def prtUdpW2_ip6 : Fd := ⟨0x10, 0, 64⟩

/-- PRT_INB.valid (R191). -/
def prtInb_valid : Fd := ⟨0x0, 0, 1⟩

/-- PRT_INB.vat (R191). -/
def prtInb_vat : Fd := ⟨0x0, 1, 5⟩

/-- PRT_INB.core (R191). -/
def prtInb_core : Fd := ⟨0x0, 6, 3⟩

/-- PRT_INB.queue (R191). -/
def prtInb_queue : Fd := ⟨0x0, 9, 6⟩

/-- PRT_ROUTE.set t (R465). -/
def prtRoute_set (t : Nat) : Fd := ⟨0x0, 16 * t + 0, 12⟩

/-- PRT_ROUTE.valid t (R465). -/
def prtRoute_valid (t : Nat) : Fd := ⟨0x0, 16 * t + 15, 1⟩

/-- SYN_CNT.cnt (R172). -/
def synCnt_cnt : Fd := ⟨0x0, 0, 64⟩

/-- SYN_THR.thr (R172). -/
def synThr_thr : Fd := ⟨0x8, 0, 64⟩

/-- SYN_CFG.action (R172). -/
def synCfg_action : Fd := ⟨0x10, 0, 2⟩

/-- SYN_CFG.armed (R172). -/
def synCfg_armed : Fd := ⟨0x10, 2, 1⟩

/-- SYN_CFG.step (R172). -/
def synCfg_step : Fd := ⟨0x10, 16, 16⟩

/-- SYN_ARG.arg (R172). -/
def synArg_arg : Fd := ⟨0x18, 0, 32⟩

/-! ### Registers, page by page -/

def commonRegs : List RegRow := [
  ⟨0x0, 0x8, 1, [⟨blkId_type, .ro, 0x0⟩, ⟨blkId_inst, .ro, 0x0⟩, ⟨blkId_rev, .ro, 0x0⟩, ⟨blkId_vendor, .ro, 0xCA10⟩]⟩,
  ⟨0x8, 0x8, 1, [⟨blkCap_present, .ro, 0x0⟩, ⟨blkCap_darkOk, .ro, 0x0⟩, ⟨blkCap_drainOk, .ro, 0x0⟩, ⟨blkCap_ver,
    .ro, 0x1⟩, ⟨blkCap_spec, .ro, 0x0⟩]⟩,
  ⟨0x10, 0x8, 1, [⟨blkCtrl_enable, .rw, 0x1⟩, ⟨blkCtrl_drain, .rw, 0x0⟩, ⟨blkCtrl_reset, .wo, 0x0⟩]⟩,
  ⟨0x18, 0x8, 1, [⟨blkStat_pwr, .ro, 0x0⟩, ⟨blkStat_draining, .ro, 0x0⟩, ⟨blkStat_drained, .ro, 0x0⟩,
    ⟨blkStat_disabled, .ro, 0x0⟩, ⟨blkStat_fault, .ro, 0x0⟩]⟩,
  ⟨0x20, 0x8, 1, [⟨blkEvStat_ev, .w1c, 0x0⟩]⟩,
  ⟨0x28, 0x8, 1, [⟨blkEvEn_en, .rw, 0x0⟩]⟩,
  ⟨0x30, 0x8, 1, [⟨blkEvTest_test, .wo, 0x0⟩]⟩,
  ⟨0x38, 0x8, 1, [⟨blkErrCnt_count, .ro, 0x0⟩, ⟨blkErrCnt_lastOff, .ro, 0x0⟩, ⟨blkErrCnt_cause, .ro, 0x0⟩]⟩]

def laneRegs : List RegRow := [
  ⟨0x100, 0x8, 1, [⟨prtCfg_width, .rw, 0x0⟩, ⟨prtCfg_mode, .rw, 0x0⟩, ⟨prtCfg_dateline, .rw, 0x0⟩, ⟨prtCfg_mgmtEn,
    .rw, 0x0⟩, ⟨prtCfg_upReq, .rw, 0x0⟩, ⟨prtCfg_snap, .wo, 0x0⟩, ⟨prtCfg_telClr, .wo, 0x0⟩]⟩,
  ⟨0x108, 0x8, 1, [⟨prtStat_state, .ro, 0x0⟩, ⟨prtStat_step, .ro, 0x0⟩, ⟨prtStat_longReach, .ro, 0x0⟩,
    ⟨prtStat_rtt, .ro, 0x0⟩, ⟨prtStat_lanes, .ro, 0x0⟩]⟩,
  ⟨0x110, 0x8, 1, [⟨prtMac_mac, .rw, 0x0⟩]⟩,
  ⟨0x118, 0x8, 1, [⟨prtEth_pvid, .rw, 0x1⟩, ⟨prtEth_ethRtt, .rw, 0x32⟩]⟩,
  ⟨0x200, 0x8, 1, [⟨prtSched_sp, .rw, 0x80⟩, ⟨prtSched_origTc, .rw, 0x1F5251⟩, ⟨prtSched_ovhNat, .rw, 0x8⟩,
    ⟨prtSched_ovhEth, .rw, 0x14⟩, ⟨prtSched_ceTh, .rw, 0x0⟩]⟩,
  ⟨0x208, 0x8, 1, (List.range 8).map (fun t => ⟨prtQuantum_quantum t, .rw, 0x11⟩)⟩,
  ⟨0x210, 0x8, 1, [⟨prtMeter_mbase, .rw, 0x0⟩, ⟨prtMeter_men, .rw, 0x0⟩]⟩,
  ⟨0x218, 0x8, 1, [⟨prtGateCfg_gateEn, .rw, 0x0⟩, ⟨prtGateCfg_gateOn, .ro, 0x0⟩, ⟨prtGateCfg_syncEn, .rw, 0x0⟩,
    ⟨prtGateCfg_lenM1, .rw, 0x0⟩, ⟨prtGateCfg_shiftMax, .rw, 0xFA0⟩, ⟨prtGateCfg_badIdx, .ro, 0x0⟩]⟩,
  ⟨0x220, 0x8, 1, [⟨prtGateSync_syncOff, .rw, 0x0⟩, ⟨prtGateSync_pending, .ro, 0x0⟩]⟩,
  ⟨0x228, 0x8, 1, [⟨prtGateStat_cycles, .ro, 0x0⟩, ⟨prtGateStat_overrun, .cnt, 0x0⟩, ⟨prtGateStat_edges, .cnt, 0x0⟩]⟩,
  ⟨0x230, 0x8, 1, [⟨prtPfc_pfcEn, .rw, 0x60⟩, ⟨prtPfc_cupPcp, .rw, 0x5⟩, ⟨prtPfc_cdnPcp, .rw, 0x6⟩,
    ⟨prtPfc_cdnPauseLimit, .rw, 0x1388⟩, ⟨prtPfc_taildrop, .cnt, 0x0⟩]⟩,
  ⟨0x238, 0x8, 1, [⟨prtPfcTh_xoff, .rw, 0x10000⟩, ⟨prtPfcTh_xon, .rw, 0x8000⟩]⟩,
  ⟨0x240, 0x8, 1, [⟨prtPark_parkEn, .rw, 0x0⟩, ⟨prtPark_cupWake, .rw, 0x1⟩, ⟨prtPark_parkUs, .rw, 0x3E8⟩,
    ⟨prtPark_unparkBytes, .rw, 0x10000⟩, ⟨prtPark_parked, .ro, 0x0⟩]⟩,
  ⟨0x280, 0x8, 8, [⟨prtShape_rate, .rw, 0x0⟩, ⟨prtShape_burst, .rw, 0x0⟩]⟩,
  ⟨0x400, 0x8, 56, [⟨prtTelVc_value, .ro, 0x0⟩]⟩,
  ⟨0x5C0, 0x8, 20, [⟨prtTel_value, .ro, 0x0⟩]⟩,
  ⟨0x660, 0x8, 16, [⟨prtTelPfc_value, .ro, 0x0⟩]⟩,
  ⟨0x6E0, 0x8, 1, [⟨prtTelRetry_value, .ro, 0x0⟩]⟩,
  ⟨0x800, 0x8, 256, [⟨prtGcl_open, .rw, 0xFF⟩, ⟨prtGcl_interval, .rw, 0x0⟩]⟩]

/-- The Press array page (R463): only dup is a counter that a write of 0 clears; spill and redeliver take the value written
(R9). -/
def pressRegs : List RegRow := [
  ⟨0x100, 0x8, 1, [⟨prsScopeErr_group, .ro, 0x0⟩, ⟨prsScopeErr_index, .ro, 0x0⟩, ⟨prsScopeErr_check, .ro, 0x0⟩,
    ⟨prsScopeErr_valid, .w1c, 0x0⟩]⟩,
  ⟨0x108, 0x8, 1, [⟨prsDupCnt_dup, .cnt, 0x0⟩]⟩,
  ⟨0x110, 0x8, 1, [⟨prsSpillCnt_spill, .rw, 0x0⟩]⟩,
  ⟨0x118, 0x8, 1, [⟨prsRedeliverCnt_redeliver, .rw, 0x0⟩]⟩,
  ⟨0x120, 0x8, 1, [⟨prsLoad_slots, .ro, 0x0⟩, ⟨prsLoad_adds, .ro, 0x0⟩]⟩]

def vatRegs : List RegRow := [
  ⟨0x100, 0x8, 1, [⟨vatCfg_pcSize, .rw, 0x3⟩, ⟨vatCfg_inval, .wo, 0x0⟩, ⟨vatCfg_scaleLo, .rw, 0x0⟩,
    ⟨vatCfg_scaleHi, .rw, 0xFE⟩]⟩,
  ⟨0x108, 0x8, 1, [⟨vatPstore_psPg, .rw, 0x0⟩, ⟨vatPstore_psPages, .rw, 0x0⟩]⟩,
  ⟨0x110, 0x8, 1, [⟨vatStart_desc, .wo, 0x0⟩]⟩,
  ⟨0x118, 0x8, 1, [⟨vatSq_depth, .ro, 0x0⟩]⟩,
  ⟨0x120, 0x8, 1, [⟨vatCoreCtrl_stop, .wo, 0x0⟩, ⟨vatCoreCtrl_clear, .wo, 0x0⟩]⟩,
  ⟨0x128, 0x8, 1, [⟨vatCnt_refused, .cnt, 0x0⟩, ⟨vatCnt_inb, .cnt, 0x0⟩, ⟨vatCnt_rdisc, .cnt, 0x0⟩,
    ⟨vatCnt_partial, .cnt, 0x0⟩]⟩,
  ⟨0x140, 0x8, 8, [⟨vatCoreStat_state, .ro, 0x0⟩, ⟨vatCoreStat_cmode, .ro, 0x0⟩, ⟨vatCoreStat_sbUsed, .ro, 0x0⟩,
    ⟨vatCoreStat_items, .ro, 0x0⟩, ⟨vatCoreStat_pc, .ro, 0x0⟩]⟩,
  ⟨0x180, 0x8, 8, [⟨vatExc_code, .ro, 0x0⟩, ⟨vatExc_pc, .ro, 0x0⟩, ⟨vatExc_vec, .ro, 0x0⟩]⟩,
  ⟨0x1C0, 0x8, 8, [⟨vatCensus_nan, .cnt, 0x0⟩, ⟨vatCensus_inf, .cnt, 0x0⟩, ⟨vatCensus_rsvCode, .cnt, 0x0⟩,
    ⟨vatCensus_scale, .cnt, 0x0⟩]⟩]

def cellarRegs : List RegRow := [
  ⟨0x100, 0x8, 1, [⟨celArea_openPages, .rw, 0x800⟩, ⟨celArea_nBufs, .ro, 0x55A9⟩]⟩,
  ⟨0x108, 0x8, 1, [⟨celIndAddr_off, .rw, 0x0⟩, ⟨celIndAddr_inc, .rw, 0x0⟩]⟩,
  ⟨0x110, 0x8, 1, [⟨celIndData_data, .rw, 0x0⟩]⟩,
  ⟨0x118, 0x8, 1, [⟨celWhey_wheyPg, .rw, 0x0⟩, ⟨celWhey_wheyN, .rw, 0x0⟩]⟩,
  ⟨0x120, 0x8, 1, [⟨celWheyStat_free, .ro, 0x0⟩, ⟨celWheyStat_low, .cnt, 0x0⟩, ⟨celWheyStat_waits, .cnt, 0x0⟩]⟩,
  ⟨0x128, 0x8, 1, [⟨celLink_lrPg, .rw, 0x0⟩, ⟨celLink_lrPages, .rw, 0x0⟩]⟩,
  ⟨0x130, 0x8, 1, [⟨celCnt_ptr, .cnt, 0x0⟩, ⟨celCnt_dfree, .cnt, 0x0⟩, ⟨celCnt_badfree, .cnt, 0x0⟩,
    ⟨celCnt_runder, .cnt, 0x0⟩]⟩,
  ⟨0x138, 0x8, 1, [⟨celPar_replay, .cnt, 0x0⟩, ⟨celPar_hard, .cnt, 0x0⟩]⟩,
  ⟨0x140, 0x8, 7, [⟨celPool_res, .rw, 0x0⟩, ⟨celPool_cap, .rw, 0xFFFF⟩, ⟨celPool_used, .ro, 0x0⟩, ⟨celPool_hwm,
    .rw, 0x0⟩]⟩,
  ⟨0x180, 0x8, 1, (List.range 7).map (fun t => ⟨celPoolWait_wait t, .cnt, 0x0⟩)⟩]

def hbmRegs : List RegRow := [
  ⟨0x100, 0x8, 1, [⟨hbmCfg_floor, .rw, 0x1⟩, ⟨hbmCfg_scrubEn, .rw, 0x1⟩, ⟨hbmCfg_scrubUs, .rw, 0x1000⟩]⟩,
  ⟨0x108, 0x8, 1, [⟨hbmEcc_corr, .cnt, 0x0⟩, ⟨hbmEcc_uncorr, .cnt, 0x0⟩, ⟨hbmEcc_rereadOk, .cnt, 0x0⟩]⟩,
  ⟨0x110, 0x8, 1, [⟨hbmErrAddr_page, .ro, 0x0⟩, ⟨hbmErrAddr_line, .ro, 0x0⟩, ⟨hbmErrAddr_valid, .w1c, 0x0⟩]⟩,
  ⟨0x118, 0x8, 1, [⟨hbmBwLc_bytes, .ro, 0x0⟩]⟩,
  ⟨0x120, 0x8, 1, [⟨hbmBwBulk_bytes, .ro, 0x0⟩]⟩,
  ⟨0x128, 0x8, 1, [⟨hbmStat_sr, .ro, 0x0⟩, ⟨hbmStat_temp, .ro, 0x0⟩]⟩]

def rindRegs : List RegRow := [
  ⟨0x100, 0x8, 1, [⟨evcCtrl_normEn, .rw, 0x0⟩, ⟨evcCtrl_fastEn, .rw, 0x0⟩, ⟨evcCtrl_unwind, .wo, 0x0⟩]⟩,
  ⟨0x108, 0x8, 1, [⟨evcCur_nSrc, .ro, 0x0⟩, ⟨evcCur_nValid, .ro, 0x0⟩, ⟨evcCur_fSrc, .ro, 0x0⟩, ⟨evcCur_fValid,
    .ro, 0x0⟩, ⟨evcCur_order, .ro, 0x0⟩]⟩,
  ⟨0x110, 0x8, 1, [⟨evcDone_src, .wo, 0x0⟩]⟩,
  ⟨0x118, 0x8, 1, [⟨evcSset_src, .wo, 0x0⟩]⟩,
  ⟨0x120, 0x8, 1, [⟨evcSclr_src, .wo, 0x0⟩]⟩,
  ⟨0x128, 0x8, 1, [⟨evcErr_stray, .cnt, 0x0⟩, ⟨evcErr_order, .cnt, 0x0⟩, ⟨evcErr_softBad, .cnt, 0x0⟩]⟩,
  ⟨0x130, 0x8, 1, [⟨evcMem_memPg, .rw, 0x0⟩, ⟨evcMem_memPages, .rw, 0x0⟩]⟩,
  ⟨0x138, 0x8, 1, [⟨evcCore_hold, .rw, 0x1⟩, ⟨evcCore_wfi, .ro, 0x0⟩, ⟨evcCore_rvec, .rw, 0x4000000⟩]⟩,
  ⟨0x200, 0x8, 16, [⟨evcLevel_level, .ro, 0x0⟩]⟩,
  ⟨0x280, 0x8, 16, [⟨evcPend_pend, .ro, 0x0⟩]⟩,
  ⟨0x400, 0x8, 128, (List.range 8).map (fun t => ⟨evcCfg_cfg t, .rw, 0x0⟩)⟩,
  ⟨0x800, 0x8, 3, [⟨evcBpend0_bits, .ro, 0x0⟩]⟩,
  ⟨0x820, 0x8, 3, [⟨evcBpend1_bits, .ro, 0x0⟩]⟩,
  ⟨0x840, 0x8, 3, [⟨evcBpend2_bits, .ro, 0x0⟩]⟩,
  ⟨0x860, 0x8, 3, [⟨evcBpend3_bits, .ro, 0x0⟩]⟩]

def grpctlRegs : List RegRow := [
  ⟨0x100, 0x8, 1, [⟨grpCmd_group, .wo, 0x0⟩, ⟨grpCmd_cmd, .wo, 0x0⟩, ⟨grpCmd_qd, .wo, 0x0⟩]⟩,
  ⟨0x108, 0x8, 1, [⟨grpEpochLim_epochMin, .rw, 0xFA⟩, ⟨grpEpochLim_epochMax, .rw, 0xEE6B280⟩]⟩,
  ⟨0x110, 0x8, 1, [⟨grpCnt_chk, .cnt, 0x0⟩, ⟨grpCnt_range, .cnt, 0x0⟩, ⟨grpCnt_early, .cnt, 0x0⟩, ⟨grpCnt_timeout,
    .cnt, 0x0⟩]⟩,
  ⟨0x118, 0x8, 1, [⟨grpClog_clogPg, .rw, 0x0⟩, ⟨grpClog_clogLog2, .rw, 0x7⟩]⟩,
  ⟨0x120, 0x8, 1, [⟨grpClogHead_head, .ro, 0x0⟩]⟩]

def routectlRegs : List RegRow := [
  ⟨0x100, 0x8, 1, [⟨prtRteCfg_ownFid, .rw, 0x0⟩]⟩,
  ⟨0x108, 0x8, 1, [⟨prtUdpCfg_udpDport, .rw, 0xC0DE⟩, ⟨prtUdpCfg_macAge, .rw, 0x12C⟩, ⟨prtUdpCfg_learnFull, .cnt,
    0x0⟩]⟩,
  ⟨0x110, 0x8, 1, [⟨prtIp6Lo_ip6Lo, .rw, 0x0⟩]⟩,
  ⟨0x118, 0x8, 1, [⟨prtIp6Hi_ip6Hi, .rw, 0x0⟩]⟩]

def pwrRegs : List RegRow := [
  ⟨0x100, 0x8, 1, [⟨pwrCtrl_autoPark, .rw, 0x1⟩, ⟨pwrCtrl_warnC, .rw, 0x5F⟩]⟩,
  ⟨0x108, 0x8, 1, [⟨pwrIdle_pressIdle, .rw, 0xFA⟩, ⟨pwrIdle_vatIdle, .rw, 0x9C4⟩, ⟨pwrIdle_hbmIdle, .rw, 0x19⟩]⟩,
  ⟨0x110, 0x8, 1, [⟨pwrHold_press, .rw, 0x0⟩, ⟨pwrHold_vats, .rw, 0x0⟩]⟩,
  ⟨0x118, 0x8, 1, [⟨pwrDarkA_press, .rw, 0x0⟩, ⟨pwrDarkA_vats, .rw, 0x0⟩]⟩,
  ⟨0x120, 0x8, 1, [⟨pwrDarkB_stacks, .rw, 0x0⟩, ⟨pwrDarkB_rind, .rw, 0x0⟩]⟩,
  ⟨0x128, 0x8, 1, [⟨pwrStatePrs_state, .ro, 0x0⟩]⟩,
  ⟨0x130, 0x8, 1, [⟨pwrStateVat_state, .ro, 0x0⟩]⟩,
  ⟨0x138, 0x8, 1, [⟨pwrStateHbm_state, .ro, 0x0⟩]⟩,
  ⟨0x140, 0x8, 1, [⟨pwrCnt_wakes, .cnt, 0x0⟩, ⟨pwrCnt_darkRefused, .cnt, 0x0⟩]⟩,
  ⟨0x180, 0x8, 4, [⟨pwrAvs_recMv, .ro, 0x0⟩, ⟨pwrAvs_temp, .ro, 0x0⟩]⟩,
  ⟨0x1C0, 0x8, 1, [⟨pwrPmbCmd_addr, .rw, 0x0⟩, ⟨pwrPmbCmd_code, .rw, 0x0⟩, ⟨pwrPmbCmd_len, .rw, 0x0⟩,
    ⟨pwrPmbCmd_read, .rw, 0x0⟩, ⟨pwrPmbCmd_pec, .rw, 0x1⟩, ⟨pwrPmbCmd_go, .wo, 0x0⟩, ⟨pwrPmbCmd_busy, .ro, 0x0⟩,
    ⟨pwrPmbCmd_fail, .w1c, 0x0⟩]⟩,
  ⟨0x1C8, 0x8, 1, [⟨pwrPmbData_data, .rw, 0x0⟩]⟩]

def rennetRegs : List RegRow := [
  ⟨0x100, 0x8, 1, [⟨rntBoot_codeA, .ro, 0xA⟩, ⟨rntBoot_codeB, .ro, 0xA⟩, ⟨rntBoot_codeRec, .ro, 0xA⟩,
    ⟨rntBoot_src, .ro, 0x3⟩, ⟨rntBoot_halted, .ro, 0x0⟩, ⟨rntBoot_svnFused, .ro, 0x0⟩, ⟨rntBoot_svnImg, .ro, 0x0⟩,
    ⟨rntBoot_keyIdx, .ro, 0x0⟩, ⟨rntBoot_revoked, .ro, 0x0⟩, ⟨rntBoot_hbmFail, .ro, 0x0⟩]⟩,
  ⟨0x108, 0x8, 1, [⟨rntHandoff_entryAddr, .ro, 0x0⟩]⟩,
  ⟨0x110, 0x8, 1, [⟨rntSerial_serial, .ro, 0x0⟩]⟩,
  ⟨0x118, 0x8, 1, [⟨rntCmd_cmd, .wo, 0x0⟩, ⟨rntCmd_slot, .wo, 0x0⟩, ⟨rntCmd_pg, .wo, 0x0⟩, ⟨rntCmd_arg, .wo, 0x0⟩]⟩,
  ⟨0x120, 0x8, 1, [⟨rntStat_busy, .ro, 0x0⟩, ⟨rntStat_levels, .ro, 0x0⟩, ⟨rntStat_tokResult, .ro, 0x0⟩,
    ⟨rntStat_refused, .cnt, 0x0⟩, ⟨rntStat_tokFail, .cnt, 0x0⟩]⟩,
  ⟨0x128, 0x8, 1, [⟨rntRecLen_len, .ro, 0x0⟩]⟩,
  ⟨0x130, 0x8, 1, [⟨rntRecData_data, .wo, 0x0⟩]⟩,
  ⟨0x140, 0x8, 6, [⟨rntMeasIn_in, .rw, 0x0⟩]⟩,
  ⟨0x180, 0x8, 4, [⟨rntNonce_nonce, .ro, 0x0⟩]⟩,
  ⟨0x1A0, 0x8, 4, [⟨rntAttNonce_att, .rw, 0x0⟩]⟩,
  ⟨0x200, 0x8, 48, [⟨rntMeas_meas, .ro, 0x0⟩]⟩,
  ⟨0x800, 0x8, 1, [⟨rntCapGrade_part, .ro, 0x0⟩, ⟨rntCapGrade_qdMask, .ro, 0x0⟩, ⟨rntCapGrade_twin, .ro, 0x0⟩]⟩,
  ⟨0x808, 0x8, 8, [⟨rntCapLane_lanes, .ro, 0x0⟩]⟩,
  ⟨0x848, 0x8, 1, [⟨rntCapUnit_press, .ro, 0x0⟩, ⟨rntCapUnit_vats, .ro, 0x0⟩]⟩,
  ⟨0x850, 0x8, 1, [⟨rntCapUnit2_stacks, .ro, 0x0⟩, ⟨rntCapUnit2_rind, .ro, 0x0⟩]⟩]

def tallyRegs : List RegRow := [
  ⟨0x100, 0x8, 1, [⟨tlyCfg_holdUs, .rw, 0x3E8⟩, ⟨tlyCfg_en, .rw, 0x1⟩]⟩,
  ⟨0x108, 0x8, 1, [⟨tlyRing_ringPg, .rw, 0x0⟩, ⟨tlyRing_ringLog2, .rw, 0xA⟩]⟩,
  ⟨0x110, 0x8, 1, [⟨tlyHead_head, .ro, 0x0⟩]⟩,
  ⟨0x118, 0x8, 1, [⟨tlyTail_tail, .rw, 0x0⟩]⟩,
  ⟨0x120, 0x8, 1, [⟨tlyStat_open, .ro, 0x0⟩, ⟨tlyStat_storm, .ro, 0x0⟩, ⟨tlyStat_full, .ro, 0x0⟩,
    ⟨tlyStat_reports, .ro, 0x0⟩]⟩,
  ⟨0x128, 0x8, 1, [⟨tlyAbsent_absent, .cnt, 0x0⟩, ⟨tlyAbsent_aborted, .cnt, 0x0⟩]⟩,
  ⟨0x130, 0x8, 1, [⟨tlyTest_kind, .rw, 0x0⟩, ⟨tlyTest_instance, .rw, 0x0⟩, ⟨tlyTest_go, .wo, 0x0⟩,
    ⟨tlyTest_result, .ro, 0x0⟩, ⟨tlyTest_busy, .ro, 0x0⟩, ⟨tlyTest_wait, .rw, 0x2625A0⟩]⟩,
  ⟨0x138, 0x8, 1, [⟨tlySnap_snap, .wo, 0x0⟩]⟩,
  ⟨0x140, 0x8, 1, [⟨tlySnapTime_time, .ro, 0x0⟩]⟩,
  ⟨0x148, 0x8, 1, [⟨tlyAlign_done, .ro, 0x0⟩, ⟨tlyAlign_fail, .ro, 0x0⟩, ⟨tlyAlign_tries, .ro, 0x0⟩]⟩]

def twinRegs : List RegRow := [
  ⟨0x100, 0x8, 1, [⟨twnCfg_mode, .rw, 0x0⟩, ⟨twnCfg_autoTake, .rw, 0x0⟩, ⟨twnCfg_twinFid, .rw, 0x0⟩,
    ⟨twnCfg_aliasFid, .rw, 0x0⟩]⟩,
  ⟨0x108, 0x8, 1, [⟨twnTime_hbUs, .rw, 0x64⟩, ⟨twnTime_lostUs, .rw, 0x1388⟩, ⟨twnTime_digWait, .rw, 0x3D090⟩]⟩,
  ⟨0x110, 0x8, 1, [⟨twnStat_state, .ro, 0x0⟩, ⟨twnStat_rtt, .ro, 0x0⟩]⟩,
  ⟨0x118, 0x8, 1, [⟨twnCmd_cmd, .wo, 0x0⟩]⟩,
  ⟨0x120, 0x8, 1, [⟨twnCnt_mismatch, .cnt, 0x0⟩, ⟨twnCnt_unverified, .cnt, 0x0⟩, ⟨twnCnt_recovered, .cnt, 0x0⟩,
    ⟨twnCnt_late, .cnt, 0x0⟩]⟩,
  ⟨0x128, 0x8, 1, [⟨twnBacklog_unacked, .ro, 0x0⟩, ⟨twnBacklog_held, .ro, 0x0⟩]⟩,
  ⟨0x400, 0x8, 64, [⟨twnGmode_twin, .rw, 0x0⟩]⟩]

def pcieRegs : List RegRow := [
  ⟨0x100, 0x8, 1, [⟨prtPcieStat_speed, .ro, 0x0⟩, ⟨prtPcieStat_width, .ro, 0x0⟩, ⟨prtPcieStat_up, .ro, 0x0⟩]⟩]

def mgmtRegs : List RegRow := [
  ⟨0x100, 0x8, 1, [⟨prtMgmtMac_mac, .rw, 0x0⟩]⟩,
  ⟨0x108, 0x8, 1, [⟨prtMgmtRing_ringPg, .rw, 0x0⟩]⟩]

def i3cRegs : List RegRow := [
  ⟨0x100, 0x8, 1, [⟨pwrI3cCfg_sa, .rw, 0x2A⟩]⟩]

def xspiRegs : List RegRow := [
  ⟨0x100, 0x8, 1, [⟨rntXspiAddr_addr, .rw, 0x0⟩]⟩,
  ⟨0x108, 0x8, 1, [⟨rntXspiCmd_op, .wo, 0x0⟩, ⟨rntXspiCmd_len, .wo, 0x0⟩, ⟨rntXspiCmd_busy, .ro, 0x0⟩]⟩,
  ⟨0x800, 0x8, 256, [⟨rntXspiData_data, .rw, 0x0⟩]⟩]

def wGrpRegs : List RegRow := [
  ⟨0x0, 0x8, 1, [⟨grpCfg_enable, .rw, 0x0⟩, ⟨grpCfg_enabled, .ro, 0x0⟩, ⟨grpCfg_esrc, .rw, 0x0⟩, ⟨grpCfg_accum,
    .rw, 0x0⟩, ⟨grpCfg_accFmt, .rw, 0x0⟩, ⟨grpCfg_spfmt, .rw, 0x0⟩, ⟨grpCfg_homeQd, .rw, 0x0⟩, ⟨grpCfg_pgen, .ro,
    0x0⟩, ⟨grpCfg_escFmt, .rw, 0x0⟩, ⟨grpCfg_migBusy, .ro, 0x0⟩, ⟨grpCfg_escShift, .rw, 0x0⟩, ⟨grpCfg_scaleLo,
    .rw, 0x0⟩, ⟨grpCfg_scaleHi, .rw, 0xFE⟩, ⟨grpCfg_nM1, .rw, 0x0⟩]⟩,
  ⟨0x8, 0x8, 1, [⟨grpLink_parentFid, .rw, 0x0⟩, ⟨grpLink_wCredits, .rw, 0x0⟩, ⟨grpLink_accPeriod, .rw, 0x0⟩]⟩,
  ⟨0x10, 0x8, 1, [⟨grpScope_scopeBase, .rw, 0x0⟩, ⟨grpScope_scopeLen, .rw, 0x0⟩]⟩,
  ⟨0x18, 0x8, 1, [⟨grpQuota_qSlots, .rw, 0x0⟩, ⟨grpQuota_qBufs, .rw, 0x0⟩, ⟨grpQuota_sramBufs, .rw, 0x0⟩]⟩,
  ⟨0x20, 0x8, 1, [⟨grpSync_syncNode, .rw, 0x0⟩, ⟨grpSync_syncDone, .rw, 0x0⟩, ⟨grpSync_nodeEn, .rw, 0x0⟩,
    ⟨grpSync_doneEn, .rw, 0x0⟩, ⟨grpSync_resKeep, .rw, 0x0⟩, ⟨grpSync_accBlocks, .rw, 0x0⟩]⟩,
  ⟨0x28, 0x8, 1, [⟨grpSeed_srndSeed, .rw, 0x0⟩]⟩,
  ⟨0x30, 0x8, 1, [⟨grpEpoch_curEpoch, .rw, 0x0⟩, ⟨grpEpoch_age, .ro, 0x0⟩, ⟨grpEpoch_earlyPending, .ro, 0x0⟩,
    ⟨grpEpoch_relNext, .ro, 0x0⟩, ⟨grpEpoch_relCur, .ro, 0x0⟩, ⟨grpEpoch_periodCount, .ro, 0x0⟩]⟩,
  ⟨0x38, 0x8, 1, [⟨grpHbm_spillPg, .rw, 0x0⟩, ⟨grpHbm_auxPg, .rw, 0x0⟩]⟩]

def wMaskRegs : List RegRow := [
  ⟨0x0, 0x8, 1, [⟨grpMask_maskPg, .rw, 0x0⟩, ⟨grpMask_maskBlocks, .rw, 0x0⟩, ⟨grpMask_resEn, .rw, 0x0⟩]⟩]

def wMeterRegs : List RegRow := [
  ⟨0x0, 0x8, 1, [⟨prtMtrRate_cir, .rw, 0x0⟩, ⟨prtMtrRate_pir, .rw, 0x0⟩]⟩,
  ⟨0x8, 0x8, 1, [⟨prtMtrBurst_cbs, .rw, 0x0⟩, ⟨prtMtrBurst_pbs, .rw, 0x0⟩]⟩,
  ⟨0x10, 0x8, 1, [⟨prtMtrCnt_green, .cnt, 0x0⟩, ⟨prtMtrCnt_yellow, .cnt, 0x0⟩, ⟨prtMtrCnt_red, .cnt, 0x0⟩]⟩]

def wCandRegs : List RegRow := [
  ⟨0x0, 0x8, 4, (List.range 4).map (fun t => ⟨prtCand_cand t, .rw, 0x0⟩)⟩]

def wUdpRegs : List RegRow := [
  ⟨0x0, 0x8, 1, [⟨prtUdpW0_fid, .rw, 0x0⟩, ⟨prtUdpW0_port, .rw, 0x0⟩, ⟨prtUdpW0_valid, .rw, 0x0⟩, ⟨prtUdpW0_vid,
    .rw, 0x0⟩]⟩,
  ⟨0x8, 0x8, 1, [⟨prtUdpW1_mac, .rw, 0x0⟩]⟩,
  ⟨0x10, 0x8, 2, [⟨prtUdpW2_ip6, .rw, 0x0⟩]⟩]

def wInbRegs : List RegRow := [
  ⟨0x0, 0x8, 1, [⟨prtInb_valid, .rw, 0x0⟩, ⟨prtInb_vat, .rw, 0x0⟩, ⟨prtInb_core, .rw, 0x0⟩, ⟨prtInb_queue, .rw, 0x0⟩]⟩]

def wRouteRegs : List RegRow := [
  ⟨0x0, 0x8, 1, (List.range 4).map (fun t => ⟨prtRoute_set t, .rw, 0x0⟩) ++ (List.range 4).map (fun t =>
    ⟨prtRoute_valid t, .rw, 0x0⟩)⟩]

def wSyncRegs : List RegRow := [
  ⟨0x0, 0x8, 1, [⟨synCnt_cnt, .rw, 0x0⟩]⟩,
  ⟨0x8, 0x8, 1, [⟨synThr_thr, .rw, 0x0⟩]⟩,
  ⟨0x10, 0x8, 1, [⟨synCfg_action, .rw, 0x0⟩, ⟨synCfg_armed, .rw, 0x0⟩, ⟨synCfg_step, .rw, 0x0⟩]⟩,
  ⟨0x18, 0x8, 1, [⟨synArg_arg, .rw, 0x0⟩]⟩]

/-- The block-specific registers of a page kind, or the registers of a window entry. -/
def kindRegs : PKind → List RegRow
  | .lane => laneRegs
  | .press => pressRegs
  | .vat => vatRegs
  | .cellar => cellarRegs
  | .hbm => hbmRegs
  | .swc => []
  | .rind => rindRegs
  | .pwr => pwrRegs
  | .rennet => rennetRegs
  | .tally => tallyRegs
  | .twin => twinRegs
  | .grpctl => grpctlRegs
  | .routectl => routectlRegs
  | .pcie => pcieRegs
  | .mgmt => mgmtRegs
  | .i3c => i3cRegs
  | .xspi => xspiRegs
  | .wGrp => wGrpRegs
  | .wMask => wMaskRegs
  | .wMeter => wMeterRegs
  | .wCand => wCandRegs
  | .wUdp => wUdpRegs
  | .wInb => wInbRegs
  | .wRoute => wRouteRegs
  | .wSync => wSyncRegs

/-! ### Addresses (R8, R448, R449) -/

def pgLane (l : Nat) : Nat := l / 128 * 0x4000000 + l % 128 * 0x1000
def pgPress (a : Nat) : Nat := a / 8 * 0x4000000 + 0x80000 + a % 8 * 0x1000
def pgVat (v : Nat) : Nat := v / 8 * 0x4000000 + 0x88000 + v % 8 * 0x1000
def pgCellar (q : Nat) : Nat := q * 0x4000000 + 0x90000
def pgHbm (s : Nat) : Nat := s / 5 * 0x4000000 + 0x91000 + s % 5 * 0x1000
def pgSwc (q : Nat) : Nat := q * 0x4000000 + 0x98000
def pgRind (k : Nat) : Nat := k / 4 * 0x4000000 + 0x9C000 + k % 4 * 0x1000
def pgPwr : Nat := 0x0F000000
def pgRennet : Nat := 0x0F001000
def pgTally : Nat := 0x0F002000
def pgTwin : Nat := 0x0F003000
def pgGrp : Nat := 0x0F004000
def pgRoute : Nat := 0x0F005000
def pgPcie : Nat := 0x0F006000
def pgMgmt : Nat := 0x0F007000
def pgI3c : Nat := 0x0F008000
def pgXspi : Nat := 0x0F009000
def grpAt (g : Nat) : Nat := 0x0F040000 + g * 0x40
def maskAt (g : Nat) : Nat := 0x0F080000 + g * 8
def meterAt (m : Nat) : Nat := 0x0F0A0000 + m * 0x20
def candAt (c : Nat) : Nat := 0x0F0C0000 + c * 0x20
def udpAt (e : Nat) : Nat := 0x0F0E0000 + e * 0x20
def inbAt (e : Nat) : Nat := 0x0F100000 + e * 8
def routeAt (r : Nat) : Nat := 0x0F200000 + r * 8
def syncAt (k : Nat) : Nat := 0x0F400000 + k * 0x20

/-- The chip-wide pages, in the order of R449 (`none` at an index that is reserved). -/
def chipPage : Nat → Option PKind
  | 0 => some .pwr
  | 1 => some .rennet
  | 2 => some .tally
  | 3 => some .twin
  | 4 => some .grpctl
  | 5 => some .routectl
  | 6 => some .pcie
  | 7 => some .mgmt
  | 8 => some .i3c
  | 9 => some .xspi
  | _ => none

/-- The array windows of R449: kind, start, size, entry size. -/
def windows : List (PKind × Nat × Nat × Nat) := [
  (.wGrp, 0x0F040000, 0x40000, 0x40),
  (.wMask, 0x0F080000, 0x8000, 8),
  (.wMeter, 0x0F0A0000, 0x20000, 0x20),
  (.wCand, 0x0F0C0000, 0x20000, 0x20),
  (.wUdp, 0x0F0E0000, 0x20000, 0x20),
  (.wInb, 0x0F100000, 0x8000, 8),
  (.wRoute, 0x0F200000, 0x200000, 8),
  (.wSync, 0x0F400000, 0x200000, 0x20)]

/-- The first BAR address of a window. -/
def winStart (k : PKind) : Nat :=
  match windows.find? (fun r => r.1 == k) with
  | some r => r.2.1
  | none => 0

/-- The page of R448 at offset `o` of quadrant window `q`. -/
def locateQuad (q o : Nat) : Option Loc :=
  let b := q * 0x4000000 + o / 0x1000 * 0x1000
  let off := o % 0x1000
  let i := o / 0x1000
  if i < 128 then some ⟨.lane, q * 128 + i, b, off⟩
  else if i < 0x88 then some ⟨.press, q * 8 + (i - 0x80), b, off⟩
  else if i < 0x90 then some ⟨.vat, q * 8 + (i - 0x88), b, off⟩
  else if i = 0x90 then some ⟨.cellar, q, b, off⟩
  else if i < 0x96 then some ⟨.hbm, q * 5 + (i - 0x91), b, off⟩
  else if i = 0x98 then some ⟨.swc, q, b, off⟩
  else if 0x9C ≤ i ∧ i < 0xA0 then some ⟨.rind, q * 4 + (i - 0x9C), b, off⟩
  else none

/-- The page or window entry that holds a BAR address; `none` for a reserved range (R452). -/
def locate (addr : Nat) : Option Loc :=
  if addr < 0x0F000000 then locateQuad (addr / 0x4000000) (addr % 0x4000000)
  else if addr < 0x0F040000 then
    match chipPage ((addr - 0x0F000000) / 0x1000) with
    | some k => some ⟨k, 0, addr / 0x1000 * 0x1000, addr % 0x1000⟩
    | none => none
  else
    match windows.find? (fun r => r.2.1 ≤ addr && addr < r.2.1 + r.2.2.1) with
    | some (k, st, _, sz) =>
      let e := (addr - st) / sz
      some ⟨k, e, st + e * sz, (addr - st) % sz⟩
    | none => none

/-- Whether a kind is an array window. -/
def PKind.isWindow : PKind → Bool
  | .wGrp | .wMask | .wMeter | .wCand | .wUdp | .wInb | .wRoute | .wSync => true
  | _ => false

/-- The page whose BLK_ERR_CNT counts the accesses of a location: the page itself, or the owner page (R449, R450). -/
def Loc.owner (x : Loc) : Nat :=
  match x.kind with
  | .wGrp | .wMask => pgGrp
  | .wSync => pgCellar (x.inst / 16384)
  | .wMeter | .wCand | .wUdp | .wInb | .wRoute => pgRoute
  | _ => x.base

/-- The last_off of a counted access there: from the page start, or from the window start (R456). -/
def Loc.lastOff (x : Loc) : Nat :=
  if x.kind.isWindow then x.base + x.off - winStart x.kind else x.off

/-! ### Presence (R1 to R4) -/

def quadPresent (f : Fuses) (q : Nat) : Bool :=
  q < (match f.grade with | .xgl9216 => 2 | _ => 4)

def lanePresent (f : Fuses) (l : Nat) : Bool :=
  l < 512 && (match f.grade with
    | .xgl9240 => true
    | .xgl9228 => l % 128 < 96
    | .xgl9216 => l < 256)

def pressPresent (f : Fuses) (a : Nat) : Bool :=
  a < 32 && quadPresent f (a / 8)

def vatPresent (f : Fuses) (v : Nat) : Bool :=
  v < 32 && (match f.grade with
    | .xgl9240 => true
    | .xgl9228 => v % 8 < 6
    | .xgl9216 => v < 16)

def stackPresent (f : Fuses) (s : Nat) : Bool :=
  s < 20 && (match f.grade with
    | .xgl9240 => true
    | .xgl9228 => s % 5 < 4
    | .xgl9216 => s < 10)

def rindPresent (f : Fuses) (k : Nat) : Bool :=
  k < 16 && quadPresent f (k / 4)

def twinPresent (f : Fuses) : Bool :=
  match f.grade with
  | .xgl9216 => false
  | _ => true

/-- Presence of the instance that a page or window entry belongs to (R6, R450). -/
def present (f : Fuses) : PKind → Nat → Bool
  | .lane, l => lanePresent f l
  | .press, a => pressPresent f a
  | .vat, v => vatPresent f v
  | .cellar, q => quadPresent f q
  | .hbm, s => stackPresent f s
  | .swc, q => quadPresent f q
  | .rind, k => rindPresent f k
  | .twin, _ => twinPresent f
  | .wSync, k => quadPresent f (k / 16384)
  | _, _ => true

/-! ### Fields of a register -/

/-- The register row that holds offset `off` of a page or entry, with its place in an array row. -/
def findRow (rows : List RegRow) (off : Nat) : Option (RegRow × Nat) :=
  match rows.find? (fun r => r.off ≤ off && off < r.off + r.stride * r.count && (off - r.off) % r.stride == 0) with
  | some r => some (r, (off - r.off) / r.stride)
  | none => none

/-- The rows of a location: below 0x100 of a block page the common layout, above it the block's own registers. -/
def Loc.rows (x : Loc) : List RegRow :=
  if x.kind.isWindow then kindRegs x.kind
  else if x.off < 0x100 then commonRegs
  else kindRegs x.kind

/-- The fields of the register at a location (none: a reserved offset). -/
def Loc.fields (x : Loc) : List FieldRow :=
  match findRow x.rows x.off with
  | some (r, _) => r.fields
  | none => []

/-- A register's Reset value from its field table. -/
def fieldsReset : List FieldRow → U64
  | [] => 0
  | r :: rs => withField (fieldsReset rs) r.fd.l r.fd.w r.reset

/-- The Reset value of the register at a BAR address (R455): its table's, and the fused MAC addresses (R85, R468). -/
def regReset (f : Fuses) (addr : Nat) : U64 :=
  match locate addr with
  | none => 0
  | some x =>
    match x.kind, x.off with
    | .lane, 0x110 => BitVec.ofNat 64 ((f.macBase + x.inst) % 2 ^ 48)
    | .mgmt, 0x100 => BitVec.ofNat 64 (f.macBase % 2 ^ 48)
    | _, _ => fieldsReset x.fields

end Sys2Proof.Machine
end

