-- ==== Sys2Proof/Config.lean ====
section
/-!
DEFINITION. What the spec leaves to a device, to a layout that it does not give or to chance, as constants without a body:
nothing can prove a value of them, and a claim about the model holds for every value they may take.
-/
namespace Sys2Proof.Config

/-- Where the spec gives no layout of the identity region (R430, R442): the initialization vector, the additional data, the
ciphertext and the tag of the wrapped key blob, from the bytes of the region. -/
opaque blobIv : List Byte → List Byte
opaque blobAad : List Byte → List Byte
opaque blobText : List Byte → List Byte
opaque blobTag : List Byte → List Byte

/-- How the decrypted blob holds the RSA-3072 key pair (R442): its modulus and its private exponent. -/
opaque rsaModulus : List Byte → Nat
opaque rsaExponent : List Byte → Nat

/-- The true random number generator of Rennet (R446, R447): draw number to word. -/
opaque trng : Nat → U64

/-- The bytes of the boot ROM region (R395, R434), which the spec does not print. -/
opaque bootRom : Nat → Byte

/-- A value the spec leaves open, for the n-th draw; `State.draws` counts the draws. -/
opaque freeValue : Nat → U64

/-- What the lanes beyond q_count of LSEMERGE's last output block hold (R279 leaves them open, R267 makes them a function of
the call's inputs): the inputs, then the number of the lane. -/
opaque lsePad : List Nat → Nat → U64

/-- mvendorid, marchid and mimpid of the Rind cores, by CSR number, which the spec does not give (R394). -/
opaque rindId : Nat → U64

end Sys2Proof.Config
end

