-- ==== Sys2Proof/Machine/Tab.lean ====
section
/-!
DEFINITION. Sparse tables and the byte memory: reading and writing an entry, with the value that an unlisted key has. A
write keeps the keys rising and lists no entry that equals the unlisted value, so equal tables are equal lists.
-/
namespace Sys2Proof.Machine

/-- The entry at `k`, or `d`. -/
def tget {α : Type} (d : α) : Tab α → Nat → α
  | [], _ => d
  | (a, v) :: r, k => if k = a then v else if k < a then d else tget d r k

/-- Set the entry at `k`; `d` is what an unlisted `k` reads as. -/
def tset {α : Type} [DecidableEq α] (d : α) : Tab α → Nat → α → Tab α
  | [], k, v => if v = d then [] else [(k, v)]
  | (a, x) :: r, k, v =>
    if k < a then (if v = d then (a, x) :: r else (k, v) :: (a, x) :: r)
    else if k = a then (if v = d then r else (k, v) :: r)
    else (a, x) :: tset d r k v

/-- The canonical form: keys above `lo` and strictly rising, no entry equal to the unlisted value `d key`. -/
def tabOk {α : Type} [DecidableEq α] (d : Nat → α) : Option Nat → Tab α → Bool
  | _, [] => true
  | lo, (a, v) :: r =>
    (match lo with | none => true | some l => decide (l < a)) && decide (v ≠ d a) && tabOk d (some a) r

/-! ### The byte memory -/

/-- Local memory of Vat `v` (R181). -/
def spLocal (v : Nat) : Nat := v
/-- Cellar slice `q` (R334). -/
def spCellar (q : Nat) : Nat := 32 + q
/-- HBM of quadrant `q` (R348). -/
def spHbm (q : Nat) : Nat := 36 + q
/-- The boot flash (R430). -/
def spFlash : Nat := 40
/-- The boot ROM (R395). -/
def spRom : Nat := 41

/-- The key of a byte: 2^40 keys a space. -/
def memKey (sp off : Nat) : Nat := sp * 2 ^ 40 + off

/-- What an unlisted byte of memory reads as (assumption 2). -/
def memDefault : Byte := 0

/-- The canonical form of the memory. -/
def Memory.wf (m : List Host.Cell) : Bool := tabOk (fun _ => memDefault) none m

/-- One byte; the boot ROM holds what manufacture put there. -/
def rdByte (s : State) (sp off : Nat) : Byte :=
  if sp = spRom then Config.bootRom off else tget memDefault s.mem (memKey sp off)

def wrByte (s : State) (sp off : Nat) (b : Byte) : State :=
  { s with mem := tset memDefault s.mem (memKey sp off) b }

/-- `n` bytes from `off` upward. -/
def rdBytes (s : State) (sp off : Nat) : Nat → List Byte
  | 0 => []
  | n + 1 => rdByte s sp off :: rdBytes s sp (off + 1) n

def wrBytes (s : State) (sp off : Nat) : List Byte → State
  | [] => s
  | b :: bs => wrBytes (wrByte s sp off b) sp (off + 1) bs

/-- The value of little-endian bytes (00_scope.md, "Numbers, units and notation"). -/
def leVal : List Byte → Nat
  | [] => 0
  | b :: bs => b.toNat + 256 * leVal bs

/-- `n` little-endian bytes of `x`. -/
def leBytes : Nat → Nat → List Byte
  | 0, _ => []
  | n + 1, x => BitVec.ofNat 8 (x % 256) :: leBytes n (x / 256)

def rdLe (s : State) (sp off n : Nat) : Nat := leVal (rdBytes s sp off n)

def wrLe (s : State) (sp off n x : Nat) : State := wrBytes s sp off (leBytes n x)

/-- Byte address of page `pg` (R348: 4 KiB pages). -/
def pageAddr (pg : Nat) : Nat := pg * 4096

end Sys2Proof.Machine
end

