-- ==== Sys2Proof/Machine/Ops.lean ====
section
/-!
DEFINITION. Shared operations over the state: access to the records of each unit, raw register fields, the event bits and
the access counter of a page (R456, R458), what the present cycle has seen, and free values.
-/
namespace Sys2Proof.Machine

/-! ### Records by number -/

def State.port (s : State) (p : Nat) : Port := tget Port.none s.ports p
def State.setPort (s : State) (p : Nat) (x : Port) : State := { s with ports := tset Port.none s.ports p x }
def State.updPort (s : State) (p : Nat) (f : Port → Port) : State := s.setPort p (f (s.port p))
def State.core (s : State) (c : Nat) : Core := tget Core.idle s.cores c
def State.setCore (s : State) (c : Nat) (x : Core) : State := { s with cores := tset Core.idle s.cores c x }
def State.updCore (s : State) (c : Nat) (f : Core → Core) : State := s.setCore c (f (s.core c))
def State.vat (s : State) (v : Nat) : Vat := tget Vat.reset s.vats v
def State.setVat (s : State) (v : Nat) (x : Vat) : State := { s with vats := tset Vat.reset s.vats v x }
def State.grp (s : State) (g : Nat) : Grp := tget Grp.reset s.grps g
def State.setGrp (s : State) (g : Nat) (x : Grp) : State := { s with grps := tset Grp.reset s.grps g x }
def State.updGrp (s : State) (g : Nat) (f : Grp → Grp) : State := s.setGrp g (f (s.grp g))
def State.buf (s : State) (b : Nat) : Buf := tget Buf.free s.bufs b
def State.setBuf (s : State) (b : Nat) (x : Buf) : State := { s with bufs := tset Buf.free s.bufs b x }
def State.server (s : State) (c : Nat) : Server := tget Server.none s.servers c
def State.setServer (s : State) (c : Nat) (x : Server) : State := { s with servers := tset Server.none s.servers c x }
def State.rindOf (s : State) (k : Nat) : Rind := tget Rind.reset s.rinds k
def State.setRind (s : State) (k : Nat) (x : Rind) : State := { s with rinds := tset Rind.reset s.rinds k x }

/-- The always-on count: 40 ns, 80 cycles of 2.0 GHz (assumption 1). -/
def State.aon (s : State) : Nat := s.cyc / 80

/-- A draw of a value the spec leaves open. -/
def State.draw (s : State) : U64 × State := (Config.freeValue s.draws, { s with draws := s.draws + 1 })

def State.emit (s : State) (o : Out) : State := { s with out := s.out ++ [o] }

/-! ### Registers as stored -/

/-- The stored value of the register at a BAR address. -/
def State.rd (s : State) (addr : Nat) : U64 := tget (regReset s.fuses addr) s.regs addr

def State.wr (s : State) (addr : Nat) (v : U64) : State :=
  { s with regs := tset (regReset s.fuses addr) s.regs addr v }

/-- A field of the page or entry at `base`. -/
def State.fld (s : State) (base : Nat) (f : Fd) : Nat := fieldOf (s.rd (base + f.off)) f.l f.w

def State.setFld (s : State) (base : Nat) (f : Fd) (x : Nat) : State :=
  s.wr (base + f.off) (withField (s.rd (base + f.off)) f.l f.w x)

def State.flag (s : State) (base : Nat) (f : Fd) : Bool := s.fld base f != 0

/-- Add to a saturating counter field. -/
def State.addFld (s : State) (base : Nat) (f : Fd) (n : Nat) : State :=
  s.setFld base f (satAdd f.w (s.fld base f) n)

/-- Add to a wrapping counter field. -/
def State.addWrap (s : State) (base : Nat) (f : Fd) (n : Nat) : State :=
  s.setFld base f ((s.fld base f + n) % 2 ^ f.w)

/-- A count n of microseconds in 2.0 GHz cycles. -/
def usCycles (n : Nat) : Nat := 2000 * n

/-! ### Units -/

def State.lanePres (s : State) (l : Nat) : Bool := lanePresent s.fuses l
def State.quadPres (s : State) (q : Nat) : Bool := quadPresent s.fuses q

/-- The module's own FID (R464). -/
def State.ownFid (s : State) : Nat := s.fld pgRoute prtRteCfg_ownFid

/-- Reporter and requester numbers (R341, R380, R453). -/
def repPress (a : Nat) : Nat := 512 + a
def repCore (c : Nat) : Nat := 1024 + c
def repChain (q : Nat) : Nat := 1536 + q
def repRind (k : Nat) : Nat := 1600 + k
def repCellar (q : Nat) : Nat := 1616 + q
def repHbm (x : Nat) : Nat := 1632 + x
def repSwc (q : Nat) : Nat := 1664 + q
def repTwin : Nat := 1680
def repTally : Nat := 1681
def repRennet : Nat := 1682
def repPwr : Nat := 1683
def repGrp : Nat := 1684
def reqPcie : Nat := 1685
def reqI3c : Nat := 1686
def reqJtag : Nat := 1687

/-- Numbers of the power-managed units in `State.pwr`. -/
def puPress (a : Nat) : Nat := a
def puVat (v : Nat) : Nat := 32 + v
def puStack (x : Nat) : Nat := 64 + x
def puRind (k : Nat) : Nat := 96 + k
def puPc (x k : Nat) : Nat := 128 + 32 * x + k
def puLane (l : Nat) : Nat := 1024 + l

def State.pu (s : State) (u : Nat) : PwrUnit := tget PwrUnit.gold s.pwr u
def State.setPu (s : State) (u : Nat) (x : PwrUnit) : State := { s with pwr := tset PwrUnit.gold s.pwr u x }

/-! ### Events and counted accesses (R11, R456, R458) -/

/-- An event sets its bit of BLK_EV_STAT, and the cycle remembers it for R11. -/
def raiseEv (page bit : Nat) (s : State) : State :=
  let s1 := s.wr (page + 0x20) (s.rd (page + 0x20) ||| BitVec.ofNat 64 (2 ^ bit))
  { s1 with same := { s1.same with evSet := (page, bit) :: s1.same.evSet } }

/-- Count an access or a refused command in BLK_ERR_CNT of `page` (R456): count saturates, last_off and cause are of this
access, and event 0 of the page is set (R458). -/
def errCount (page off cause : Nat) (s : State) : State :=
  let s1 := s.addFld page blkErrCnt_count 1
  let s2 := s1.setFld page blkErrCnt_lastOff off
  let s3 := s2.setFld page blkErrCnt_cause cause
  let s4 := { s3 with same := { s3.same with errs := (page, 1) :: s3.same.errs } }
  raiseEv page 0 s4

/-- Count a discarded write or a refused command at a location. -/
def errAt (x : Loc) (cause : Nat) (s : State) : State := errCount x.owner x.lastOff cause s

/-- The same, by BAR address. -/
def errAddr (addr cause : Nat) (s : State) : State :=
  match locate addr with
  | some x => errAt x cause s
  | none => s

/-! ### The present cycle -/

/-- Remember an act of this cycle. -/
def noteAct (a : Act) (n : Nat) (s : State) : State := { s with same := { s.same with acts := (a, n) :: s.same.acts } }

/-- Sum of the order numbers of an act of this cycle. -/
def actSum (s : State) (a : Act) : Nat := ((s.same.acts.filter (fun x => x.1 == a)).map (fun x => x.2)).sum

/-- The act has happened in this cycle with an order number above `n`. -/
def actAbove (s : State) (a : Act) (n : Nat) : Bool := s.same.acts.any (fun x => x.1 == a && decide (n < x.2))

def acted (s : State) (a : Act) : Bool := s.same.acts.any (fun x => x.1 == a)

/-- Apply an update for each element in turn. -/
def forAll {α : Type} (f : α → State → State) : List α → State → State
  | [], s => s
  | x :: xs, s => forAll f xs (f x s)

/-- Write bytes for requester `req`: a byte that a requester of a higher number has written in this cycle keeps that value
(R245, R352). `old` is what stood there, where a read of this cycle must still see it. -/
def storeBytes (sp off req : Nat) (old bs : List Byte) (s : State) : State :=
  let higher := s.same.stores.filter (fun x => x.sp == sp && decide (req < x.req) && decide (x.off < off + bs.length)
    && decide (off < x.off + x.len))
  let s1 := if higher.isEmpty then wrBytes s sp off bs
    else forAll (fun (b : Byte × Nat) s =>
      if higher.any (fun x => decide (x.off ≤ off + b.2) && decide (off + b.2 < x.off + x.len)) then s
      else wrByte s sp (off + b.2) b.1) bs.zipIdx s
  { s1 with same := { s1.same with stores := ⟨sp, off, bs.length, req, old⟩ :: s1.same.stores } }

/-- Words of wrong parity among `n` bytes of an SRAM: slice `q`, or the local memory of a Vat (R345). -/
def upsetIn (s : State) (q off n : Nat) : Bool :=
  s.upset.any (fun x => x.1 == q && decide (off < x.2 + 4) && decide (x.2 < off + n))

/-- The local memory of Vat `v` in `State.upset`. -/
def upLocal (v : Nat) : Nat := 4 + v

/-- Words that are written take good parity again (R345). -/
def goodParity (q off n : Nat) (s : State) : State :=
  { s with upset := s.upset.filter (fun x => !(x.1 == q && decide (off < x.2 + 4) && decide (x.2 < off + n))) }

/-- `n` bytes of a Vat's local memory as a read of this cycle sees them: without the writes of this cycle (R245). -/
def localRead (s : State) (v off n : Nat) : List Byte :=
  let ws := s.same.stores.filter (fun x => x.sp == spLocal v && decide (x.off < off + n) && decide (off < x.off + x.len))
  let now := rdBytes s (spLocal v) off n
  if ws.isEmpty then now
  else now.zipIdx.map (fun b =>
    match (ws.filter (fun x => decide (x.off ≤ off + b.2) && decide (off + b.2 < x.off + x.len))).getLast? with
    | some x => x.old.getD (off + b.2 - x.off) b.1
    | none => b.1)

def localLe (s : State) (v off n : Nat) : Nat := leVal (localRead s v off n)

/-- Write local memory, by the order number that decides between two writes of one cycle (R245). -/
def localWrite (v off ord : Nat) (bs : List Byte) (s : State) : State :=
  goodParity (upLocal v) off bs.length (storeBytes (spLocal v) off ord (rdBytes s (spLocal v) off bs.length) bs s)

/-- The order of a write to local memory: the higher-numbered core, then the later instruction in program order (R245). -/
def writeOrd (core ord : Nat) : Nat := core % 8 * 2 ^ 64 + ord

/-! ### Lists -/

/-- Element `i`, or `d`. -/
def at0 {α : Type} (d : α) (l : List α) (i : Nat) : α := l.getD i d

/-- The list without its element `i`. -/
def dropAt {α : Type} (l : List α) (i : Nat) : List α := l.eraseIdx i

/-- `next` of a command's effect. -/
abbrev Result := Host.Outcome State Fault Refusal

end Sys2Proof.Machine
end

