-- ==== Sys2Proof/Machine/Power0.lean ====
section
/-!
DEFINITION. Unit states that the other units consult: power states and wakes (R28, R410 to R413), drain and disable
(R29, R30, R377), and the wake times of R411 in 2.0 GHz cycles.
-/
namespace Sys2Proof.Machine

def pwrCode : Pwr → Nat
  | .dark => 0
  | .slate => 1
  | .amber => 2
  | .gold => 3

/-- The longest time from SLATE to GOLD of a unit, in cycles (R411). -/
def wakeMax (u : Nat) : Nat :=
  if u < 32 then 1000 else if u < 64 then 5000 else if u < 128 then 200000 else if u < 1024 then 3000 else 50000

/-- The PWR_DARK bit of a unit (R423): stacks and Rind cores in PWR_DARK_B, the others in PWR_DARK_A. -/
def darkFd (u : Nat) : Fd :=
  if u < 64 then ⟨0x118, u, 1⟩ else if u < 96 then ⟨0x120, u - 64, 1⟩ else ⟨0x120, u - 96 + 20, 1⟩

/-- The unit whose PWR_DARK bit covers a unit: a pseudo-channel goes dark with its stack. -/
def darkOwner (u : Nat) : Nat := if 128 ≤ u ∧ u < 768 then 64 + (u - 128) / 32 else u

/-- A wake request for a unit is remembered for its always-on count (R415). -/
def askWake (u : Nat) (s : State) : State :=
  { s with asked := (u, s.aon) :: s.asked.filter (fun x => x.2 == s.aon && x.1 != u) }

/-- The units that a PWR_DARK bit covers (R410): a stack and its pseudo-channels. -/
def darkCover (u : Nat) : List Nat := if 64 ≤ u ∧ u < 96 then u :: (List.range 32).map (puPc (u - 64)) else [u]

/-- An accepted DARK write of the same always-on count gives way to a wake, and is counted (R415): its units stand as before. -/
def cancelDark (u : Nat) (s : State) : State :=
  if (s.pu u).darkAt.isSome then
    let s1 := forAll (fun (x : Nat × PwrUnit) s => s.setPu x.1 x.2) (s.back.filter (fun x => darkOwner x.1 == u)) s
    let s2 := { s1 with back := s.back.filter (fun x => darkOwner x.1 != u) }
    ((s2.setPu u { s2.pu u with darkAt := none }).setFld pgPwr (darkFd u) 0).addFld pgPwr pwrCnt_darkRefused 1
  else s

/-- A unit in SLATE starts its wake, which is counted. -/
def startWake (u : Nat) (s : State) : State :=
  if (s.pu u).st = .slate then
    (s.setPu u { s.pu u with st := .amber, until_ := some (s.cyc + wakeMax u) }).addFld pgPwr pwrCnt_wakes 1
  else s

/-- A wake request (R28, R413): a unit in SLATE starts its wake and is counted; one in AMBER has its wake under way; one on
its way to SLATE stays in GOLD (R412). -/
def wakeUnit (u : Nat) (s : State) : State :=
  match (s.pu u).st with
  | .slate => startWake u (cancelDark (darkOwner u) (askWake u s))
  | .amber => askWake u s
  | .gold => if (s.pu u).until_.isSome then s.setPu u { s.pu u with until_ := none } else s
  | .dark => s

/-- A unit works now: its idle time starts again, and it does not go on to SLATE (R412). -/
def touchUnit (u : Nat) (s : State) : State :=
  let x := s.pu u
  s.setPu u { x with idleSince := s.cyc, until_ := if x.st = .gold then none else x.until_ }

def isGold (s : State) (u : Nat) : Bool := (s.pu u).st == .gold
def isDark (s : State) (u : Nat) : Bool := (s.pu u).st == .dark

/-- BLK_CTRL of a page. -/
def isEnabled (s : State) (page : Nat) : Bool := s.flag page blkCtrl_enable
def isDrain (s : State) (page : Nat) : Bool := s.flag page blkCtrl_drain

/-- A unit that takes new work: powered, enabled and not draining (R29, R30). -/
def takesWork (s : State) (page u : Nat) : Bool := isEnabled s page && !isDrain s page && !isDark s u

/-- A core with neither a program nor an outstanding item (R222). -/
def coreQuiet (c : Core) : Bool := (c.st == .idle || c.st == .faulted) && c.items.isEmpty

def vatCores (s : State) (v : Nat) : List Core := (List.range 8).map (fun i => s.core (v * 8 + i))

/-- A Vat holds no item (R222). -/
def vatQuiet (s : State) (v : Nat) : Bool := (vatCores s v).all coreQuiet

end Sys2Proof.Machine
end

