-- ==== Sys2Proof/Machine/Hbm.lean ====
section
/-!
DEFINITION. The HBM stacks as their requesters meet them: the address map (R348), stacks that refuse (R348, R377) and
pseudo-channels that must wake (R28, R355), the two classes with their queues and the bulk floor (R27, R353), and the bytes
moved in each class (R359).
-/
namespace Sys2Proof.Machine

/-! ### Address map -/

def quadStacks (s : State) (q : Nat) : Nat := ((List.range 5).filter (fun i => stackPresent s.fuses (q * 5 + i))).length

/-- Pages that the present stacks of a quadrant hold (R348). -/
def quadPages (s : State) (q : Nat) : Nat := if quadPresent s.fuses q then quadStacks s q * 9437184 else 0

/-- `hbm_map` of R348: stack within the quadrant's present stacks, pseudo-channel, chunk. -/
def hbmMap (a n : Nat) : Nat × Nat × Nat :=
  let u := a / 1024
  (u % n, u / n % 32, u / (n * 32))

/-- The quadrant that a requester belongs to. -/
def unitQuad (u : Nat) : Nat :=
  if u < 512 then u / 128
  else if u < 1024 then (u - 512) / 8
  else if u < 1536 then (u - 1024) / 64
  else if u < 1600 then u - 1536
  else if u < 1616 then (u - 1600) / 4
  else 0

/-- A stack whose controller serves: present, powered and enabled. -/
def stackOn (s : State) (st : Nat) : Bool :=
  stackPresent s.fuses st && !isDark s (puStack st) && isEnabled s (pgHbm st)

/-! ### Classes and queues (R27, R353) -/

/-- The class of a request; landing-zone writes go first within the latency-critical class. -/
inductive HbmClass where
  | landing
  | lc
  | bulk
deriving DecidableEq, Repr

/-- 64-byte lines moved by a pseudo-channel in a class (R359). -/
def addLines (st pc n : Nat) (lc : Bool) (s : State) : State :=
  touchUnit (puPc st pc) (s.addWrap (pgHbm st) (if lc then hbmBwLc_bytes else hbmBwBulk_bytes) (64 * n))

def HbmQ.push (c : HbmClass) (n : Nat) (q : HbmQ) : HbmQ :=
  match c with
  | .landing => { q with land := q.land + n }
  | .lc => { q with lc := q.lc + n }
  | .bulk => { q with bulk := q.bulk + n }

/-- The burst that goes next (R353) and the queues after it: landing-zone writes first, bulk before latency-critical only
under the floor rule. -/
def HbmQ.next (floor : Nat) (q : HbmQ) : Option (Bool × HbmQ) :=
  if 0 < q.land + q.lc then
    if 0 < q.bulk ∧ 2 ^ (floor + 1) ≤ q.run + 1 then some (false, { q with bulk := q.bulk - 1, run := 0 })
    else
      let q1 := if 0 < q.land then { q with land := q.land - 1 } else { q with lc := q.lc - 1 }
      some (true, { q1 with run := if 0 < q.bulk then q.run + 1 else 0 })
  else if 0 < q.bulk then some (false, { q with bulk := q.bulk - 1, run := 0 })
  else none

def hbmQueue (s : State) (u : Nat) : HbmQ := tget HbmQ.empty s.hbmQ u

/-- A pseudo-channel in GOLD serves one burst of its queues. -/
def serveBurst (u : Nat) (s : State) : State :=
  let st := (u - 128) / 32
  if isGold s u && stackOn s st then
    match (hbmQueue s u).next (s.fld (pgHbm st) hbmCfg_floor) with
    | some (lc, q) => addLines st ((u - 128) % 32) 1 lc { s with hbmQ := tset HbmQ.empty s.hbmQ u q }
    | none => s
  else s

/-- The bursts of one cycle: 38.4 GB/s of a pseudo-channel are 3 bursts of 64 bytes in 10 cycles (R347). -/
def serveHbm (s : State) : State :=
  if s.cyc % 10 % 3 = 0 ∧ s.cyc % 10 < 9 then forAll (fun (x : Nat × HbmQ) s => serveBurst x.1 s) s.hbmQ s else s

/-! ### Accesses -/

/-- The 1 KiB chunks of `n` bytes at `off`, each with the lines of it that they touch. -/
def hbmChunks (off n : Nat) : List (Nat × Nat) :=
  if n = 0 then []
  else (List.range ((off + n - 1) / 1024 - off / 1024 + 1)).map (fun i =>
    let c := off / 1024 + i
    (c, (min (off + n) ((c + 1) * 1024) - 1) / 64 - max off (c * 1024) / 64 + 1))

/-- Stack and pseudo-channel of a chunk. -/
def chunkUnit (s : State) (q c : Nat) : Nat × Nat :=
  let m := hbmMap (c * 1024) (max 1 (quadStacks s q))
  (q * 5 + m.1, m.2.1)

def hbmUnits (s : State) (q off n : Nat) : List (Nat × Nat) := (hbmChunks off n).map (fun c => chunkUnit s q c.1)

inductive HbmAns where
  /-- every pseudo-channel is in GOLD -/
  | ready
  /-- some pseudo-channel must wake first (R355) -/
  | asleep
  /-- a stack is DARK, absent or disabled: the access is treated as uncorrectable (R377) -/
  | refused
  /-- the access reaches a page beyond the stacks: refused as a handle is (R348) -/
  | beyond
deriving DecidableEq, Repr

/-- How an access to `n` bytes at byte `off` of a quadrant stands. -/
def hbmAsk (s : State) (q off n : Nat) : HbmAns :=
  if quadPages s q * 4096 < off + n then .beyond
  else if (hbmUnits s q off n).any (fun u => !stackOn s u.1) then .refused
  else if (hbmUnits s q off n).any (fun u => !isGold s (puPc u.1 u.2)) then .asleep
  else .ready

/-- A request that waits asks for the wake of every pseudo-channel it needs (R28). -/
def hbmWake (q off n : Nat) (s : State) : State :=
  forAll (fun u s => wakeUnit (puPc u.1 u.2) s) (hbmUnits s q off n) s

/-- Bursts stand in the queue of their class at a pseudo-channel in GOLD, which does not go on to SLATE (R353, R412). -/
def queueBursts (c : HbmClass) (u n : Nat) (s : State) : State :=
  let s1 := wakeUnit u s
  { s1 with hbmQ := tset HbmQ.empty s1.hbmQ u ((hbmQueue s1 u).push c n) }

/-- A read whose bytes are taken: its bursts stand in the queues of its class, and their lines count as they are served
(assumption 47). -/
def hbmMoved (c : HbmClass) (q off n : Nat) (s : State) : State :=
  forAll (fun x s => queueBursts c (puPc (chunkUnit s q x.1).1 (chunkUnit s q x.1).2) x.2 s) (hbmChunks off n) s

/-- How an access in pieces, as (offset, length) from `base`, stands: the first of a refusal, a sleeping pseudo-channel, or
ready. -/
def askPieces (s : State) (q base : Nat) (rs : List (Nat × Nat)) : HbmAns :=
  let as := rs.map (fun r => hbmAsk s q (base + r.1) r.2)
  if as.contains .beyond then .beyond else if as.contains .refused then .refused
  else if as.contains .asleep then .asleep else .ready

def wakePieces (q base : Nat) (rs : List (Nat × Nat)) (s : State) : State :=
  forAll (fun r s => hbmWake q (base + r.1) r.2 s) rs s

def movedPieces (c : HbmClass) (q base : Nat) (rs : List (Nat × Nat)) (s : State) : State :=
  forAll (fun r s => hbmMoved c q (base + r.1) r.2 s) rs s

/-- Each piece with the bytes that it takes. -/
def pieceBytes : List (Nat × Nat) → List Byte → List (Nat × List Byte)
  | [], _ => []
  | r :: rs, bs => (r.1, bs.take r.2) :: pieceBytes rs (bs.drop r.2)

/-- The part of a write that lies in one chunk: a stack that is off refuses it, a pseudo-channel in SLATE is woken, and the
burst stands in the queue of its class from now on. -/
def writeChunk (c : HbmClass) (q off : Nat) (bs : List Byte) (req : Nat) (x : Nat × Nat) (s : State) : State :=
  let u := chunkUnit s q x.1
  if stackOn s u.1 then
    let a := max off (x.1 * 1024)
    let part := (bs.drop (a - off)).take ((x.1 + 1) * 1024 - a)
    queueBursts c (puPc u.1 u.2) x.2 (storeBytes (spHbm q) a req [] part s)
  else s

/-- A write that the controllers accept (R352): bytes beyond the present stacks are not written (R348). -/
def hbmWrite (c : HbmClass) (q off : Nat) (bs : List Byte) (req : Nat) (s : State) : State :=
  let n := min bs.length (quadPages s q * 4096 - off)
  forAll (writeChunk c q off (bs.take n) req) (hbmChunks off n) s

end Sys2Proof.Machine
end

