-- ==== Sys2Proof/Machine/Tally.lean ====
section
/-!
DEFINITION. Tally (R380 to R384): reports, their coalescing into entries, the records of the ring; and the presence counts
that go with a report (R378, R379).
-/
namespace Sys2Proof.Machine

def clsLinkDown : Nat := 0x01
def clsLinkBringup : Nat := 0x02
def clsProto : Nat := 0x08
def clsE2eCrc : Nat := 0x09
def clsUnreach : Nat := 0x0A
def clsCollCheck : Nat := 0x10
def clsPrsScope : Nat := 0x11
def clsCurdExc : Nat := 0x20
def clsInbound : Nat := 0x21
def clsCelPtr : Nat := 0x30
def clsCelParHard : Nat := 0x31
def clsHbmUncorr : Nat := 0x32
def clsTwinMismatch : Nat := 0x40
def clsTwinLost : Nat := 0x41
def clsTwinUnverified : Nat := 0x42
def clsAbsent : Nat := 0x50
def clsDisabled : Nat := 0x51
def clsTest : Nat := 0x60
def clsAlignFail : Nat := 0x61
def clsEvcOrder : Nat := 0x70
def clsStorm : Nat := 0xFF

/-- The classes of R384 that a unit may report. -/
def clsValid (c : Nat) : Bool :=
  [clsLinkDown, clsLinkBringup, clsProto, clsE2eCrc, clsUnreach, clsCollCheck, clsPrsScope, clsCurdExc, clsInbound,
    clsCelPtr, clsCelParHard, clsHbmUncorr, clsTwinMismatch, clsTwinLost, clsTwinUnverified, clsAbsent, clsDisabled,
    clsTest, clsAlignFail, clsEvcOrder].contains c

/-- log2 of the records of the Tally ring (R393: values 7 to 24, others act as 10). -/
def tallyLog2 (s : State) : Nat :=
  let l := s.fld pgTally tlyRing_ringLog2
  if 7 ≤ l ∧ l ≤ 24 then l else 10

def tallyFull (s : State) : Bool :=
  s.fld pgTally tlyHead_head ≥ s.fld pgTally tlyTail_tail + 2 ^ tallyLog2 s

/-- The hold time in always-on counts (R381, R393: 0 acts as 1). -/
def tallyHold (s : State) : Nat := max 1 (s.fld pgTally tlyCfg_holdUs) * 25

/-- The 32 bytes of a record (R383). -/
def tallyRecord (e : TEntry) : List Byte :=
  leBytes 8 (e.subj % 2 ^ 20 + e.cls % 256 * 2 ^ 20 + e.count % 2 ^ 32 * 2 ^ 32)
    ++ leBytes 8 (e.first % 2 ^ 16 + e.last % 2 ^ 16 * 2 ^ 16 + e.detail % 2 ^ 32 * 2 ^ 32)
    ++ leBytes 8 e.t0 ++ leBytes 8 e.t1

/-- Where the next record goes in QD0's stacks. -/
def tallyAt (s : State) : Nat :=
  pageAddr (s.fld pgTally tlyRing_ringPg) + s.fld pgTally tlyHead_head % 2 ^ tallyLog2 s * 32

/-- The place lies beyond the stacks (R348). -/
def tallyBeyond (s : State) : Bool := decide (quadPages s 0 * 4096 < tallyAt s + 32)

/-- Write a record at TLY_HEAD (R382) and raise TLY_RECORD; what a stack refuses of it is lost (R377; assumption 89), and one beyond
the stacks is a refused handle too (R344, R348). -/
def tallyWrite (e : TEntry) (s : State) : State :=
  let s0 := hbmWrite .bulk 0 (tallyAt s) (tallyRecord e) repTally s
  let s1 := if tallyBeyond s then raiseEv (pgCellar 0) 2 (s0.addFld (pgCellar 0) celCnt_ptr 1) else s0
  raiseEv pgTally 1 (s1.setFld pgTally tlyHead_head (s.fld pgTally tlyHead_head + 1))

def sameEntry (subj cls : Nat) (e : TEntry) : Bool := e.subj == subj && e.cls == cls

/-- An entry is freed: it counts no report of this cycle from now on. -/
def tallyDrop (e : TEntry) (s : State) : State :=
  let drop := fun (t : Tally) => { t with entries := t.entries.filter (fun x => !sameEntry e.subj e.cls x) }
  { s with tally := drop s.tally
           same := { s.same with tally0 := s.same.tally0.map drop
                                 reports := s.same.reports.filter (fun r => !(r.subj == e.subj && r.cls == e.cls)) } }

/-- The same for the STORM entry. -/
def stormDrop (s : State) : State :=
  { s with tally := { s.tally with storm := none }
           same := { s.same with tally0 := s.same.tally0.map (fun t => { t with storm := none })
                                 reports := s.same.reports.filter (fun r => s.tally.entries.any (sameEntry r.subj r.cls)) } }

/-- One more report. -/
def countUp (now : Nat) (r : Report) (e : TEntry) : TEntry := { e with count := satAdd 32 e.count 1, last := r.rep, t1 := now }

/-- `report` of R381 on the entries, once earlier entries are closed: into its entry, into a new one, or, with 4,096 entries open, into
the STORM entry. -/
def tallyOne (now : Nat) (t : Tally) (r : Report) : Tally :=
  let fresh : TEntry := ⟨r.subj, r.cls, r.rep, r.rep, r.det, 1, now, now, r.close⟩
  if t.entries.any (sameEntry r.subj r.cls) then
    { t with entries := t.entries.map (fun e => if sameEntry r.subj r.cls e then countUp now r e else e) }
  else if t.entries.length < 4096 then { t with entries := t.entries ++ [fresh] }
  else
    match t.storm with
    | some e => { t with storm := some (countUp now r e) }
    | none => { t with storm := some { fresh with subj := 0, cls := clsStorm } }

/-- Reports stand in ascending reporter number. -/
def insertReport (r : Report) : List Report → List Report
  | [] => [r]
  | x :: xs => if x.rep ≤ r.rep then x :: insertReport r xs else r :: x :: xs

/-- The reports of one cycle are taken in ascending reporter number (R381): from Tally's entries as the cycle began. -/
def tallyTake (r : Report) (now : Nat) (s : State) : State :=
  let base := s.same.tally0.getD s.tally
  let rs := insertReport r s.same.reports
  let t := rs.foldl (tallyOne now) base
  let s1 := { s with tally := t, same := { s.same with reports := rs, tally0 := some base } }
  if s.tally.storm.isNone ∧ t.storm.isSome then raiseEv pgTally 3 s1 else s1

/-- A report to Tally (R380, R381, R384, R393), where entries whose count has passed close first by `close`. -/
def reportWith (close : TEntry → State → State) (subj cls rep det : Nat) (s : State) : State :=
  let s0 := s.addWrap pgTally tlyStat_reports 1
  if s0.fld pgTally tlyCfg_en = 0 ∨ clsValid cls = false then errCount pgTally rep 5 s0
  else
    let now := s0.aon
    let s1 := match s0.tally.entries.find? (fun e => e.subj == subj && e.cls == cls && decide (e.closeAt < now)) with
      | some e => close e s0
      | none => s0
    let s2 := match s1.tally.storm with
      | some e => if e.closeAt < now then close e s1 else s1
      | none => s1
    tallyTake ⟨rep, subj, cls, det % 2 ^ 32, now + tallyHold s2⟩ now s2

/-- Close one entry: its record goes to the ring and it is freed, or it stays open while the ring is full and
TLY_RING_FULL is raised (R381, R382). `ptr` reports a write that was refused as a handle is (R344). -/
def closeWith (ptr : State → State) (e : TEntry) (s : State) : State :=
  if tallyFull s then raiseEv pgTally 2 s
  else
    let s1 := tallyWrite e s
    let s2 := if e.cls = clsStorm then stormDrop s1 else tallyDrop e s1
    if tallyBeyond s then ptr s2 else s2

/-- The record of a refused handle of Tally's own (R344): its detail is a free value (assumption 15). -/
def ptrReport (close : TEntry → State → State) (s : State) : State :=
  let d := s.draw
  reportWith close repTally clsCelPtr (repCellar 0) d.1.toNat d.2

/-- Closing an entry; the report of a refused write may close an entry in its turn, at most `n` deep. -/
def closeDeep : Nat → TEntry → State → State
  | 0 => closeWith id
  | n + 1 => closeWith (ptrReport (closeDeep n))

/-- Close one entry. The report of a refused write closes an entry of its own class that is due, and that one's report the STORM
entry: no third report finds an entry that is due. -/
def tallyClose (e : TEntry) (s : State) : State := closeDeep 4 e s

/-- A report to Tally. -/
def report (subj cls rep det : Nat) (s : State) : State := reportWith tallyClose subj cls rep det s

/-- A report about an internal unit: the subject is the switch's own FID (R380). -/
def reportOwn (cls rep det : Nat) (s : State) : State := report s.ownFid cls rep det s

/-- A report whose 32-bit detail no rule gives: the detail is a free value (assumption 15). -/
def reportOpen (subj cls rep : Nat) (s : State) : State :=
  let d := s.draw
  report subj cls rep d.1.toNat d.2

/-- The same about an internal unit. -/
def reportOwnOpen (cls rep : Nat) (s : State) : State := reportOpen s.ownFid cls rep s

/-- Close every entry whose time has passed while the ring has space (R382). -/
def tallyDrain : List TEntry → State → State
  | [], s => s
  | e :: es, s => tallyDrain es (if e.closeAt < s.aon ∧ tallyFull s = false then tallyClose e s else s)

/-- A command that R7 answers with ABSENT (R379). -/
def absentCmd (rep : Nat) (s : State) : State :=
  reportOwnOpen clsAbsent rep (s.addFld pgTally tlyAbsent_absent 1)

/-- Work that met a DARK, disabled or DRAINED unit (R378). -/
def disabledWork (rep : Nat) (s : State) : State :=
  reportOwnOpen clsDisabled rep (s.addFld pgTally tlyAbsent_aborted 1)

end Sys2Proof.Machine
end

