-- ==== Sys2Proof/Machine/Codec.lean ====
section
/-!
DEFINITION. Packets and frames as bytes: the common header, the collective extension header and the link control frame of
02_fabric_transport.md, CRC-32C (R41, R55), and the key word of a completion record (R171).
-/
namespace Sys2Proof.Machine

/-- One bit of CRC-32C in its reflected form. -/
def crcBit (c : Nat) : Nat := if c % 2 = 1 then (c / 2) ^^^ 0x82F63B78 else c / 2

def crcBits : Nat → Nat → Nat
  | 0, c => c
  | n + 1, c => crcBits n (crcBit c)

def crcByte (c : Nat) (b : Byte) : Nat := crcBits 8 (c ^^^ b.toNat)

/-- CRC-32C: reflected, initial value 0xFFFF_FFFF, final XOR 0xFFFF_FFFF (R55). -/
def crc32c (bs : List Byte) : Nat := (bs.foldl crcByte 0xFFFFFFFF) ^^^ 0xFFFFFFFF

def pktWord0 (p : Packet) : Nat :=
  p.ver % 16 + p.ptype % 16 * 2 ^ 4 + p.vc % 8 * 2 ^ 8 + p.tc % 8 * 2 ^ 11 + bit01 p.ce * 2 ^ 14 + bit01 p.dm * 2 ^ 15
    + p.ttl % 64 * 2 ^ 16 + bit01 p.last * 2 ^ 22 + bit01 p.ext.isSome * 2 ^ 23 + p.plen % 8192 * 2 ^ 24
    + p.rsv0 % 8 * 2 ^ 37 + p.dst % 2 ^ 20 * 2 ^ 40 + p.rsv1 % 16 * 2 ^ 60

def pktWord1 (p : Packet) : Nat :=
  p.src % 2 ^ 20 + p.seq % 2 ^ 24 * 2 ^ 20 + p.tag % 65536 * 2 ^ 44 + p.rsv2 % 16 * 2 ^ 60

def pktWord2 (p : Packet) : Nat := p.addr % 2 ^ 56 + p.rsv3 % 256 * 2 ^ 56

/-- Bytes 0 to 27 of the common header. -/
def hdrBytes (p : Packet) : List Byte :=
  leBytes 8 (pktWord0 p) ++ leBytes 8 (pktWord1 p) ++ leBytes 8 (pktWord2 p)
    ++ leBytes 4 (p.linkSeq % 2 ^ 24 + p.rsv4 % 256 * 2 ^ 24)

def extBytes (e : ExtHdr) : List Byte :=
  leBytes 8 (e.group % 4096 + e.epoch % 65536 * 2 ^ 12 + e.window % 1024 * 2 ^ 28 + e.block % 2 ^ 24 * 2 ^ 38
      + e.accFmt % 4 * 2 ^ 62)
    ++ leBytes 8 (e.lo % 2 ^ 17 + e.hiIncl % 2 ^ 17 * 2 ^ 17 + e.pgen % 16 * 2 ^ 34 + e.wfmt % 16 * 2 ^ 38
      + e.rfmt % 16 * 2 ^ 42 + e.spfmt % 4 * 2 ^ 46 + bit01 e.denseRx * 2 ^ 48 + bit01 e.esc * 2 ^ 49
      + bit01 e.srnd * 2 ^ 50 + bit01 e.accum * 2 ^ 51 + bit01 e.eow * 2 ^ 52 + e.rsvA % 8 * 2 ^ 53
      + e.status % 256 * 2 ^ 56)
    ++ leBytes 8 (e.nelem % 65536 + e.cNan % 256 * 2 ^ 16 + e.cInf % 256 * 2 ^ 24 + e.cRsv % 256 * 2 ^ 32
      + e.cScale % 256 * 2 ^ 40 + e.cSat % 256 * 2 ^ 48 + e.rsvB % 256 * 2 ^ 56)
    ++ leBytes 8 (e.digest % 2 ^ 64)

def extPart (p : Packet) : List Byte :=
  match p.ext with
  | some e => extBytes e
  | none => []

/-- e2e_crc: over header bytes 0 to 27 with vc, tc, ce, dm, ttl and link_seq taken as 0, then the extension header, then
the payload (R55). -/
def e2eCrc (p : Packet) : Nat :=
  crc32c (hdrBytes { p with vc := 0, tc := 0, ce := false, dm := false, ttl := 0, linkSeq := 0 } ++ extPart p ++ p.payload)

def crcGood (p : Packet) : Bool := p.crc == e2eCrc p

/-- Bytes of a packet on the wire: header, extension header, payload. -/
def pktBytes (p : Packet) : Nat := 32 + 32 * bit01 p.ext.isSome + p.plen

/-- The credits it needs (R50). -/
def pktCredits (p : Packet) : Nat := ceilDiv (pktBytes p) 64

/-- The bytes of a packet as they stand in memory or in a buffer. -/
def pktImage (p : Packet) : List Byte := hdrBytes p ++ leBytes 4 p.crc ++ extPart p ++ p.payload

/-! ### Parsing -/

def bitsOf (x l n : Nat) : Nat := x / 2 ^ l % 2 ^ n

def leAt (bs : List Byte) (off n : Nat) : Nat := leVal ((bs.drop off).take n)

/-- The extension header held in 32 bytes. -/
def parseExt (bs : List Byte) : ExtHdr :=
  let a := leAt bs 0 8
  let b := leAt bs 8 8
  let c := leAt bs 16 8
  { group := bitsOf a 0 12, epoch := bitsOf a 12 16, window := bitsOf a 28 10, block := bitsOf a 38 24,
    accFmt := bitsOf a 62 2, lo := bitsOf b 0 17, hiIncl := bitsOf b 17 17, pgen := bitsOf b 34 4,
    wfmt := bitsOf b 38 4, rfmt := bitsOf b 42 4, spfmt := bitsOf b 46 2, denseRx := bitsOf b 48 1 == 1,
    esc := bitsOf b 49 1 == 1, srnd := bitsOf b 50 1 == 1, accum := bitsOf b 51 1 == 1, eow := bitsOf b 52 1 == 1,
    rsvA := bitsOf b 53 3, status := bitsOf b 56 8, nelem := bitsOf c 0 16, cNan := bitsOf c 16 8,
    cInf := bitsOf c 24 8, cRsv := bitsOf c 32 8, cScale := bitsOf c 40 8, cSat := bitsOf c 48 8,
    rsvB := bitsOf c 56 8, digest := leAt bs 24 8 }

/-- A packet from its header, extension header and payload bytes (the bytes after plen are dropped). -/
def parsePacket (bs : List Byte) : Packet :=
  let a := leAt bs 0 8
  let b := leAt bs 8 8
  let c := leAt bs 16 8
  let d := leAt bs 24 4
  let ext := bitsOf a 23 1 == 1
  let n := bitsOf a 24 13
  { ver := bitsOf a 0 4, ptype := bitsOf a 4 4, vc := bitsOf a 8 3, tc := bitsOf a 11 3, ce := bitsOf a 14 1 == 1,
    dm := bitsOf a 15 1 == 1, ttl := bitsOf a 16 6, last := bitsOf a 22 1 == 1, plen := n, rsv0 := bitsOf a 37 3,
    dst := bitsOf a 40 20, rsv1 := bitsOf a 60 4, src := bitsOf b 0 20, seq := bitsOf b 20 24, tag := bitsOf b 44 16,
    rsv2 := bitsOf b 60 4, addr := bitsOf c 0 56, rsv3 := bitsOf c 56 8, linkSeq := bitsOf d 0 24,
    rsv4 := bitsOf d 24 8, crc := leAt bs 28 4,
    ext := if ext then some (parseExt ((bs.drop 32).take 32)) else none,
    payload := (bs.drop (if ext then 64 else 32)).take n }

/-! ### Link control frames -/

/-- Bytes 0 to 59 of an LCTL frame. -/
def lctlBytes (f : Lctl) : List Byte :=
  leBytes 1 (f.ver % 16 + f.ptype % 16 * 16) ++ leBytes 1 f.kind ++ leBytes 2 f.rsv
    ++ leBytes 4 (f.ackSeq % 2 ^ 24 + f.rsv2 % 256 * 2 ^ 24) ++ f.credit.flatMap (leBytes 4) ++ f.body

def lctlCrc (f : Lctl) : Nat := crc32c (lctlBytes f)

def withLcrc (f : Lctl) : Lctl := { f with lcrc := lctlCrc f }

/-! ### Keys -/

def extKey (e : ExtHdr) : Key := ⟨e.group, e.epoch, e.window, e.block⟩

/-- Completion-record bytes 0 to 7: the key, without acc_fmt (R171). -/
def keyWord (k : Key) : Nat :=
  k.group % 4096 + k.epoch % 65536 * 2 ^ 12 + k.window % 1024 * 2 ^ 28 + k.block % 2 ^ 24 * 2 ^ 38

def wordKey (x : Nat) : Key := ⟨bitsOf x 0 12, bitsOf x 12 16, bitsOf x 28 10, bitsOf x 38 24⟩

end Sys2Proof.Machine
end

