-- ==== Sys2Proof/Machine/Num.lean ====
section
/-!
DEFINITION. The number formats of 03_number_formats.md: exact internal values, decoding (R96), the one rounding rule
(R99 to R103), exact sums and products, the block-scaled encodings with their escape decision (R108 to R112), stochastic
rounding (R113, R114) and the decode census (R97).
-/
namespace Sys2Proof.Machine

/-- An internal value: a signed zero, a signed infinity, NaN, or (-1)^neg x sig x 2^exp with sig > 0. -/
inductive Val where
  | nan
  | inf (neg : Bool)
  | zero (neg : Bool)
  | fin (neg : Bool) (sig : Nat) (exp : Int)
deriving DecidableEq, Repr

/-- The special codes of a floating-point layout (R90, R96). -/
inductive Special where
  | ieee
  | e4m3
  | none
deriving DecidableEq, Repr

/-- A floating-point layout (R90). -/
structure FFmt where
  eBits : Nat
  mBits : Nat
  bias : Nat
  special : Special
deriving DecidableEq, Repr

def fFp32 : FFmt := ⟨8, 23, 127, .ieee⟩
def fFp16 : FFmt := ⟨5, 10, 15, .ieee⟩
def fBf16 : FFmt := ⟨8, 7, 127, .ieee⟩
def fE4m3 : FFmt := ⟨4, 3, 7, .e4m3⟩
def fE5m2 : FFmt := ⟨5, 2, 15, .ieee⟩
def fE2m1 : FFmt := ⟨2, 1, 1, .none⟩

/-- The layout of a format code of R58 (0x0 to 0x4); the MXFP4 element for the rest. -/
def layoutOf : Nat → FFmt
  | 0 => fFp32
  | 1 => fFp16
  | 2 => fBf16
  | 3 => fE4m3
  | 4 => fE5m2
  | _ => fE2m1

/-- The element width in bits of a format code (R89). -/
def elemBits : Nat → Nat
  | 0 => 32
  | 1 => 16
  | 2 => 16
  | 3 => 8
  | 4 => 8
  | 7 => 2
  | _ => 4

/-- MXFP4, XG-INT4 and XG-T2 share a scale in each group of 32 elements (R89). -/
def isScaled (f : Nat) : Bool := decide (5 ≤ f) && decide (f ≤ 7)

/-- `decode_float` of R96. -/
def decodeFloat (f : FFmt) (code : Nat) : Val :=
  let sign := code / 2 ^ (f.eBits + f.mBits) % 2 == 1
  let e := code / 2 ^ f.mBits % 2 ^ f.eBits
  let m := code % 2 ^ f.mBits
  let top := 2 ^ f.eBits - 1
  if f.special = .ieee ∧ e = top then (if m = 0 then .inf sign else .nan)
  else if f.special = .e4m3 ∧ e = top ∧ m = 2 ^ f.mBits - 1 then .nan
  else if e = 0 then
    (if m = 0 then .zero sign else .fin sign m (1 - (f.bias : Int) - f.mBits))
  else .fin sign (2 ^ f.mBits + m) ((e : Int) - f.bias - f.mBits)

/-- The value times 2^k. -/
def Val.scale (k : Int) : Val → Val
  | .fin s m e => .fin s m (e + k)
  | v => v

/-- An integer as a value; 0 is +0. -/
def Val.ofInt (i : Int) : Val :=
  if i = 0 then .zero false else .fin (decide (i < 0)) i.natAbs 0

def Val.negate : Val → Val
  | .nan => .nan
  | .inf s => .inf (!s)
  | .zero s => .zero (!s)
  | .fin s m e => .fin (!s) m e

def Val.isFin : Val → Bool
  | .fin _ _ _ => true
  | .zero _ => true
  | _ => false

/-! ### Rounding (R99, R103) -/

/-- Whether a fraction rem / 2^sh above `lo` rounds up: to nearest even, or against the 32-bit number `r`. -/
def roundsUp (r : Option Nat) (lo rem sh : Nat) : Bool :=
  match r with
  | none => decide (2 ^ sh < rem * 2) || (rem * 2 == 2 ^ sh && lo % 2 == 1)
  | some x => decide (x < rem * 2 ^ 32 / 2 ^ sh)

/-- The code (without its sign) that the magnitude sig x 2^exp rounds to on the format's grid, which goes on above the
largest finite value (R103). -/
def roundCode (f : FFmt) (r : Option Nat) (sig : Nat) (exp : Int) : Nat :=
  let top : Int := exp + (Nat.log2 sig : Int)
  let u : Int := max top (1 - (f.bias : Int)) - f.mBits
  let q : Nat :=
    if u ≤ exp then sig * 2 ^ (exp - u).toNat
    else
      let sh := (u - exp).toNat
      let lo := sig / 2 ^ sh
      if roundsUp r lo (sig % 2 ^ sh) sh then lo + 1 else lo
  (u + f.mBits + f.bias).toNat * 2 ^ f.mBits + q - 2 ^ f.mBits

/-- The code of the largest finite magnitude (R90). -/
def maxCode (f : FFmt) : Nat :=
  match f.special with
  | .ieee => (2 ^ f.eBits - 1) * 2 ^ f.mBits - 1
  | .e4m3 => 2 ^ (f.eBits + f.mBits) - 2
  | .none => 2 ^ (f.eBits + f.mBits) - 1

def infCode (f : FFmt) : Nat :=
  match f.special with
  | .ieee => (2 ^ f.eBits - 1) * 2 ^ f.mBits
  | _ => maxCode f

/-- The canonical NaN (R100). -/
def nanCode (f : FFmt) : Nat :=
  match f.special with
  | .ieee => (2 ^ f.eBits - 1) * 2 ^ f.mBits + 2 ^ (f.mBits - 1)
  | .e4m3 => 2 ^ (f.eBits + f.mBits) - 1
  | .none => 0

def signBit (f : FFmt) (neg : Bool) : Nat := if neg then 2 ^ (f.eBits + f.mBits) else 0

/-- The code of a value in a floating-point layout, and whether it saturated or overflowed (R100 to R103). -/
def encodeFloat (f : FFmt) (r : Option Nat) : Val → Nat × Bool
  | .nan => (nanCode f, false)
  | .inf s => (signBit f s + infCode f, f.special != .ieee)
  | .zero s => (signBit f s, false)
  | .fin s m e =>
    let c := roundCode f r m e
    if maxCode f < c then (signBit f s + infCode f, true) else (signBit f s + c, false)

/-- `round_int` of R103 on a value: the clamped integer and whether it was clamped. -/
def roundInt (lo hi : Int) (r : Option Nat) : Val → Int × Bool
  | .nan => (0, false)
  | .inf s => (if s then lo else hi, true)
  | .zero _ => (0, false)
  | .fin s m e =>
    let n : Int := if s then -(m : Int) else m
    let q : Int :=
      if 0 ≤ e then n * 2 ^ e.toNat
      else
        let d : Int := 2 ^ (-e).toNat
        let k := n / d
        let rem := (n % d).toNat
        if roundsUp r (k % 2).toNat rem (-e).toNat then k + 1 else k
    (max lo (min hi q), decide (q < lo) || decide (hi < q))

/-! ### Exact arithmetic (R99 to R102) -/

/-- An exact sum of finite values as a value; the sign of an exact zero is +. -/
def finAdd (s1 : Bool) (m1 : Nat) (e1 : Int) (s2 : Bool) (m2 : Nat) (e2 : Int) : Val :=
  let e := min e1 e2
  let a : Int := (m1 : Int) * 2 ^ (e1 - e).toNat
  let b : Int := (m2 : Int) * 2 ^ (e2 - e).toNat
  let t := (if s1 then -a else a) + (if s2 then -b else b)
  if t = 0 then .zero false else .fin (decide (t < 0)) t.natAbs e

/-- The exact sum (R101). -/
def Val.add : Val → Val → Val
  | .nan, _ => .nan
  | _, .nan => .nan
  | .inf s, .inf t => if s = t then .inf s else .nan
  | .inf s, _ => .inf s
  | _, .inf t => .inf t
  | .zero s, .zero t => .zero (s && t)
  | .zero _, v => v
  | v, .zero _ => v
  | .fin s1 m1 e1, .fin s2 m2 e2 => finAdd s1 m1 e1 s2 m2 e2

/-- The exact product. -/
def Val.mul : Val → Val → Val
  | .nan, _ => .nan
  | _, .nan => .nan
  | .inf _, .zero _ => .nan
  | .zero _, .inf _ => .nan
  | .inf s, .inf t => .inf (s != t)
  | .inf s, .fin t _ _ => .inf (s != t)
  | .fin s _ _, .inf t => .inf (s != t)
  | .zero s, .zero t => .zero (s != t)
  | .zero s, .fin t _ _ => .zero (s != t)
  | .fin s _ _, .zero t => .zero (s != t)
  | .fin s1 m1 e1, .fin s2 m2 e2 => .fin (s1 != s2) (m1 * m2) (e1 + e2)

/-- The value as an ordered pair of integers over a common power of two: -1, 0, 1 as `a` is below, equal to or above `b`;
NaN compares as equal here and is judged by its callers. -/
def Val.cmp (a b : Val) : Int :=
  match a, b with
  | .inf s, .inf t => if s = t then 0 else if s then -1 else 1
  | .inf s, _ => if s then -1 else 1
  | _, .inf t => if t then 1 else -1
  | _, _ =>
    match Val.add a b.negate with
    | .fin s _ _ => if s then -1 else 1
    | _ => 0

def Val.isNan : Val → Bool
  | .nan => true
  | _ => false

def Val.abs : Val → Val
  | .inf _ => .inf false
  | .zero _ => .zero false
  | .fin _ m e => .fin false m e
  | .nan => .nan

/-- add(a, b) on codes of an arithmetic format: the exact sum rounded once (R99). -/
def addCodes (acc a b : Nat) : Nat :=
  let f := layoutOf acc
  (encodeFloat f none (Val.add (decodeFloat f a) (decodeFloat f b))).1

/-- Convert a value to an arithmetic format by round-to-nearest-even. -/
def toCode (fmt : Nat) (v : Val) : Nat := (encodeFloat (layoutOf fmt) none v).1

def ofCode (fmt : Nat) (c : Nat) : Val := decodeFloat (layoutOf fmt) c

/-- acc_fmt code (0 FP32, 1 FP16, 2 BF16) as a byte width. -/
def accBytes (acc : Nat) : Nat := if acc = 0 then 4 else 2

/-! ### Stochastic rounding (R113) -/

def mul64 (a b : Nat) : Nat := a * b % 2 ^ 64

def xgMix (seed group epoch block index : Nat) : Nat :=
  let key := (group * 2 ^ 52 + epoch * 2 ^ 36 + block * 2 ^ 12 + index) % 2 ^ 64
  let x0 := (seed % 2 ^ 64) ^^^ mul64 key 0x9E3779B97F4A7C15
  let x1 := mul64 (x0 ^^^ (x0 / 2 ^ 31)) 0xD6E8FEB86659FD93
  let x2 := mul64 (x1 ^^^ (x1 / 2 ^ 29)) 0xA0761D6478BD642F
  let x3 := x2 ^^^ (x2 / 2 ^ 32)
  x3 / 2 ^ 32

/-! ### Element areas -/

/-- Bytes of `n` elements in a format (R95). -/
def encodedLen (fmt n : Nat) : Nat :=
  match fmt with
  | 0 => 4 * n
  | 1 => 2 * n
  | 2 => 2 * n
  | 3 => n
  | 4 => n
  | 7 => 9 * ceilDiv n 32
  | _ => 17 * ceilDiv n 32

/-- Code of element `i` of an element area (R93 for the narrow formats). -/
def elemCode (fmt : Nat) (p : List Byte) (i : Nat) : Nat :=
  let b := elemBits fmt
  if b < 8 then ((p.getD (b * i / 8) 0).toNat / 2 ^ (b * i % 8)) % 2 ^ b
  else leAt p (i * (b / 8)) (b / 8)

/-- Scale byte of element `i` in a block-scaled payload of `n` elements (R93). -/
def scaleByte (fmt n : Nat) (p : List Byte) (i : Nat) : Nat :=
  (p.getD (ceilDiv n 32 * 32 * elemBits fmt / 8 + i / 32) 0).toNat

/-- The integer of an XG-INT4 or XG-T2 code (R92). -/
def intOfCode (fmt c : Nat) : Int :=
  if fmt = 6 then (if 8 ≤ c then (c : Int) - 16 else c)
  else if c = 1 then 1 else if c = 3 then -1 else 0

/-- Value of one element under its scale byte (R96). -/
def scaledVal (fmt c sc : Nat) : Val :=
  if sc = 0xFF then .nan
  else
    let v := if fmt = 5 then decodeFloat fE2m1 c else Val.ofInt (intOfCode fmt c)
    v.scale ((sc : Int) - 127)

/-- Element `i` of a payload of `n` elements. -/
def elemVal (fmt n : Nat) (p : List Byte) (i : Nat) : Val :=
  if isScaled fmt then scaledVal fmt (elemCode fmt p i) (scaleByte fmt n p i) else ofCode fmt (elemCode fmt p i)

/-- Every element of a payload of `n` elements (R96). -/
def decodeElems (fmt n : Nat) (p : List Byte) : List Val := (List.range n).map (elemVal fmt n p)

/-- The decode census of `n` elements (R97), each count saturating at 255. -/
def censusOf (lo hi fmt n : Nat) (p : List Byte) : Census :=
  let is := List.range n
  { nan := min 255 (is.filter (fun i => (elemVal fmt n p i).isNan)).length
    inf := min 255 (is.filter (fun i => match elemVal fmt n p i with | .inf _ => true | _ => false)).length
    rsv := min 255 (is.filter (fun i => fmt == 7 && elemCode fmt p i == 2 && scaleByte fmt n p i != 0xFF)).length
    scale :=
      if isScaled fmt then
        min 255 ((List.range (ceilDiv n 32)).filter (fun j =>
          let s := scaleByte fmt n p (32 * j)
          s != 0xFF && (decide (s < lo) || decide (hi < s)))).length
      else 0 }

/-- The saturating sum of two censuses (R98). -/
def Census.plus (a b : Census) : Census :=
  ⟨satAdd 8 a.nan b.nan, satAdd 8 a.inf b.inf, satAdd 8 a.rsv b.rsv, satAdd 8 a.scale b.scale⟩

/-! ### Encoding (R106 to R112) -/

/-- Pieces of `n` elements. -/
def pieces {α : Type} (n : Nat) (l : List α) : List (List α) :=
  (List.range (ceilDiv l.length n)).map (fun j => (l.drop (n * j)).take n)

/-- The largest finite magnitude of a scale group, +0 when there is none (R108). -/
def amaxOf (vs : List Val) : Val :=
  vs.foldl (fun a v => if v.isFin && decide (Val.cmp a v.abs < 0) then v.abs else a) (.zero false)

/-- The scale exponent t of R108. -/
def scaleExp (fmt : Nat) (vs : List Val) : Int :=
  match amaxOf vs with
  | .fin _ m e =>
    let fl : Int := e + (Nat.log2 m : Int)
    let t := if fmt = 7 then (if m = 2 ^ Nat.log2 m then fl else fl + 1) else fl - 2
    max (-127) (min 127 t)
  | _ => -127

/-- One element of a block-scaled group under scale exponent t (R109): code and saturation. -/
def encodeScaled (fmt : Nat) (t : Int) (r : Option Nat) (v : Val) : Nat × Bool :=
  let x := v.scale (-t)
  if fmt = 5 then encodeFloat fE2m1 r x
  else if fmt = 6 then
    let (i, sat) := roundInt (-8) 7 r x
    ((i % 16).toNat, sat)
  else
    let (i, sat) := roundInt (-1) 1 r x
    (if i = 1 then 1 else if i = -1 then 3 else 0, sat)

/-- One encoded scale group: codes, scale byte, saturations. -/
structure ScaleGrp where
  codes : List Nat
  scale : Nat
  sats : Nat
deriving DecidableEq, Repr

/-- Encode one scale group of (value, random number) pairs (R108, R109, R100). -/
def encodeGroup (fmt : Nat) (vs : List (Val × Option Nat)) : ScaleGrp :=
  if vs.any (fun x => x.1.isNan) then ⟨vs.map (fun _ => 0), 0xFF, 0⟩
  else
    let t := scaleExp fmt (vs.map (fun x => x.1))
    let cs := vs.map (fun x => encodeScaled fmt t x.2 x.1)
    ⟨cs.map (fun c => c.1), (t + 127).toNat, (cs.filter (fun c => c.2)).length⟩

/-- Pack codes of `b` bits into bytes, the lower-numbered element lower in the byte (R93). -/
def packCodes (b : Nat) (cs : List Nat) : List Byte :=
  if b < 8 then
    (pieces (8 / b) cs).map (fun g => BitVec.ofNat 8 (g.foldr (fun c a => c + a * 2 ^ b) 0))
  else cs.flatMap (leBytes (b / 8))

/-- Codes padded with 0 to whole scale groups; that the module's own encoder writes 0 there is the model's choice (R93; DESIGN CHOICE,
assumption 137). -/
def padCodes (cs : List Nat) : List Nat := cs ++ List.replicate (ceilDiv cs.length 32 * 32 - cs.length) 0

/-- Encode (value, random number) pairs in a format: bytes and saturations (R93, R103, R108, R109). -/
def encodeElems (fmt : Nat) (vs : List (Val × Option Nat)) : List Byte × Nat :=
  if isScaled fmt then
    let gs := (pieces 32 vs).map (encodeGroup fmt)
    (packCodes (elemBits fmt) (padCodes (gs.flatMap (fun g => g.codes)))
      ++ gs.map (fun g => BitVec.ofNat 8 g.scale), (gs.map (fun g => g.sats)).sum)
  else
    let cs := vs.map (fun x => encodeFloat (layoutOf fmt) x.2 x.1)
    (packCodes (elemBits fmt) (cs.map (fun c => c.1)), (cs.filter (fun c => c.2)).length)

/-- Whether a scale group makes its block an escape block: its largest error exceeds amax x 2^-shift (R111). -/
def groupEscapes (fmt shift : Nat) (vs : List (Val × Option Nat)) : Bool :=
  let g := encodeGroup fmt vs
  let errs := (vs.zip g.codes).map (fun x =>
    if x.1.1.isFin then ((scaledVal fmt x.2 g.scale).add x.1.1.negate).abs else .zero false)
  let worst := amaxOf errs
  let amax := amaxOf (vs.map (fun x => x.1))
  decide (0 < Val.cmp worst (amax.scale (-(shift : Int))))

/-- The escape decision of R111. -/
def isEscape (fmt shift : Nat) (vs : List (Val × Option Nat)) : Bool :=
  isScaled fmt && decide (1 ≤ shift) && decide (shift ≤ 24) &&
    (vs.any (fun x => !x.1.isFin) || (pieces 32 vs).any (groupEscapes fmt shift))

/-- esc_fmt as a format code: 0 FP16, 1 BF16 (R112). -/
def escCode (escFmt : Nat) : Nat := if escFmt = 0 then 1 else 2

/-- The random number of an element (R114): srnd set and the format one of those it covers. -/
def rndOf (srnd : Bool) (fmt seed : Nat) (k : Key) (i : Nat) : Option Nat :=
  if srnd && decide (3 ≤ fmt) && decide (fmt ≤ 7) then some (xgMix seed k.group k.epoch k.block i) else none

/-- What an egress encoding gives: the format sent, esc, the value bytes, and c_sat (R110). -/
structure EgressEnc where
  fmt : Nat
  esc : Bool
  bytes : List Byte
  csat : Nat
deriving DecidableEq, Repr

/-- Encode the values of a result for a member (R106 to R112): `vs` are (position, code in acc_fmt). -/
def egressEncode (acc rfmt : Nat) (srnd : Bool) (l : Latch) (k : Key) (vs : List (Nat × Nat)) : EgressEnc :=
  if rfmt = acc then ⟨acc, false, packCodes (elemBits acc) (vs.map (fun x => x.2)), 0⟩
  else
    let xs := vs.map (fun x => (ofCode acc x.2, rndOf srnd rfmt l.seed k x.1))
    if isEscape rfmt l.escShift xs then
      let e := escCode l.escFmt
      let cs := xs.map (fun x => encodeFloat (layoutOf e) none x.1)
      let sat := (xs.zip cs).filter (fun x => x.1.1.isFin && x.2.2)
      ⟨e, true, packCodes 16 (cs.map (fun c => c.1)), min 255 sat.length⟩
    else
      let (bs, n) := encodeElems rfmt xs
      ⟨rfmt, false, bs, min 255 n⟩

end Sys2Proof.Machine
end

