-- ==== Sys2Proof/Machine/Packets.lean ====
section
/-!
DEFINITION. Packets that the module forms itself (R72, R309): their header, sequence number and e2e_crc, and their place
among the packets that wait to enter the switching core. STATUS packets of R61, R164 and R495.
-/
namespace Sys2Proof.Machine

def ptWrite : Nat := 0x1
def ptReadReq : Nat := 0x2
def ptReadRsp : Nat := 0x3
def ptWriteAck : Nat := 0x4
def ptSend : Nat := 0x5
def ptCwrite : Nat := 0x6
def ptCnode : Nat := 0x7
def ptCresult : Nat := 0x8
def ptStatus : Nat := 0x9
def ptScount : Nat := 0xA
def ptMgmt : Nat := 0xB
def ptTwin : Nat := 0xC
def ptLctl : Nat := 0xD

def vcReq : Nat := 0
def vcRsp : Nat := 1
def vcFwdA : Nat := 2
def vcFwdB : Nat := 3
def vcCup : Nat := 4
def vcCdn : Nat := 5
def vcMgt : Nat := 6

/-- Statuses of R163. -/
def stOk : Nat := 0x00
def stEscaped : Nat := 0x01
def stUnpredicted : Nat := 0x02
def stFailedLink : Nat := 0x10
def stFailedTwinLost : Nat := 0x11
def stMismatch : Nat := 0x12
def stAbortedDisabled : Nat := 0x13
def stMissing : Nat := 0x20
def stRefused : Nat := 0x21
def stEpochRange : Nat := 0x22
def stAbsent : Nat := 0x23

def statusKnown (x : Nat) : Bool :=
  [stOk, stEscaped, stUnpredicted, stFailedLink, stFailedTwinLost, stMismatch, stAbortedDisabled, stMissing, stRefused,
    stEpochRange, stAbsent].contains x

def statusSuccess (x : Nat) : Bool := decide (x < 3)

/-- Final failures (R163); every other failing status is retryable. -/
def statusFinal (x : Nat) : Bool := decide (0x20 ≤ x) && decide (x ≤ 0x23)

def ttlOrigin : Nat := 32

/-- A request VC: one whose loss is answered with a transport STATUS (R59, R66, R67). -/
def isReqVc (vc : Nat) : Bool := vc == vcReq || vc == vcFwdA || vc == vcFwdB

/-- The sequence number of the next packet from src to (dst, vc), and the state after it is used (R72). -/
def takeSeq (src dst vc : Nat) (s : State) : Nat × State :=
  let k := (src * 2 ^ 20 + dst) * 8 + vc
  let n := tget 0 s.seqs k
  (n, { s with seqs := tset 0 s.seqs k ((n + 1) % 2 ^ 24) })

/-- A packet of this switch before its sequence number and check are filled in; ttl 32, tc set where it leaves (R309). -/
def rawPacket (own ptype vc dst tag addr : Nat) (ext : Option ExtHdr) (payload : List Byte) : Packet :=
  { ver := 1, ptype := ptype, vc := vc, tc := 0, ce := false, dm := false, ttl := ttlOrigin, last := true,
    plen := payload.length, rsv0 := 0, dst := dst, rsv1 := 0, src := own, seq := 0, tag := tag, rsv2 := 0, addr := addr,
    rsv3 := 0, linkSeq := 0, rsv4 := 0, crc := 0, ext := ext, payload := payload }

/-- Fill in src, seq and e2e_crc (R55, R72). -/
def sealPacket (p : Packet) (s : State) : Packet × State :=
  let (n, s1) := takeSeq s.ownFid p.dst p.vc s
  let q := { p with src := s.ownFid, seq := n, linkSeq := 0 }
  ({ q with crc := e2eCrc q }, s1)

/-- Queue a load to enter the switching core (R24). -/
def enqueue (unit vc : Nat) (l : Load) (org : Origin) (buf : Option Nat) (s : State) : State :=
  { s with
    arrivals := s.arrivals + 1
    waiting := s.waiting ++ [{ unit := unit, vc := vc, load := l, landed := false, org := org, credits := 0,
                               bufs := buf.toList, frame := 0, tc := 0, spots := [], seq := s.arrivals }] }

/-- Originate a packet: a unit of the switch sends it (R65, R72). -/
def originate (unit : Nat) (p : Packet) (org : Origin) (s : State) : State :=
  let (q, s1) := sealPacket p s
  enqueue unit p.vc (.jfp q) org none s1

/-- The unit that answers about a packet: the switching core for the packets of chains and cores, whose own packets keep
the tc of their image (R309). -/
def answerUnit (unit : Nat) : Nat := if 1024 ≤ unit ∧ unit < 1600 then repSwc 0 else unit

/-- A transport STATUS (R61, R495) to `dst` about the packet with this tag. -/
def sendTransport (unit dst vc tag code : Nat) (s : State) : State :=
  originate (answerUnit unit) (rawPacket s.ownFid ptStatus vc dst tag code none []) .none s

def tsUnreachable : Nat := 0x01
def tsTtlExpired : Nat := 0x02
def tsRejected : Nat := 0x03

/-- The extension header of a STATUS about [lo, hi] of a key (R164). -/
def statusExt (k : Key) (acc lo hi status pgen : Nat) : ExtHdr :=
  { group := k.group, epoch := k.epoch, window := k.window, block := k.block, accFmt := acc, lo := lo, hiIncl := hi,
    pgen := pgen, wfmt := 0, rfmt := 0, spfmt := 0, denseRx := false, esc := false, srnd := false, accum := false,
    eow := false, rsvA := 0, status := status, nelem := 0, cNan := 0, cInf := 0, cRsv := 0, cScale := 0, cSat := 0,
    rsvB := 0, digest := 0 }

/-- Field of a group-table entry (R147). -/
def grpF (s : State) (g : Nat) (f : Fd) : Nat := s.fld (grpAt g) f
def grpFlag (s : State) (g : Nat) (f : Fd) : Bool := s.flag (grpAt g) f

/-- A STATUS with ext = 1 on VC_CDN (R164): n in addr[23:0], this switch's own pgen. -/
def sendStatus (unit dst : Nat) (k : Key) (lo hi status n : Nat) (s : State) : State :=
  let e := statusExt k (grpF s k.group grpCfg_accFmt) lo hi status (grpF s k.group grpCfg_pgen)
  originate (answerUnit unit) (rawPacket s.ownFid ptStatus vcCdn dst 0 (n % 2 ^ 24) (some e) []) (.down k lo hi) s

/-- Keep the order of arrival. -/
def insertIn (x : InPkt) : List InPkt → List InPkt
  | [] => [x]
  | y :: ys => if x.seq < y.seq then x :: y :: ys else y :: insertIn x ys

/-- A waiting packet as the switch's own units hold it. -/
def arrivedPkt (w : Waiting) (p : Packet) : InPkt :=
  { port := w.unit, pkt := p, buf := w.bufs.head?, org := w.org, held := false, seq := w.seq, pool := none, frame := w.frame,
    tc := w.tc, home := w.home, flen := w.flen }

/-- A packet delivered to the switch's own units joins them in order of arrival (R65, R192). -/
def deliverIn (w : Waiting) (p : Packet) (s : State) : State := { s with inbox := insertIn (arrivedPkt w p) s.inbox }

/-- The delivered packet that a command consumes: the first such packet leaves the inbox; a packet that is not there is taken
as arriving now. -/
def takeInbox (port : Nat) (p : Packet) (s : State) : InPkt × State :=
  match s.inbox.find? (fun x => x.port == port && x.pkt == p) with
  | some x => (x, { s with inbox := s.inbox.erase x })
  | none =>
    ({ port := port, pkt := p, buf := none, org := .none, held := false, seq := s.arrivals, pool := none, frame := 0, tc := 0 },
     { s with arrivals := s.arrivals + 1 })

/-- Give a packet back to the inbox: it is held where it was (R192). -/
def holdInbox (x : InPkt) (s : State) : State := { s with inbox := insertIn x s.inbox }

/-- The same for want of a slot, a buffer or room in a queue: its port withholds credit on its VC (R20, R26, R194). -/
def holdFull (x : InPkt) (s : State) : State := holdInbox { x with held := true } s

end Sys2Proof.Machine
end

