-- ==== Sys2Proof/Machine/Cellar.lean ====
section
/-!
DEFINITION. Cellar buffers: their numbers and handles (R335), the pools (R338, R339, R342), allocation and waiting (R341),
the buffer state table (R343) with the handle check (R344), the whey pool (R346) and parity counts (R345).
-/
namespace Sys2Proof.Machine

/-- Byte size of a slice, of its fixed area, of a buffer (R334, R335). -/
def sliceBytes : Nat := 0x6000000
def openBase : Nat := 0x100000
def bufBytes : Nat := 4160

def openEnd (s : State) (q : Nat) : Nat := openBase + s.fld (pgCellar q) celArea_openPages * 4096

/-- Buffers in the buffer area (R334). -/
def nBufs (s : State) (q : Nat) : Nat := (sliceBytes - openEnd s q) / bufBytes

/-- Buffer k of the buffer area of quadrant q, and of its whey region, in `State.bufs`. -/
def bufId (q k : Nat) : Nat := q * 65536 + k
def wheyId (q k : Nat) : Nat := 2 ^ 20 + q * 2 ^ 23 + k
def bufQuad (b : Nat) : Nat := if b < 2 ^ 20 then b / 65536 else (b - 2 ^ 20) / 2 ^ 23
def bufIndex (b : Nat) : Nat := if b < 2 ^ 20 then b % 65536 else (b - 2 ^ 20) % 2 ^ 23
def isWhey (b : Nat) : Bool := decide (2 ^ 20 ≤ b)

/-- The 32-bit handle of a buffer (R335): space, quadrant, offset in 64-byte units. -/
def bufHandle (b : Nat) : Nat := bit01 (isWhey b) * 2 ^ 31 + bufQuad b * 2 ^ 29 + bufIndex b * 65

/-- The checks of R344 on a handle. -/
def handleOk (s : State) (h : Nat) : Bool :=
  let q := h / 2 ^ 29 % 4
  let off := h % 2 ^ 29
  quadPresent s.fuses q && off % 65 == 0 &&
    (if h / 2 ^ 31 % 2 = 1 then decide (off < s.fld (pgCellar q) celWhey_wheyN * 65) else decide (off < nBufs s q * 65))

/-- A refused handle: counted in ptr, CEL_PTR raised, a Tally record with the requester number as subject (R344). -/
def refuseHandle (q req : Nat) (s : State) : State :=
  let s1 := s.addFld (pgCellar q) celCnt_ptr 1
  reportOpen req clsCelPtr (repCellar q) (raiseEv (pgCellar q) 2 s1)

/-! ### Pools -/

def poolAddr (q p : Nat) : Nat := pgCellar q + 8 * p

def poolUsed (s : State) (q p : Nat) : Nat := s.fld (poolAddr q p) celPool_used
def poolRes (s : State) (q p : Nat) : Nat := s.fld (poolAddr q p) celPool_res
/-- cap, where values above n_bufs act as n_bufs (R358). -/
def poolCap (s : State) (q p : Nat) : Nat := min (s.fld (poolAddr q p) celPool_cap) (nBufs s q)

/-- What the pools of a slice hold or keep aside (R339); the rest is what they share. -/
def poolsAside (s : State) (q : Nat) : Nat := ((List.range 7).map (fun j => max (poolUsed s q j) (poolRes s q j))).sum

/-- `can_allocate` of R339, and the bar of R342 on a pool whose reserve was lowered below its use. -/
def canAllocate (s : State) (q p : Nat) : Bool :=
  decide (poolUsed s q p < poolCap s q p)
    && (decide (poolUsed s q p < poolRes s q p)
      || (decide (poolsAside s q < nBufs s q) && tget 0 s.poolHold (8 * q + p) == 0))

/-- A buffer that is FREE and was not freed in this cycle (R339, R341). -/
def allocatable (s : State) (b : Nat) : Bool := (s.buf b).st == .free && !(s.same.freed.any (fun x => x / 8 == b))

/-- The lowest-numbered allocatable buffer of the slice (assumption 10). -/
def firstFree (s : State) (q : Nat) : Option Nat :=
  ((List.range (min (nBufs s q) (s.bufs.length + s.same.freed.length + 1))).find?
    (fun k => allocatable s (bufId q k))).map (bufId q)

def bumpUsed (q p : Nat) (s : State) : State :=
  let u := poolUsed s q p + 1
  let s1 := s.setFld (poolAddr q p) celPool_used u
  s1.setFld (poolAddr q p) celPool_hwm (max u (s1.fld (poolAddr q p) celPool_hwm))

/-- Allocate a buffer for pool `p` of quadrant `q` (R339, R343): FREE to OWNED with its pool recorded. -/
def allocBuf (q p req : Nat) (s : State) : Option (Nat × State) :=
  if canAllocate s q p then
    match firstFree s q with
    | some b => some (b, noteAct (.alloc q) req (bumpUsed q p (s.setBuf b { Buf.free with st := .owned, pool := p })))
    | none => none
  else none

/-- Buffers of the buffer area that are not allocatable now. -/
def takenBufs (s : State) (q : Nat) : Nat :=
  (s.bufs.filter (fun b => decide (b.1 < 2 ^ 20) && bufQuad b.1 == q && decide (bufIndex b.1 < nBufs s q))).length
    + (s.same.freed.filter (fun x => decide (x / 8 < 2 ^ 20) && bufQuad (x / 8) == q && (s.buf (x / 8)).st == .free)).length

/-- The first waiter of a pool. -/
def poolHead (s : State) (q p : Nat) : Option Waiter := s.waiters.find? (fun w => w.qd == q && w.pool == p)

/-- The waiters that head their pools and whose pools can allocate, in the order in which they began to wait. -/
def readyHeads (s : State) (q : Nat) : List Waiter :=
  s.waiters.filter (fun w => w.qd == q && poolHead s q w.pool == some w && canAllocate s q w.pool)

/-- The allocatable buffers and the units of the shared rest that heads leave when they are served in order: one takes of both,
unless its pool is below its reserve (R339, R341). -/
def afterHeads (s : State) (q : Nat) : List Waiter → Nat × Nat → Nat × Nat
  | [], a => a
  | w :: ws, (f, r) =>
    if poolUsed s q w.pool < poolRes s q w.pool then afterHeads s q ws (f - 1, r)
    else if f = 0 ∨ r = 0 then afterHeads s q ws (f, r)
    else afterHeads s q ws (f - 1, r - 1)

/-- The heads `hs` leave what an allocation for pool `p` needs. -/
def heedsHeads (s : State) (q p : Nat) (hs : List Waiter) : Bool :=
  let a := afterHeads s q hs (nBufs s q - takenBufs s q, nBufs s q - poolsAside s q)
  decide (0 < a.1) && (decide (poolUsed s q p < poolRes s q p) || decide (0 < a.2))

/-- An allocation that comes after the heads `hs` (R341). -/
def allocAfter (hs : List Waiter) (q p req : Nat) (s : State) : Option (Nat × State) :=
  if heedsHeads s q p hs then allocBuf q p req s else none

/-- The heads that can be served and began to wait before waiter `w`. -/
def headsBefore (s : State) (w : Waiter) : List Waiter := (readyHeads s w.qd).takeWhile (fun x => x != w)

/-- A new request of a unit (R341): it overtakes no waiter of its pool, and leaves what they need to the heads that wait on other
pools and can be served. -/
def takeBuf (q p req : Nat) (s : State) : Option (Nat × State) :=
  if s.waiters.any (fun w => w.qd == q && w.pool == p) then none else allocAfter (readyHeads s q) q p req s

/-- Waiters stand in the order in which they began to wait, those of one cycle by requester number (R341). -/
def insertWaiter (w : Waiter) : List Waiter → List Waiter
  | [] => [w]
  | x :: xs => if x.at_ < w.at_ ∨ (x.at_ = w.at_ ∧ x.req ≤ w.req) then x :: insertWaiter w xs else w :: x :: xs

/-! ### Bytes of the slice and of buffers (R334, R335) -/

/-- The scope entries that a validation has read by now, those of this cycle among them (R123, R493): one per cycle. A word of
wrong parity is reported (R345). -/
def scanNow (s : State) (v : Scan) : Scan :=
  let n := min v.len (s.cyc + 1 - v.start)
  { v with seen := v.seen ++ ((List.range n).drop v.seen.length).map (fun i => rdLe s (spCellar v.qd) (v.base + 8 * i) 8) }

/-- Every validation whose table `n` bytes of slice `q` touch takes up what it has read so far: a later write does not change it. -/
def scanTables (q off n : Nat) (s : State) : State :=
  { s with grps := s.grps.map (fun (x : Nat × Grp) =>
      match x.2.scan with
      | some v =>
        if v.qd = q ∧ v.base < off + n ∧ off < v.base + 8 * v.len then (x.1, { x.2 with scan := some (scanNow s v) }) else x
      | none => x) }

/-- A write to a slice: the words take good parity again (R345). -/
def cellWrite (q off req : Nat) (bs : List Byte) (s : State) : State :=
  goodParity q off bs.length (storeBytes (spCellar q) off req [] bs (scanTables q off bs.length s))

/-- An access of requester `req` that reaches a page beyond the stacks of quadrant `q` is refused as a handle is (R348): counted
in that quadrant's Cellar page, or, where the quadrant is absent, in the requester's own. -/
def refusePage (q req : Nat) (s : State) : State := refuseHandle (if quadPresent s.fuses q then q else unitQuad req) req s

/-- A unit's write to the stacks; the part beyond them is refused as a handle is (R348). -/
def hbmPut (c : HbmClass) (q off : Nat) (bs : List Byte) (req : Nat) (s : State) : State :=
  let s1 := hbmWrite c q off bs req s
  if quadPages s q * 4096 < off + bs.length then refusePage q req s1 else s1

/-- Where buffer `b` begins: buffer k at k x 4,160 of its area. -/
def bufOff (s : State) (b : Nat) : Nat :=
  (if isWhey b then pageAddr (s.fld (pgCellar (bufQuad b)) celWhey_wheyPg) else openEnd s (bufQuad b))
    + bufIndex b * bufBytes

/-- A write of requester `req` into a buffer at byte `i`; a whey buffer lies in HBM and takes the bulk class (R346). -/
def putBuf (b i req : Nat) (bs : List Byte) (s : State) : State :=
  if isWhey b then hbmPut .bulk (bufQuad b) (bufOff s b + i) bs req s
  else cellWrite (bufQuad b) (bufOff s b + i) req bs s

/-- Header cell of a packet: its header and extension header. -/
def packetCell (p : Packet) : List Byte := hdrBytes p ++ leBytes 4 p.crc ++ (if p.ext.isSome then extPart p else [])

/-! ### The buffer state table (R343) -/

/-- Return a buffer to its pool; used_p falls at the next cycle (R339). A whey buffer counts in `free`. -/
def returnBuf (b : Nat) (s : State) : State :=
  let p := (s.buf b).pool
  let s1 := s.setBuf b Buf.free
  if isWhey b then s1.setFld (pgCellar (bufQuad b)) celWheyStat_free (s1.fld (pgCellar (bufQuad b)) celWheyStat_free + 1)
  else { s1 with same := { s1.same with freed := (b * 8 + p) :: s1.same.freed } }

def countDfree (q : Nat) (s : State) : State := raiseEv (pgCellar q) 3 (s.addFld (pgCellar q) celCnt_dfree 1)
def countBadfree (q : Nat) (s : State) : State := s.addFld (pgCellar q) celCnt_badfree 1
def countRunder (q : Nat) (s : State) : State := s.addFld (pgCellar q) celCnt_runder 1

/-- The handle of a buffer is checked before it is acted on (R344). -/
def onHandle (b req : Nat) (f : State → State) (s : State) : State :=
  if handleOk s (bufHandle b) then f s else refuseHandle (bufQuad b) req s

/-- Fill a buffer: header cell, then data page (R335). -/
def fillBuf (b req : Nat) (cell data : List Byte) (s : State) : State :=
  onHandle b req (fun s => putBuf b 64 req data (putBuf b 0 req cell s)) s

/-- A packet stands in its buffer. -/
def fillPacket (b req : Nat) (p : Packet) (s : State) : State := fillBuf b req (packetCell p) p.payload s

/-- A frame stands in its buffers, the header cell of each with the handle of the next (R335; assumption 90). -/
def fillFrame (req : Nat) (bs : List Nat) (ds : List (List Byte)) (s : State) : State :=
  forAll (fun (x : Nat × Nat × List Byte) s => fillBuf x.1 req (leBytes 4 x.2.1) x.2.2 s)
    (bs.zip ((bs.tail.map bufHandle ++ [0]).zip ds)) s

/-- A unit is about to read a buffer (R344): a refused handle reads as a hard parity error of the buffer. -/
def bufRefused (s : State) (b : Nat) : Bool := !handleOk s (bufHandle b)

/-- free by requester `req`, for the slot `key` when the freer is a slot. -/
def freeBuf (b req : Nat) (key : Option Key) (s : State) : State :=
  onHandle b req (fun s =>
    let x := s.buf b
    match x.st with
    | .free => countDfree (bufQuad b) s
    | .owned => returnBuf b s
    | .shared =>
      if x.freer = req ∧ x.slotKey = key then
        if x.freePending then countDfree (bufQuad b) s
        else if x.ref = 0 then returnBuf b s
        else s.setBuf b { x with freePending := true }
      else countBadfree (bufQuad b) s) s

/-- share(n) by the unit that creates the shared buffer, which becomes its named freer (R22). -/
def shareBuf (b n req : Nat) (key : Option Key) (s : State) : State :=
  onHandle b req (fun s =>
    let x := s.buf b
    match x.st with
    | .free => countDfree (bufQuad b) s
    | .owned => s.setBuf b { x with st := .shared, freer := req, slotKey := key, ref := n, freePending := false }
    | .shared => countBadfree (bufQuad b) s) s

/-- A release of one reference (R23, R343). -/
def releaseBuf (b req : Nat) (s : State) : State :=
  onHandle b req (fun s =>
    let x := s.buf b
    match x.st with
    | .free => countDfree (bufQuad b) s
    | .owned => countRunder (bufQuad b) s
    | .shared =>
      if x.ref = 0 then countRunder (bufQuad b) s
      else if x.ref = 1 ∧ x.freePending then returnBuf b s
      else s.setBuf b { x with ref := x.ref - 1 }) s

/-! ### Parity (R345) -/

/-- Count a parity error that came back from its source, or one with no source. -/
def countParity (q : Nat) (p : Parity) (s : State) : State :=
  match p with
  | .good => s
  | .replayed => s.addFld (pgCellar q) celPar_replay 1
  | .hard => s.addFld (pgCellar q) celPar_hard 1

/-- A hard parity error in the open area, the chain store or a sync object (R345). -/
def parHardEvent (q off : Nat) (s : State) : State :=
  reportOwn clsCelParHard (repCellar q) off (raiseEv (pgCellar q) 4 s)

/-- A word of wrong parity in the fixed or the open area was read: counted in hard, with the event and the record. -/
def upsetRead (q off : Nat) (s : State) : State := parHardEvent q off (countParity q .hard s)

/-! ### Whey (R346) -/

/-- A whey request begins to wait. -/
def wheyWait (q : Nat) (s : State) : State :=
  raiseEv (pgCellar q) 5 (s.addFld (pgCellar q) celWheyStat_waits 1)

/-- The stacks that hold bytes of a region take new work: none is DRAINING, DARK or disabled (R30, R377). -/
def stacksTake (s : State) (q off n : Nat) : Bool :=
  (hbmUnits s q off n).all (fun u => stackOn s u.1 && !isDrain s (pgHbm u.1))

/-- Take a whey buffer of quadrant `q`: the lowest-numbered FREE one (assumption 10) whose stacks take new work (R377). -/
def allocWhey (q : Nat) (s : State) : Option (Nat × State) :=
  let n := s.fld (pgCellar q) celWhey_wheyN
  match ((List.range (min n (s.bufs.length + 1))).find? (fun k => (s.buf (wheyId q k)).st == .free
      && stacksTake s q (bufOff s (wheyId q k)) bufBytes)) with
  | some k =>
    let f := s.fld (pgCellar q) celWheyStat_free - 1
    let s1 := (s.setBuf (wheyId q k) { Buf.free with st := .owned }).setFld (pgCellar q) celWheyStat_free f
    let low := if tget 0 s1.wheySeen q = 0 then f else min f (s1.fld (pgCellar q) celWheyStat_low)
    some (wheyId q k, ({ s1 with wheySeen := tset 0 s1.wheySeen q 1 }).setFld (pgCellar q) celWheyStat_low low)
  | none => none

/-- The page where the lowest-numbered present array of a group's home quadrant stands (R463). -/
def homePress (s : State) (g : Nat) : Nat := grpF s g grpCfg_homeQd * 8

end Sys2Proof.Machine
end

