-- ==== Sys2Proof/Machine/Cycle.lean ====
section
/-!
DEFINITION. The 2.0 GHz cycle (assumption 1): what passes from one cycle to the next whatever is commanded, the live
telemetry of R80 that it counts in, and the heads of the egress lists that wait for credit (R51, R312).
-/
namespace Sys2Proof.Machine

/-! ### Live telemetry (R80, R462) -/

/-- The live value behind the snapshot register at `off` of a port's page. -/
def teleOf (s : State) (port off : Nat) : Nat := (tget (0 : U64) s.tele (pgLane port + off)).toNat

def teleSet (port off v : Nat) (s : State) : State :=
  { s with tele := tset (0 : U64) s.tele (pgLane port + off) (BitVec.ofNat 64 v) }

/-- Count at a port; a unit that is no port keeps no telemetry. -/
def teleAdd (port off n : Nat) (s : State) : State :=
  if port < 512 then teleSet port off (teleOf s port off + n) s else s

/-- Item `i` of VC `v`: 0 packets received, 1 bytes received, 2 packets sent, 3 bytes sent, 4 queue depth, 5 high-water,
6 credit-stall cycles. -/
def telVc (v i : Nat) : Nat := 0x400 + 0x40 * v + 8 * i
def telFec : Nat := 0x5C0
def telUncorr : Nat := 0x5C8
def telNakTx : Nat := 0x5D0
def telNakRx : Nat := 0x5D8
def telReplayed : Nat := 0x5E0
def telAckTo : Nat := 0x5E8
def telAbortTx : Nat := 0x5F0
def telAbortRx : Nat := 0x5F8
def telProto : Nat := 0x600
def telE2e : Nat := 0x608
def telTtl : Nat := 0x610
def telUnreach : Nat := 0x618
def telLanded : Nat := 0x620
def telRtt : Nat := 0x628
def telTime : Nat := 0x630
def telFcs : Nat := 0x638
def telRunt : Nat := 0x640
def telOver : Nat := 0x648
def telPause : Nat := 0x650
def telUdp : Nat := 0x658
def telPfcTx (p : Nat) : Nat := 0x660 + 8 * p
def telPfcRx (p : Nat) : Nat := 0x6A0 + 8 * p
def telRetry : Nat := 0x6E0

/-! ### Egress lists -/

/-- Bytes of a frame from its destination address to its FCS (R311). -/
def frameLen (f : EthFrame) : Nat := 14 + 4 * bit01 f.tag.isSome + f.body.length + 4

/-- Bytes of an egress packet: what stands in an egress buffer is encoded (R24). -/
def egressBytes (x : EPkt) : Nat :=
  match x.load with
  | .jfp p => pktBytes p
  | .eth f => frameLen f
  | .result h _ _ => pktBytes h

/-- The head of a list and the packet it would be on the wire. -/
def headOf (x : Port) (t vc : Nat) : Option EPkt := x.egress.find? (fun e => e.tc == t && (x.eth || e.vc == vc))

/-- Whether the credit for a packet meets R51. -/
def creditOk (x : Port) (e : EPkt) : Bool :=
  x.eth || decide (ceilDiv (egressBytes e) 64 ≤ (at0 0 x.gTx e.vc + 2 ^ 32 - at0 0 x.cTx e.vc) % 2 ^ 32)

/-! ### From one cycle to the next -/

/-- A buffer freed in the last cycle leaves used_p of its pool (R339); the bar of R342 ends below the new reserve, at a
reserve of 0 when the pool is empty (assumption 105). -/
def leavePool (x : Nat) (s : State) : State :=
  let q := bufQuad (x / 8)
  let p := x % 8
  let s1 := s.setFld (poolAddr q p) celPool_used (poolUsed s q p - 1)
  if poolUsed s1 q p < max 1 (poolRes s1 q p) then { s1 with poolHold := tset 0 s1.poolHold (8 * q + p) 0 } else s1

/-- A head of this VC waits for credit (R312). -/
def stalledVc (x : Port) (vc : Nat) : Bool :=
  (List.range 8).any (fun t =>
    match headOf x t vc with
    | some e => !creditOk x e
    | none => false)

/-- The credit-stall counts of a port (R80). -/
def stallPort (p : Nat) (x : Port) (s : State) : State :=
  if x.formed ∧ x.st = .up ∧ x.eth = false then
    forAll (fun vc s => if stalledVc x vc then teleAdd p (telVc vc 6) 1 s else s) (List.range 7) s
  else s

/-- The next cycle begins: freed buffers leave their pools, stalled heads and HBM bursts count. -/
def nextCycle (s : State) : State :=
  let s1 := forAll leavePool s.same.freed s
  let s2 := serveHbm (forAll (fun (x : Nat × Port) s => stallPort x.1 x.2 s) s1.ports s1)
  { s2 with cyc := s2.cyc + 1, same := SameCycle.empty }

/-- A command that the rules of one cycle order before something that has already happened in this cycle, or that may not see
it, belongs to the next cycle (assumption 8). -/
def orNext (late : Bool) (s : State) : State := if late then nextCycle s else s

/-- Begin to wait for a buffer (R341): counted once. Where a unit of a higher number has taken a buffer of the slice in this cycle,
the request begins in the next (assumption 8). -/
def waitBuf (q p req : Nat) (pu : Purpose) (s0 : State) : State :=
  let s := orNext (actAbove s0 (.alloc q) req) s0
  let s1 := s.setFld (pgCellar q) (celPoolWait_wait p) (satAdd 8 (s.fld (pgCellar q) (celPoolWait_wait p)) 1)
  { s1 with waiters := insertWaiter ⟨q, p, req, pu, s.cyc⟩ s1.waiters }

end Sys2Proof.Machine
end

