-- ==== Sys2Proof/Machine/Sync.lean ====
section
/-!
DEFINITION. Sync objects (R18, R32, R172, R173): increments, firings and the three actions; start requests of Vats (R217,
R222, R378) and soft event sources (R400), which a firing may reach.
-/
namespace Sys2Proof.Machine

def syncQuad (k : Nat) : Nat := k / 16384

def syncCnt (s : State) (k : Nat) : Nat := s.fld (syncAt k) synCnt_cnt

/-- The start queue of a Vat changes: a drain of the same cycle goes first (R222). -/
def noteStart (v : Nat) (s : State) : State := noteAct (.start v) 0 s

/-- A start request enters a Vat's start queue (R217): 64 entries. Absent, unavailable and full queues are answered as R7,
R222, R378 and R217 state. The Boolean says whether the request was taken or answered; false means a firing action that must wait. -/
def startRequest (v desc src : Nat) (bySync : Bool) (s : State) : Bool × State :=
  if !vatPresent s.fuses v then (true, absentCmd src s)
  else if !isEnabled s (pgVat v) || isDark s (puVat v) then
    (true, disabledWork src (s.addFld (pgVat v) vatCnt_refused 1))
  else if isDrain s (pgVat v) then
    let s1 := s.addFld (pgVat v) vatCnt_refused 1
    (true, if vatQuiet s v then disabledWork src s1 else s1)
  else if (s.vat v).startQ.length < 64 then
    (true, noteStart v (wakeUnit (puVat v)
      (s.setVat v { s.vat v with startQ := (s.vat v).startQ ++ [⟨desc, bySync⟩] })))
  else if bySync then (false, s)
  else (true, s.addFld (pgVat v) vatCnt_refused 1)

/-- A soft set of source `src` at Rind core `k` (R400); the key of a soft latch is 1,024 x core + source. -/
def softSet (k src : Nat) (s : State) : State :=
  if src < 512 then s.addFld (pgRind k) evcErr_softBad 1
  else
    let s1 := { s with same := { s.same with evSet := (pgRind k + 0x118, src) :: s.same.evSet } }
    if s.soft.contains (k * 1024 + src) then s1 else { s1 with soft := s1.soft ++ [k * 1024 + src] }

/-- A clear of a soft source: one that was set in the same cycle stays set (R400). -/
def softClear (k src : Nat) (s : State) : State :=
  if s.same.evSet.contains (pgRind k + 0x118, src) then s
  else { s with soft := s.soft.filter (fun x => x != k * 1024 + src) }

def chainQLen (s : State) (q : Nat) : Nat := (s.chainQ.filter (fun x => x.1 == q)).length

/-- Carry out a firing's action (R172), or leave it waiting (R26, R176, R217). -/
def runAction (f : Fire) (s : State) : Bool × State :=
  if f.action = 1 then
    if chainQLen s f.qd < 1024 then (true, { s with chainQ := s.chainQ ++ [(f.qd, f.arg % 4096)] }) else (false, s)
  else if f.action = 2 then startRequest (f.arg % 32) (f.arg / 256 % 2 ^ 24) (repCellar f.qd) true s
  else if f.action = 3 then
    let k := f.arg % 16
    if rindPresent s.fuses k then (true, softSet k (f.arg / 16 % 1024) s) else (true, absentCmd (repCellar f.qd) s)
  else (true, s)

/-- One firing: act, or join the firings that wait. A firing never overtakes one that waits for the same kind of action. -/
def fireOne (f : Fire) (s : State) : State :=
  if s.fires.any (fun x => x.action == f.action && x.arg == f.arg && x.qd == f.qd) then { s with fires := s.fires ++ [f] }
  else
    let (ok, s1) := runAction f s
    if ok then s1 else { s1 with fires := s1.fires ++ [f] }

/-- Try again every firing that waits, in order. -/
def retryFires : List Fire → State → State
  | [], s => s
  | f :: fs, s =>
    let (ok, s1) := runAction f s
    retryFires fs (if ok then { s1 with fires := s1.fires.erase f } else s1)

/-- The firing loop of R173: `x` is thr - before - 1 modulo 2^64; `fuel` bounds the firings by the increment. -/
def fireLoop (k d : Nat) : Nat → Nat → State → State
  | 0, _, s => s
  | fuel + 1, before, s =>
    let a := syncAt k
    let thr := s.fld a synThr_thr
    if s.fld a synCfg_armed = 1 ∧ (thr + 2 ^ 64 - before + 2 ^ 64 - 1) % 2 ^ 64 < d then
      let s1 := fireOne ⟨s.fld a synCfg_action, s.fld a synArg_arg, syncQuad k⟩ s
      let st := s.fld a synCfg_step
      if st = 0 then s1.setFld a synCfg_armed 0
      else fireLoop k d fuel before (s1.setFld a synThr_thr ((thr + st) % 2 ^ 64))
    else s

/-- What the increment `d` from `before` does to an object: how many firings, and the threshold and armed it leaves (R173). -/
def judgeIncr (step d : Nat) : Nat → Nat → Nat → Nat → Nat → Nat × Nat × Nat
  | 0, _, thr, armed, n => (n, thr, armed)
  | fuel + 1, before, thr, armed, n =>
    if armed = 1 ∧ (thr + 2 ^ 64 - before + 2 ^ 64 - 1) % 2 ^ 64 < d then
      if step = 0 then (n + 1, thr, 0) else judgeIncr step d fuel before ((thr + step) % 2 ^ 64) armed (n + 1)
    else (n, thr, armed)

/-- Slice offset of a sync object (R334). -/
def syncOff (k : Nat) : Nat := k % 16384 * 32

/-- An object read with wrong parity is disarmed and keeps its counter as read (R345). -/
def syncParity (k : Nat) (s : State) : State :=
  if upsetIn s (syncQuad k) (syncOff k) 32 then
    (upsetRead (syncQuad k) (syncOff k) s).setFld (syncAt k) synCfg_armed 0
  else s

/-- Remember the threshold and armed as they stood before this cycle's first increment of an object. -/
def noteSync (k : Nat) (s : State) : State :=
  if s.same.oldSync.any (fun x => x.1 == k) then s
  else { s with same := { s.same with
    oldSync := (k, s.fld (syncAt k) synThr_thr, s.fld (syncAt k) synCfg_armed) :: s.same.oldSync } }

/-- `sync_incr` of R173 by `d` for the unit numbered `src`; an object of an absent quadrant is answered under R379. -/
def syncIncr (k d src : Nat) (s : State) : State :=
  if !quadPresent s.fuses (syncQuad k) then absentCmd src s
  else
    let s0 := noteSync k (syncParity k s)
    let before := syncCnt s0 k
    let s1 := s0.setFld (syncAt k) synCnt_cnt ((before + d) % 2 ^ 64)
    let s2 := { s1 with same := { s1.same with incr := (k, d) :: s1.same.incr } }
    fireLoop k d (d + 1) before s2

/-- An increment that an enable bit guards. -/
def syncIncrIf (en : Bool) (k d src : Nat) (s : State) : State := if en then syncIncr k d src s else s

/-- A software write to SYN_CNT: it takes effect before the increments of its cycle (R32), and it fires nothing (R173). Where
those increments have been judged on the old counter and would fire otherwise on the written one, the write belongs to the
next cycle (assumption 8). -/
def syncWrite (k v : Nat) (s : State) : State :=
  let inc := ((s.same.incr.filter (fun x => x.1 == k)).map (fun x => x.2)).sum
  match s.same.oldSync.find? (fun x => x.1 == k) with
  | none => s.setFld (syncAt k) synCnt_cnt v
  | some (_, thr, armed) =>
    let step := s.fld (syncAt k) synCfg_step
    let before := (syncCnt s k + 2 ^ 64 - inc % 2 ^ 64) % 2 ^ 64
    if judgeIncr step inc (inc + 1) v thr armed 0 = judgeIncr step inc (inc + 1) before thr armed 0 then
      s.setFld (syncAt k) synCnt_cnt ((v + inc) % 2 ^ 64)
    else (nextCycle s).setFld (syncAt k) synCnt_cnt v

/-- Software rewrites a register of a sync object: its words take good parity again (R345). -/
def syncMend (k : Nat) (s : State) : State :=
  { s with upset := s.upset.filter (fun x => !(x.1 == syncQuad k && decide (syncOff k < x.2 + 4)
      && decide (x.2 < syncOff k + 32))) }

end Sys2Proof.Machine
end

