-- ==== Sys2Proof/Machine/Scope.lean ====
section
/-!
DEFINITION. The canonical tree (R119, R120), scope tables (R121, R122) and the judgement of a group's configuration and
scope at enable (R123, R493, R496, R298, R300, R336).
-/
namespace Sys2Proof.Machine

/-- `ceil_log2` of R119, for n >= 2. -/
def ceilLog2 (n : Nat) : Nat := Nat.log2 (n - 1) + 1

/-- The size of the left child of a node of n >= 2 ranks. -/
def leftSize (n : Nat) : Nat := 2 ^ (ceilLog2 n - 1)

/-- The descent of `is_node` (R120); the tree is at most 17 deep. -/
def nodeDescent : Nat → Nat → Nat → Nat → Nat → Bool
  | 0, _, _, _, _ => false
  | fuel + 1, lo, hi, a, b =>
    if a = lo ∧ b = hi then true
    else if b - a ≤ 1 then false
    else
      let h := leftSize (b - a)
      if hi ≤ a + h then nodeDescent fuel lo hi a (a + h)
      else if a + h ≤ lo then nodeDescent fuel lo hi (a + h) b
      else false

/-- `is_node` of R120. -/
def isNode (lo hi n : Nat) : Bool := decide (lo < hi) && decide (hi ≤ n) && nodeDescent 20 lo hi 0 n

/-- The parent and sibling of a canonical node below the root: (parent lo, parent hi, sibling lo, sibling hi). -/
def parentOf : Nat → Nat → Nat → Nat → Nat → Option (Nat × Nat × Nat × Nat)
  | 0, _, _, _, _ => none
  | fuel + 1, lo, hi, a, b =>
    if b - a ≤ 1 then none
    else
      let h := leftSize (b - a)
      if lo = a ∧ hi = a + h then some (a, b, a + h, b)
      else if lo = a + h ∧ hi = b then some (a, b, a, a + h)
      else if hi ≤ a + h then parentOf fuel lo hi a (a + h)
      else if a + h ≤ lo then parentOf fuel lo hi (a + h) b
      else none

/-- `canon` of R119 over a list of leaves with an arbitrary pairwise add; the fuel bounds the depth. -/
def canonFold {α : Type} (add : α → α → α) : Nat → List α → Option α
  | _, [] => none
  | _, [x] => some x
  | 0, x :: _ => some x
  | fuel + 1, xs =>
    let h := leftSize xs.length
    match canonFold add fuel (xs.take h), canonFold add fuel (xs.drop h) with
    | some a, some b => some (add a b)
    | some a, none => some a
    | none, r => r

/-! ### Scope tables -/

/-- A scope-table entry (R121). -/
structure ScopeE where
  lo : Nat
  hi : Nat
  kind : Nat
  fid : Nat
  rsv : Nat
deriving DecidableEq, Repr

def scopeWord (x : Nat) : ScopeE :=
  ⟨bitsOf x 0 17, bitsOf x 17 17, bitsOf x 34 2, bitsOf x 36 20, bitsOf x 56 8⟩

def groupN (s : State) (g : Nat) : Nat := grpF s g grpCfg_nM1 + 1

/-- The scope table of a group as it stands in the Cellar slice of quadrant `qd`. -/
def scopeTable (s : State) (g qd : Nat) : List ScopeE :=
  (List.range (grpF s g grpScope_scopeLen)).map (fun i =>
    scopeWord (rdLe s (spCellar qd) (grpF s g grpScope_scopeBase + 8 * i) 8))

def isInput (e : ScopeE) : Bool := decide (e.kind < 2)
def isEmit (e : ScopeE) : Bool := e.kind == 2

def scopeInputs (t : List ScopeE) : List ScopeE := t.filter isInput
def scopeEmits (t : List ScopeE) : List ScopeE := t.filter isEmit

/-- Whether `es` covers every rank from `r` to `hi`. -/
def coverFrom : Nat → List ScopeE → Nat → Nat → Bool
  | 0, _, r, hi => decide (hi < r)
  | fuel + 1, es, r, hi =>
    if hi < r then true
    else
      match es.find? (fun e => decide (e.lo ≤ r) && decide (r ≤ e.hi)) with
      | some e => coverFrom fuel es (e.hi + 1) hi
      | none => false

/-- The first failing check of entry `i`, in the order of R123: 1 Encoding, 2 Shape, 3 Order, 4 Tiling, 5 Root, 6 Size. -/
def entryCheck (n : Nat) (root : Bool) (t : List ScopeE) (i : Nat) (e : ScopeE) : Option Nat :=
  let before := t.take i
  let prev := (before.filter (fun x => isInput x == isInput e && isEmit x == isEmit e)).getLast?
  let inside := (scopeInputs t).filter (fun x => decide (e.lo ≤ x.lo) && decide (x.hi ≤ e.hi))
  let holders := (scopeEmits t).filter (fun x => decide (x.lo ≤ e.lo) && decide (e.hi ≤ x.hi))
  let emits := scopeEmits t
  let emitsBefore := (before.filter isEmit).length
  let bad1 := e.kind == 3 || decide (e.hi < e.lo) || decide (n ≤ e.hi) || (isEmit e && e.fid != 0) || e.rsv != 0
  let bad2 := !isNode e.lo (e.hi + 1) n
  let bad3 := (match prev with | some p => decide (e.lo ≤ p.hi) | none => false)
    || (isInput e && decide (0 < emitsBefore))
  let bad4 := if isInput e then holders.length != 1
    else isEmit e && !coverFrom (inside.length + 1) inside e.lo e.hi
  let bad5 := root &&
    ((isEmit e && emitsBefore == 1) || (isEmit e && emits.length == 1 && !(e.lo == 0 && e.hi + 1 == n))
      || (i == 0 && emits.isEmpty))
  let bad6 := (i == 0 && (scopeInputs t).isEmpty) || (i == 131072 && decide (131072 < (scopeInputs t).length))
  if bad1 then some 1 else if bad2 then some 2 else if bad3 then some 3 else if bad4 then some 4
  else if bad5 then some 5 else if bad6 then some 6 else none

/-- The failure that R493 records: the lowest index, and the first check of R123 there. -/
def scanEntries (n : Nat) (root : Bool) (t : List ScopeE) : Nat → List ScopeE → Option (Nat × Nat)
  | _, [] => none
  | i, e :: es =>
    match entryCheck n root t i e with
    | some c => some (i, c)
    | none => scanEntries n root t (i + 1) es

/-- An empty table fails Root and Size at entry 0; Root stands first (R493). -/
def scopeFailure (n : Nat) (root : Bool) (t : List ScopeE) : Option (Nat × Nat) :=
  if t.isEmpty then some (0, if root then 5 else 6) else scanEntries n root t 0 t

/-! ### Writes to the open area (R125) -/

/-- Groups of which some register of the entry's first word has been written. -/
def listedGroups (s : State) : List Nat :=
  s.regs.filterMap (fun r =>
    if 0x0F040000 ≤ r.1 ∧ r.1 < 0x0F080000 ∧ (r.1 - 0x0F040000) % 0x40 = 0 then some ((r.1 - 0x0F040000) / 0x40) else none)

/-- The enabled groups whose scope tables `n` bytes of slice `q` touch (R125): at a group's home, or at the old home of a
migration whose slots have not all freed (R178). -/
def tablesIn (s : State) (q off n : Nat) : List Nat :=
  (listedGroups s).filter (fun g =>
    grpFlag s g grpCfg_enabled
      && (grpF s g grpCfg_homeQd == q || (match (s.grp g).mig with | .draining h => h == q | _ => false))
      && decide (grpF s g grpScope_scopeBase < off + n)
      && decide (off < grpF s g grpScope_scopeBase + 8 * grpF s g grpScope_scopeLen))

/-- A write to the open area of a slice: what falls into the scope table of an enabled group is discarded and counted in that
group's Press page, with `reg` as the offset (R125). -/
def openWrite (q off req reg : Nat) (bs : List Byte) (s : State) : State :=
  let gs := tablesIn s q off bs.length
  if gs.isEmpty then cellWrite q off req bs s
  else
    let s1 := forAll (fun (b : Byte × Nat) s =>
      if (tablesIn s q (off + b.2) 1).isEmpty then cellWrite q (off + b.2) req [b.1] s else s) bs.zipIdx s
    forAll (fun g s => errCount (pgPress (homePress s g)) reg 2 s) gs s1

/-! ### The auxiliary region (R148) -/

def pagesFor (bytes : Nat) : Nat := ceilDiv bytes 4096

def auxRetPg (s : State) (g : Nat) : Nat := grpF s g grpHbm_auxPg
def auxAccPg (s : State) (g : Nat) : Nat := auxRetPg s g + grpF s g grpSync_resKeep
def auxTagPg (s : State) (g : Nat) : Nat := auxAccPg s g + grpF s g grpSync_accBlocks
def auxRankPg (s : State) (g : Nat) : Nat := auxTagPg s g + pagesFor (4 * grpF s g grpSync_accBlocks)
def auxEndPg (s : State) (g : Nat) : Nat := auxRankPg s g + pagesFor (4 * groupN s g)

/-- The configuration checks that come before the table is read: check 7 of R493. -/
def configBad (s : State) (g : Nat) : Bool :=
  let q := grpF s g grpCfg_homeQd
  let base := grpF s g grpScope_scopeBase
  let cap := quadPages s q
  let m := maskAt g
  grpF s g grpCfg_accFmt == 3 || grpF s g grpLink_wCredits == 0 || base % 8 != 0
    || decide (base < openBase) || decide (openEnd s q < base + 8 * grpF s g grpScope_scopeLen)
    || decide (cap < grpF s g grpHbm_spillPg + grpF s g grpQuota_qBufs) || decide (cap < auxEndPg s g)
    || (grpFlag s g grpCfg_accum && grpF s g grpCfg_spfmt == 3)
    || (s.flag m grpMask_resEn &&
        (grpF s g grpCfg_spfmt != 1 || s.fld m grpMask_maskBlocks == 0 || grpFlag s g grpCfg_accum))

end Sys2Proof.Machine
end

