-- ==== Sys2Proof/Machine/Sparse.lean ====
section
/-!
DEFINITION. Sparse forms of blocks (09_sparsity.md): framing (R290, R301), expansion, combination (R291), the form in which
a partial is held and sent (R292, R293), resident masks (R299 to R303) and the result digest (R365).
-/
namespace Sys2Proof.Machine

/-- Elements of a full block (R94). -/
def fullCount (acc : Nat) : Nat := if acc = 0 then 1024 else 2048

def resident (s : State) (g : Nat) : Bool := s.flag (maskAt g) grpMask_resEn

/-- Byte offset of mask entry b in the home quadrant's HBM (R300). -/
def maskEntryAt (s : State) (g acc b : Nat) : Nat :=
  pageAddr (s.fld (maskAt g) grpMask_maskPg) + b * (fullCount acc / 8)

/-- The positions below nelem that mask entry b marks present, in ascending order (R300, R301). -/
def maskPositions (s : State) (g qd acc b nelem : Nat) : List Nat :=
  (List.range nelem).filter (fun q =>
    (rdByte s (spHbm qd) (maskEntryAt s g acc b + q / 8)).toNat / 2 ^ (q % 8) % 2 == 1)

/-- Bytes of a value in a sparse payload (R290); formats 5 to 7 have none. -/
def valueBytes (fmt : Nat) : Nat := elemBits fmt / 8

/-- The framing part of the check for a sparse payload (R290). -/
def framingOk (sp fmt nelem plen : Nat) : Bool :=
  let vb := valueBytes fmt
  let g := ceilDiv nelem 64
  decide (fmt < 5) && decide (plen ≤ 4096) && decide (plen < encodedLen fmt nelem) &&
    (if sp = 1 then decide (8 * g ≤ plen) && (plen - 8 * g) % vb == 0 else plen % (2 + vb) == 0)

/-- Set the value of a position, keeping ascending positions and one value each. -/
def setPos {α : Type} : List (Nat × α) → Nat → α → List (Nat × α)
  | [], q, v => [(q, v)]
  | (p, x) :: r, q, v => if q < p then (q, v) :: (p, x) :: r else if q = p then (q, v) :: r else (p, x) :: setPos r q v

/-- Set bits of the SB64 masks, in order: all positions, those at or beyond nelem included (R287). -/
def sbPositions (p : List Byte) (g : Nat) : List Nat :=
  (List.range (64 * g)).filter (fun q => (p.getD (q / 8) 0).toNat / 2 ^ (q % 8) % 2 == 1)

/-- The expansion of R290: element position and (value, present in the payload). A supplied +0 is marked false. -/
def expandPayload (sp fmt nelem full : Nat) (p : List Byte) : List (Nat × Val × Bool) :=
  if p.length = encodedLen fmt nelem then (decodeElems fmt nelem p).zipIdx.map (fun x => (x.2, x.1, true))
  else
    let vb := valueBytes fmt
    let at_ := fun off k => ofCode fmt (leAt p (off + vb * k) vb)
    if sp = 1 then
      let g := ceilDiv nelem 64
      let nv := (p.length - 8 * g) / vb
      ((sbPositions p g).zipIdx.filter (fun x => decide (x.1 < nelem))).map (fun x =>
        if x.2 < nv then (x.1, at_ (8 * g) x.2, true) else (x.1, .zero false, false))
    else
      let c := p.length / (2 + vb)
      (List.range c).foldl (fun acc k =>
        let q := leAt p (2 * k) 2 % full
        if q < nelem then setPos acc q (at_ (2 * c) k, true) else acc) []

/-- The census of an expansion (R97, R290): the values the payload holds. -/
def censusOfExpansion (xs : List (Nat × Val × Bool)) : Census :=
  let vs := (xs.filter (fun x => x.2.2)).map (fun x => x.2.1)
  { nan := min 255 (vs.filter Val.isNan).length
    inf := min 255 (vs.filter (fun v => match v with | .inf _ => true | _ => false)).length
    rsv := 0, scale := 0 }

/-- Sparse and dense lengths of a pattern of P elements (R292). -/
def sparseLen (form : Form) (acc nelem p : Nat) : Nat :=
  match form with
  | .sb64 => 8 * ceilDiv nelem 64 + accBytes acc * p
  | .cx16 => (2 + accBytes acc) * p
  | _ => accBytes acc * nelem

def spForm (sp : Nat) : Form := if sp = 1 then .sb64 else if sp = 2 then .cx16 else .dense

/-- Every position, absent ones as +0 (code 0). -/
def densify (nelem : Nat) (pat : Pattern) : Pattern :=
  (List.range nelem).map (fun q => (q, ((pat.find? (fun x => x.1 == q)).map (fun x => x.2)).getD 0))

/-- Hold a pattern in the form of R292. -/
def holdPattern (sp acc nelem : Nat) (pat : Pattern) : Form × Pattern :=
  if sp = 1 ∨ sp = 2 then
    if sparseLen (spForm sp) acc nelem pat.length < accBytes acc * nelem then (spForm sp, pat)
    else (.dense, densify nelem pat)
  else (.dense, densify nelem pat)

/-- `combine` of R291 on ascending patterns, `a` covering the lower ranks. -/
def combinePat (acc : Nat) : Nat → Pattern → Pattern → Pattern
  | 0, _, _ => []
  | _ + 1, [], [] => []
  | fuel + 1, (p, x) :: a, [] => (p, addCodes acc x 0) :: combinePat acc fuel a []
  | fuel + 1, [], (q, y) :: b => (q, addCodes acc 0 y) :: combinePat acc fuel [] b
  | fuel + 1, (p, x) :: a, (q, y) :: b =>
    if p < q then (p, addCodes acc x 0) :: combinePat acc fuel a ((q, y) :: b)
    else if q < p then (q, addCodes acc 0 y) :: combinePat acc fuel ((p, x) :: a) b
    else (p, addCodes acc x y) :: combinePat acc fuel a b

/-- add of two partial values (R126, R291, R302). -/
def addPats (acc : Nat) (a b : Pattern) : Pattern := combinePat acc (a.length + b.length) a b

/-- Element width in the bytes of a partial. -/
def accCodes (acc : Nat) (pat : Pattern) : List Byte := pat.flatMap (fun x => leBytes (accBytes acc) x.2)

/-- The masks of an SB64 payload (R287). -/
def sbMasks (nelem : Nat) (ps : List Nat) : List Byte :=
  (List.range (ceilDiv nelem 64)).flatMap (fun j =>
    leBytes 8 (ps.foldl (fun a q => if q / 64 = j then a + 2 ^ (q % 64) else a) 0))

/-- The CX16 index of position q of block b (R288). -/
def cxIndex (acc b q : Nat) : Nat := (b * fullCount acc) % 65536 + q

/-- The bytes of a partial or result in its form (R292, R293, R302). -/
def patBytes (form : Form) (acc nelem block : Nat) (pat : Pattern) : List Byte :=
  match form with
  | .sb64 => sbMasks nelem (pat.map (fun x => x.1)) ++ accCodes acc pat
  | .cx16 => pat.flatMap (fun x => leBytes 2 (cxIndex acc block x.1)) ++ accCodes acc pat
  | _ => accCodes acc pat

/-! ### The result digest (R365) -/

def dmix (x : Nat) : Nat :=
  let a := mul64 (x ^^^ (x / 2 ^ 30)) 0xBF58476D1CE4E5B9
  let b := mul64 (a ^^^ (a / 2 ^ 27)) 0x94D049BB133111EB
  b ^^^ (b / 2 ^ 31)

def foldWords : Nat → Nat → List (List Byte) → Nat
  | _, x, [] => x
  | i, x, w :: ws => foldWords (i + 1) (dmix (x ^^^ leVal w ^^^ (i % 65536 * 2 ^ 48))) ws

def foldDigest (key desc : Nat) (p : List Byte) : Nat :=
  foldWords 0 (dmix (dmix (key ^^^ 0x243F6A8885A308D3) ^^^ desc)) (pieces 8 p)

def formCode : Form → Nat
  | .dense => 0
  | .sb64 => 1
  | .cx16 => 2
  | .masked => 3

/-- desc of R365. -/
def digestDesc (acc nelem : Nat) (form : Form) (len : Nat) (c : Census) : Nat :=
  acc % 4 + formCode form * 4 + len % 8192 * 2 ^ 4 + nelem % 4096 * 2 ^ 17 + c.nan % 256 * 2 ^ 32 + c.inf % 256 * 2 ^ 40
    + c.rsv % 256 * 2 ^ 48 + c.scale % 256 * 2 ^ 56

/-- The digest of a result as the root holds it. -/
def resultDigest (k : Key) (acc nelem : Nat) (form : Form) (pat : Pattern) (c : Census) : Nat :=
  let p := patBytes form acc nelem k.block pat
  foldDigest (keyWord k) (digestDesc acc nelem form p.length c) p

/-! ### Encoding a result for one destination (R106, R143, R295, R303) -/

/-- What leaves for a child switch (no request) or for a member. -/
structure SentForm where
  fmt : Nat
  esc : Bool
  csat : Nat
  bytes : List Byte
deriving DecidableEq, Repr

/-- Masked result at the positions of its mask entry: value k at the k-th set bit, +0 elsewhere (R303). -/
def placeMasked (nelem : Nat) (ps : List Nat) (pat : Pattern) : Pattern :=
  densify nelem ((ps.zip (pat.map (fun x => x.2))))

/-- A sparse delivery in rfmt (R295), sparse when that is shorter than dense. -/
def sparseDelivery (r : ResultBlk) (q : MemberReq) : SentForm :=
  let vb := valueBytes q.rfmt
  let sl := if r.form = .sb64 then 8 * ceilDiv r.nelem 64 + vb * r.pat.length else (2 + vb) * r.pat.length
  if r.form ≠ .dense ∧ sl < encodedLen q.rfmt r.nelem then
    let e := egressEncode r.accFmt q.rfmt q.srnd r.latch r.k r.pat
    let meta_ := if r.form = .sb64 then sbMasks r.nelem (r.pat.map (fun x => x.1))
      else r.pat.flatMap (fun x => leBytes 2 (cxIndex r.accFmt r.k.block x.1))
    ⟨e.fmt, e.esc, e.csat, meta_ ++ e.bytes⟩
  else
    let e := egressEncode r.accFmt q.rfmt q.srnd r.latch r.k (densify r.nelem r.pat)
    ⟨e.fmt, e.esc, e.csat, e.bytes⟩

/-- The payload of a CRESULT (R105, R106, R143): `ps` are the mask positions of a resident-mask group. With
dense_rx = 0 the element index of xg_mix is the place among the c values (DESIGN CHOICE, assumption 130). -/
def sendForm (r : ResultBlk) (q : Option MemberReq) (ps : List Nat) : SentForm :=
  match q with
  | none => ⟨r.accFmt, false, 0, patBytes r.form r.accFmt r.nelem r.k.block r.pat⟩
  | some m =>
    if r.form = .masked then
      let pat := if m.denseRx then placeMasked r.nelem ps r.pat else r.pat
      let e := egressEncode r.accFmt m.rfmt m.srnd r.latch r.k pat
      ⟨e.fmt, e.esc, e.csat, e.bytes⟩
    else if m.denseRx ∨ r.form = .dense then
      let e := egressEncode r.accFmt m.rfmt m.srnd r.latch r.k (densify r.nelem r.pat)
      ⟨e.fmt, e.esc, e.csat, e.bytes⟩
    else sparseDelivery r m

end Sys2Proof.Machine
end

