-- ==== Sys2Proof/Machine/Slots.lean ====
section
/-!
DEFINITION. Reduction slots: completion records (R171), items of ASEND at their Vats (R198 to R200, R223), the Twin entries
that slots send (R362, R363, R372), retention (R169), results on their way down (R141 to R143), the freeing and the abort of
a slot (R135), the stop of a group (R147) and the end of a migration (R178).
-/
namespace Sys2Proof.Machine

/-! ### Completion records (R171) -/

structure Rec where
  k : Key
  lo : Nat
  hi : Nat
  pgen : Nat
  status : Nat
  esc : Bool
  root : Bool
  cen : Census
  csat : Nat
  n : Nat
  digest : Nat
deriving DecidableEq, Repr

def recBytes (r : Rec) : List Byte :=
  leBytes 8 (keyWord r.k)
    ++ leBytes 8 (r.lo % 2 ^ 17 + r.hi % 2 ^ 17 * 2 ^ 17 + r.pgen % 16 * 2 ^ 34 + r.status % 256 * 2 ^ 38
      + bit01 r.esc * 2 ^ 46 + bit01 r.root * 2 ^ 47)
    ++ leBytes 8 (r.cen.nan % 256 + r.cen.inf % 256 * 2 ^ 8 + r.cen.rsv % 256 * 2 ^ 16 + r.cen.scale % 256 * 2 ^ 24
      + r.csat % 256 * 2 ^ 32 + r.n % 2 ^ 24 * 2 ^ 40)
    ++ leBytes 8 (r.digest % 2 ^ 64)

/-- Write 32 bytes into the completion log in bulk class (R149: clog_log2 of 7 to 26; any other value stops logging). A
record that a stack refuses is lost and counts in head (R350, R377; assumption 91). -/
def clogWrite (bytes : List Byte) (s : State) : State :=
  let l := s.fld pgGrp grpClog_clogLog2
  if 7 ≤ l ∧ l ≤ 26 then
    let h := s.fld pgGrp grpClogHead_head
    let s1 := hbmPut .bulk 0 (pageAddr (s.fld pgGrp grpClog_clogPg) + h % 2 ^ l * 32) bytes repGrp s
    s1.setFld pgGrp grpClogHead_head ((h + 1) % 2 ^ 64)
  else s

/-! ### Twin entries -/

def twMode (s : State) : Nat := s.fld pgTwin twnCfg_mode
def twState (s : State) : Nat := s.fld pgTwin twnStat_state
def twOff : Nat := 0
def twPaired : Nat := 1
def twSolo : Nat := 2
def twLost : Nat := 3
def twActive : Nat := 4

/-- Whether a group takes part in the pair (R360). -/
def twinGroup (s : State) (g : Nat) : Bool :=
  (s.rd (pgTwin + 0x400 + 8 * (g / 64))).toNat / 2 ^ (g % 64) % 2 == 1

def dualRail (s : State) (g : Nat) : Bool := twinPresent s.fuses && twMode s == 1 && twinGroup s g
def warmPrimary (s : State) (g : Nat) : Bool :=
  twinPresent s.fuses && twMode s == 2 && twState s == twPaired && twinGroup s g

/-- addr of a TWIN packet (R362). -/
def twinAddr (kind n tseq : Nat) : Nat := kind % 256 + n % 256 * 2 ^ 8 + tseq % 2 ^ 32 * 2 ^ 16

/-- Send one entry to the twin and keep it until a HEART acknowledges it (R363). -/
def twinSend (kind : Nat) (bytes : List Byte) (s : State) : State :=
  let t := s.twin.txSeq
  let s1 := { s with twin := { s.twin with txSeq := (t + 1) % 2 ^ 32,
                                           unacked := s.twin.unacked ++ [⟨t, kind, bytes, s.cyc⟩] } }
  originate repTwin (rawPacket s.ownFid ptTwin vcMgt (s.fld pgTwin twnCfg_twinFid) 0 (twinAddr kind 1 t) none bytes)
    .none s1

def kHeart : Nat := 1
def kDigest : Nat := 2
def kCfg : Nat := 3
def kEpoch : Nat := 4
def kOpen : Nat := 5
def kDone : Nat := 6
def kAbort : Nat := 7

/-! ### Slots -/

def State.slotOf (s : State) (k : Key) : Option Slot := s.slots.find? (fun x => x.k == k)
def State.setSlot (s : State) (x : Slot) : State := { s with slots := s.slots.map (fun y => if y.k = x.k then x else y) }
def State.addSlot (s : State) (x : Slot) : State := { s with slots := s.slots ++ [x] }
def State.dropSlot (s : State) (k : Key) : State := { s with slots := s.slots.filter (fun y => y.k != k) }

def groupSlots (s : State) (g : Nat) : List Slot := s.slots.filter (fun x => x.k.group == g)

/-- Partials of a group in SRAM. -/
def sramParts (s : State) (g : Nat) : Nat :=
  ((groupSlots s g).map (fun x => (x.parts.filter (fun p => p.sram)).length)).sum

/-- The bar of R134 ends when the partials in SRAM have fallen below sram_bufs, at 0 when none is left (as assumption 105). -/
def sramNote (g : Nat) (s : State) : State :=
  if sramParts s g < max 1 (grpF s g grpQuota_sramBufs) then s.updGrp g (fun x => { x with sramHold := false }) else s

/-- The slots that count against q_slots (R133): those in OPEN; a HELD slot does not count (DESIGN CHOICE, assumption 108). -/
def groupOpen (s : State) (g : Nat) : List Slot := (groupSlots s g).filter (fun x => x.st == .opened)

def isRoot (s : State) (g : Nat) : Bool := grpF s g grpLink_parentFid == 0

/-- The scope that a slot follows: the table at the slot's own home (R178, R179). -/
def slotScope (s : State) (x : Slot) : List ScopeE := scopeTable s x.k.group x.qd

def slotInputs (s : State) (x : Slot) : List ScopeE := scopeInputs (slotScope s x)

/-- Fields of a group that a slot latches (R116): the values before this cycle's write to them, if there was one. -/
def latchNow (s : State) (g : Nat) : Latch :=
  match s.same.oldLatch.find? (fun x => x.1 == g) with
  | some x => x.2
  | none => ⟨grpF s g grpCfg_scaleLo, grpF s g grpCfg_scaleHi, grpF s g grpCfg_escShift, grpF s g grpCfg_escFmt,
             grpF s g grpSeed_srndSeed⟩

/-- A failing status to every input destination of a slot's scope (R164, R165). -/
def statusDown (unit : Nat) (k : Key) (es : List ScopeE) (st n : Nat) (s : State) : State :=
  forAll (fun e s => sendStatus unit e.fid k e.lo e.hi st n s) es s

/-- Release the partial buffers of a slot. -/
def freeParts (x : Slot) (s : State) : State :=
  forAll (fun p s =>
    match p.sram, p.buf with
    | true, some b => freeBuf b (repPress x.array) none s
    | _, _ => s) x.parts s

/-- The age of a group in always-on counts (R147). -/
def groupAge (s : State) (g : Nat) : Nat :=
  let x := s.grp g
  if grpFlag s g grpCfg_enabled then min (s.aon - x.ageStart) (2 ^ 28 - 1) else x.ageHeld

/-- enabled clears when enable is 0 and the last slot has freed (R147); age holds its value. -/
def groupStop (g : Nat) (s : State) : State :=
  if grpFlag s g grpCfg_enabled ∧ grpFlag s g grpCfg_enable = false ∧ groupSlots s g = [] then
    (s.updGrp g (fun x => { x with ageHeld := groupAge s g })).setFld (grpAt g) grpCfg_enabled 0
  else s

/-- mig_busy clears when the last slot at the old home has freed (R178). -/
def migrateEnd (g : Nat) (s : State) : State :=
  match (s.grp g).mig with
  | .draining q =>
    if (groupSlots s g).any (fun x => x.qd == q) then s
    else (s.updGrp g (fun x => { x with mig := .idle, oldRet := [] })).setFld (grpAt g) grpCfg_migBusy 0
  | _ => s

def loadSlots (a : Nat) (n : Int) (s : State) : State :=
  s.setFld (pgPress a) prsLoad_slots ((s.fld (pgPress a) prsLoad_slots + n).toNat)

/-- Whether a packet of `k` on its way down is still unsent or unacknowledged anywhere. -/
def downPending (s : State) (k : Key) : Bool :=
  let is := fun (o : Origin) => match o with | .down k' _ _ => k' == k | _ => false
  s.waiting.any (fun w => is w.org)
    || s.ports.any (fun p => p.2.egress.any (fun e => is e.org) || p.2.copying.any (fun e => is e.org)
        || p.2.replay.any (fun e => is e.org))

/-- Send the DONE entries whose results are all acknowledged (R372). -/
def twinDones (s : State) : State :=
  forAll (fun d s =>
    if downPending s d.1 then s
    else
      let s1 := { s with twin := { s.twin with doneWait := s.twin.doneWait.erase d } }
      if warmPrimary s1 d.1.group then twinSend kDone d.2 s1 else s1) s.twin.doneWait s

/-- CNODEs of the key that are on their way, or not yet acknowledged, when its slot is freed go on; they are no longer a slot's
(R135; DESIGN CHOICE, assumption 120). -/
def staleNodes (k : Key) (s : State) : State :=
  let org := fun (o : Origin) => match o with | .cnode k' _ _ => if k' = k then Origin.stale else o | _ => o
  let pkt := fun (e : EPkt) => { e with org := org e.org }
  { s with
    waiting := s.waiting.map (fun w => { w with org := org w.org })
    inbox := s.inbox.map (fun x => { x with org := org x.org })
    ports := s.ports.map (fun (p : Nat × Port) =>
      (p.1, { p.2 with egress := p.2.egress.map pkt, copying := p.2.copying.map pkt, sending := p.2.sending.map pkt,
                       replay := p.2.replay.map (fun e => { e with org := org e.org }) })) }

/-- Free a slot's header (R135): its completion record (R171), sync_done after a success (R174), the DONE entry of a
warm-mirror primary (R372), and what waited for the group's last slot. Bit 46 of the record of a switch is 0, although the result
may have left as an escape block (DESIGN CHOICE, assumption 132). -/
def freeSlot (x : Slot) (st n : Nat) (s : State) : State :=
  let g := x.k.group
  let r : Rec := { k := x.k, lo := 0, hi := groupN s g - 1, pgen := grpF s g grpCfg_pgen, status := st, esc := false,
                   root := isRoot s g, cen := (match x.result with | some r => r.cen | none => x.cen), csat := 0,
                   n := if st = stMissing ∨ st = stUnpredicted then n else 0,
                   digest := match x.result with | some r => r.digest | none => 0 }
  let s1 := clogWrite (recBytes r) (loadSlots x.array (-1) (staleNodes x.k (s.dropSlot x.k)))
  let s2 := if warmPrimary s g then
      { s1 with twin := { s1.twin with doneWait := s1.twin.doneWait ++ [(x.k, recBytes r)] } } else s1
  let s3 := syncIncrIf (statusSuccess st && grpFlag s g grpSync_doneEn) (grpF s g grpSync_syncDone) 1
    (repPress x.array) s2
  twinDones (migrateEnd g (groupStop g s3))

/-- The count of input bits still clear in a slot (R157). -/
def clearBits (s : State) (x : Slot) : Nat := (slotInputs s x).length - x.accepted.length

/-! ### ACCUM memory (R148, R159 to R162) -/

def accOff (s : State) (g b : Nat) : Nat := pageAddr (auxAccPg s g + b)
def tagOff (s : State) (g b : Nat) : Nat := pageAddr (auxTagPg s g) + 4 * b

def tagSettled (s : State) (g b : Nat) : Nat := rdLe s (spHbm (grpF s g grpCfg_homeQd)) (tagOff s g b) 2
def tagMissing (s : State) (g b : Nat) : Nat :=
  rdLe s (spHbm (grpF s g grpCfg_homeQd)) (tagOff s g b + 2) 2 % 2 ^ 15

/-- A write of the Press to the group's region in the home stacks: bulk class (R353). -/
def auxWrite (g off : Nat) (bs : List Byte) (s : State) : State :=
  hbmPut .bulk (grpF s g grpCfg_homeQd) off bs (repPress (homePress s g)) s

/-- Write the tag of a block (R148); its missing count stays at 32,767 (DESIGN CHOICE, assumption 131). -/
def setTag (g b settled missing : Nat) (s : State) : State :=
  auxWrite g (tagOff s g b) (leBytes 4 (settled % 65536 + min missing 32767 * 2 ^ 16)) s

def clearAcc (g b : Nat) (s : State) : State := auxWrite g (accOff s g b) (List.replicate 4096 0) s

/-- The restart of the accumulator that R160 makes at enable; `missing` is 0 there and 1 at a takeover (R375). -/
def accRestart (g missing : Nat) (s : State) : State :=
  forAll (fun b s => clearAcc g b (setTag g b ((grpF s g grpEpoch_curEpoch + 65535) % 65536) missing s))
    (List.range (grpF s g grpSync_accBlocks)) (s.updGrp g (fun x => { x with settles := [] }))

/-- Whether an epoch is, or was when it was current, a release epoch (R161): the closed ones that still have slots are kept in
the group's state. -/
def isRelEpoch (s : State) (g e : Nat) : Bool :=
  if e = grpF s g grpEpoch_curEpoch then grpFlag s g grpEpoch_relCur else (s.grp g).rels.contains e

/-- The slot belongs to a release epoch of an ACCUM group (R162). -/
def inRelease (s : State) (k : Key) : Bool := grpFlag s k.group grpCfg_accum && isRelEpoch s k.group k.epoch

/-- What an abort of this slot reports: in a release epoch of an ACCUM group the root reports MISSING (R162). Of an abort other than
one that is MISSING already, n is the number of clear bits of the bitmap, which can be 0 (DESIGN CHOICE, assumption 141). -/
def abortReport (s : State) (x : Slot) (st n : Nat) : Nat × Nat :=
  if inRelease s x.k && isRoot s x.k.group then (stMissing, if st = stMissing then n else clearBits s x) else (st, n)

/-! ### Adds that are ready (R126, R130, R139) -/

/-- The cycle in which an add became ready: its second child's (R139). -/
def readyAt (y : Partial × Partial) : Nat := max y.1.at_ y.2.at_

/-- The ready add of a slot that comes first: the earliest ready, then the lowest left child; two siblings present, neither an
emitted node (R126, R129, R139). -/
def slotAdd (s : State) (x : Slot) : Option (Partial × Partial) :=
  let em := scopeEmits (slotScope s x)
  let cand := x.parts.filter (fun p => !em.any (fun e => e.lo == p.lo && e.hi == p.hi))
  let found := cand.filterMap (fun p =>
    match parentOf 20 p.lo (p.hi + 1) 0 (groupN s x.k.group) with
    | some (a, _, sl, sh) =>
      if p.lo = a then (cand.find? (fun q => q.lo == sl && q.hi + 1 == sh)).map (fun q => (p, q)) else none
    | none => none)
  found.foldl (fun acc y => match acc with
    | some z => if readyAt y < readyAt z ∨ (readyAt y = readyAt z ∧ y.1.lo < z.1.lo) then some y else some z
    | none => some y) none

/-! ### Aborts -/

/-- Abort a slot (R135) without telling anybody: every buffer and the reservation released, the header freed. An input that
was taken in this cycle stands behind the abort, which belongs to the next (R130). In a release epoch A[b] is cleared and the
block settles (R162; assumption 20). A dual-rail root sends an ABORT entry (R369). -/
def abortQuiet (x : Slot) (st n : Nat) (s0 : State) : State :=
  let s := orNext (acted s0 (.input x.k)) s0
  let g := x.k.group
  let (st', n') := abortReport s x st n
  let sa := if (slotAdd s x).isSome then touchUnit (puPress x.array) s else s
  let sb := { sa with waiters := sa.waiters.filter (fun w => w.purpose != .result x.k) }
  let s1 := freeParts x sb
  let s2 := match x.resBuf with
    | some b => if x.twinAt.isSome ∨ x.st = .opened then freeBuf b (repPress x.array) none s1 else s1
    | none => s1
  let s3 := if inRelease s x.k && isRoot s g then setTag g x.k.block x.k.epoch 0 (clearAcc g x.k.block s2) else s2
  let s4 := sramNote g (freeSlot x st' n' s3)
  if dualRail s g ∧ isRoot s g ∧ twState s ≠ twOff then
    twinSend kAbort (leBytes 8 (keyWord x.k) ++ leBytes 8 st') s4 else s4

/-- Abort a slot and tell every input destination of its scope (R135, R165). -/
def abortSlot (x : Slot) (st n : Nat) (s : State) : State :=
  let r := abortReport s x st n
  statusDown (repPress x.array) x.k (slotInputs s x) r.1 r.2 (abortQuiet x st n s)

/-- Abort the slot of a key if there is one. -/
def abortKey (k : Key) (st n : Nat) (s : State) : State :=
  match s.slotOf k with
  | some x => abortSlot x st n s
  | none => s

/-! ### Retention (R169) -/

/-- Where entry `pos` of a retention ring lies (R148). -/
def retOff (s : State) (g pos : Nat) : Nat := pageAddr (auxRetPg s g + pos)

/-- Copy a result into the group's ring over the oldest entry, in bulk class: its bytes lie in the auxiliary region, its key,
census and digest with the entry (R148; assumption 92). -/
def retain (r : ResultBlk) (hasData : Bool) (s : State) : State :=
  let g := r.k.group
  let keep := grpF s g grpSync_resKeep
  if keep = 0 then s
  else
    let pos := (s.grp g).retPos % keep
    let s1 := if hasData then auxWrite g (retOff s g pos) (patBytes r.form r.accFmt r.nelem r.k.block r.pat) s else s
    s1.updGrp g (fun x =>
      let l := x.ret ++ [⟨r.k, r, hasData, pos⟩]
      { x with ret := l.drop (l.length - keep), retPos := (pos + 1) % keep })

/-- The entries of a ring that res_keep still holds. -/
def keptEntries (keep : Nat) (l : List RetEntry) : List RetEntry :=
  (l.drop (l.length - keep)).filter (fun e => decide (e.pos < keep))

/-- The retained result of a key, with the quadrant whose stacks hold it: the group's ring, or during a migration the ring
at the old home (R170, R179). -/
def findRetained (s : State) (k : Key) : Option (RetEntry × Nat) :=
  let x := s.grp k.group
  let keep := grpF s k.group grpSync_resKeep
  match (keptEntries keep x.ret).find? (fun e => e.k == k) with
  | some e => some (e, grpF s k.group grpCfg_homeQd)
  | none =>
    match (keptEntries keep x.oldRet).find? (fun e => e.k == k), x.mig with
    | some e, .draining h => some (e, h)
    | _, _ => none

/-- A retained result is dropped, and its re-send opens a slot (R350). -/
def dropRetained (k : Key) (s : State) : State :=
  s.updGrp k.group (fun x => { x with ret := x.ret.filter (fun e => e.k != k), oldRet := x.oldRet.filter (fun e => e.k != k) })

/-- Bytes of a form before its values. -/
def metaBytes (form : Form) (nelem p : Nat) : Nat :=
  match form with
  | .sb64 => 8 * ceilDiv nelem 64
  | .cx16 => 2 * p
  | _ => 0

/-- A retained result with its values as the stacks hold them. -/
def retainedBlk (s : State) (e : RetEntry) (q : Nat) : ResultBlk :=
  let w := accBytes e.r.accFmt
  let at_ := retOff s e.k.group e.pos + metaBytes e.r.form e.r.nelem e.r.pat.length
  if e.hasData then
    { e.r with pat := e.r.pat.zipIdx.map (fun y => (y.1.1, rdLe s (spHbm q) (at_ + w * y.2) w)) }
  else e.r

/-! ### Results on their way down -/

/-- The extension header of a CRESULT before its egress encoding (R98, R141, R164). -/
def resultExt (s : State) (r : ResultBlk) (q : Option MemberReq) : ExtHdr :=
  { group := r.k.group, epoch := r.k.epoch, window := r.k.window, block := r.k.block, accFmt := r.accFmt, lo := 0,
    hiIncl := groupN s r.k.group - 1, pgen := grpF s r.k.group grpCfg_pgen, wfmt := r.accFmt,
    rfmt := match q with | some m => m.rfmt | none => 0, spfmt := grpF s r.k.group grpCfg_spfmt,
    denseRx := match q with | some m => m.denseRx | none => false, esc := false,
    srnd := match q with | some m => m.srnd | none => false, accum := grpFlag s r.k.group grpCfg_accum, eow := false,
    rsvA := 0, status := r.status, nelem := r.nelem, cNan := r.cen.nan, cInf := r.cen.inf, cRsv := r.cen.rsv,
    cScale := r.cen.scale, cSat := 0, rsvB := 0, digest := r.digest }

/-- One CRESULT toward an input destination (R141, R143). -/
def sendResult (unit : Nat) (r : ResultBlk) (e : ScopeE) (q : Option MemberReq) (buf : Option Nat) (s : State) : State :=
  let (h, s1) := sealPacket (rawPacket s.ownFid ptCresult vcCdn e.fid 0 0 (some (resultExt s r q)) []) s
  enqueue unit vcCdn (.result h r q) (.down r.k e.lo e.hi) buf s1

/-- The request that a member made at input index `i`; an ACCUM result is sent with rfmt and srnd not applied (R162). -/
def reqAt (accum : Bool) (reqs : List MemberReq) (i : Nat) (e : ScopeE) : Option MemberReq :=
  if e.kind = 0 ∧ accum = false then reqs.find? (fun m => m.idx == i) else none

/-- Send a result to every destination of a slot's scope, from one shared buffer whose named freer is the slot (R22, R141). -/
def multicast (x : Slot) (r : ResultBlk) (b : Nat) (s : State) : State :=
  let ins := slotInputs s x
  let u := repPress x.array
  let s1 := shareBuf b ins.length u (some x.k) s
  let s2 := forAll (fun (p : ScopeE × Nat) s =>
    sendResult u r p.1 (reqAt (grpFlag s x.k.group grpCfg_accum) x.reqs p.2 p.1) (some b) s) ins.zipIdx s1
  freeBuf b u (some x.k) s2

/-- The root's result leaves (R141): multicast, retention copy, partials and reservation released, HELD until the shared
buffer is freed. The reservation of I buffers goes with the partials (DESIGN CHOICE, assumption 109). -/
def releaseResult (x : Slot) (r : ResultBlk) (b : Nat) (hasData : Bool) (s : State) : State :=
  let s1 := freeParts x s
  let x1 : Slot := { x with st := .held, parts := [], reserved := 0, result := some r, resBuf := some b,
                            twinAt := none, sumWait := false }
  let s2 := multicast x1 r b (sramNote x.k.group (s1.setSlot x1))
  retain r hasData s2

/-- A reference to a shared buffer is released; when the buffer is freed by it, the root's HELD slot that named it is freed
(R135, R143). -/
def releaseShared (b req : Nat) (s : State) : State :=
  let s1 := releaseBuf b req s
  if (s1.buf b).st = .free ∧ (s.buf b).st = .shared then
    match s1.slots.find? (fun x => x.resBuf == some b && x.st == .held) with
    | some x => freeSlot x (match x.result with | some r => r.status | none => stOk) 0 s1
    | none => s1
  else s1

/-! ### Dual-rail comparison (R367 to R369) -/

/-- A mismatch (R368): counted, reported, the shared buffer freed unsent, the slot aborted with MISMATCH. -/
def twinMismatch (x : Slot) (s : State) : State :=
  let s1 := reportOwnOpen clsTwinMismatch repTwin (raiseEv pgTwin 1 (s.addFld pgTwin twnCnt_mismatch 1))
  abortSlot x stMismatch 0 s1

/-- A held result is no longer held: it leaves once it stands in its shared buffer; an ACCUM sum goes on to its tag (R159). -/
def twinPass (x : Slot) (s : State) : State :=
  let x1 : Slot := { x with twinAt := none }
  if grpFlag s x.k.group grpCfg_accum then s.setSlot { x1 with sumWait := true }
  else
    match x.result, x.resBuf with
    | some r, some b => releaseResult x1 r b (r.nelem != 0) s
    | _, _ => s.setSlot x1

/-- Release a held result without comparison (R369). -/
def releaseUnverified (x : Slot) (s : State) : State :=
  match x.result with
  | some r =>
    let s1 := reportOwnOpen clsTwinUnverified repTwin (raiseEv pgTwin 3 (s.addFld pgTwin twnCnt_unverified 1))
    twinPass x { s1 with twin := { s1.twin with unverified := s1.twin.unverified ++ [(x.k, r.digest)] } }
  | none => s

/-- Compare a held result with the twin's digest (R367). -/
def twinCompare (x : Slot) (d : Nat) (s : State) : State :=
  match x.result with
  | some r => if r.digest = d then twinPass x s else twinMismatch x s
  | none => s

/-- The write of a result into its shared buffer `b` was refused, a hard parity error of it (R344, R345): every destination gets
FAILED_LINK, and the re-sends are answered from the retention ring. -/
def resultLost (x : Slot) (r : ResultBlk) (b : Nat) (s : State) : State :=
  let u := repPress x.array
  let s1 := freeParts x (freeBuf b u none (countParity (bufQuad b) .hard s))
  let s2 := statusDown u x.k (slotInputs s x) stFailedLink 0 s1
  freeSlot { x with result := some r } stFailedLink 0 (retain r (r.nelem != 0) s2)

/-- A result stands in its shared buffer (R141): the slot's partial buffer is released, and the result is sent unless the
twin's digest is still awaited. -/
def resultReady (x : Slot) (r : ResultBlk) (b : Nat) (s : State) : State :=
  let s1 := fillBuf b (repPress x.array) [] (patBytes r.form r.accFmt r.nelem x.k.block r.pat) s
  if bufRefused s b then resultLost x r b s1
  else if x.twinAt.isSome then
    sramNote x.k.group ((freeParts x s1).setSlot { x with parts := [], reserved := 0, result := some r, resBuf := some b })
  else releaseResult x r b (r.nelem != 0) s1

/-- Take a shared buffer for a result from the VC_CDN pool of the slot's home slice, or wait for one (R338, R341). -/
def resultBuffer (x : Slot) (r : ResultBlk) (s : State) : State :=
  match takeBuf x.qd vcCdn (repPress x.array) s with
  | some (b, s1) => resultReady x r b s1
  | none => waitBuf x.qd vcCdn (repPress x.array) (.result x.k) (s.setSlot { x with result := some r })

/-- A dual-rail root has formed its result while PAIRED (R367): the digest goes to the twin, the slot is HELD, and the
comparison takes place at once when the twin's word on the key is here. -/
def twinHold (x : Slot) (r : ResultBlk) (s : State) : State :=
  let x1 : Slot := { x with st := .held, result := some r, twinAt := some s.cyc }
  let s1 := twinSend kDigest (leBytes 8 (keyWord x.k) ++ leBytes 8 r.digest) (s.setSlot x1)
  let s2 := if grpFlag s x.k.group grpCfg_accum then s1 else resultBuffer x1 r s1
  match s2.slotOf x.k with
  | none => s2
  | some y =>
    if s2.twin.aborted.contains x.k then
      releaseUnverified y { s2 with twin := { s2.twin with aborted := s2.twin.aborted.erase x.k } }
    else
      match s2.twin.digests.find? (fun p => p.1 == x.k) with
      | some p => twinCompare y p.2 { s2 with twin := { s2.twin with digests := s2.twin.digests.erase p } }
      | none => s2

/-- A root has formed [0, N) (R135, R141, R159, R367). -/
def resultFormed (x : Slot) (r : ResultBlk) (s : State) : State :=
  if dualRail s x.k.group ∧ twState s = twPaired then twinHold x r s
  else if grpFlag s x.k.group grpCfg_accum then s.setSlot { x with sumWait := true, result := some r }
  else resultBuffer x r s

/-! ### Items of Curd cores -/

/-- Cut bytes into 512-byte vectors, the last zero-filled (R193). -/
def vectorsOf (bs : List Byte) : List (List Byte) :=
  (pieces 512 bs).map (fun v => v ++ List.replicate (512 - v.length) 0)

/-- The header vector of a delivered buffer (R193). -/
def headerVector (p : Packet) : List Byte :=
  let h := hdrBytes p ++ leBytes 4 p.crc ++ (if p.ext.isSome then extPart p else List.replicate 32 0)
  h ++ List.replicate (512 - h.length) 0

def bufVectors (hdr : Bool) (p : Packet) : List (List Byte) :=
  (if hdr then [headerVector p] else []) ++ vectorsOf p.payload

def Core.queue (c : Core) (q : Nat) : Queue := tget Queue.unbound c.queues q
def Core.setQueue (c : Core) (q : Nat) (x : Queue) : Core := { c with queues := tset Queue.unbound c.queues q x }

/-- Give up the reference of a local consumer (R22, R343). -/
def itemRelease (b : Option Nat) (req : Nat) (s : State) : State :=
  match b with
  | some x => releaseShared x req s
  | none => s

/-- Append a delivered buffer to a STREAM_IN queue of a core (R192); one that holds no vector is dropped at the head (R193). -/
def appendBuf (core q : Nat) (p : Packet) (buf : Option Nat) (s : State) : State :=
  let x := (s.core core).queue q
  let vs := bufVectors x.hdr p
  if vs.isEmpty && x.bufs.isEmpty then itemRelease buf (repCore core) s
  else s.setCore core ((s.core core).setQueue q { x with bufs := x.bufs ++ [⟨vs, p, buf⟩] })

/-- Write a record into a core's completion ring (R199). -/
def crgWrite (core : Nat) (r : Rec) (s : State) : State :=
  let c := s.core core
  let s1 := localWrite (core / 8) (c.crg + c.crgTail % 2 ^ c.crgLog2 * 32) (writeOrd core (2 ^ 64 - 1)) (recBytes r) s
  (noteAct (.pushed (core / 8) (64 + core % 8)) 1 s1).updCore core (fun c => { c with crgTail := c.crgTail + 1 })

def dropItem (core n : Nat) (s : State) : State :=
  s.updCore core (fun c => { c with items := c.items.filter (fun i => i.n != n) })

/-! ### Limits of an epoch, and the item timer -/

def epochMin (s : State) : Nat := max 1 (s.fld pgGrp grpEpochLim_epochMin)
/-- epoch_max, at least epoch_min (R156). -/
def epochMax (s : State) : Nat := max (max 1 (s.fld pgGrp grpEpochLim_epochMax)) (epochMin s)

/-- The epoch_max in force at this switch plus 2 ms, in cycles: the item timer of a Vat (R156, R167). -/
def itemTo (s : State) : Nat := epochMax s * 80 + usCycles 2000

/-- Send an item's CWRITE again, bit for bit (R168, R200), and start its timer again. -/
def resendItem (core : Nat) (i : Item) (s : State) : State :=
  let s1 := s.updCore core (fun c =>
    { c with items := c.items.map (fun x => if x.n = i.n then { x with deadline := s.cyc + itemTo s } else x) })
  enqueue (repCore core) vcCup (.jfp i.pkt) .none none s1

/-- The outcome of an item at its Vat (R200): the record, and on a success the result buffer; a retryable failure re-sends. -/
def itemOutcome (core : Nat) (i : Item) (p : Packet) (e : ExtHdr) (buf : Option Nat) (s : State) : State :=
  let st := if statusKnown e.status then e.status else stFailedLink
  let r : Rec := { k := i.k, lo := i.rank, hi := i.rank, pgen := e.pgen, status := st, esc := e.esc, root := false,
                   cen := ⟨e.cNan, e.cInf, e.cRsv, e.cScale⟩, csat := e.cSat,
                   n := if st = stMissing ∨ st = stUnpredicted then p.addr % 2 ^ 24 else 0, digest := e.digest }
  if statusSuccess st then
    let s1 := dropItem core i.n (crgWrite core r s)
    if (s1.core core).st = .running ∨ (s1.core core).st = .ending then appendBuf core i.q p buf s1
    else itemRelease buf (repCore core) s1
  else if statusFinal st then itemRelease buf (repCore core) (dropItem core i.n (crgWrite core r s))
  else itemRelease buf (repCore core) (resendItem core i s)

/-- The cores of the module, in order. -/
def allCores : List Nat := List.range 256

/-- The item of this switch's Vats that a result or status for [lo, hi] of a key concerns. -/
def findItem (s : State) (k : Key) (lo : Option Nat) : Option (Nat × Item) :=
  allCores.findSome? (fun c =>
    match (s.core c).items.find? (fun i => i.k == k && (match lo with | some r => i.rank == r | none => true)) with
    | some i => some (c, i)
    | none => none)

/-- The Vat that is the member of a rank (R146). -/
def memberVat (s : State) (g rank : Nat) : Option Nat :=
  (s.members.find? (fun m => m.1 == g && m.2.1 == rank)).map (fun m => m.2.2)

/-- A Vat contributes for a rank of a group. -/
def noteMember (g rank v : Nat) (s : State) : State :=
  { s with members := s.members.filter (fun m => !(m.1 == g && m.2.1 == rank)) ++ [(g, rank, v)] }

/-- What is addressed to a Vat while it is disabled is counted in rdisc (R223). -/
def sunkAt (v : Nat) (s : State) : State :=
  if isEnabled s (pgVat v) then s else s.addFld (pgVat v) vatCnt_rdisc 1

/-- A result or status arrives for a member of this switch's Vats, [lo, ..] of the key: the outcome of its item. One for no item
is ignored (R167), and counted where the member's Vat is disabled (R223). -/
def vatReceive (p : Packet) (e : ExtHdr) (buf : Option Nat) (lo : Option Nat) (s : State) : State :=
  match findItem s (extKey e) lo with
  | some (c, i) => itemOutcome c i p e buf s
  | none =>
    match lo.bind (memberVat s e.group) with
    | some v => itemRelease buf (repCore (8 * v)) (sunkAt v s)
    | none => itemRelease buf repGrp s

end Sys2Proof.Machine
end

