-- ==== Sys2Proof/Machine/Ingress.lean ====
section
/-!
DEFINITION. What happens to a packet on its way into the switch's own units: the live telemetry of R80, the ingress space
and the credit it gives back (R51 to R54, R494), and the end-to-end check of a consumed packet (R60).
-/
namespace Sys2Proof.Machine

/-! ### Ingress space and credit -/

/-- Credits of the packets from a port that still stand in its ingress space on a VC. -/
def heldCredits (s : State) (port vc : Nat) : Nat :=
  ((s.waiting.filter (fun w => w.unit == port && w.vc == vc)).map (fun w => w.credits)).sum
    + ((s.inbox.filter (fun x => x.port == port && x.pkt.vc == vc && x.pool.isNone)).map (fun x => pktCredits x.pkt)).sum

/-- Credits of the landed packets of a VC (R54). -/
def landedCredits (s : State) (port vc : Nat) : Nat :=
  ((s.waiting.filter (fun w => w.unit == port && w.vc == vc && w.landed)).map (fun w => w.credits)).sum

/-- Credits of the packets of a VC that stand on-die: all that the port holds but what has landed (R54). -/
def onDieCredits (s : State) (port vc : Nat) : Nat := heldCredits s port vc - landedCredits s port vc

/-- A packet stands in ingress buffer `b`. -/
def isHome (s : State) (b : Nat) : Bool :=
  s.waiting.any (fun w => w.home == some b) || s.inbox.any (fun x => x.home == some b)

/-- Credit granted on a VC and not yet used (R51, R494). -/
def unusedCredits (x : Port) (vc : Nat) : Nat := (at0 0 x.gRx vc + 2 ^ 32 - at0 0 x.cRx vc) % 2 ^ 32

/-- Cellar buffers that a port holds for a VC: its R52 space, and, on a short port, one for each granted step (R340, R494). -/
def portBufs (x : Port) (vc : Nat) : List (Nat × Nat) := x.credBufs.filter (fun b => b.1 == vc)

/-- Steps of 65 credits beyond the reserved space. -/
def grantSteps (x : Port) (vc : Nat) : Nat :=
  if x.longReach then at0 0 x.landSteps vc else (portBufs x vc).length - 1

/-- A STATE frame is due within 160 ns of a change (R41). -/
def stateDue (now : Nat) (x : Port) : Port :=
  { x with stateAt := some (match x.stateAt with | some t => min t (now + 320) | none => now + 320) }

/-- Credit that a packet may still come for, while the link runs. -/
def openCredits (x : Port) (vc : Nat) : Nat := if x.rxOn then unusedCredits x vc else 0

/-- Credits of ingress space in use on a VC: held, or granted and not yet used. -/
def spaceUsed (s : State) (port vc : Nat) : Nat := heldCredits s port vc + openCredits (s.port port) vc

/-- Give back the buffers of a VC in which no packet stands and that no granted credit needs (R494); a port whose link runs
keeps one for each VC (R340). -/
def trimBufs (port vc : Nat) : Nat → State → State
  | 0, s => s
  | fuel + 1, s =>
    let x := s.port port
    let n := (portBufs x vc).length
    if bit01 x.rxOn < n ∧ spaceUsed s port vc ≤ 65 * (n - 1) then
      match x.credBufs.find? (fun b => b.1 == vc && !isHome s b.2) with
      | some b => trimBufs port vc fuel (freeBuf b.2 port none (s.setPort port { x with credBufs := x.credBufs.erase b }))
      | none => s
    else s

/-- Landing space that no landed packet and no granted credit beyond the free on-die space needs is free again (R54). -/
def trimLand (port vc : Nat) (s : State) : State :=
  let x := s.port port
  let need := ceilDiv (landedCredits s port vc + (openCredits x vc - (65 - onDieCredits s port vc))) 65
  s.setPort port { x with landSteps := x.landSteps.set vc (min (at0 0 x.landSteps vc) need) }

/-- A packet from the port waits for a slot, a buffer or room in a queue, so credit on its VC is withheld (R20, R26,
R194). -/
def creditHeld (s : State) (port vc : Nat) : Bool := s.inbox.any (fun x => x.port == port && x.pkt.vc == vc && x.held)

/-- Credit of the reserved space that is free is granted (R52); what has landed does not stand in it. -/
def grantReserved (port vc : Nat) (s : State) : State :=
  let x := s.port port
  let used := onDieCredits s port vc + unusedCredits x vc
  if x.rxOn ∧ (x.longReach ∨ grantSteps x vc = 0) ∧ used < 65 ∧ isDrain s (pgLane port) = false ∧ creditHeld s port vc = false then
    s.setPort port (stateDue s.cyc { x with gRx := x.gRx.set vc ((at0 0 x.gRx vc + (65 - used)) % 2 ^ 32) })
  else s

/-! ### The UDP endpoint table (R85, R466, R467) and priority flow control (R329) -/

/-- A register whose writes act in the cycle after the write, as this cycle sees it (R317, R327, R333, R466). -/
def lookReg (s : State) (addr : Nat) : U64 :=
  match s.same.oldReg.find? (fun x => x.1 == addr) with
  | some x => x.2
  | none => s.rd addr

/-- A field of such a register. -/
def lookFld (s : State) (base : Nat) (f : Fd) : Nat := fieldOf (lookReg s (base + f.off)) f.l f.w

/-- Remember a register as it stood before this cycle's first write to it (R454). -/
def noteReg (addr : Nat) (s : State) : State :=
  if s.same.oldReg.any (fun r => r.1 == addr) then s
  else { s with same := { s.same with oldReg := (addr, s.rd addr) :: s.same.oldReg } }

/-- An entry of the UDP endpoint table. -/
structure UdpEntry where
  fid : Nat
  port : Nat
  vid : Nat
  mac : Nat
  ip6 : Nat
deriving DecidableEq, Repr

/-- Entries that some register of the window has been written for; one that has been written in this cycle counts with its old
contents (R466). -/
def udpListed (s : State) : List Nat :=
  (((s.regs.map (fun r => r.1) ++ s.same.oldReg.map (fun r => r.1)).filter (fun a =>
    decide (0x0F0E0000 ≤ a) && decide (a < 0x0F100000))).map (fun a => (a - 0x0F0E0000) / 0x20)).dedup

def udpAtEntry (s : State) (e : Nat) : Option UdpEntry :=
  let w := fun i => lookReg s (udpAt e + 8 * i)
  if fieldOf (w 0) 29 1 = 1 then
    some ⟨fieldOf (w 0) 0 20, fieldOf (w 0) 20 9, fieldOf (w 0) 32 12, fieldOf (w 1) 0 48,
          (w 2).toNat + (w 3).toNat * 2 ^ 64⟩
  else none

/-- The lowest-numbered valid entry of a FID. -/
def udpEntry (s : State) (fid : Nat) : Option UdpEntry :=
  match ((udpListed s).filter (fun e => (udpAtEntry s e).any (fun x => x.fid == fid))).min? with
  | some e => udpAtEntry s e
  | none => none

/-- The class of a frame (R311). -/
def frameTc (f : EthFrame) : Nat := match f.tag with | some (pcp, _) => pcp % 8 | none => 0

/-- One waiting copy of each frame that a port holds: a flooded frame is held once (R335). -/
def heldFrames (s : State) (port : Nat) : List Waiting :=
  (s.waiting.filter (fun w => w.unit == port && decide (0 < w.frame))).foldl
    (fun l w => if l.any (fun x => x.frame == w.frame) then l else l ++ [w]) []

/-- Bytes that an Ethernet-mode port holds for class `t`, each frame with its own tag (R311, R329). -/
def heldBytes (s : State) (port t : Nat) : Nat :=
  (((heldFrames s port).filter (fun w => w.tc == t)).map (fun w => w.flen)).sum
  + ((s.inbox.filter (fun x => x.port == port && decide (0 < x.frame) && x.tc == t)).map (fun x => x.flen)).sum

/-- PFC headroom of a port in buffers: port rate x eth_rtt + 18,432 bytes (R82, R329). -/
def headroomBufs (x : Port) : Nat := ceilDiv (x.w * 1000 * x.rtt + 18432) 4096

/-- PFC is enabled for priority `t` of a port. -/
def pfcOn (s : State) (port t : Nat) : Bool := s.fld (pgLane port) prtPfc_pfcEn / 2 ^ t % 2 == 1

/-- The pool that the frames of a class draw on (R338). -/
def framePool (s : State) (port t : Nat) : Nat := if s.fld (pgLane port) prtPfc_cupPcp = t then vcCup else vcReq

/-- Take up to `n` headroom buffers for a priority. -/
def takeHeadroom (port t : Nat) : Nat → State → State
  | 0, s => s
  | n + 1, s =>
    match takeBuf (port / 128) (framePool s port t) port s with
    | some (b, s1) =>
      takeHeadroom port t n (s1.updPort port (fun x => { x with headBufs := x.headBufs ++ [(t, b)] }))
    | none => s

/-- The headroom of each PFC-enabled priority of an Ethernet-mode port that is UP is held as far as its pool allows; a priority
that is not enabled holds none (R82, R329). -/
def fillHeadroom (port : Nat) (s : State) : State :=
  forAll (fun t s =>
    let x := s.port port
    let have_ := (x.headBufs.filter (fun b => b.1 == t)).length
    if x.formed ∧ x.eth ∧ x.st = .up ∧ pfcOn s port t then
      takeHeadroom port t (headroomBufs x - have_) s
    else
      forAll (fun b s => freeBuf b.2 port none s) (x.headBufs.filter (fun b => b.1 == t))
        (s.updPort port (fun x => { x with headBufs := x.headBufs.filter (fun b => b.1 != t) }))) (List.range 8) s

/-- 32,768 quanta of 2.56 / w ns in cycles (R329). -/
def refreshCycles (x : Port) : Nat := ceilDiv (32768 * 512) (100 * max 1 x.w)

/-- A PFC frame becomes due when the held bytes of an enabled priority reach xoff, or fall to xon (R329). A paused priority that
is no longer enabled is resumed at once (DESIGN CHOICE, assumption 117). -/
def pfcCheck (port t : Nat) (s : State) : State :=
  let x := s.port port
  let held := heldBytes s port t
  let sent := at0 false x.xoffSent t
  if x.eth = false then s
  else if sent = false ∧ pfcOn s port t ∧ s.fld (pgLane port) prtPfcTh_xoff ≤ held then
    s.setPort port { x with xoffSent := x.xoffSent.set t true, pfcDue := x.pfcDue ++ [(t, 0xFFFF)],
                            refreshAt := x.refreshAt.set t (some (s.cyc + refreshCycles x)) }
  else if sent ∧ (pfcOn s port t = false ∨ held ≤ s.fld (pgLane port) prtPfcTh_xon) then
    s.setPort port { x with xoffSent := x.xoffSent.set t false, pfcDue := x.pfcDue ++ [(t, 0)],
                            refreshAt := x.refreshAt.set t none }
  else s

/-- The same for every priority. -/
def pfcCheckAll (port : Nat) (s : State) : State := forAll (fun t s => pfcCheck port t s) (List.range 8) s

/-- A packet has left the ingress space of a port (R53, R494, R329). -/
def ingressLeft (port vc : Nat) (s : State) : State :=
  if 512 ≤ port then s
  else if (s.port port).eth then fillHeadroom port (pfcCheckAll port s)
  else grantReserved port vc (trimLand port vc (trimBufs port vc (portBufs (s.port port) vc).length s))

/-- A delivered packet is consumed: its ingress space or its management buffer goes back (R79), and a reference it holds to a
shared buffer is released. -/
def consumed (x : InPkt) (s : State) : State :=
  let s1 := match x.buf with
    | some b => releaseShared b x.port s
    | none => s
  match x.pool with
  | some b => freeBuf b x.port none s1
  | none => ingressLeft x.port x.pkt.vc s1

/-- Buffer `b` has been taken for a packet that goes on: where the packet stands alone in an ingress buffer of its port in the same
slice, that one is handed on, and the port keeps `b` in its place (R338, R340). -/
def handBuf (src : Option InPkt) (b : Nat) (s : State) : Nat × State :=
  match src.bind (fun x => x.home.map (fun h => (x, h))) with
  | some (x, h) =>
    let held := (s.port x.port).credBufs.contains (x.pkt.vc, h)
    if held ∧ isHome s h = false ∧ bufQuad h = bufQuad b then
      (h, s.updPort x.port (fun y => { y with credBufs := y.credBufs.map (fun c => if c = (x.pkt.vc, h) then (x.pkt.vc, b) else c) }))
    else (b, s)
  | none => (b, s)

/-! ### Addresses and the end-to-end check -/

/-- A packet addressed to this switch (R62, R65, R373): the own FID, the alias after a takeover, or the neighbour's name. -/
def addressedHere (s : State) (dst : Nat) : Bool :=
  dst == s.ownFid || dst == 0xFFFFF || (s.twin.aliasOn && dst == s.fld pgTwin twnCfg_aliasFid)

/-- A consumed packet fails e2e_crc (R60): counted at the port and reported with its src as subject. -/
def e2eFail (port : Nat) (p : Packet) (s : State) : State := reportOpen p.src clsE2eCrc port (teleAdd port telE2e 1 s)

/-- A header or a field that a rule calls a protocol error (R59, R80): counted at the port. -/
def protoErr (port : Nat) (s : State) : State := teleAdd port telProto 1 s

end Sys2Proof.Machine
end

