-- ==== Sys2Proof/Machine/Collect.lean ====
section
/-!
DEFINITION. The collective path at a switch: CWRITE and CNODE (R150 to R155, R170, R126 to R137, R146), the mask read of a
resident-mask group (R302), the adds of a Press array (R126, R138, R139), the accumulator (R159 to R162), CRESULT (R142,
R152), failing STATUS packets (R165, R374) and the item timer of a Vat (R167, R168).
-/
namespace Sys2Proof.Machine

/-! ### The group-table check (R150) -/

/-- The quadrant whose slice holds the key's slot, or would (R16, R179). -/
def keyHome (s : State) (k : Key) : Nat :=
  match s.slotOf k with
  | some x => x.qd
  | none => grpF s k.group grpCfg_homeQd

/-- The input entry that a packet names, with its input index (R122, R127). -/
def inputEntry (s : State) (e : ExtHdr) : Option (ScopeE × Nat) :=
  (scopeInputs (scopeTable s e.group (keyHome s (extKey e)))).zipIdx.find?
    (fun x => x.1.lo == e.lo && x.1.hi == e.hiIncl)

/-- A reserved value in a field of the extension header, or a bit in its reserved ranges (R58, R163). -/
def reservedExt (e : ExtHdr) : Bool :=
  e.accFmt == 3 || decide (7 < e.wfmt) || decide (7 < e.rfmt) || e.rsvA != 0 || e.rsvB != 0 || !statusKnown e.status

/-- c of R301: the latched count of an open slot, or the set bits of the mask entry below nelem. -/
def maskCount (s : State) (e : ExtHdr) : Nat :=
  match s.slotOf (extKey e) with
  | some x => match x.values with
    | some c => c
    | none => (maskPositions s e.group x.qd e.accFmt e.block e.nelem).length
  | none => (maskPositions s e.group (grpF s e.group grpCfg_homeQd) e.accFmt e.block e.nelem).length

/-- Bytes of a mask entry (R300). -/
def maskEntryLen (acc : Nat) : Nat := fullCount acc / 8

/-- Where an input's c must be read: the mask entry of a resident-mask group, quadrant and byte, while no slot has latched c
(R301, R302). -/
def entryPlace (s : State) (e : ExtHdr) : Option (Nat × Nat) :=
  if resident s e.group = false then none
  else
    match s.slotOf (extKey e) with
    | some x => if x.values.isSome then none else some (x.qd, maskEntryAt s e.group e.accFmt e.block)
    | none => some (grpF s e.group grpCfg_homeQd, maskEntryAt s e.group e.accFmt e.block)

/-- How that read stands. -/
def entryAsk (s : State) (e : ExtHdr) : HbmAns :=
  match entryPlace s e with
  | some y => hbmAsk s y.1 y.2 (maskEntryLen e.accFmt)
  | none => .ready

def entryWake (e : ExtHdr) (s : State) : State :=
  match entryPlace s e with
  | some y => hbmWake y.1 y.2 (maskEntryLen e.accFmt) s
  | none => s

/-- The bulk-class read of the entry counts where its input is answered without a slot; that of an opening slot counts at its
MASK_READ_DONE. -/
def entryMoved (e : ExtHdr) (s : State) : State :=
  match entryPlace s e with
  | some y => hbmMoved .bulk y.1 y.2 (maskEntryLen e.accFmt) s
  | none => s

/-- plen fits wfmt and nelem: R95 for a dense payload, R290 for a sparse one, R301 with a resident mask. -/
def payloadOk (s : State) (cn : Bool) (e : ExtHdr) (plen : Nat) : Bool :=
  let dense := plen == encodedLen e.wfmt e.nelem
  if resident s e.group then plen == encodedLen (if cn then e.accFmt else e.wfmt) (maskCount s e)
  else if e.spfmt = 1 ∨ e.spfmt = 2 then dense || framingOk e.spfmt e.wfmt e.nelem plen
  else dense

/-- The members' own choices (R95, R180, R296): rfmt, pgen and dense_rx of a CWRITE. -/
def requestOk (s : State) (e : ExtHdr) : Bool :=
  let pg := grpF s e.group grpCfg_pgen
  !(e.rfmt == 0 && e.accFmt != 0)
    && (e.pgen == pg || e.pgen == (pg + 15) % 16)
    && !((e.spfmt == 1 || e.spfmt == 2) && !resident s e.group && !e.denseRx && isScaled e.rfmt)

/-- The fields that must agree with the group-table entry and with an open slot (R95, R150). -/
def fieldsOk (s : State) (e : ExtHdr) : Bool :=
  let g := e.group
  grpFlag s g grpCfg_enable && grpFlag s g grpCfg_enabled && e.accFmt == grpF s g grpCfg_accFmt
    && e.spfmt == grpF s g grpCfg_spfmt && e.accum == grpFlag s g grpCfg_accum && !e.esc && !reservedExt e
    && decide (e.nelem ≤ fullCount e.accFmt)
    && (!e.accum || (e.window == 0 && decide (e.block < grpF s g grpSync_accBlocks)))
    && (match s.slotOf (extKey e) with | some x => x.nelem == e.nelem | none => true)

/-- The part of the group-table check that needs no mask entry (R150, R301). -/
def headCheck (s : State) (cn : Bool) (p : Packet) (e : ExtHdr) : Bool :=
  fieldsOk s e && (cn || requestOk s e)
    && (cn || !resident s e.group || decide (e.block < s.fld (maskAt e.group) grpMask_maskBlocks)) &&
    (match inputEntry s e with
     | some x => x.1.kind == bit01 cn && x.1.fid == p.src
     | none => false)

/-- The group-table check of R150; `cn` says whether the packet is a CNODE. -/
def groupCheck (s : State) (cn : Bool) (p : Packet) (e : ExtHdr) : Bool := headCheck s cn p e && payloadOk s cn e p.plen

/-- A packet that fails the check (R151). -/
def refuseIn (p : Packet) (e : ExtHdr) (s : State) : State :=
  sendStatus repGrp p.src (extKey e) e.lo e.hiIncl stRefused 0
    (reportOpen p.src clsCollCheck repGrp (s.addFld pgGrp grpCnt_chk 1))

/-- In range by R155. -/
def epochOk (s : State) (e : ExtHdr) : Bool :=
  decide ((e.epoch + 65536 - grpF s e.group grpEpoch_curEpoch) % 65536 < 2)

/-- An input out of range (R155). -/
def rangeOut (p : Packet) (e : ExtHdr) (s : State) : State :=
  sendStatus repGrp p.src (extKey e) e.lo e.hiIncl stEpochRange 0 (s.addFld pgGrp grpCnt_range 1)

/-! ### Re-delivery (R170) -/

def redeliver (cn : Bool) (p : Packet) (e : ExtHdr) (r : ResultBlk) (s : State) : State :=
  let pg := pgPress (homePress s e.group)
  let q : Option MemberReq := if cn ∨ e.accum then none else some ⟨0, e.rfmt, e.srnd, e.denseRx⟩
  let s1 := (s.addFld pg prsDupCnt_dup 1).addFld pg prsRedeliverCnt_redeliver 1
  sendResult repGrp r ⟨e.lo, e.hiIncl, bit01 cn, p.src, 0⟩ q none s1

/-- A retained result is read back in bulk class (R169, R170): its pseudo-channels wake first (R355), and one that its stacks
refuse is dropped (R350, R377). `none` says that the key is not retained. -/
def retainedAt (s : State) (k : Key) : Option (HbmAns × RetEntry × Nat) :=
  (findRetained s k).map (fun x =>
    (if x.1.hasData then hbmAsk s x.2 (retOff s k.group x.1.pos) 4096 else .ready, x.1, x.2))

/-! ### Slots: array, opening, placing -/

def quadArrays (q : Nat) : List Nat := (List.range 8).map (fun i => q * 8 + i)

/-- DARK, disabled or DRAINED (R29, R378). -/
def arrayOut (s : State) (a : Nat) : Bool :=
  !isEnabled s (pgPress a) || isDark s (puPress a) || (isDrain s (pgPress a) && s.fld (pgPress a) prsLoad_slots == 0)

/-- Some present array of the quadrant is out, so that work which needs it is reported (R378). -/
def arraysOut (s : State) (q : Nat) : Bool := (quadArrays q).any (fun a => pressPresent s.fuses a && arrayOut s a)

/-- Arrays of a quadrant that may take a slot (R21, R378). -/
def freeArrays (s : State) (q : Nat) : List Nat :=
  (quadArrays q).filter (fun a => pressPresent s.fuses a && takesWork s (pgPress a) (puPress a))

/-- The array with the fewest bound slots, the lowest-numbered among equals (assumption 11). -/
def leastLoaded (s : State) : List Nat → Option Nat
  | [] => none
  | a :: as =>
    match leastLoaded s as with
    | some b => if s.fld (pgPress b) prsLoad_slots < s.fld (pgPress a) prsLoad_slots then some b else some a
    | none => some a

/-- The array a new slot is bound to: in the home quadrant, else in the next present one (R21). -/
def pickArray (s : State) (home : Nat) : Option Nat :=
  (List.range 4).findSome? (fun i => leastLoaded s (freeArrays s ((home + i) % 4)))

def reservedBufs (s : State) (g : Nat) : Nat := ((groupSlots s g).map (fun x => x.reserved)).sum

/-- Room for a new slot of I inputs (R133), and no quota that was lowered below its use (R134). -/
def quotaFree (s : State) (g i : Nat) : Bool :=
  decide ((groupOpen s g).length < grpF s g grpQuota_qSlots)
    && decide (reservedBufs s g + i ≤ grpF s g grpQuota_qBufs) && !(s.grp g).sramHold

/-- The spill places that a group has in use at a quadrant. -/
def spillUsed (s : State) (g qd : Nat) : List Nat :=
  ((groupSlots s g).filter (fun x => x.qd == qd)).flatMap (fun x =>
    x.parts.filterMap (fun p => if p.sram then none else p.buf))

/-- Where a place of a group's spill region lies. -/
def spillOff (s : State) (g i : Nat) : Nat := pageAddr (grpF s g grpHbm_spillPg + i)

/-- The lowest place of the group's spill region that no partial has in use (R137; DESIGN CHOICE, assumption 139). -/
def spillPlace (s : State) (x : Slot) : Nat :=
  let used := spillUsed s x.k.group x.qd
  ((List.range (used.length + 1)).find? (fun j => !used.contains j)).getD used.length

/-- The conditions of R137 for a partial in SRAM, with the buffer that they find. -/
def sramBuf (x : Slot) (s : State) : Option (Nat × State) :=
  if sramParts s x.k.group < x.sramQuota then takeBuf x.qd vcCup (repPress x.array) s else none

/-- A partial would spill to a pseudo-channel that must wake first: its input waits in the buffer that holds it (R28, R355). -/
def spillSleeps (x : Slot) (s : State) : Bool :=
  (sramBuf x s).isNone && hbmAsk s x.qd (spillOff s x.k.group (spillPlace s x)) 4096 == .asleep

def spillWake (x : Slot) (s : State) : State := hbmWake x.qd (spillOff s x.k.group (spillPlace s x)) 4096 s

/-- Where a partial goes (R137): a buffer in SRAM, the one that its input stands in where that is the slot's own slice (R338,
R340), or a place in the spill region; none when that place lies beyond the present stacks (R348, R496) or its stacks refuse it
(R377). -/
def claimBuf (src : Option InPkt) (x : Slot) (s : State) : Option (Bool × Nat) × State :=
  match sramBuf x s with
  | some (b, s1) =>
    let r := handBuf src b s1
    (some (true, r.1), r.2)
  | none =>
    let i := spillPlace s x
    let s1 := s.addFld (pgPress x.array) prsSpillCnt_spill 1
    match hbmAsk s1 x.qd (spillOff s1 x.k.group i) 4096 with
    | .beyond => (none, refusePage x.qd (repPress x.array) s1)
    | .refused => (none, s1)
    | _ => (some (false, i), s1)

/-- A partial's bytes go to its place: SRAM, where a refused write is a hard parity error of the partial (R344, R345), or HBM in
bulk class, where they wait for the wake of a pseudo-channel in SLATE (R137, R138, R355). -/
def storePart (x : Slot) (pt : Partial) (s : State) : State :=
  let bs := patBytes pt.form x.accFmt x.nelem x.k.block pt.pat
  match pt.sram, pt.buf with
  | true, some b =>
    let s1 := fillBuf b (repPress x.array) [] bs s
    if bufRefused s b then abortKey x.k stFailedLink 0 (countParity (bufQuad b) .hard s1) else s1
  | false, some i => hbmPut .bulk x.qd (spillOff s x.k.group i) bs (repPress x.array) s
  | _, none => s

/-- The value and census of an input, in the form in which the slot holds it (R97, R98, R104, R290 to R292, R302). -/
def inputValue (s : State) (cn : Bool) (l : Latch) (p : Packet) (e : ExtHdr) : Form × Pattern × Census :=
  let code := fun v => toCode e.accFmt v
  let given : Census := ⟨e.cNan, e.cInf, e.cRsv, e.cScale⟩
  if resident s e.group then
    let c := maskCount s e
    let fmt := if cn then e.accFmt else e.wfmt
    let pat := (decodeElems fmt c p.payload).zipIdx.map (fun x => (x.2, code x.1))
    (.masked, pat, if cn then given else censusOf l.scaleLo l.scaleHi fmt c p.payload)
  else
    let xs := expandPayload e.spfmt e.wfmt e.nelem (fullCount e.accFmt) p.payload
    let (form, pat) := holdPattern e.spfmt e.accFmt e.nelem (xs.map (fun x => (x.1, code x.2.1)))
    (form, pat, if cn then given
      else if p.plen = encodedLen e.wfmt e.nelem then censusOf l.scaleLo l.scaleHi e.wfmt e.nelem p.payload
      else censusOfExpansion xs)

/-! ### Emitted nodes (R129, R135, R141, R174) -/

/-- The CNODE that carries an emitted node to the parent (R68, R98, R105, R180, R293). -/
def cnodePacket (s : State) (x : Slot) (pt : Partial) : Packet :=
  let g := x.k.group
  let e : ExtHdr :=
    { group := g, epoch := x.k.epoch, window := x.k.window, block := x.k.block, accFmt := x.accFmt, lo := pt.lo,
      hiIncl := pt.hi, pgen := 0, wfmt := x.accFmt, rfmt := 0, spfmt := x.spfmt, denseRx := false, esc := false,
      srnd := false, accum := grpFlag s g grpCfg_accum, eow := false, rsvA := 0, status := 0, nelem := x.nelem,
      cNan := pt.cen.nan, cInf := pt.cen.inf, cRsv := pt.cen.rsv, cScale := pt.cen.scale, cSat := 0, rsvB := 0,
      digest := 0 }
  rawPacket s.ownFid ptCnode vcCup (grpF s g grpLink_parentFid) 0 0 (some e)
    (patBytes pt.form x.accFmt x.nelem x.k.block pt.pat)

/-- The result block of a root's [0, N) (R98, R141, R365). -/
def rootBlock (x : Slot) (pt : Partial) : ResultBlk :=
  { k := x.k, accFmt := x.accFmt, nelem := x.nelem, form := pt.form, pat := pt.pat, cen := pt.cen,
    digest := resultDigest x.k x.accFmt x.nelem pt.form pt.pat pt.cen, status := stOk, latch := x.latch }

/-- An emitted node is formed or passed on: at the root it is the result, or the sum that waits for its tag (R159);
elsewhere it is queued as a CNODE. -/
def emitNode (k : Key) (pt : Partial) (s : State) : State :=
  match s.slotOf k with
  | none => s
  | some x =>
    let g := k.group
    let s1 := syncIncrIf (grpFlag s g grpSync_nodeEn) (grpF s g grpSync_syncNode) 1 (repPress x.array) s
    let x1 : Slot := { x with emitted := x.emitted ++ [(pt.lo, pt.hi)] }
    if isRoot s g then resultFormed x1 (rootBlock x1 pt) (s1.setSlot x1)
    else
      originate (repPress x.array) (cnodePacket s x pt) (.cnode k pt.lo pt.hi)
        (s1.setSlot { x1 with sends := x1.sends + 1 })

/-- A node has become present: an emitted node of the scope leaves at once (R129). -/
def nodePresent (k : Key) (pt : Partial) (s : State) : State :=
  match s.slotOf k with
  | none => s
  | some x =>
    if (scopeEmits (slotScope s x)).any (fun e => e.lo == pt.lo && e.hi == pt.hi) then emitNode k pt s else s

/-- Place an accepted input in its open slot (R135). -/
def placeInput (src : Option InPkt) (cn : Bool) (p : Packet) (e : ExtHdr) (i : Nat) (s : State) : State :=
  match s.slotOf (extKey e) with
  | none => s
  | some x =>
    let (form, pat, cen) := inputValue s cn x.latch p e
    match claimBuf src x s with
    | (none, s1) => abortSlot x stFailedLink 0 s1
    | (some (sram, b), s1) =>
      let pt : Partial := ⟨e.lo, e.hiIncl, form, pat, cen, sram, some b, s.cyc⟩
      let x1 : Slot :=
        { x with accepted := x.accepted ++ [i], parts := x.parts ++ [pt], cen := x.cen.plus cen,
                 reqs := if cn then x.reqs else x.reqs ++ [⟨i, e.rfmt, e.srnd, e.denseRx⟩] }
      nodePresent x.k pt (storePart x pt (wakeUnit (puPress x.array) (s1.setSlot x1)))

/-- A slot in its first state (R116, R133, R135). -/
def freshSlot (s : State) (e : ExtHdr) (a : Nat) : Slot :=
  let g := e.group
  { k := extKey e, st := .opened, pgen := e.pgen, nelem := e.nelem, accFmt := e.accFmt, spfmt := e.spfmt,
    latch := latchNow s g, array := a, qd := grpF s g grpCfg_homeQd, accepted := [], emitted := [], parts := [],
    cen := Census.zero, reqs := [], reserved := (scopeInputs (scopeTable s g (grpF s g grpCfg_homeQd))).length,
    sramQuota := grpF s g grpQuota_sramBufs, sends := 0, result := none, resBuf := none, maskWait := none,
    values := none, twinAt := none, sumWait := false, downs := 0 }

/-- Open a slot on array `a` (R21, R133, R372), reported where an array of the home quadrant is out (R378); with
a resident mask the opening input waits for the mask read (R302). -/
def openSlot (src : Option InPkt) (cn : Bool) (p : Packet) (e : ExtHdr) (i a : Nat) (s : State) : State :=
  let g := e.group
  let s0 := if a / 8 = grpF s g grpCfg_homeQd ∨ arraysOut s (grpF s g grpCfg_homeQd) = false then s
    else disabledWork repGrp s
  let s1 := loadSlots a 1 (s0.addSlot (freshSlot s e a))
  let s2 := if warmPrimary s g then twinSend kOpen (leBytes 8 (keyWord (extKey e)) ++ leBytes 8 0) s1 else s1
  if resident s g then s2.setSlot { freshSlot s e a with maskWait := some (i, p) }
  else placeInput src cn p e i s2

/-- An input whose key is not retained: it joins its slot, opens one, or waits (R20, R28, R128, R133, R135). Where no array of any
present quadrant takes a slot it is discarded, and its src is told ABORTED_DISABLED (DESIGN CHOICE, assumption 135). -/
def placeOrOpen (src : Option InPkt) (cn : Bool) (p : Packet) (e : ExtHdr) (i : Nat) (s : State) : Bool × State :=
  match s.slotOf (extKey e) with
  | some x =>
    if x.maskWait.isSome then (false, s)
    else if x.accepted.contains i ∨ x.st ≠ .opened then (true, s.addFld (pgPress x.array) prsDupCnt_dup 1)
    else if spillSleeps x s then (false, spillWake x s)
    else (true, placeInput src cn p e i s)
  | none =>
    let home := grpF s e.group grpCfg_homeQd
    if quotaFree s e.group (scopeInputs (scopeTable s e.group home)).length then
      match pickArray s home with
      | some a =>
        if resident s e.group = false ∧ spillSleeps (freshSlot s e a) s then (false, spillWake (freshSlot s e a) s)
        else (true, openSlot src cn p e i a s)
      | none =>
        let s1 := if arraysOut s home then disabledWork repGrp s else s
        (true, sendStatus repGrp p.src (extKey e) e.lo e.hiIncl stAbortedDisabled 0 s1)
    else (false, s)

/-- An input that passed R150 and R155, at input index `i` of its scope. `true` in the answer says it was dealt with; `false`
that it waits where it is (R20, R28). -/
def takeInput (src : Option InPkt) (cn : Bool) (p : Packet) (e : ExtHdr) (i : Nat) (s : State) : Bool × State :=
  match retainedAt s (extKey e) with
  | some (.ready, r, q) =>
    (true, redeliver cn p e (retainedBlk s r q)
      (if r.hasData then hbmMoved .bulk q (retOff s e.group r.pos) 4096 s else s))
  | some (.asleep, r, q) => (false, hbmWake q (retOff s e.group r.pos) 4096 s)
  | some (.beyond, _, q) => placeOrOpen src cn p e i (dropRetained (extKey e) (refusePage q repGrp s))
  | some (.refused, _, _) => placeOrOpen src cn p e i (dropRetained (extKey e) s)
  | none => placeOrOpen src cn p e i s

/-- The scope entry of an input was read with wrong parity (R345): its slot aborts, and where there is none the input's src is
told. -/
def scopeUpset (p : Packet) (e : ExtHdr) (q off : Nat) (s : State) : State :=
  let s1 := upsetRead q off s
  match s1.slotOf (extKey e) with
  | some x => abortSlot x stFailedLink 0 s1
  | none => sendStatus repGrp p.src (extKey e) e.lo e.hiIncl stFailedLink 0 s1

/-- An input whose mask entry cannot be read is discarded, and its src told (R350). -/
def entryLost (p : Packet) (e : ExtHdr) (s : State) : State :=
  sendStatus repGrp p.src (extKey e) e.lo e.hiIncl stFailedLink 0 s

/-- An input that passed R150: the epoch check, its scope entry, and its place (R155, R345, R170, R135). -/
def takeChecked (cn : Bool) (x : InPkt) (p : Packet) (e : ExtHdr) (s : State) : State :=
  let k := extKey e
  if epochOk s e = false then consumed x (noteAct (.input k) x.port (rangeOut p e s))
  else
    match inputEntry s e with
    | none => consumed x (refuseIn p e s)
    | some y =>
      let off := grpF s e.group grpScope_scopeBase + 8 * y.2
      if upsetIn s (keyHome s k) off 8 then consumed x (scopeUpset p e (keyHome s k) off s)
      else
        match takeInput (some x) cn p e y.2 s with
        | (true, s1) =>
          consumed x (noteAct (.input k) x.port (if (s.slotOf k).isNone && (s1.slotOf k).isNone then entryMoved e s1 else s1))
        | (false, s1) => if (s.slotOf k).isSome || (findRetained s k).isSome then holdInbox x s1 else holdFull x s1

/-- A delivered CWRITE or CNODE (R60, R150 to R155, R170, R135). Inputs of one key are taken in ascending port number within a
cycle, and an input stands before a CRESULT that frees its slot (R130). With a resident mask whose c no slot has latched, the
entry's pseudo-channels wake first (R28, R355). -/
def contribute (cn : Bool) (x : InPkt) (s0 : State) : State :=
  let p := x.pkt
  match p.ext with
  | none => consumed x s0
  | some e =>
    let k := extKey e
    let s := orNext (actAbove s0 (.input k) x.port || acted s0 (.freed k)) s0
    if crcGood p = false then
      consumed x (sendStatus repGrp p.src k e.lo e.hiIncl stFailedLink 0 (e2eFail x.port p s))
    else if headCheck s cn p e = false then consumed x (refuseIn p e s)
    else
      match entryAsk s e with
      | .asleep => holdInbox x (entryWake e s)
      | .refused => consumed x (entryLost p e s)
      | .beyond => consumed x (entryLost p e (refusePage (keyHome s k) repGrp s))
      | .ready =>
        if groupCheck s cn p e then takeChecked cn x p e s else consumed x (refuseIn p e (entryMoved e s))

/-- CWRITE (R135). -/
def execCwrite (port : Nat) (p : Packet) (s : State) : Result :=
  let (x, s1) := takeInbox port p s
  .next (contribute false x s1)

/-- CNODE (R127). -/
def execCnode (port : Nat) (p : Packet) (s : State) : Result :=
  let (x, s1) := takeInbox port p s
  .next (contribute true x s1)

/-- The mask read of a waiting opening input ends: it latches c and proceeds; with an uncorrectable line it is discarded, its
slot freed and its src told (R350). -/
def maskRead (k : Key) (ok : Bool) (s : State) : State :=
  match s.slotOf k with
  | none => s
  | some x =>
    match x.maskWait with
    | none => s
    | some (i, p) =>
      match p.ext with
      | none => s
      | some e =>
        if ok then
          let c := (maskPositions s k.group x.qd x.accFmt k.block x.nelem).length
          let y : Slot := { x with values := some c }
          if spillSleeps y s then spillWake y (s.setSlot y)
          else placeInput none (p.ptype == ptCnode) p e i (s.setSlot { y with maskWait := none })
        else
          sendStatus repGrp p.src k e.lo e.hiIncl stFailedLink 0 (freeSlot { x with maskWait := none } stFailedLink 0 s)

/-- The mask entry of a slot is read in bulk class: its pseudo-channels wake first (R355), a page beyond the stacks is refused
as a handle is (R348), and a stack that refuses reads as uncorrectable (R377). -/
def maskAsk (k : Key) (ok : Bool) (s : State) : State :=
  match s.slotOf k with
  | none => s
  | some x =>
    if x.maskWait.isNone then s
    else
      let off := maskEntryAt s k.group x.accFmt k.block
      let n := maskEntryLen x.accFmt
      match hbmAsk s x.qd off n with
      | .ready => maskRead k ok (hbmMoved .bulk x.qd off n s)
      | .asleep => hbmWake x.qd off n s
      | .refused => maskRead k false s
      | .beyond => maskRead k false (refusePage x.qd repGrp s)

/-- MASK_READ_DONE (R302). -/
def execMaskReadDone (k : Key) (ok : Bool) (s : State) : Result := .next (maskAsk k ok s)

/-! ### Adds (R126, R130, R138, R139) -/

def keyLt (a b : Key) : Bool :=
  decide (a.group < b.group) || (a.group == b.group && (decide (a.epoch < b.epoch) || (a.epoch == b.epoch &&
    (decide (a.window < b.window) || (a.window == b.window && decide (a.block < b.block))))))

/-- The first add of an array: as they became ready, those of one cycle in ascending slot key (R130, R139). -/
def readyAdd (s : State) (a : Nat) : Option (Slot × Partial × Partial) :=
  (s.slots.filter (fun x => x.array == a && x.st == .opened)).foldl (fun acc x =>
    match slotAdd s x with
    | none => acc
    | some (l, r) =>
      match acc with
      | some y =>
        if readyAt (l, r) < readyAt y.2 ∨ (readyAt (l, r) = readyAt y.2 ∧ keyLt x.k y.1.k) then some (x, l, r) else acc
      | none => some (x, l, r)) none

/-- add(left, right), held in the form of R292. -/
def addParts (x : Slot) (l r : Partial) : Form × Pattern :=
  let pat := addPats x.accFmt l.pat r.pat
  if l.form = .masked then (.masked, pat) else holdPattern x.spfmt x.accFmt x.nelem pat

/-- Form the parent of two present siblings (R126, R138). -/
def formNode (x : Slot) (l r : Partial) (s : State) : State :=
  let (form, pat) := addParts x l r
  let keepLeft := l.sram || !r.sram
  let (kept, gone) := if keepLeft then (l, r) else (r, l)
  let pt : Partial := ⟨l.lo, r.hi, form, pat, l.cen.plus r.cen, kept.sram, kept.buf, s.cyc⟩
  let s1 := match gone.sram, gone.buf with
    | true, some b => freeBuf b (repPress x.array) none s
    | _, _ => s
  let x1 : Slot := { x with parts := (x.parts.filter (fun p => p != l && p != r)) ++ [pt] }
  nodePresent x.k pt (storePart x pt
    (touchUnit (puPress x.array) ((sramNote x.k.group (s1.setSlot x1)).addWrap (pgPress x.array) prsLoad_adds 1)))

/-- Spilled operands of an add, as byte offsets of the slot's quadrant. -/
def spilled (s : State) (x : Slot) (ps : List Partial) : List Nat :=
  ps.filterMap (fun p => if p.sram then none else p.buf.map (spillOff s x.k.group))

/-- An operand in SRAM whose handle is refused (R344). -/
def operandRefused (s : State) (ps : List Partial) : Option Nat :=
  ps.findSome? (fun p => match p.sram, p.buf with
    | true, some b => if bufRefused s b then some b else none
    | _, _ => none)

/-- An add takes its operands: spilled ones are read in bulk class, once their pseudo-channels are awake (R138, R355); a
refused read is an uncorrectable line (R350, R377), a refused handle a hard parity error of the partial (R344, R345). -/
def pressTake (x : Slot) (l r : Partial) (s : State) : State :=
  let offs := spilled s x [l, r]
  match operandRefused s [l, r] with
  | some b => abortSlot x stFailedLink 0 (countParity x.qd .hard (refuseHandle (bufQuad b) (repPress x.array) s))
  | none =>
    let asks := offs.map (fun o => hbmAsk s x.qd o 4096)
    if asks.contains .beyond then abortSlot x stFailedLink 0 (refusePage x.qd (repPress x.array) s)
    else if asks.contains .refused then abortSlot x stFailedLink 0 s
    else if asks.contains .asleep then forAll (fun o s => hbmWake x.qd o 4096 s) offs s
    else formNode x l r (forAll (fun o s => hbmMoved .bulk x.qd o 4096 s) offs s)

/-- PRESS_ADD (R126). -/
def execPressAdd (array : Nat) (par : Parity) (s : State) : Result :=
  .next (match readyAdd s array with
    | none => s
    | some (x, l, r) =>
      if isGold s (puPress array) = false then wakeUnit (puPress array) s
      else
        let s1 := countParity x.qd par s
        if par = .hard then abortSlot x stFailedLink 0 s1 else pressTake x l r s1)

/-! ### ACCUM groups (R159, R162, R298) -/

/-- A[b] after an epoch's sum is added: the codes of the block's positions. -/
def accSum (s : State) (x : Slot) (sum : Pattern) : Pattern :=
  let g := x.k.group
  let w := accBytes x.accFmt
  (densify x.nelem sum).map (fun y =>
    (y.1, addCodes x.accFmt (rdLe s (spHbm (grpF s g grpCfg_homeQd)) (accOff s g x.k.block + w * y.1) w) y.2))

/-- The slot's epoch is not current yet: whether it is a release epoch, and so what its sum is answered with, is known at the
boundary that makes it current (R161, R162; DEDUCED, assumption 119). -/
def epochAhead (s : State) (k : Key) : Bool := decide ((k.epoch + 65536 - grpF s k.group grpEpoch_curEpoch) % 65536 = 1)

/-- The sum in an ACCUM slot that waits, for a block: the one whose epoch comes next after the settled one (R159), else one that the
tag has reached or passed (DESIGN CHOICE, assumption 119). -/
def waitingSum (s : State) (g b : Nat) : Option Slot :=
  let ws := s.slots.filter (fun x => x.k.group == g && x.k.block == b && x.sumWait && !epochAhead s x.k)
  let gap := fun (x : Slot) => (x.k.epoch + 65536 - tagSettled s g b) % 65536
  match ws.find? (fun x => gap x == 1) with
  | some x => some x
  | none => ws.find? (fun x => gap x == 0 || decide (32768 ≤ gap x))

/-- A CRESULT without data for an epoch's sum (R162). -/
def emptyBlock (r : ResultBlk) : ResultBlk := { r with nelem := 0, form := .dense, pat := [] }

/-- The sum `pt` of slot `x` is added and answered as R162 states; one whose tag already shows e is answered without being
added (assumption 21). `lost` says that the stacks refuse the accumulator: A[b] counts as +0 with one more missing (R350). -/
def accumAdd (x : Slot) (pt : Partial) (lost : Bool) (s : State) : State :=
  let g := x.k.group
  let b := x.k.block
  let e := x.k.epoch
  let r := rootBlock x pt
  if lost = false ∧ (e + 65536 - tagSettled s g b) % 65536 ≠ 1 then resultBuffer x (emptyBlock r) s
  else
    let a := accSum s x pt.pat
    let miss := tagMissing s g b + bit01 lost
    if isRelEpoch s g e then
      if miss = 0 then resultBuffer x { r with form := .dense, pat := a } (setTag g b e 0 (clearAcc g b s))
      else abortSlot x stMissing miss s
    else
      resultBuffer x (emptyBlock r) (setTag g b e miss (auxWrite g (accOff s g b) (accCodes x.accFmt a) s))

/-- How an access to a block's sum and its tag stands. -/
def accumAsk (s : State) (g b : Nat) : List HbmAns :=
  let h := grpF s g grpCfg_homeQd
  [hbmAsk s h (accOff s g b) 4096, hbmAsk s h (tagOff s g b) 4]

/-- ACCUM_ADD (R159): the accumulator and the tag are read in bulk class, once their pseudo-channels are awake (R355). -/
def execAccumAdd (group block : Nat) (s : State) : Result :=
  .next (match waitingSum s group block with
    | none => s
    | some x =>
      match x.parts.find? (fun p => p.lo == 0 && p.hi + 1 == groupN s group) with
      | none => s
      | some pt =>
        let h := grpF s group grpCfg_homeQd
        let asks := accumAsk s group block
        if asks.contains .beyond then accumAdd x pt true (refusePage h (repPress x.array) s)
        else if asks.contains .refused then accumAdd x pt true s
        else if asks.contains .asleep then hbmWake h (tagOff s group block) 4 (hbmWake h (accOff s group block) 4096 s)
        else
          accumAdd x pt false (hbmMoved .bulk h (tagOff s group block) 4
            (hbmMoved .bulk h (accOff s group block) 4096 s)))

/-! ### CRESULT from the parent (R142, R143, R152) -/

/-- The result block that a CRESULT from the parent carries. -/
def cresultBlock (s : State) (x : Slot) (p : Packet) (e : ExtHdr) : ResultBlk :=
  let cen : Census := ⟨e.cNan, e.cInf, e.cRsv, e.cScale⟩
  let mk := fun form pat => (⟨x.k, x.accFmt, e.nelem, form, pat, cen, e.digest, stOk, x.latch⟩ : ResultBlk)
  if resident s e.group then
    mk .masked ((decodeElems x.accFmt (p.plen / accBytes x.accFmt) p.payload).zipIdx.map
      (fun y => (y.2, toCode x.accFmt y.1)))
  else
    let xs := expandPayload e.spfmt e.wfmt e.nelem (fullCount e.accFmt) p.payload
    let pat := xs.map (fun y => (y.1, toCode x.accFmt y.2.1))
    mk (if p.plen = encodedLen e.wfmt e.nelem then .dense else spForm e.spfmt) pat

/-- Pass a result down from a non-root switch and free the slot (R135, R142). -/
def passDown (x : Slot) (r : ResultBlk) (b : Nat) (s : State) : State :=
  let s1 := fillBuf b (repPress x.array) [] (patBytes r.form r.accFmt r.nelem x.k.block r.pat) s
  if bufRefused s b then resultLost x r b s1
  else noteAct (.freed x.k) 0 (freeSlot { x with result := some r } stOk 0 (retain r (r.nelem != 0) (multicast x r b s1)))

/-- The shared buffer for a result on its way down, or the wait for one (R341). -/
def downBuffer (x : Slot) (r : ResultBlk) (s : State) : State :=
  match takeBuf x.qd vcCdn (repPress x.array) s with
  | some (b, s1) => passDown x r b s1
  | none => waitBuf x.qd vcCdn (repPress x.array) (.result x.k) (s.setSlot { x with result := some r })

/-- The c that a slot has latched (R302). -/
def latchedCount (s : State) (e : ExtHdr) : Option Nat := (s.slotOf (extKey e)).bind (fun x => x.values)

/-- The checks of a CRESULT's extension header and payload (R58, R95, R290, R301). With a resident mask the length is that of
the c values that its slot has latched; with no slot it is a duplicate whatever its length. -/
def resultOk (s : State) (p : Packet) (e : ExtHdr) : Bool :=
  !reservedExt e && decide (e.nelem ≤ fullCount e.accFmt)
    && (if resident s e.group then (match latchedCount s e with
          | some c => p.plen == encodedLen e.accFmt c
          | none => true)
      else p.plen == encodedLen e.wfmt e.nelem
        || ((e.spfmt == 1 || e.spfmt == 2) && framingOk e.spfmt e.wfmt e.nelem p.plen))

def discardChk (s : State) : State := s.addFld pgGrp grpCnt_chk 1

/-! ### Failing STATUS (R165, R374) -/

def isSweep (e : ExtHdr) : Bool := e.window == 0x3FF && e.block == 0xFFFFFF && e.status == stFailedTwinLost

/-- Forward a failing status to every input destination of the scope (R165). -/
def forwardDown (e : ExtHdr) (n : Nat) (s : State) : State :=
  statusDown repGrp (extKey e) (scopeInputs (scopeTable s e.group (keyHome s (extKey e)))) e.status n s

/-- A failing status from the parent: the slot, or with a sweep every slot of the group, aborts, and the status goes down. -/
def failFromParent (p : Packet) (e : ExtHdr) (s : State) : State :=
  if p.src ≠ grpF s e.group grpLink_parentFid then discardChk s
  else if reservedExt { e with status := 0 } then refuseIn p e s
  else if statusSuccess e.status then s
  else
    let n := p.addr % 2 ^ 24
    let st := if statusKnown e.status then e.status else stFailedLink
    let s1 := if isSweep e then forAll (fun x s => abortQuiet x st n s) (groupSlots s e.group) s
      else match s.slotOf (extKey e) with
        | some x => abortQuiet x st n s
        | none => s
    forwardDown { e with status := st } n s1

/-- A CRESULT addressed to this switch as a child of the plan; one that carries a failing or a reserved status fails its slot
as a STATUS would (R135, R163). -/
def resultFromParent (p : Packet) (e : ExtHdr) (s : State) : State :=
  if p.src ≠ grpF s e.group grpLink_parentFid then discardChk s
  else if statusSuccess e.status = false then failFromParent p e s
  else if resultOk s p e = false then refuseIn p e s
  else
    match s.slotOf (extKey e) with
    | some x =>
      if x.st = .held ∧ x.result = none then downBuffer x (cresultBlock s x p e) s
      else s.addFld (pgPress x.array) prsDupCnt_dup 1
    | none => s.addFld (pgPress (homePress s e.group)) prsDupCnt_dup 1

/-- The Vat is the member of some rank `lo` to `hi` of the group. -/
def memberIn (s : State) (g lo hi v : Nat) : Bool :=
  s.members.any (fun m => m.1 == g && decide (lo ≤ m.2.1) && decide (m.2.1 ≤ hi) && m.2.2 == v)

/-- A sweep status at a Vat: every item of the group that this rank holds in flight is re-sent (R374); a disabled Vat that is the
member of the rank sinks and counts it (R223). -/
def vatSweep (g lo hi : Nat) (s : State) : State :=
  forAll (fun c s => forAll (fun (i : Item) s =>
      if i.k.group = g ∧ lo ≤ i.rank ∧ i.rank ≤ hi then resendItem c i s else s) (s.core c).items s) allCores
    (forAll sunkAt ((List.range 32).filter (memberIn s g lo hi)) s)

/-- FAILURE_STATUS (R165). -/
def execFailureStatus (port : Nat) (p : Packet) (s : State) : Result :=
  let (x, s1) := takeInbox port p s
  .next (match p.ext with
    | none => consumed x s1
    | some e =>
      if crcGood p = false then consumed x (e2eFail port p s1)
      else
        match x.org with
        | .down _ lo hi =>
          if isSweep e then consumed x (vatSweep e.group lo hi s1) else vatReceive p e x.buf (some lo) s1
        | _ => consumed x (failFromParent p e s1))

/-- CRESULT (R142): from the parent, or the switch's own for a member of its Vats (R146, R200). -/
def execCresult (port : Nat) (p : Packet) (s : State) : Result :=
  let (x, s1) := takeInbox port p s
  .next (match p.ext with
    | none => consumed x s1
    | some e =>
      if crcGood p = false then consumed x (e2eFail port p s1)
      else
        match x.org with
        | .down _ lo _ => vatReceive p e x.buf (some lo) s1
        | _ => consumed x (resultFromParent p e s1))

/-! ### The item timer of a Vat (R167, R168) -/

/-- ITEM_TIMEOUT (R167). -/
def execItemTimeout (core n : Nat) (s : State) : Result :=
  .next (match (s.core core).items.find? (fun i => i.n == n) with
    | some i => if i.deadline ≤ s.cyc then resendItem core i s else s
    | none => s)

end Sys2Proof.Machine
end

