-- ==== Sys2Proof/Machine/Regs.lean ====
section
/-!
DEFINITION. Register writes under the access codes of R9, R11 and R489: the access paths (R453, R498), the order of writes
of one cycle (R454), reserved bits (R10, R452), locked and discarded fields, and the registers of the common layout that
have a rule of their own (R456, R458).
-/
namespace Sys2Proof.Machine

/-- Whether a requester's path reaches the register space (R453, R479, R482, R498): none does while the module is held in
its power-on reset. -/
def pathOpen (s : State) (req : Nat) : Bool :=
  if s.pins.poresetN = false ∨ s.pins.pwrgood = false then false
  else if req < 512 then s.flag (pgLane req) prtCfg_mgmtEn
  else if req = reqJtag then s.fld pgRennet rntStat_levels / 2 % 2 == 1
  else if req = reqPcie then s.pins.perstN
  else true

/-- An effect on the register space over a requester's path. -/
def onPath (req : Nat) (f : State → State) (s : State) : State := if pathOpen s req then f s else s

/-- A higher-numbered requester has written the register in this cycle, so this value does not remain (R454). -/
def lostRace (s : State) (req addr : Nat) : Bool := s.same.writes.any (fun w => w.1 == addr && decide (req < w.2))

/-- The turn of a write to a WO field (R454): the writes of one cycle act in ascending requester number, so one that comes after a
higher requester's write to the register begins the next cycle (assumption 8). -/
def woTurn (req addr : Nat) (s : State) : State := orNext (lostRace s req addr) s

def noteWrite (req addr : Nat) (s : State) : State :=
  { s with same := { s.same with writes := (addr, req) :: s.same.writes } }

/-- The bits of a register that some field covers. -/
def fieldsMask (fs : List FieldRow) : Nat := fs.foldl (fun m f => m ||| ((2 ^ f.fd.w - 1) <<< f.fd.l)) 0

/-- A non-zero write to a reserved bit or a reserved offset (R452, R456 cause 4). -/
def rsvWritten (fs : List FieldRow) (v : U64) : Bool := (v.toNat &&& fieldsMask fs) != v.toNat

/-- W1C bits of a register that hardware has set in this cycle (R11). -/
def setNow (s : State) (x : Loc) : Nat :=
  let page := if x.off = 0x20 ∧ x.kind.isWindow = false then x.base else x.base + x.off
  (s.same.evSet.filter (fun e => e.1 == page)).foldl (fun m e => m ||| 2 ^ e.2) 0

/-- One field of a write (R9, R489). -/
def writeField (lost : Bool) (x : Loc) (v : U64) (f : FieldRow) (s : State) : State :=
  let a := x.base + x.off
  let new := fieldOf v f.fd.l f.fd.w
  match f.acc with
  | .rw => if lost then s else s.wr a (withField (s.rd a) f.fd.l f.fd.w new)
  | .cnt => if new = 0 then s.wr a (withField (s.rd a) f.fd.l f.fd.w 0) else s
  | .w1c =>
    let clear := (new <<< f.fd.l) &&& (2 ^ 64 - 1 - setNow s x)
    s.wr a (s.rd a &&& BitVec.ofNat 64 (2 ^ 64 - 1 - clear))
  | .ro => s
  | .wo => s

/-- A write under the access codes, where the fields that `held` picks keep their values; one that would change such a
field is counted with cause 2, one with reserved bits set with cause 4. -/
def plainWrite (req : Nat) (x : Loc) (v : U64) (held : FieldRow → Bool) (s : State) : State :=
  let a := x.base + x.off
  let fs := x.fields
  let s1 := if rsvWritten fs v then errAt x 4 s else s
  let bad := fs.any (fun f => held f && f.acc == .rw && fieldOf v f.fd.l f.fd.w != fieldOf (s.rd a) f.fd.l f.fd.w)
  let s2 := if bad then errAt x 2 s1 else s1
  noteWrite req a (forAll (writeField (lostRace s req a) x v) (fs.filter (fun f => !held f)) (noteReg a s2))

/-- A whole write discarded by a rule. -/
def discardWrite (x : Loc) (s : State) : State := errAt x 2 s

/-- A refused command. -/
def refuseCmd (x : Loc) (s : State) : State := errAt x 3 s

/-- Location of a register of a page. -/
def pageLoc (kind : PKind) (inst base off : Nat) : Loc := ⟨kind, inst, base, off⟩

/-! ### The common layout (R456, R458) -/

/-- The events of a page of each kind, as a mask (R458). -/
def eventMask : PKind → Nat
  | .lane => 0x1FF
  | .press => 3
  | .vat => 3
  | .cellar => 0x3F
  | .hbm => 3
  | .rind => 3
  | .pwr => 7
  | .rennet => 7
  | .tally => 0xF
  | .twin => 0xF
  | .pcie => 7
  | .mgmt => 3
  | .i3c => 3
  | .xspi => 3
  | _ => 1

/-- A write to BLK_EV_TEST: each named event is set as it would be by itself. -/
def evTestWrite (x : Loc) (v : U64) (s : State) : State :=
  forAll (fun k s => if (v.toNat &&& eventMask x.kind) / 2 ^ k % 2 = 1 then raiseEv x.base k s else s) (List.range 9) s

/-- A write to BLK_ERR_CNT (R456): 0 clears every field, and what is counted in the same cycle counts again afterwards;
other writes are ignored. -/
def errCntWrite (x : Loc) (v : U64) (s : State) : State :=
  if v = 0 then
    let again := ((s.same.errs.filter (fun e => e.1 == x.base)).map (fun e => e.2)).sum
    let old := s.rd (x.base + 0x38)
    let s1 := noteReg (x.base + 0x38) s
    if again = 0 then s1.wr (x.base + 0x38) 0 else s1.wr (x.base + 0x38) (withField old 0 32 again)
  else s

/-- The location of a page's register by the page's BAR address; `none` where no present page lies. -/
def presentLoc (s : State) (addr : Nat) : Option Loc :=
  match locate addr with
  | some x => if present s.fuses x.kind x.inst then some x else none
  | none => none

/-- A narrower or unaligned access counts in BLK_ERR_CNT of the page (R12). -/
def narrowAccess (addr : Nat) (s : State) : State :=
  match presentLoc s addr with
  | some x => errAt x 1 s
  | none => s

/-- UNALIGNED_ACCESS (R12): the write is discarded, the read answers 0; counted in BLK_ERR_CNT of the page. -/
def execUnalignedAccess (req addr size : Nat) (isWrite : Bool) (s : State) : Result :=
  .next (onPath req (fun s =>
    if size = 8 ∧ addr % 8 = 0 then s
    else
      let s1 := narrowAccess addr s
      if isWrite then s1 else s1.emit (.readData req addr 0)) s)

/-- ERR_CNT_CLEAR (R456). -/
def execErrCntClear (req page : Nat) (s : State) : Result :=
  .next (onPath req (fun s =>
    match presentLoc s (page + 0x38) with
    | some x => if x.kind.isWindow then s else errCntWrite x 0 s
    | none => s) s)

/-- EVENT_TEST (R456). -/
def execEventTest (req page : Nat) (v : U64) (s : State) : Result :=
  .next (onPath req (fun s =>
    match presentLoc s (page + 0x30) with
    | some x => if x.kind.isWindow then s else evTestWrite x v s
    | none => s) s)

end Sys2Proof.Machine
end

