-- ==== Sys2Proof/Machine/Group.lean ====
section
/-!
DEFINITION. The group table: writes to a group's registers and their locked fields (R147, R299), enabling and scope
validation (R123, R158, R160, R493), disabling (R147), GRP_CMD (R149), epochs and their boundaries (R156, R157, R160, R161),
release epochs (R161) and the migration of a group's home (R178, R179).
-/
namespace Sys2Proof.Machine

/-! ### Register writes -/

/-- The fields of a group's registers that keep their values while the group is enabled (R147). -/
def lockedFds : List Fd :=
  [grpCfg_esrc, grpCfg_accum, grpCfg_accFmt, grpCfg_spfmt, grpCfg_homeQd, grpCfg_nM1, grpLink_parentFid,
    grpLink_wCredits, grpScope_scopeBase, grpScope_scopeLen, grpSync_resKeep, grpSync_accBlocks, grpEpoch_curEpoch,
    grpHbm_spillPg, grpHbm_auxPg]

def grpHeld (s : State) (g : Nat) (f : FieldRow) : Bool := grpFlag s g grpCfg_enabled && lockedFds.contains f.fd

/-- Remember the latched fields as they stood before this cycle's first write (R116). -/
def noteLatch (g : Nat) (s : State) : State :=
  if s.same.oldLatch.any (fun x => x.1 == g) then s
  else { s with same := { s.same with oldLatch := (g, latchNow s g) :: s.same.oldLatch } }

/-- A warm-mirror primary mirrors a write to a Twin group's registers (R372). -/
def mirrorCfg (g addr : Nat) (v : U64) (s : State) : State :=
  if warmPrimary s g then twinSend kCfg (leBytes 4 addr ++ leBytes 4 0 ++ leBytes 8 v.toNat) s else s

/-- Scope validation starts (R123): the configuration is judged first, and one entry is read per 2.0 GHz cycle, with the table's
place and the fields that judge it as they stand now (R493; DESIGN CHOICE, assumption 112). -/
def startValidation (g : Nat) (s : State) : State :=
  let v : Scan := { qd := grpF s g grpCfg_homeQd, base := grpF s g grpScope_scopeBase, len := grpF s g grpScope_scopeLen,
                    n := groupN s g, root := isRoot s g, start := s.cyc, seen := [] }
  s.updGrp g (fun x => { x with validAt := some (s.cyc + v.len), cfgBad := configBad s g, scan := some v })

/-- A write to GRP_CFG after its fields have taken it: what enable = 1 and enable = 0 do (R123, R147). A write of 0 while
validation runs abandons it (DESIGN CHOICE, assumption 93). A home in an absent quadrant is answered ABSENT at the write that
enables the group and not at the write of home_qd (DESIGN CHOICE, assumption 101). -/
def enableEffect (req g : Nat) (s : State) : State :=
  if grpFlag s g grpCfg_enable then
    if grpFlag s g grpCfg_enabled then s
    else if quadPresent s.fuses (grpF s g grpCfg_homeQd) then startValidation g s
    else absentCmd req s
  else groupStop g (s.updGrp g (fun x => { x with validAt := none, scan := none, settles := [] }))

/-- A write that lowers sram_bufs below the partials in SRAM bars new slots until these have fallen below it (R134). -/
def sramLowered (g old : Nat) (s : State) : State :=
  let new := grpF s g grpQuota_sramBufs
  if new < old ∧ new < sramParts s g then s.updGrp g (fun x => { x with sramHold := true }) else sramNote g s

/-- A write to a register of entry `g` of the group table. -/
def grpWrite (req g off : Nat) (v : U64) (s : State) : State :=
  let x : Loc := pageLoc .wGrp g (grpAt g) off
  let s1 := plainWrite req x v (grpHeld s g) (noteLatch g s)
  let s2 := if off = 0 then enableEffect req g s1
    else if off = grpQuota_sramBufs.off then sramLowered g (grpF s g grpQuota_sramBufs) s1 else s1
  mirrorCfg g (grpAt g + off) v s2

/-- A write to GRP_MASK: discarded while the group is enabled (R299), mirrored all the same (R372). -/
def maskWrite (req g : Nat) (v : U64) (s : State) : State :=
  let x : Loc := pageLoc .wMask g (maskAt g) 0
  mirrorCfg g (maskAt g) v
    (if grpFlag s g grpCfg_enabled then discardWrite x s else plainWrite req x v (fun _ => false) s)

/-! ### Enabling -/

/-- Record a failure of an enable (R123, R463, R493). -/
def scopeFailed (g i c : Nat) (s : State) : State :=
  let pg := pgPress (homePress s g)
  let s1 := raiseEv pg 1 (reportOwnOpen clsPrsScope (repPress (homePress s g)) s)
  if s1.flag pg prsScopeErr_valid then s1
  else
    let s2 := ((s1.setFld pg prsScopeErr_group g).setFld pg prsScopeErr_index (min i 0x3FFFF)).setFld pg
      prsScopeErr_check c
    let s3 := s2.setFld pg prsScopeErr_valid 1
    { s3 with same := { s3.same with evSet := (pg + 0x100, 33) :: s3.same.evSet } }

/-- The group becomes enabled: its age is 0 (R158) and, in ACCUM mode, its accumulator starts again (R160). -/
def groupEnabled (g : Nat) (s : State) : State :=
  let s1 := (s.updGrp g (fun x => { x with ageStart := s.aon })).setFld (grpAt g) grpCfg_enabled 1
  if grpFlag s g grpCfg_accum then accRestart g 0 s1 else s1

/-- What the validation finds: check 7 before the table (R493), else the table's own first failure. -/
def groupFailure (s : State) (g : Nat) : Option (Nat × Nat) :=
  if (s.grp g).cfgBad then some (0, 7)
  else
    match (s.grp g).scan with
    | some v => scopeFailure v.n v.root ((scanNow s v).seen.map scopeWord)
    | none => none

/-- The words of the table that the validation read with wrong parity are reported (R345). -/
def scanParity (g : Nat) (s : State) : State :=
  match (s.grp g).scan with
  | some v => if (s.grp g).cfgBad = false ∧ upsetIn s v.qd v.base (8 * v.len) then upsetRead v.qd v.base s else s
  | none => s

/-- SCOPE_VALIDATION_DONE (R123): once a cycle for each entry has passed. -/
def execScopeValidationDone (group : Nat) (s : State) : Result :=
  .next (match (s.grp group).validAt with
    | some t =>
      if t ≤ s.cyc then
        let s1 := (scanParity group s).updGrp group (fun x => { x with validAt := none, scan := none })
        match groupFailure s group with
        | some (i, c) => scopeFailed group i c s1
        | none => groupEnabled group s1
      else s
    | none => s)

/-- GROUP_ENABLE (R123): a write to GRP_CFG with enable = 1. -/
def execGroupEnable (req group : Nat) (v : U64) (s : State) : Result :=
  .next (if fieldOf v 0 1 = 1 then onPath req (grpWrite req group 0 v) s else s)

/-- GROUP_DISABLE (R147): a write to GRP_CFG with enable = 0. -/
def execGroupDisable (req group : Nat) (v : U64) (s : State) : Result :=
  .next (if fieldOf v 0 1 = 0 then onPath req (grpWrite req group 0 v) s else s)

/-! ### Epochs -/

/-- Block `b` settles at epoch `e` with one more missing (R160). Its tag is read in bulk class (R353): a pseudo-channel in SLATE
wakes first and the block waits (R28, R355). A tag that cannot be read counts as R350 says (DESIGN CHOICE, assumption 118). -/
def settleBlock (g : Nat) (x : Nat × Nat) (s : State) : State :=
  let h := grpF s g grpCfg_homeQd
  let off := tagOff s g x.2
  match hbmAsk s h off 4 with
  | .asleep => (hbmWake h off 4 s).updGrp g (fun y => { y with settles := y.settles ++ [x] })
  | .refused => clearAcc g x.2 s
  | .beyond => clearAcc g x.2 (refusePage h (repPress (homePress s g)) s)
  | .ready =>
    let s1 := hbmMoved .bulk h off 4 s
    if tagSettled s g x.2 = x.1 then s1 else setTag g x.2 x.1 (tagMissing s g x.2 + 1) s1

/-- Blocks of the group that wait to settle do so in order, as far as their pseudo-channels are awake. -/
def settleWaiting (g : Nat) (s : State) : State :=
  forAll (settleBlock g) (s.grp g).settles (s.updGrp g (fun x => { x with settles := [] }))

/-- The blocks of the groups that have some waiting are tried again: at a wake, and in every cycle without a command. -/
def settleAll (s : State) : State :=
  forAll (fun (x : Nat × Grp) s => if x.2.settles.isEmpty then s else settleWaiting x.1 s) s.grps s

/-- Blocks of an ACCUM root that the closed epoch `e` left unsettled settle, after those that still wait (R160). -/
def settleBlocks (g e : Nat) (s : State) : State :=
  let open_ := fun b => s.slots.any (fun x => x.k.group == g && x.k.epoch == e && x.k.block == b)
  let new := ((List.range (grpF s g grpSync_accBlocks)).filter (fun b => !open_ b)).map (fun b => (e, b))
  settleWaiting g (s.updGrp g (fun x => { x with settles := x.settles ++ new }))

/-- The home moves: home_qd, pgen and mig_busy change in one cycle, and the retention ring at the new home starts empty
(R178, R179). -/
def moveHome (g q : Nat) (s : State) : State :=
  let old := grpF s g grpCfg_homeQd
  let s1 := (s.setFld (grpAt g) grpCfg_homeQd q).setFld (grpAt g) grpCfg_pgen ((grpF s g grpCfg_pgen + 1) % 16)
  let s2 := s1.setFld (grpAt g) grpCfg_migBusy 1
  let s3 := s2.updGrp g (fun x => { x with mig := .draining old, oldRet := x.oldRet ++ x.ret, ret := [], retPos := 0 })
  let s4 := if grpFlag s g grpCfg_accum then accRestart g 0 s3 else s3
  migrateEnd g s4

/-- Twin digests of the epoch before the closed one leave the table (R370). -/
def dropDigests (g e : Nat) (s : State) : State :=
  let old := fun (d : Key × Nat) => d.1.group == g && d.1.epoch == (e + 65535) % 65536
  let n := (s.twin.digests.filter old).length
  if n = 0 then s
  else ({ s with twin := { s.twin with digests := s.twin.digests.filter (fun d => !old d) } }).addFld pgTwin
    twnCnt_late n

/-- The registers of GRP_EPOCH at a boundary (R157, R161). -/
def epochAdvance (g : Nat) (s : State) : State :=
  let a := grpAt g
  let e := grpF s g grpEpoch_curEpoch
  let pc := if grpFlag s g grpEpoch_relCur then 0 else satAdd 16 (grpF s g grpEpoch_periodCount) 1
  let per := grpF s g grpLink_accPeriod
  let rel := grpFlag s g grpEpoch_relNext || (decide (0 < per) && decide (per - 1 ≤ pc))
  let s1 := ((s.setFld a grpEpoch_curEpoch ((e + 1) % 65536)).setFld a grpEpoch_earlyPending 0).setFld a grpEpoch_relNext 0
  let s2 := (s1.setFld a grpEpoch_relCur (bit01 rel)).setFld a grpEpoch_periodCount pc
  let rels := ((s.grp g).rels.filter (fun r => r != e && (groupSlots s g).any (fun x => x.k.epoch == r)))
    ++ (if grpFlag s g grpEpoch_relCur then [e] else [])
  s2.updGrp g (fun x => { x with ageStart := s.aon, lastBoundary := some s.aon, rels := rels })

/-- An input of the group has been judged in this cycle: it would have to meet the new epoch (R157). -/
def inputsNow (s : State) (g : Nat) : Bool :=
  s.same.acts.any (fun a => match a.1 with | .input k => k.group == g | _ => false)

/-- An epoch boundary of a group (R157, R160, R161, R370, R372, R178). -/
def boundary (g : Nat) (s0 : State) : State :=
  let s := orNext (inputsNow s0 g) s0
  let e := grpF s g grpEpoch_curEpoch
  let wasRel := grpFlag s g grpEpoch_relCur
  let short := (groupSlots s g).filter (fun x => x.k.epoch == e && decide (0 < clearBits s x))
  let s1 := epochAdvance g s
  let s2 := forAll (fun x s => abortSlot x stMissing (clearBits s x) s) short s1
  let s3 := if grpFlag s g grpCfg_accum && isRoot s g then settleBlocks g e s2 else s2
  let s4 := dropDigests g e s3
  let s5 := if warmPrimary s g then twinSend kEpoch (leBytes 2 g ++ leBytes 2 ((e + 1) % 65536) ++ leBytes 4 0 ++ leBytes 8 0) s4
    else s4
  match (s5.grp g).mig with
  | .awaitRelease q => if wasRel then moveHome g q s5 else s5
  | _ => s5

/-- What a boundary at epoch_max has added to GRP_CNT.timeout in this cycle, if it made one. -/
def expiredNow (s : State) (g : Nat) : Option Nat := (s.same.acts.find? (fun a => a.1 == .expired g)).map (fun a => a.2)

/-- A request came by a = epoch_max after all, in the cycle in which the limit had already made the boundary: the boundary is the
request's, and it counts as no timeout (R156). -/
def requestCame (g : Nat) (s : State) : State :=
  match expiredNow s g with
  | some n =>
    let s1 := s.setFld pgGrp grpCnt_timeout (s.fld pgGrp grpCnt_timeout - n)
    { s1 with same := { s1.same with acts := s1.same.acts.filter (fun a => a.1 != .expired g) } }
  | none => s

/-- A boundary request (R156); requests of one 40 ns count make one boundary. -/
def boundaryRequest (g : Nat) (s : State) : State :=
  if (s.grp g).lastBoundary = some s.aon then requestCame g s
  else if groupAge s g < epochMin s then
    (s.addFld pgGrp grpCnt_early 1).setFld (grpAt g) grpEpoch_earlyPending 1
  else boundary g s

/-- The enabled groups whose boundaries SYNC_IN requests (R156). -/
def esrcGroups (s : State) : List Nat :=
  (listedGroups s).filter (fun g => grpFlag s g grpCfg_enabled && grpFlag s g grpCfg_esrc)

/-- The location of GRP_CMD. -/
def locGrpCmd : Loc := pageLoc .grpctl 0 pgGrp 0x100

/-- GRP_CMD (R149): a command for a disabled group, or with another code, is ignored and counted, and a MIGRATE that names an absent
quadrant is then not answered ABSENT (DESIGN CHOICE, assumption 101). A MIGRATE that R178 accepts while an earlier one copies, or
waits for its boundary, takes its place (DESIGN CHOICE, assumption 140). -/
def grpCmd (req g cmd qd : Nat) (s : State) : State :=
  if grpFlag s g grpCfg_enabled = false then refuseCmd locGrpCmd s
  else if cmd = 1 then boundaryRequest g s
  else if cmd = 2 then s.setFld (grpAt g) grpEpoch_relNext 1
  else if cmd = 3 then
    if quadPresent s.fuses qd = false then absentCmd req s
    else if grpFlag s g grpCfg_migBusy ∨ qd = grpF s g grpCfg_homeQd then refuseCmd locGrpCmd s
    else s.updGrp g (fun x => { x with mig := .copying qd })
  else refuseCmd locGrpCmd s

/-- A write to the group-table control page (R149). -/
def grpCtlWrite (req off : Nat) (v : U64) (s : State) : State :=
  let x : Loc := pageLoc .grpctl 0 pgGrp off
  if off = 0x100 then
    grpCmd req (fieldOf v 0 12) (fieldOf v 12 4) (fieldOf v 16 2)
      (plainWrite req x v (fun _ => false) (woTurn req (pgGrp + 0x100) s))
  else plainWrite req x v (fun _ => false) s

/-- A command of GRP_CMD as the word that is written. -/
def grpWord (group cmd qd : Nat) : U64 := BitVec.ofNat 64 (group % 4096 + 4096 * (cmd % 16) + 65536 * (qd % 4))

def grpRow (req group cmd qd : Nat) (s : State) : Result :=
  .next (onPath req (grpCtlWrite req 0x100 (grpWord group cmd qd)) s)

/-- EPOCH_CLOSE (R156). -/
def execEpochClose (req group : Nat) (s : State) : Result := grpRow req group 1 0 s

/-- ACCUM_RELEASE (R161). -/
def execAccumRelease (req group : Nat) (s : State) : Result := grpRow req group 2 0 s

/-- MIGRATE (R178). -/
def execMigrate (req group qd : Nat) (s : State) : Result := grpRow req group 3 qd s

/-- The scope table goes to the same offset of the new home's slice: a word of wrong parity is counted (R345), and a write
into another enabled group's table is discarded (R125). -/
def copyScope (g q : Nat) (s : State) : State :=
  let h := grpF s g grpCfg_homeQd
  let base := grpF s g grpScope_scopeBase
  let n := 8 * grpF s g grpScope_scopeLen
  let s1 := if upsetIn s h base n then upsetRead h base s else s
  openWrite q base (repCellar q) 0 (rdBytes s (spCellar h) base n) s1

/-- The rank map goes to the same pages of the new home's stacks in bulk class; what a stack refuses is not copied
(R348, R377; assumption 94). -/
def copyRanks (g q : Nat) (s : State) : State :=
  let h := grpF s g grpCfg_homeQd
  let rank := pageAddr (auxRankPg s g)
  let n := 4 * groupN s g
  match hbmAsk s h rank n with
  | .ready => hbmPut .bulk q rank (rdBytes s (spHbm h) rank n) (repCellar q) (hbmMoved .bulk h rank n s)
  | .beyond => refusePage h (repCellar h) s
  | _ => s

/-- MIGRATE_COPY_DONE (R178): the scope table and the rank map stand at the same offsets in the new home, once the
pseudo-channels that hold the rank map have woken (R355). -/
def execMigrateCopyDone (group : Nat) (s : State) : Result :=
  .next (match (s.grp group).mig with
    | .copying q =>
      let h := grpF s group grpCfg_homeQd
      let rank := pageAddr (auxRankPg s group)
      if hbmAsk s h rank (4 * groupN s group) = .asleep then hbmWake h rank (4 * groupN s group) s
      else
        let s2 := copyRanks group q (copyScope group q s)
        if grpFlag s group grpCfg_accum then s2.updGrp group (fun x => { x with mig := .awaitRelease q })
        else moveHome group q s2
    | _ => s)

/-- DEFERRED_BOUNDARY (R156): the age reaches epoch_min with early_pending set. -/
def execDeferredBoundary (group : Nat) (s : State) : Result :=
  .next (if grpFlag s group grpCfg_enabled ∧ grpFlag s group grpEpoch_earlyPending ∧ epochMin s ≤ groupAge s group then
      boundary group s else s)

/-- The count in which the age is epoch_max ends, or has ended, without a request: a request of that count makes the
boundary instead (R156). -/
def expired (s : State) (g : Nat) : Bool :=
  decide (epochMax s < groupAge s g) || (decide (epochMax s ≤ groupAge s g) && s.cyc % 80 == 79)

/-- EPOCH_MAX_TIMEOUT (R156): the age reaches epoch_max without a request. -/
def execEpochMaxTimeout (group : Nat) (s : State) : Result :=
  .next (if grpFlag s group grpCfg_enabled ∧ expired s group then
      let s1 := s.addFld pgGrp grpCnt_timeout 1
      boundary group (noteAct (.expired group) (s1.fld pgGrp grpCnt_timeout - s.fld pgGrp grpCnt_timeout) s1)
    else s)

end Sys2Proof.Machine
end

