-- ==== Sys2Proof/Machine/Chain.lean ====
section
/-!
DEFINITION. The triggered-chain engine of a quadrant (R175, R176, R497): descriptors in the chain store, SEND and INCR, and
the completion of a descriptor.
-/
namespace Sys2Proof.Machine

def chainStore : Nat := 0x80000

/-- A chain descriptor as four words (R175). -/
structure Desc where
  w0 : Nat
  w1 : Nat
  w2 : Nat
  w3 : Nat
deriving DecidableEq, Repr

def descOff (d : Nat) : Nat := chainStore + 32 * (d % 4096)

def readDesc (s : State) (q d : Nat) : Desc :=
  let w := fun i => rdLe s (spCellar q) (descOff d + 8 * i) 8
  ⟨w 0, w 1, w 2, w 3⟩

def Desc.op (d : Desc) : Nat := bitsOf d.w0 0 4
def Desc.next (d : Desc) : Nat := bitsOf d.w0 4 12
def Desc.doneSync (d : Desc) : Nat := bitsOf d.w0 16 16
def Desc.doneEn (d : Desc) : Bool := bitsOf d.w0 32 1 == 1
def Desc.buf (d : Desc) : Nat := bitsOf d.w1 0 27
def Desc.len (d : Desc) : Nat := bitsOf d.w1 27 13
def Desc.target (d : Desc) : Nat := bitsOf d.w2 0 16
def Desc.amount (d : Desc) : Nat := bitsOf d.w2 16 32

/-- A bit of a reserved range is set (R497). -/
def Desc.rsvSet (d : Desc) : Bool :=
  bitsOf d.w0 33 31 != 0 || bitsOf d.w1 40 24 != 0 || bitsOf d.w2 48 16 != 0 || d.w3 != 0

/-- The packet image of a SEND. -/
def sendImage (s : State) (q : Nat) (d : Desc) : Packet := parsePacket (rdBytes s (spCellar q) d.buf d.len)

/-- Whether a SEND may run (R336, R497). -/
def sendOk (s : State) (q : Nat) (d : Desc) : Bool :=
  let p := sendImage s q d
  d.buf % 64 == 0 && decide (32 ≤ d.len) && decide (d.len ≤ 4160) && decide (openBase ≤ d.buf)
    && decide (d.buf + d.len ≤ openEnd s q) && d.len == pktBytes p
    && !(p.ptype == ptCnode || p.ptype == ptCresult || p.ptype == ptLctl)

def dropChain (id : Nat) (s : State) : State := { s with chains := s.chains.filter (fun c => c.id != id) }

/-- A reserved op or a refused descriptor stops the chain and raises CHAIN_OP (R175, R497). -/
def chainOp (c : Chain) (s : State) : State := raiseEv (pgCellar c.qd) 1 (dropChain c.id s)

/-- Send a chain's image: src, seq and e2e_crc are filled in, every other field is as written (R176). -/
def chainSend (c : Chain) (p : Packet) (s : State) : State :=
  let (q, s1) := sealPacket p s
  let s2 := enqueue (repChain c.qd) p.vc (.jfp q) (.chain c.id) none s1
  { s2 with chains := s2.chains.map (fun x => if x.id = c.id then { x with sending := true } else x) }

/-- The slice offset at which a chain meets a word of wrong parity: its descriptor, or the image of a SEND. -/
def chainUpset (s : State) (c : Chain) (d : Desc) : Option Nat :=
  if upsetIn s c.qd (descOff c.desc) 32 then some (descOff c.desc)
  else if d.op = 1 ∧ upsetIn s c.qd d.buf d.len then some d.buf
  else none

/-- A hard parity error stops the chain at its descriptor (R345). -/
def chainStop (c : Chain) (off : Nat) (s : State) : State := upsetRead c.qd off (dropChain c.id s)

/-- Run a chain from its descriptor until a SEND is under way or the chain ends; the fuel bounds the descriptors of one
command (assumption 22). -/
def chainRun : Nat → Chain → State → State
  | 0, c, s => { s with chains := s.chains.map (fun x => if x.id = c.id then c else x) }
  | fuel + 1, c, s =>
    let d := readDesc s c.qd c.desc
    match chainUpset s c d with
    | some off => chainStop c off s
    | none =>
    if d.rsvSet then chainOp c s
    else if d.op = 1 then
      if sendOk s c.qd d then
        chainSend c (sendImage s c.qd d) { s with chains := s.chains.map (fun x => if x.id = c.id then c else x) }
      else chainOp c s
    else if d.op = 2 then
      let s1 := syncIncr d.target d.amount (repChain c.qd) s
      let s2 := syncIncrIf d.doneEn d.doneSync 1 (repChain c.qd) s1
      if d.next = 0xFFF then dropChain c.id s2 else chainRun fuel { c with desc := d.next } s2
    else chainOp c s

/-- The descriptor of a chain completes: its done_sync, then the next descriptor (R176), both of the descriptor as it stands at the
completion (DESIGN CHOICE, assumption 142). -/
def chainDone (c : Chain) (s : State) : State :=
  let d := readDesc s c.qd c.desc
  let s1 := syncIncrIf d.doneEn d.doneSync 1 (repChain c.qd) s
  if d.next = 0xFFF then dropChain c.id s1 else chainRun 4096 { c with desc := d.next, sending := false } s1

/-- The packet of a chain's SEND is still on its way to a replay store. -/
def chainPending (s : State) (id : Nat) : Bool :=
  s.waiting.any (fun w => w.org == .chain id)
    || s.ports.any (fun p => p.2.egress.any (fun e => e.org == .chain id) || p.2.copying.any (fun e => e.org == .chain id))

/-- CHAIN_START (R176): the next start of the quadrant's queue, while fewer than 256 chains run. -/
def execChainStart (qd : Nat) (par : Parity) (s : State) : Result :=
  .next (match s.chainQ.find? (fun x => x.1 == qd) with
    | none => s
    | some x =>
      if 256 ≤ (s.chains.filter (fun c => c.qd == qd)).length then s
      else
        let c : Chain := ⟨s.nextChain, qd, x.2, false⟩
        let s1 := { s with chainQ := s.chainQ.erase x, chains := s.chains ++ [c], nextChain := s.nextChain + 1 }
        let s2 := retryFires s1.fires (countParity qd par s1)
        if par = .hard then parHardEvent qd (descOff x.2) (dropChain c.id s2) else chainRun 4096 c s2)

/-- CHAIN_SEND_DONE (R176): the packet of a SEND is in the replay store or was discarded. -/
def execChainSendDone (chain : Nat) (s : State) : Result :=
  .next (match s.chains.find? (fun c => c.id == chain) with
    | none => s
    | some c =>
      if c.sending then (if chainPending s chain then s else chainDone c s) else chainRun 4096 c s)

end Sys2Proof.Machine
end

