-- ==== Sys2Proof/Machine/Traffic.lean ====
section
/-!
DEFINITION. Traffic control of 10_traffic_control.md beside the scheduler: the charged length and send time of a packet
(R314, R318), shapers (R316, R317), time gates (R319 to R324), meters (R325 to R328), and the registers of R333 that
have a rule of their own. SYNC_IN reaches gates and epochs from here (R156, R320, R324, R486).
-/
namespace Sys2Proof.Machine

/-! ### Lanes and ports (R460) -/

/-- The port that exists and holds lane `l`. -/
def portOf (s : State) (l : Nat) : Option Nat :=
  [l, l / 2 * 2, l / 4 * 4, l / 8 * 8].find? (fun p => (s.port p).formed && decide (l < p + (s.port p).w))

/-- A lane whose page is a member page. -/
def isMember (s : State) (l : Nat) : Bool :=
  match portOf s l with
  | some p => p != l
  | none => false

/-- A write to a block-specific register of a lane page: nothing where the lane is absent (R6), discarded and counted in a
member page (R460). -/
def laneWrite (l off : Nat) (f : Loc → State → State) (s : State) : State :=
  let x := pageLoc .lane l (pgLane l) off
  if lanePresent s.fuses l = false then s
  else if isMember s l then discardWrite x s
  else f x s

/-- Lanes that stripe now (R387, R416). -/
def striping (x : Port) : Nat := x.w - (x.parkedLanes.length + (x.dropped.filter (fun l => !x.parkedLanes.contains l)).length)

/-! ### Lengths (R314, R318) -/

def ovhOf (s : State) (p : Nat) : Nat :=
  if (s.port p).eth then lookFld s (pgLane p) prtSched_ovhEth else lookFld s (pgLane p) prtSched_ovhNat

/-- Send time in cycles of a charged length on a port of `w` lanes. -/
def sendTime (charged w : Nat) : Nat := ceilDiv (2 * charged) (25 * max 1 w)

/-- The largest send time of a port. -/
def tMax (s : State) (p : Nat) : Nat :=
  sendTime ((if (s.port p).eth then 9216 else 4160) + ovhOf s p) (s.port p).w

/-! ### Shapers -/

/-- The token count at cycle `now`. -/
def shaperAt (rate burst now : Nat) (x : Shaper) : Shaper :=
  if rate = 0 then ⟨0, now⟩
  else if now ≤ x.at_ then x
  else ⟨min (x.t + (rate * (now - x.at_) : Nat)) (burst * 2000 : Nat), now⟩

def shaperRate (s : State) (p t : Nat) : Nat := lookFld s (pgLane p + 8 * t) prtShape_rate
def shaperBurst (s : State) (p t : Nat) : Nat := lookFld s (pgLane p + 8 * t) prtShape_burst

def shaperNow (s : State) (p t : Nat) : Shaper :=
  shaperAt (shaperRate s p t) (shaperBurst s p t) s.cyc (at0 ⟨0, 0⟩ (s.port p).shaper t)

def setShaper (p t : Nat) (x : Shaper) (s : State) : State :=
  s.updPort p (fun y => { y with shaper := y.shaper.set t x })

/-- `shaper_send`: a packet of the class starts. -/
def shaperSend (p t charged : Nat) (s : State) : State :=
  let x := shaperNow s p t
  if shaperRate s p t = 0 then setShaper p t x s
  else setShaper p t { x with t := x.t - (charged * 2000 : Nat) } s

/-- A write to PRT_SHAPE t acts from the next cycle on: the tokens of this one come from the old values (R317). -/
def shapeWrite (req p t : Nat) (v : U64) (s : State) : State :=
  laneWrite p (0x280 + 8 * t) (fun x s =>
    plainWrite req x v (fun _ => false) (noteReg (x.base + x.off) (setShaper p t (shaperNow s p t) s))) s

/-- A write to PRT_SCHED, PRT_QUANTUM or PRT_METER acts from the next cycle on (R333). -/
def schedWrite (req p off : Nat) (v : U64) (s : State) : State :=
  laneWrite p off (fun x s => plainWrite req x v (fun _ => false) (noteReg (x.base + x.off) s)) s

/-! ### Gate control lists -/

/-- The gate cycle's start is kept with 2^31 added, so that it can lie before cycle 0. -/
def gateBias : Nat := 2 ^ 31

def gateOn (s : State) (p : Nat) : Bool := s.flag (pgLane p) prtGateCfg_gateOn

/-- The gate control was given up in this cycle: its list still holds until the next (R321). -/
def gateLingers (s : State) (p : Nat) : Bool :=
  !gateOn s p && (s.port p).gateEnd.isSome && decide (s.cyc + gateBias < (s.port p).gateStart)

/-- A field of the list: as it stood before this cycle's writes where the list has been given up in this cycle. -/
def gclFld (s : State) (p base : Nat) (f : Fd) : Nat := if gateLingers s p then lookFld s base f else s.fld base f

def gclOpen (s : State) (p i : Nat) : Nat := gclFld s p (pgLane p + 8 * i) prtGcl_open
def gclInterval (s : State) (p i : Nat) : Nat := gclFld s p (pgLane p + 8 * i) prtGcl_interval
def gclLen (s : State) (p : Nat) : Nat := gclFld s p (pgLane p) prtGateCfg_lenM1 + 1

/-- The list as (mask, interval) pairs. -/
def gateList (s : State) (p : Nat) : List (Nat × Nat) :=
  (List.range (gclLen s p)).map (fun i => (gclOpen s p i, gclInterval s p i))

/-- Nominal length Tc of the gate cycle. -/
def gateTc (s : State) (p : Nat) : Nat := ((gateList s p).map (fun x => x.2)).sum

/-- The longest run of `true` entries, by length. -/
def longestRun : Nat → Nat → List (Bool × Nat) → Nat
  | cur, best, [] => max cur best
  | cur, best, (o, n) :: r => if o then longestRun (cur + n) best r else longestRun 0 (max cur best) r

/-- The longest open run of class `t`, counted cyclically, the last entry shortened by shift_max (R319). -/
def openRun (l : List (Nat × Nat)) (shift t : Nat) : Nat :=
  let n := l.length
  let xs := l.zipIdx.map (fun x => (x.1.1 / 2 ^ t % 2 == 1, if x.2 + 1 = n then x.1.2 - shift else x.1.2))
  if xs.all (fun x => x.1) then (xs.map (fun x => x.2)).sum else longestRun 0 0 (xs ++ xs)

/-- The index of the first entry where the running sum reaches 2^31. -/
def sumIndex : Nat → Nat → List (Nat × Nat) → Option Nat
  | _, _, [] => none
  | i, a, x :: r => if 2 ^ 31 ≤ a + x.2 then some i else sumIndex (i + 1) (a + x.2) r

/-- The first check of R319 that fails: `some (some i)` at entry i, `some none` where no single entry fails. -/
def gateCheck (s : State) (p : Nat) : Option (Option Nat) :=
  let l := gateList s p
  let shift := s.fld (pgLane p) prtGateCfg_shiftMax
  match l.zipIdx.find? (fun x => x.1.2 == 0) with
  | some x => some (some x.2)
  | none =>
    match sumIndex 0 0 l with
    | some i => some (some i)
    | none =>
      if (l.getLastD (0, 0)).2 ≤ shift then some (some (l.length - 1))
      else if gateTc s p ≤ s.fld (pgLane p) prtGateSync_syncOff then some none
      else if (List.range 8).any (fun t => decide (openRun l shift t < tMax s p)) then some none
      else none

/-- Interval of entry `i` in the present gate cycle: the last one carries step_cur (R324). -/
def entryLen (s : State) (p i : Nat) (step : Int) : Nat :=
  if i + 1 = gclLen s p then ((gclInterval s p i : Int) + step).toNat else gclInterval s p i

/-- The entry that holds position `x` of a cycle, and where it ends. -/
def entryAt : Nat → Nat → Nat → List (Nat × Nat) → Nat × Nat
  | i, a, _, [] => (i - 1, a)
  | i, a, x, e :: r => if x < a + e.2 then (i, a + e.2) else entryAt (i + 1) (a + e.2) x r

/-- Start the list with position `pos` of the cycle at cycle `at_` (R320). -/
def gateStartAt (p pos at_ : Nat) (s : State) : State :=
  let (i, e) := entryAt 0 0 pos (gateList s p)
  (s.setFld (pgLane p) prtGateCfg_gateOn 1).updPort p (fun x =>
    { x with gateIdx := i, gateEnd := some (at_ + e - pos), gateStart := at_ + gateBias - pos, gateArmed := false,
             stepCur := 0, gatePend := 0 })

/-- Validate the list and start it, or raise GATE_INVALID with the failing index (R319, R320; assumption 23). -/
def gateValidate (p : Nat) (s : State) : State :=
  match gateCheck s p with
  | none =>
    if s.flag (pgLane p) prtGateCfg_syncEn then s.updPort p (fun x => { x with gateArmed := true })
    else gateStartAt p 0 (s.cyc + 1) s
  | some (some i) => raiseEv (pgLane p) 7 (s.setFld (pgLane p) prtGateCfg_badIdx i)
  | some none =>
    let d := s.draw
    raiseEv (pgLane p) 7 (d.2.setFld (pgLane p) prtGateCfg_badIdx (d.1.toNat % 256))

/-- A write to sync_off or to the gate list: discarded while gate_en is 1 (R321). -/
def gateDataWrite (req p off : Nat) (v : U64) (s : State) : State :=
  laneWrite p off (fun x s =>
    if s.flag (pgLane p) prtGateCfg_gateEn then discardWrite x s else plainWrite req x v (fun _ => false) s) s

/-- Whether the list's masks apply now (R320, R321). -/
def gatesApply (s : State) (p : Nat) : Bool :=
  let x := s.port p
  if gateOn s p then decide (x.gateStart ≤ s.cyc + gateBias ∨ 0 < x.gateIdx) else gateLingers s p

/-- Time that entries from `i` on stay open for class `t`, for at most `n` entries. -/
def openAhead (s : State) (p t : Nat) : Nat → Nat → Nat
  | 0, _ => 0
  | n + 1, i =>
    if gclOpen s p i / 2 ^ t % 2 = 1 then gclInterval s p i + openAhead s p t n ((i + 1) % gclLen s p) else 0

/-- Time that remains in the class's open run, by the intervals scheduled now (R322): entries of the present cycle, then of
the next; a run without an end admits every packet. -/
def runLeft (s : State) (p t : Nat) : Option Nat :=
  let x := s.port p
  let n := gclLen s p
  if (gateList s p).all (fun e => e.1 / 2 ^ t % 2 == 1) then none
  else
    let here := x.gateEnd.getD s.cyc - s.cyc
    let ahead := openAhead s p t (n - 1) ((x.gateIdx + 1) % n)
    let reachesLast := x.gateIdx + 1 < n && decide (((List.range n).drop (x.gateIdx + 1)).all (fun i =>
      gclOpen s p i / 2 ^ t % 2 == 1))
    some (if reachesLast then ((here + ahead : Nat) + x.stepCur).toNat else here + ahead)

def clampInt (lo hi x : Int) : Int := max lo (min hi x)

/-- An entry's interval has ended: the next begins, and after the last a new gate cycle with its correction (R320, R323,
R324). -/
def gateNext (p : Nat) (s : State) : State :=
  let x := s.port p
  let e := x.gateEnd.getD s.cyc
  let last := x.gateIdx + 1 = gclLen s p
  let shift : Int := s.fld (pgLane p) prtGateCfg_shiftMax
  let step := if last then clampInt (-shift) shift x.gatePend else x.stepCur
  let i := if last then 0 else x.gateIdx + 1
  let y := { x with gateIdx := i, gateEnd := some (e + entryLen s p i step), stepCur := step,
                    gatePend := if last then x.gatePend - step else x.gatePend,
                    gateStart := if last then e + gateBias else x.gateStart }
  let s1 := s.setPort p y
  let s2 := if last then s1.addWrap (pgLane p) prtGateStat_cycles 1 else s1
  let cut := match x.sendTc with
    | some t => decide (e < x.sendEnd) && gclOpen s p i / 2 ^ t % 2 == 0 && gclOpen s p x.gateIdx / 2 ^ t % 2 == 1
    | none => false
  if cut then s2.addFld (pgLane p) prtGateStat_overrun 1 else s2

/-- Every entry whose interval has ended by now. -/
def gateAdvance (p : Nat) : Nat → State → State
  | 0, s => s
  | fuel + 1, s =>
    match (s.port p).gateEnd with
    | some e => if gateOn s p ∧ e ≤ s.cyc then gateAdvance p fuel (gateNext p s) else s
    | none => s

/-- The port's list as it stands in this cycle: in the cycle in which an entry begins, its mask applies (R320). -/
def gateView (s : State) (p : Nat) : State := gateAdvance p (s.cyc + 1 - (s.port p).gateEnd.getD s.cyc) s

/-- Whether the gate of class `t` admits a packet of this charged length (R320, R322). -/
def gateAdmits (s0 : State) (p t charged : Nat) : Bool :=
  let s := gateView s0 p
  if gatesApply s p then
    gclOpen s p (s.port p).gateIdx / 2 ^ t % 2 == 1 &&
      (match runLeft s p t with
       | none => true
       | some r => decide (sendTime charged (s.port p).w ≤ r))
  else true

/-- Open every gate from the next cycle on (R321); where no list has begun, every gate is open already. -/
def gateStop (p : Nat) (s : State) : State :=
  (s.setFld (pgLane p) prtGateCfg_gateOn 0).updPort p (fun x =>
    if gatesApply s p then { x with gateArmed := false, gateStart := s.cyc + 1 + gateBias }
    else { x with gateArmed := false, gateEnd := none })

/-- A write to PRT_GATE_CFG (R319, R321). A list that is given up goes on to the entry that begins in this cycle first (R320), and a
list that is to start after one has been given up in this cycle starts from the next (R321); one that has been started in this
cycle is given up in the next (assumption 8). A write that a higher requester's
write of this cycle has overtaken is judged by the value from before the cycle, and neither starts nor stops the list (R454). -/
def gateCfgWrite (req p : Nat) (v : U64) (s : State) : State :=
  laneWrite p 0x218 (fun x s0 =>
    let on := fieldOf v 0 1 == 1
    let started := gateOn s0 p && gatesApply s0 p && s0.same.oldReg.any (fun r => r.1 == x.base + x.off)
    let s := orNext ((on && gateLingers s0 p) || (!on && started && !lostRace s0 req (x.base + x.off))) s0
    let lost := lostRace s req (x.base + x.off)
    let was := if lost then lookFld s (pgLane p) prtGateCfg_gateEn == 1 else s.flag (pgLane p) prtGateCfg_gateEn
    let write := plainWrite req x v (fun _ => false)
    if was ∧ on then discardWrite x s
    else if lost then write s
    else if on then gateValidate p (write s)
    else if was then gateStop p (write (gateView s p))
    else write s) s

/-- A SYNC_IN edge at a port (R320, R324). -/
def gateEdge (p : Nat) (s : State) : State :=
  if (s.port p).gateArmed then gateStartAt p (s.fld (pgLane p) prtGateSync_syncOff) s.cyc s
  else if gateOn s p ∧ s.flag (pgLane p) prtGateCfg_syncEn then
    let s1 := gateView s p
    let x := s1.port p
    let tc : Int := gateTc s1 p
    let pos : Int := (s1.cyc + gateBias : Nat) - (x.gateStart : Int)
    let d := (pos - (s1.fld (pgLane p) prtGateSync_syncOff : Nat)) % tc
    let e := if 2 * d ≤ tc then d else d - tc
    (s1.setPort p { x with gatePend := e - x.stepCur }).addFld (pgLane p) prtGateStat_edges 1
  else s

/-! ### Meters -/

def meterCir (s : State) (m : Nat) : Nat := lookFld s (meterAt m) prtMtrRate_cir
def meterPir (s : State) (m : Nat) : Nat := max (lookFld s (meterAt m) prtMtrRate_pir) (meterCir s m)

/-- The meter's token counts now. -/
def meterNow (s : State) (m : Nat) : Meter :=
  let x := tget (⟨0, 0, 0⟩ : Meter) s.meters m
  let dt := s.cyc - x.at_
  if dt = 0 then x
  else ⟨min (x.tc + meterCir s m * dt) (lookFld s (meterAt m) prtMtrBurst_cbs * 2000),
        min (x.tp + meterPir s m * dt) (lookFld s (meterAt m) prtMtrBurst_pbs * 2000), s.cyc⟩

def setMeter (m : Nat) (x : Meter) (s : State) : State := { s with meters := tset ⟨0, 0, 0⟩ s.meters m x }

/-- A write to a meter's rates or bursts acts from the next cycle on (R327). -/
def meterWrite (req m off : Nat) (v : U64) (s : State) : State :=
  plainWrite req (pageLoc .wMeter m (meterAt m) off) v (fun _ => false)
    (noteReg (meterAt m + off) (setMeter m (meterNow s m) s))

/-- `meter` of R326 with its count: `true` for red. -/
def meterColour (m len : Nat) (s : State) : Bool × State :=
  let x := meterNow s m
  let b := len * 2000
  if x.tp < b then (true, (setMeter m x s).addFld (meterAt m) prtMtrCnt_red 1)
  else if x.tc < b then (false, (setMeter m { x with tp := x.tp - b } s).addFld (meterAt m) prtMtrCnt_yellow 1)
  else (false, (setMeter m { x with tp := x.tp - b, tc := x.tc - b } s).addFld (meterAt m) prtMtrCnt_green 1)

/-- The meter of class `t` at a port, when it meters that class (R325). -/
def meterOf (s : State) (p t : Nat) : Option Nat :=
  if lookFld s (pgLane p) prtMeter_men / 2 ^ t % 2 = 1 then some ((lookFld s (pgLane p) prtMeter_mbase + t) % 4096)
  else none

/-- Meter a packet of class `t` at its ingress port (R325): `true` for red. The packets of one cycle are coloured in ascending
port number (R327). -/
def meterAtPort (p t len : Nat) (s : State) : Bool × State :=
  match meterOf s p t with
  | some m => meterColour m len (noteAct (.meter m) p (orNext (actAbove s (.meter m) p) s))
  | none => (false, s)

/-! ### Commands -/

/-- GATE_ENABLE (R319). -/
def execGateEnable (req port : Nat) (v : U64) (s : State) : Result :=
  .next (if fieldOf v 0 1 = 1 then onPath req (gateCfgWrite req port v) s else s)

/-- GATE_DISABLE (R321). -/
def execGateDisable (req port : Nat) (v : U64) (s : State) : Result :=
  .next (if fieldOf v 0 1 = 0 then onPath req (gateCfgWrite req port v) s else s)

/-- GATE_ENTRY (R320). -/
def execGateEntry (port : Nat) (s : State) : Result :=
  .next (match (s.port port).gateEnd with
    | some e => if gateOn s port ∧ e ≤ s.cyc then gateNext port s else s
    | none => s)

/-- The SYNC_OUT pulse of an edge (R486): SYNC_OUT stays low while PORESET_N is low, or PWRGOOD, which acts alike (R479). -/
def pulseOut (s : State) : State :=
  if s.pins.poresetN && s.pins.pwrgood then
    ({ s with pins := { s.pins with syncOut := s.pins.syncOut + 1, syncIn := some s.cyc } }).emit .syncOut
  else s

/-- SYNC_IN_EDGE (R156, R320, R324, R486): boundary requests, gate cycles, a pulse on SYNC_OUT. -/
def execSyncInEdge (s : State) : Result :=
  let s1 := forAll (fun g s => boundaryRequest g s) (esrcGroups s) s
  let s2 := forAll (fun (p : Nat × Port) s => gateEdge p.1 s) s1.ports s1
  .next (pulseOut s2)

end Sys2Proof.Machine
end

