-- ==== Sys2Proof/Machine/Link.lean ====
section
/-!
DEFINITION. Ports and links: forming and dissolving a port (R460, R461), bring-up (R40, R490, R82), link control frames
(R41), receiving and link retry (R42 to R45, R491), what a link going down takes with it (R46, R166), credit (R50 to R54,
R494), header validity and metering of arriving packets (R59, R325 to R328), and telemetry snapshots (R80, R462).
-/
namespace Sys2Proof.Machine

/-! ### Telemetry snapshots -/

/-- Bytes queued at an egress port on a VC. -/
def queuedBytes (x : Port) (vc : Nat) : Nat := ((x.egress.filter (fun e => e.vc == vc)).map egressBytes).sum

/-- The offsets of the snapshot registers of a port page (R462). -/
def teleOffsets : List Nat :=
  (List.range 7).flatMap (fun v => (List.range 7).map (telVc v)) ++ (List.range 20).map (fun i => 0x5C0 + 8 * i)
    ++ (List.range 16).map (fun i => 0x660 + 8 * i) ++ [telRetry]

/-- The round trip that R80 and PRT_STAT report: the measured one, or the eth_rtt that the bring-up took (R82, R461). -/
def reportedRtt (s : State) (p : Nat) : Nat := (s.port p).rtt

/-- The live value of a snapshot register. -/
def liveTele (s : State) (p off : Nat) : Nat :=
  if off = telRtt then reportedRtt s p
  else if off = telTime then s.aon
  else if 0x400 ≤ off ∧ off < 0x5C0 ∧ (off - 0x400) % 0x40 = 0x20 then
    (if (s.port p).eth then 0 else queuedBytes (s.port p) ((off - 0x400) / 0x40))
  else teleOf s p off

/-- Copy every counter and gauge of a port at once (R80). -/
def teleSnap (p : Nat) (s : State) : State :=
  forAll (fun o t => t.wr (pgLane p + o) (BitVec.ofNat 64 (liveTele s p o))) teleOffsets s

/-- Clear every live counter (R461); the high-water marks, which are gauges, stay. -/
def teleClear (p : Nat) (s : State) : State :=
  forAll (fun o s => if o < 0x5C0 ∧ (o - 0x400) % 0x40 = 0x28 then s else teleSet p o 0 s) teleOffsets s

/-- The live telemetry of a page that is reset, its high-water marks too (R455). -/
def teleReset (p : Nat) (s : State) : State := forAll (fun o s => teleSet p o 0 s) teleOffsets s

/-- A write to a snapshot register: only 0 to a high-water register acts (R462). It leaves the live mark at 0, whatever is queued
(DESIGN CHOICE, assumption 38). -/
def teleWrite (p off : Nat) (v : U64) (s : State) : State :=
  laneWrite p off (fun _ s => if off < 0x5C0 ∧ (off - 0x400) % 0x40 = 0x28 ∧ v = 0 then teleSet p off 0 s else s) s

/-! ### Link control frames -/

/-- A frame of a port, with its E and its credit grants (02_fabric_transport.md, "Link control frames"). -/
def mkLctl (x : Port) (kind : Nat) (body : List Byte) : Lctl :=
  withLcrc { ver := 1, ptype := ptLctl, kind := kind, rsv := 0, ackSeq := x.e, rsv2 := 0, credit := x.gRx,
             body := body ++ List.replicate (24 - body.length) 0, lcrc := 0 }

/-- An LCTL frame leaves; it acknowledges what has been received (R41). -/
def sendLctl (p kind : Nat) (body : List Byte) (s : State) : State :=
  (s.emit (.lctl p (mkLctl (s.port p) kind body))).updPort p (fun x => { x with acked := x.e })

def helloBody (s : State) (p : Nat) : List Byte :=
  leBytes 4 (s.ownFid % 2 ^ 20) ++ leBytes 1 (s.port p).w ++ leBytes 1 0

/-- The nak timer and the ack timer: the measured round trip and 2 us (R44, R45). -/
def retryTime (x : Port) : Nat := x.rtt * 80 + 4000

/-! ### A link going down (R46, R166) -/

def isNative (x : Port) : Bool := x.formed && !x.eth

/-- The JFP packet that a load carries, a frame of JFP over UDP included. -/
def loadJfp : Load → Packet
  | .jfp q => q
  | .result h _ _ => h
  | .eth f => parsePacket (f.body.drop 48)

/-- A packet that a link that went down has not delivered: whom it concerns hears FAILED_LINK (R166), for a chain's or a program's
packet as for one that passes through. -/
def lostPacket (p : Nat) (load : Load) (org : Origin) (s : State) : State :=
  match org with
  | .cnode k _ _ => abortKey k stFailedLink 0 s
  | .down k lo hi => sendStatus p (loadJfp load).dst k lo hi stFailedLink 0 s
  | .lane _ | .bridge _ | .stale => s
  | .chain _ | .none =>
    let q := loadJfp load
    match q.ext with
    | none => s
    | some e =>
      sendStatus p (if q.vc = vcCup then q.src else q.dst) (extKey e) e.lo e.hiIncl stFailedLink 0 s

/-- A port's record without link: nothing to replay or send, no credit. -/
def unlinked (x : Port) : Port :=
  { x with st := .down, stepEnd := none, helloAt := none, echoAt := none, replayPg := none, rxOn := false,
           nakSent := false, nakAt := none, replay := [], resend := none, replayAt := none, replayRuns := 0, ackAt := none,
           sending := none, gRx := List.replicate 7 0, cRx := List.replicate 7 0, gTx := List.replicate 7 0, cTx := List.replicate 7 0,
           lastIn := List.replicate 7 none, stateAt := none, egress := [], copying := [], sendTc := none,
           parkedLanes := [], dropped := [], laneReqs := [], laneAns := [], recalLanes := [], recalTo := none,
           deficit := List.replicate 8 0, drrPos := 0, inVisit := false, cdnSince := none,
           pausedTo := List.replicate 8 none, xoffSent := List.replicate 8 false, refreshAt := List.replicate 8 none,
           pfcDue := [] }

/-- Give back the ingress space of a port that no held packet needs. -/
def trimAll (p : Nat) (s : State) : State :=
  forAll (fun v s => trimLand p v (trimBufs p v (portBufs (s.port p) v).length s)) (List.range 7) s

/-- Drop what a failed bring-up or a lost link held at a port. -/
def unlink (p : Nat) (s : State) : State :=
  let s1 := forAll (fun l s => s.setPu (puLane (p + l)) PwrUnit.gold) (s.port p).parkedLanes s
  fillHeadroom p (trimAll p (s1.updPort p unlinked))

/-- Software asks for the link and the page is in service. -/
def wantsUp (s : State) (p : Nat) : Bool :=
  (s.port p).formed && s.flag (pgLane p) prtCfg_upReq && isEnabled s (pgLane p) && !isDrain s (pgLane p)

/-- Start again 1 ms later (R40, R46). -/
def armRetry (p : Nat) (s : State) : State :=
  s.updPort p (fun x => { x with retryAt := some (s.cyc + 2000000) })

/-- A port takes its link down (R46). -/
def linkDown (p : Nat) (s : State) : State :=
  let x := s.port p
  let lost := x.replay.map (fun e => (Load.jfp e.pkt, e.org)) ++ x.egress.map (fun e => (e.load, e.org))
    ++ (if x.eth ∧ s.cyc < x.sendEnd then x.copying.map (fun e => (e.load, e.org)) else [])
  let bufs := x.copying.flatMap (fun e => e.bufs) ++ x.egress.flatMap (fun e => e.bufs)
  let s1 := if x.eth then s else sendLctl p 5 [] s
  let s2 := reportOwnOpen clsLinkDown p (raiseEv (pgLane p) 6 s1)
  let s3 := armRetry p (unlink p s2)
  let s4 := forAll (fun b s => releaseShared b p s) bufs s3
  forAll (fun (y : Load × Origin) s => lostPacket p y.1 y.2 s) lost s4

/-- The link goes down when a draining port has sent everything and all of it is acknowledged (R377). -/
def drainedDown (p : Nat) (s : State) : State :=
  let x := s.port p
  if isDrain s (pgLane p) ∧ x.st = .up ∧ x.egress = [] ∧ x.copying = [] ∧ x.replay = [] then linkDown p s else s

/-! ### Bring-up -/

/-- A step of R40 fails: the port stays down, the event is raised and reported, and bring-up starts again after 1 ms. -/
def stepFail (p bit : Nat) (s : State) : State :=
  armRetry p (unlink p (reportOwn clsLinkBringup p bit (raiseEv (pgLane p) bit s)))

def stepLimit (p n : Nat) (s : State) (cycles : Option Nat) : State :=
  s.updPort p (fun x => { x with step := n, stepAt := s.cyc, stepEnd := cycles.map (fun c => s.cyc + c) })

/-- Lanes on which a port of width `w` may stand at lane `l`: present and of no other port (R460). -/
def lanesFree (s : State) (l w : Nat) : Bool :=
  l % w == 0 && (List.range w).all (fun i => s.lanePres (l + i) &&
    (match portOf s (l + i) with | some q => q == l | none => true))

def cfgWidth (s : State) (p : Nat) : Nat := 2 ^ s.fld (pgLane p) prtCfg_width

/-- Start bring-up at step 1, with the width and the mode that the port's page holds (R38); a width that no longer fits the
port's place leaves the old one (DESIGN CHOICE, assumption 24). -/
def startBringup (p : Nat) (s : State) : State :=
  let w := if lanesFree s p (cfgWidth s p) then cfgWidth s p else (s.port p).w
  stepLimit p 1 (s.updPort p (fun x =>
    { x with st := .bringup, retryAt := none, w := w, eth := s.flag (pgLane p) prtCfg_mode, rtt := 0, echoDone := 0,
             longReach := false })) none

/-- The port is UP (R40 step 7, R458); an Ethernet-mode port reserves its PFC headroom (R82, R329). One that drains and holds
nothing takes its link down again (R377). -/
def linkUp (p : Nat) (s : State) : State :=
  let s1 := s.updPort p (fun x =>
    { x with st := .up, step := 7, stepEnd := none, helloAt := none, lastLctl := s.cyc, idleSince := s.cyc })
  drainedDown p (raiseEv (pgLane p) 8 (if (s1.port p).eth then fillHeadroom p s1 else s1))

/-- Lanes of long-reach ports other than `p` (R48). -/
def longReachLanes (s : State) (p : Nat) : Nat :=
  ((s.ports.filter (fun y => y.1 != p && y.2.longReach && y.2.formed && y.2.replayPg.isSome)).map (fun y => y.2.w)).sum

def presentLanes (s : State) : Nat := ((List.range 512).filter s.lanePres).length

/-- Bytes of one round trip at the port's rate: the capacity of its replay store and of its landing zone (R47). -/
def rttBytes (x : Port) : Nat := x.w * 1000 * x.rtt

/-- Pages of the long-reach areas that ports of a quadrant hold, as (first, count). The landing zone of a port that is DOWN or
dissolved stays its own until the port is placed again (DESIGN CHOICE, assumption 96). -/
def lrUsed (s : State) (q p : Nat) : List (Nat × Nat) :=
  (s.ports.filter (fun y => y.1 / 128 == q && y.1 != p)).flatMap (fun y => y.2.replayPg.toList ++ y.2.landPg.toList)

/-- First fit of `n` pages in [a, e) clear of the listed ranges; the fuel bounds the ranges passed over. -/
def fitPages : Nat → Nat → Nat → Nat → List (Nat × Nat) → Option Nat
  | 0, _, _, _, _ => none
  | fuel + 1, n, a, e, used =>
    if e < a + n then none
    else
      match used.find? (fun r => decide (r.1 < a + n) && decide (a < r.1 + r.2)) with
      | none => some a
      | some r => fitPages fuel n (r.1 + r.2) e used

/-- A present stack of the quadrant refuses new long-reach space while it drains or is out of service (R377). -/
def stacksServe (s : State) (q : Nat) : Bool :=
  ((List.range 5).map (fun i => q * 5 + i)).all (fun x =>
    !stackPresent s.fuses x || takesWork s (pgHbm x) (puStack x))

/-- Space for replay and landing in the long-reach area of the port's quadrant (R17, R47, R48). -/
def placeLongReach (p : Nat) (s : State) : Option State :=
  let x := s.port p
  let q := p / 128
  let n := pagesFor (rttBytes x)
  let a := s.fld (pgCellar q) celLink_lrPg
  let e := min (a + s.fld (pgCellar q) celLink_lrPages) (quadPages s q)
  let used := lrUsed s q p
  if presentLanes s / 2 < longReachLanes s p + x.w ∨ stacksServe s q = false then none
  else
    match fitPages (used.length + 1) n a e used with
    | none => none
    | some r =>
      match fitPages (used.length + 2) n a e ((r, n) :: used) with
      | none => none
      | some l => some (s.setPort p { x with longReach := true, replayPg := some (r, n), landPg := some (l, n) })

/-- One buffer of each pool as the port's R52 space (R340); a buffer kept for a packet that still waits counts. -/
def takeBase (p : Nat) : List Nat → State → Option State
  | [], s => some s
  | v :: vs, s =>
    if (portBufs (s.port p) v).isEmpty then
      match takeBuf (p / 128) v p s with
      | some (b, s1) => takeBase p vs (s1.updPort p (fun x => { x with credBufs := x.credBufs ++ [(v, b)] }))
      | none => none
    else takeBase p vs s

/-- Step 6: receiving starts, link sequence numbers start at 0 and the initial credit goes out (R40, R52, R491). -/
def startStep6 (p : Nat) (s : State) : State :=
  let s1 := stepLimit p 6 s (some ((s.port p).rtt * 80 + 200000))
  let s2 := s1.updPort p (fun x => { x with rxOn := true, e := 0, txSeq := 0, nakSent := false, nakAt := none })
  let s3 := forAll (fun v s => s.updPort p (fun x => { x with gRx := x.gRx.set v (65 - onDieCredits s p v) }))
    (List.range 7) s2
  (sendLctl p 0 [] s3).updPort p (fun x => { x with stateAt := some (s.cyc + 2000) })

/-- Step 5 (R40, R47, R48, R340). -/
def step5 (p : Nat) (s : State) : State :=
  let s0 := stepLimit p 5 s none
  let placed := if (s.port p).rtt ≤ 50 then some s0 else placeLongReach p s0
  match placed with
  | none => stepFail p 5 s0
  | some s1 =>
    match takeBase p (List.range 7) s1 with
    | some s2 => startStep6 p s2
    | none => stepFail p 5 s1

/-- Send the next ECHO_REQ with its own 1 ms limit (R490). -/
def sendEcho (p : Nat) (s : State) : State :=
  (sendLctl p 3 (leBytes 8 s.aon) s).updPort p (fun x =>
    { x with echoAt := some s.aon, stepEnd := some (s.cyc + 2000000) })

def startStep4 (p : Nat) (s : State) : State :=
  sendEcho p ((stepLimit p 4 s (some 2000000)).updPort p (fun x => { x with echoDone := 0, rtt := 0 }))

/-- Step 3: while own_fid is 0 it fails (R464). -/
def startStep3 (p : Nat) (s : State) : State :=
  let s1 := stepLimit p 3 s (some 4000000)
  if s.ownFid = 0 then stepFail p 3 s1
  else (sendLctl p 2 (helloBody s p) s1).updPort p (fun x => { x with helloAt := some (s.cyc + 20000) })

/-- FEC lock on every lane: an Ethernet-mode port is UP, or fails for its eth_rtt as step 4 fails, which PRT_STAT.step then shows
(R82, R461). -/
def fecLocked (p : Nat) (s : State) : State :=
  if (s.port p).eth then
    if s.fld (pgLane p) prtEth_ethRtt ≤ 50 then
      linkUp p (s.updPort p (fun x => { x with rtt := s.fld (pgLane p) prtEth_ethRtt }))
    else stepFail p 4 (s.updPort p (fun x => { x with step := 4 }))
  else startStep3 p s

def inStep (s : State) (p n : Nat) : Bool :=
  (s.port p).formed && (s.port p).st == .bringup && (s.port p).step == n

/-! ### PRT_CFG -/

/-- Form a port from its lanes and start bring-up (R460). -/
def formPort (p : Nat) (s : State) : State :=
  let s1 := s.updPort p (fun x => { x with formed := true, w := cfgWidth s p, eth := s.flag (pgLane p) prtCfg_mode })
  if wantsUp s1 p then startBringup p s1 else s1

/-- Dissolve a port that is DOWN (R460): what its held packets need, its shapers and its gate list stay with the lane. -/
def dissolve (p : Nat) (s : State) : State :=
  s.updPort p (fun x => { Port.none with
    credBufs := x.credBufs, landSteps := x.landSteps, landPg := x.landPg, shaper := x.shaper, gateIdx := x.gateIdx,
    gateEnd := x.gateEnd, gateStart := x.gateStart, gateArmed := x.gateArmed, stepCur := x.stepCur, gatePend := x.gatePend })

def prtCfgExtra (p : Nat) (v : U64) (s : State) : State :=
  let s1 := if fieldOf v 6 1 = 1 then teleSnap p s else s
  if fieldOf v 7 1 = 1 then teleClear p s1 else s1

/-- A write to PRT_CFG (R460, R461); a write that a higher requester's write of this cycle has overtaken forms no
port, and one with snap or tel_clr set begins the next cycle (R454; assumptions 8 and 78). -/
def prtCfgWrite (req p : Nat) (v : U64) (s : State) : State :=
  laneWrite p 0x100 (fun x s =>
    let s := orNext (fieldOf v 6 2 != 0 && lostRace s req (x.base + x.off)) s
    let up := fieldOf v 5 1 == 1
    let w := 2 ^ fieldOf v 0 2
    let was := (s.port p).formed
    if up && !lanesFree s p w then discardWrite x s
    else
      let lost := lostRace s req (x.base + x.off)
      let s1 := prtCfgExtra p v (plainWrite req x v (fun _ => false) s)
      if lost then s1
      else if up then (if was then s1 else formPort p s1)
      else if was then dissolve p (if (s1.port p).st = .down then s1 else linkDown p s1)
      else s1) s

/-! ### Receiving link control frames -/

/-- Credit grants of a frame (R51). -/
def takeCredits (p : Nat) (f : Lctl) (s : State) : State := s.updPort p (fun x => { x with gTx := f.credit })

/-- Packets from `a` to the newest, in sending order. -/
def unacked (x : Port) (a : Nat) : Nat := (x.txSeq + 2 ^ 24 - a % 2 ^ 24) % 2 ^ 24

/-- ack_seq = A (R45): free the replay entries below A and restart the ack timer, or count a protocol error. -/
def takeAck (p a : Nat) (s : State) : State :=
  let x := s.port p
  let k := unacked x a
  if x.replay.length < k then protoErr p s
  else if k = x.replay.length then s
  else
    let res := x.resend.map (fun r => if k < unacked x r then a else r)
    let s1 := s.setPort p { x with replay := x.replay.drop (x.replay.length - k), resend := res,
                                   ackAt := if k = 0 then none else some (s.cyc + retryTime x) }
    drainedDown p (twinDones s1)

/-- A replay starts at `a` (R45); the sixteenth in a row from one link_seq takes the link down (R46). -/
def startReplay (p a : Nat) (s : State) : State :=
  let x := s.port p
  let n := if x.replayAt = some a then x.replayRuns + 1 else 1
  if 16 ≤ n then linkDown p s
  else s.setPort p { x with resend := some a, replayAt := some a, replayRuns := n }

/-- NAK(E) (R45). -/
def takeNak (p : Nat) (f : Lctl) (s : State) : State :=
  let s1 := teleAdd p telNakRx 1 s
  let k := unacked (s1.port p) f.ackSeq
  if 1 ≤ k ∧ k ≤ (s1.port p).replay.length then startReplay p f.ackSeq (takeAck p f.ackSeq (takeCredits p f s1))
  else protoErr p s1

/-- STATE (R40 step 6, R41). -/
def takeState (p : Nat) (f : Lctl) (s : State) : State :=
  let x := s.port p
  if x.st = .up then takeAck p f.ackSeq (takeCredits p f s)
  else if x.step = 6 then takeCredits p f (linkUp p s)
  else s

/-- HELLO (R40 step 3, R490). -/
def takeHello (p : Nat) (f : Lctl) (s : State) : State :=
  if inStep s p 3 then
    if leAt f.body 4 1 = (s.port p).w ∧ leAt f.body 5 1 = 0 then startStep4 p s else stepFail p 3 s
  else s

/-- ECHO_RSP (R40 step 4, R490): one round-trip sample. -/
def takeEcho (p : Nat) (f : Lctl) (s : State) : State :=
  let x := s.port p
  if inStep s p 4 ∧ x.echoAt = some (leAt f.body 0 8) then
    let r := s.aon - leAt f.body 0 8
    let y := { x with echoDone := x.echoDone + 1, rtt := max x.rtt r, echoAt := none }
    if 25000 < r then stepFail p 4 (s.setPort p y)
    else if y.echoDone < 8 then sendEcho p (s.setPort p y)
    else step5 p (s.setPort p y)
  else s

/-- What the FEC of a port counted (R42, R80, R82). -/
def fecSeen (p : Nat) (f : RxFec) (s : State) : State :=
  if (s.port p).formed then teleAdd p telUncorr f.uncorrectable (teleAdd p telFec f.corrected s) else s

/-- A link control frame arrives (R41): a bad one is discarded and counted. -/
def lctlIn (p : Nat) (fec : RxFec) (f : Lctl) (s0 : State) : State :=
  let s := fecSeen p fec s0
  let x := s.port p
  if isNative x = false then s
  else if f.lcrc ≠ lctlCrc f ∨ f.ver ≠ 1 ∨ f.ptype ≠ ptLctl ∨ 5 < f.kind then protoErr p s
  else if x.st = .down ∨ x.step < 3 then s
  else
    let s1 := s.updPort p (fun x => { x with lastLctl := s.cyc })
    match f.kind with
    | 0 => takeState p f s1
    | 1 => if x.rxOn then takeNak p f s1 else s1
    | 2 => takeHello p f s1
    | 3 => sendLctl p 4 (f.body.take 8) s1
    | 4 => takeEcho p f s1
    | _ => linkDown p s1

/-! ### Receiving packets -/

/-- The VCs a type may use and whether it carries an extension header (R57). -/
def typeOk (p : Packet) : Bool :=
  let req := p.vc == vcReq || p.vc == vcFwdA || p.vc == vcFwdB
  let plain := p.ext.isNone
  match p.ptype with
  | 0x1 | 0x2 | 0x5 => req && plain
  | 0x3 | 0x4 => p.vc == vcRsp && plain
  | 0x6 | 0x7 => p.vc == vcCup && p.ext.isSome
  | 0x8 => p.vc == vcCdn && p.ext.isSome
  | 0x9 => if p.ext.isSome then p.vc == vcCdn else p.vc == vcRsp || p.vc == vcMgt
  | 0xA => (p.vc == vcReq || p.vc == vcFwdA) && plain
  | 0xB | 0xC => p.vc == vcMgt && plain
  | _ => false

/-- The checks of R59. -/
def headerOk (p : Packet) : Bool :=
  p.ver == 1 && typeOk p && decide (p.plen ≤ 4096) && (p.dst != 0xFFFFF || p.vc == vcMgt)

/-- A packet that fails R59. -/
def headerBad (port : Nat) (p : Packet) (s : State) : State :=
  let s1 := reportOpen p.src clsProto port (protoErr port s)
  if isReqVc p.vc then sendTransport port p.src vcRsp p.tag tsRejected s1 else s1

/-- The port's buffer into which its next packet of a VC goes: an empty one, else the one that the credits held before it reach
into (assumption 95). -/
def ingressBuf (s : State) (port vc : Nat) : Option Nat :=
  let bs := portBufs (s.port port) vc
  match bs.find? (fun b => !isHome s b.2) with
  | some b => some b.2
  | none => (bs[onDieCredits s port vc / 65 % max 1 bs.length]?).map (fun b => b.2)

/-- The free pieces of [a, e) beside the listed ranges, which stand in rising order. -/
def freePieces (a e : Nat) : List (Nat × Nat) → List (Nat × Nat)
  | [] => if a < e then [(a, e - a)] else []
  | r :: rs => (if a < r.1 then [(a, r.1 - a)] else []) ++ freePieces (max a (r.1 + r.2)) e rs

/-- The first `n` bytes of some pieces. -/
def takePieces : Nat → List (Nat × Nat) → List (Nat × Nat)
  | _, [] => []
  | n, r :: rs => if n = 0 then [] else (r.1, min n r.2) :: takePieces (n - min n r.2) rs

/-- Insert a range in rising order. -/
def insertRange (r : Nat × Nat) : List (Nat × Nat) → List (Nat × Nat)
  | [] => [r]
  | x :: xs => if x.1 ≤ r.1 then x :: insertRange r xs else r :: x :: xs

/-- Where a packet of `c` credits lands: the first free pieces of the port's landing zone, whose credits cover it (R54;
assumption 95). -/
def landSpots (s : State) (port c : Nat) : List (Nat × Nat) :=
  let used := (s.waiting.filter (fun w => w.unit == port && w.landed)).flatMap (fun w => w.spots)
  takePieces (64 * c) (freePieces 0 (rttBytes (s.port port)) (used.foldr insertRange []))

/-- First byte of a port's landing zone in its quadrant's stacks. -/
def landBase (x : Port) : Nat := match x.landPg with | some r => pageAddr r.1 | none => 0

def sendNak (p : Nat) (s : State) : State :=
  teleAdd p telNakTx 1 ((sendLctl p 1 [] s).updPort p (fun x =>
    { x with nakSent := true, nakAt := some (s.cyc + retryTime x) }))

/-- E advances past a packet (R44); a STATE frame is due (R41). -/
def advanceE (p : Nat) (s : State) : State :=
  s.updPort p (fun x => stateDue s.cyc { x with e := (x.e + 1) % 2 ^ 24, nakSent := false, nakAt := none })

/-- The class that the receiver acts on: a packet with a byte in an uncorrectable codeword is corrupted (R42). -/
def rxClass (cls : RxClass) (f : RxFec) : RxClass := if 0 < f.uncorrectable then .corrupted else cls

/-- NAK_TIMER_EXPIRE (R44): the retry is counted among the NAKs sent (DESIGN CHOICE, assumption 97). -/
def execNakTimerExpire (port : Nat) (s : State) : Result :=
  .next (match (s.port port).nakAt with
    | some t => if (s.port port).nakSent ∧ t ≤ s.cyc then sendNak port s else s
    | none => s)

/-- ACK_TIMER_EXPIRE (R45). -/
def execAckTimerExpire (port : Nat) (s : State) : Result :=
  .next (match (s.port port).ackAt, (s.port port).replay with
    | some t, e :: _ =>
      if t ≤ s.cyc then
        startReplay port e.linkSeq (teleAdd port telAckTo 1
          (s.updPort port (fun x => { x with ackAt := some (s.cyc + retryTime x) })))
      else s
    | _, _ => s)

/-- REPLAY_DONE (R45). -/
def execReplayDone (port : Nat) (s : State) : Result :=
  .next (let x := s.port port
    if x.resend = some x.txSeq then s.setPort port { x with resend := none } else s)

/-! ### Commands of ports and links -/

/-- PORT_UP_REQ (R460): a write to PRT_CFG with up_req = 1. -/
def execPortUpReq (req lane : Nat) (v : U64) (s : State) : Result :=
  .next (if fieldOf v 5 1 = 1 then onPath req (prtCfgWrite req lane v) s else s)

/-- PORT_DOWN_REQ (R461): a write to PRT_CFG with up_req = 0. -/
def execPortDownReq (req lane : Nat) (v : U64) (s : State) : Result :=
  .next (if fieldOf v 5 1 = 0 then onPath req (prtCfgWrite req lane v) s else s)

/-- PMD_TRAINING_DONE (R490): the end of step 1. -/
def execPmdTrainingDone (port : Nat) (ok : Bool) (s : State) : Result :=
  .next (if inStep s port 1 then (if ok then stepLimit port 2 s (some 20000000) else stepFail port 1 s) else s)

/-- FEC_LOCK (R490): the end of step 2. -/
def execFecLock (port : Nat) (s : State) : Result :=
  .next (if inStep s port 2 then fecLocked port s else s)

/-- HELLO_TIMER (R490): a HELLO every 10 us from step 3 until step 4 ends. -/
def execHelloTimer (port : Nat) (s : State) : Result :=
  .next (match (s.port port).helloAt with
    | some t =>
      if (inStep s port 3 ∨ inStep s port 4) ∧ t ≤ s.cyc then
        (sendLctl port 2 (helloBody s port) s).updPort port (fun x => { x with helloAt := some (t + 20000) })
      else s
    | none => s)

/-- HELLO (R40). -/
def execHelloFrame (port : Nat) (f : Rx Lctl) (s : State) : Result := .next (lctlIn port f.fec f.it s)

/-- ECHO_REQ (R490). -/
def execEchoReqFrame (port : Nat) (f : Rx Lctl) (s : State) : Result := .next (lctlIn port f.fec f.it s)

/-- ECHO_RSP (R40). -/
def execEchoRspFrame (port : Nat) (f : Rx Lctl) (s : State) : Result := .next (lctlIn port f.fec f.it s)

/-- STATE (R41). -/
def execStateFrame (port : Nat) (f : Rx Lctl) (s : State) : Result := .next (lctlIn port f.fec f.it s)

/-- NAK (R45). -/
def execNakFrame (port : Nat) (f : Rx Lctl) (s : State) : Result := .next (lctlIn port f.fec f.it s)

/-- DOWN (R46). -/
def execDownFrame (port : Nat) (f : Rx Lctl) (s : State) : Result := .next (lctlIn port f.fec f.it s)

/-- BRINGUP_STEP_TIMEOUT (R490). -/
def execBringupStepTimeout (port : Nat) (s : State) : Result :=
  .next (match (s.port port).stepEnd with
    | some t =>
      if (s.port port).st = .bringup ∧ t ≤ s.cyc then
        stepFail port (match (s.port port).step with | 2 => 2 | 4 => 4 | _ => 3) s
      else s
    | none => s)

/-- BRINGUP_RETRY (R40, R46). -/
def execBringupRetry (port : Nat) (s : State) : Result :=
  .next (match (s.port port).retryAt with
    | some t => if (s.port port).st = .down ∧ t ≤ s.cyc ∧ wantsUp s port then startBringup port s else s
    | none => s)

/-- STATE_SEND (R41): a STATE frame, and the next within 1 us. -/
def execStateSend (port : Nat) (s : State) : Result :=
  .next (if (s.port port).rxOn then
      (sendLctl port 0 [] s).updPort port (fun x => { x with stateAt := some (s.cyc + 2000) })
    else s)

/-- LCTL_SILENCE_TIMEOUT (R46). -/
def execLctlSilenceTimeout (port : Nat) (s : State) : Result :=
  .next (let x := s.port port
    if isNative x ∧ x.st = .up ∧ x.lastLctl + 40000 ≤ s.cyc then linkDown port s else s)

/-- LREFCLK_LOSS (R485): the ports on the 16 lanes of a clock go down. -/
def execLrefclkLoss (clock : Nat) (s : State) : Result :=
  .next (forAll (fun p s => if (s.port p).formed ∧ (s.port p).st ≠ .down then linkDown p s else s)
    ((List.range 16).map (fun i => clock * 16 + i)) s)

/-- Landing space that a port may promise, in steps of one buffer. -/
def landFree (x : Port) : Nat := rttBytes x / bufBytes - x.landSteps.sum

/-- Whether a VC is due a further step of credit (R494). -/
def stepIsDue (s : State) (port vc : Nat) : Bool :=
  let x := s.port port
  x.rxOn && !isDrain s (pgLane port) && !creditHeld s port vc && decide (vc < 7) &&
    (match at0 none x.lastIn vc with
     | some t => decide (s.cyc ≤ t + x.rtt * 80)
     | none => false)
    && decide (unusedCredits x vc < ceilDiv (rttBytes x) bufBytes * 65 + 65)

/-- A step is granted with a buffer that backs it. -/
def grantStep (port vc b : Nat) (s : State) : State :=
  s.updPort port (fun x => stateDue s.cyc { x with credBufs := x.credBufs ++ [(vc, b)],
                                                   gRx := x.gRx.set vc ((at0 0 x.gRx vc + 65) % 2 ^ 32) })

/-- A VC of a long-reach port that is due a step takes one while landing space is free. -/
def grantLanding (port vc : Nat) (s : State) : State :=
  let x := s.port port
  if stepIsDue s port vc && decide (0 < landFree x) then
    s.setPort port (stateDue s.cyc { x with landSteps := x.landSteps.set vc (at0 0 x.landSteps vc + 1),
                                            gRx := x.gRx.set vc ((at0 0 x.gRx vc + 65) % 2 ^ 32) })
  else s

/-- CREDIT_GRANT (R494): the VCs of a long-reach port that are due are served in ascending VC code, so those below the named
one go first. -/
def execCreditGrant (port vc : Nat) (s : State) : Result :=
  .next (
    if stepIsDue s port vc = false then s
    else if (s.port port).longReach then forAll (grantLanding port) (List.range (vc + 1)) s
    else if s.waiters.any (fun w => w.purpose == .credit port vc) then s
    else
      match takeBuf (port / 128) vc port s with
      | some (b, s1) => grantStep port vc b s1
      | none => waitBuf (port / 128) vc port (.credit port vc) s)

/-- PORT_SNAPSHOT (R80): snap is a WO bit, so only it acts; the other fields keep their values. -/
def execPortSnapshot (req port : Nat) (s : State) : Result :=
  .next (onPath req (laneWrite port 0x100 (fun _ s => teleSnap port s)) s)

/-- TELEMETRY_CLEAR (R461). -/
def execTelemetryClear (req port : Nat) (s : State) : Result :=
  .next (onPath req (laneWrite port 0x100 (fun _ s => teleClear port s)) s)

/-- HIGH_WATER_RESET (R462). -/
def execHighWaterReset (req port vc : Nat) (s : State) : Result :=
  .next (onPath req (teleWrite port (telVc vc 5) 0) s)

end Sys2Proof.Machine
end

