-- ==== Sys2Proof/Machine/Switch.lean ====
section
/-!
DEFINITION. The switching core and the egress ports: the route choice of a packet (R62 to R67, R75, R377), its entry into
an egress buffer (R24, R309, R345), lane unparking (R417), the scheduler (R312 to R315, R322, R323), sending and the replay
store (R23, R43, R45, R70), JFP over UDP on the way out (R87), and the HELD state of a slot (R135).
-/
namespace Sys2Proof.Machine

/-! ### Lane requests (R387, R417) -/

def laneReqAddr : Nat := 0x0FFFFF00

/-- The tag of a lane request: tag[15:12] = 0xF (R492), the module-wide lane number below it (assumption 25). -/
def laneTag (port lane : Nat) : Nat := 0xF000 + (port + lane) % 4096

/-- Send a lane request through its own port, to be answered within 100 us (R387). -/
def sendLaneReq (port lane : Nat) (drop park : Bool) (s : State) : State :=
  let pay := leBytes 8 (lane % 8 + bit01 drop * 8 + bit01 park * 16)
  originate port (rawPacket s.ownFid ptMgmt vcMgt 0xFFFFF (laneTag port lane) laneReqAddr none pay) (.lane port)
    (s.updPort port (fun x => { x with laneReqs := x.laneReqs ++ [⟨lane, drop, park, s.cyc + 200000, false⟩] }))

/-- Unpark every parked lane that has no request of its own yet (R417). -/
def unparkLanes (port : Nat) (s : State) : State :=
  forAll (fun l s =>
    if (s.port port).laneReqs.any (fun q => q.lane == l) then s
    else sendLaneReq port l false true (wakeUnit (puLane (port + l)) s)) (s.port port).parkedLanes s

/-- Whether the conditions of R417 hold; a refused unpark is tried again after park_us (R418). -/
def unparkDue (s : State) (port : Nat) : Bool :=
  let x := s.port port
  !x.parkedLanes.isEmpty && decide (x.unparkAt ≤ s.cyc) &&
    (decide (s.fld (pgLane port) prtPark_unparkBytes ≤ (x.egress.map egressBytes).sum)
      || (s.flag (pgLane port) prtPark_cupWake && x.egress.any (fun e => e.vc == vcCup || e.vc == vcCdn)))

/-- A port unparks its lanes where the conditions of R417 hold. -/
def unparkCheck (port : Nat) (s : State) : State := if unparkDue s port then unparkLanes port s else s

/-- Refused unparks whose park_us has ended are tried again (R418). -/
def retryUnparks (s : State) : State := forAll (fun (x : Nat × Port) s => unparkCheck x.1 s) s.ports s

/-! ### Loads -/

/-- The header of a JFP load. -/
def loadHdr : Load → Option Packet
  | .jfp p => some p
  | .result h _ _ => some h
  | .eth _ => none

def mapHdr (f : Packet → Packet) : Load → Load
  | .jfp p => .jfp (f p)
  | .result h r q => .result (f h) r q
  | .eth x => .eth x

/-- A result as its egress port encodes it (R106, R110, R111, R143, R303), with its e2e_crc. -/
def encodeResult (s : State) (h : Packet) (r : ResultBlk) (q : Option MemberReq) : Packet :=
  let ps := if r.form = .masked then
      maskPositions s r.k.group (grpF s r.k.group grpCfg_homeQd) r.accFmt r.k.block r.nelem else []
  let f := sendForm r q ps
  let code := if f.esc then stEscaped else r.status
  let fill := fun (e : ExtHdr) => { e with wfmt := f.fmt, esc := f.esc, cSat := f.csat, status := code }
  let p := { h with payload := f.bytes, plen := f.bytes.length, ext := h.ext.map fill }
  { p with crc := e2eCrc p }

/-- The mask entry that a load is expanded by (R303): quadrant, byte and length. -/
def expandEntry (s : State) : Load → Option (Nat × Nat × Nat)
  | .result _ r (some q) =>
    if r.form = .masked ∧ q.denseRx then
      some (grpF s r.k.group grpCfg_homeQd, maskEntryAt s r.k.group r.accFmt r.k.block, fullCount r.accFmt / 8)
    else none
  | _ => none

/-- The JFP packet of a load. -/
def loadPacket (s : State) : Load → Option Packet
  | .jfp p => some p
  | .result h r q => some (encodeResult s h r q)
  | .eth _ => none

/-! ### JFP over UDP (R87) -/

/-- Sum of big-endian 16-bit words. -/
def sum16 : List Byte → Nat
  | [] => 0
  | [a] => a.toNat * 256
  | a :: b :: r => a.toNat * 256 + b.toNat + sum16 r

/-- The Internet checksum over a pseudo-header and a UDP datagram; 0 is sent as all ones. -/
def udpChecksum (src dst : List Byte) (udp : List Byte) : Nat :=
  let t := sum16 (src ++ dst ++ beBytes 4 udp.length ++ beBytes 4 17 ++ udp)
  let f := t % 65536 + t / 65536
  let g := f % 65536 + f / 65536
  let c := 65535 - g % 65536
  if c = 0 then 65535 else c

def moduleIp (s : State) : List Byte :=
  leBytes 8 (s.fld pgRoute prtIp6Lo_ip6Lo) ++ leBytes 8 (s.fld pgRoute prtIp6Hi_ip6Hi)

/-- The frame that carries a packet to an endpoint of the table (R87). A packet without an extension header has no group:
group 0 gives its source port (DESIGN CHOICE, assumption 102). -/
def udpFrame (s : State) (e : UdpEntry) (p : Packet) : EthFrame :=
  let q := { p with linkSeq := 0 }
  let data := pktImage q
  let group := match p.ext with | some x => x.group | none => 0
  let ports := beBytes 2 (49152 + group % 16384) ++ beBytes 2 (s.fld pgRoute prtUdpCfg_udpDport)
  let len := beBytes 2 (8 + data.length)
  let dst := leBytes 16 e.ip6
  let c := udpChecksum (moduleIp s) dst (ports ++ len ++ beBytes 2 0 ++ data)
  let ip := beBytes 4 0x60000000 ++ beBytes 2 (8 + data.length) ++ beBytes 1 17 ++ beBytes 1 64 ++ moduleIp s ++ dst
  { dmac := e.mac, smac := s.fld (pgLane e.port) prtMac_mac,
    tag := if e.vid = 0 then none else some (s.fld (pgLane e.port) prtPfc_cdnPcp, e.vid), etype := 0x86DD,
    body := ip ++ ports ++ len ++ beBytes 2 c ++ data, fcsOk := true }

/-! ### Routes (R63 to R67, R465, R466) -/

/-- The candidate set of a FID's route entry. -/
def routeSet (s : State) (fid : Nat) : Option Nat :=
  let e := fieldOf (lookReg s (routeAt (fid / 4))) (16 * (fid % 4)) 16
  if e / 2 ^ 15 = 1 then some (e % 4096) else none

/-- Candidate `j` of a set: (port, valid, fwd_only). -/
def candidate (s : State) (c j : Nat) : Nat × Bool × Bool :=
  let e := fieldOf (lookReg s (candAt c + 8 * (j / 4))) (16 * (j % 4)) 16
  (e % 512, e / 512 % 2 == 1, e / 1024 % 2 == 1)

/-- Eligible for a packet on `vc` (R35, R64, R377, R466): a native port that is UP and does not drain. -/
def candOk (s : State) (vc : Nat) (x : Nat × Bool × Bool) : Bool :=
  let p := s.port x.1
  x.2.1 && isNative p && p.st == .up && !isDrain s (pgLane x.1) && (!x.2.2 || vc == vcFwdA || vc == vcFwdB)

/-- The port with the fewest bytes queued, the first among equals. -/
def fewest (s : State) (vc : Nat) : List Nat → Option Nat
  | [] => none
  | p :: ps =>
    match fewest s vc ps with
    | some q => if queuedBytes (s.port q) vc < queuedBytes (s.port p) vc then some q else some p
    | none => some p

/-- The choice of R64 among the candidates of a set, in set order from the set's advancing position, which stands at candidate 0 at
first (DESIGN CHOICE, assumption 127). -/
def choosePort (s : State) (c vc : Nat) : Option Nat :=
  let pos := tget 0 s.candPos c
  let order := (List.range 16).map (fun j => candidate s c ((pos + j) % 16))
  fewest s vc ((order.filter (candOk s vc)).map (fun x => x.1))

/-- Every candidate of the set names an absent lane (R379). -/
def setAbsent (s : State) (c : Nat) : Bool :=
  let cs := ((List.range 16).map (candidate s c)).filter (fun x => x.2.1)
  !cs.isEmpty && cs.all (fun x => !lanePresent s.fuses x.1)

/-- A port that is out of service: disabled, or DRAINED (R378). -/
def portOut (s : State) (p : Nat) : Bool :=
  lanePresent s.fuses p && (!isEnabled s (pgLane p) || (isDrain s (pgLane p) && (s.port p).st == .down))

/-- Some candidate of the set names a port that is disabled or DRAINED (R378). -/
def setDisabled (s : State) (c : Nat) : Bool :=
  (List.range 16).any (fun j =>
    let x := candidate s c j
    x.2.1 && portOut s x.1)

/-! ### Leaving the ingress -/

/-- A packet that arrived through a port; the module's own packets hold no ingress credit. -/
def arrived (w : Waiting) : Bool := decide (0 < w.credits)

/-- Remove a waiting packet; its ingress space goes back. -/
def takeOut (w : Waiting) (s : State) : State :=
  let s1 := { s with waiting := s.waiting.erase w }
  if w.unit < 512 then ingressLeft w.unit w.vc s1 else s1

/-- Release the references that a discarded or delivered packet holds. -/
def dropRefs (bufs : List Nat) (unit : Nat) (s : State) : State := twinDones (forAll (fun b s => releaseShared b unit s) bufs s)

def discardW (w : Waiting) (s : State) : State := dropRefs w.bufs w.unit (takeOut w s)

/-- FAILED_LINK for a collective packet that a CDN discard concerns (R67). -/
def failDown (w : Waiting) (h : Packet) (s : State) : State :=
  match w.org, h.ext with
  | .down k lo hi, _ => sendStatus w.unit h.dst k lo hi stFailedLink 0 s
  | _, some e => sendStatus w.unit h.dst (extKey e) e.lo e.hiIncl stFailedLink 0 s
  | _, none => s

/-- A packet that a core or the chain engine sends (R176, R197, R198). -/
def programSend (w : Waiting) : Bool := decide (1024 ≤ w.unit) && decide (w.unit < 1600)

/-- The item that a program's CWRITE belongs to is reported to its member on this switch (R378, R379). -/
def reportItem (w : Waiting) (h : Packet) (st : Nat) (s : State) : State :=
  match h.ext with
  | some e =>
    if programSend w ∧ h.ptype = ptCwrite then sendStatus w.unit h.src (extKey e) e.lo e.hiIncl st 0 s else s
  | none => s

/-- A packet that no candidate can take: discarded, counted and reported (R67). A unit that is no port keeps no count
(assumption 98). -/
def noCandidate (w : Waiting) (h : Packet) (s : State) : State :=
  let s1 := reportOpen h.src clsUnreach w.unit (teleAdd w.unit telUnreach 1 (discardW w s))
  let s2 := if isReqVc h.vc then sendTransport w.unit h.src vcRsp h.tag tsUnreachable s1 else s1
  if h.ptype = ptCresult then failDown w h s2 else s2

/-- A packet that nothing can take (R67). A program's packet through an absent port is answered ABSENT and nothing else happens
(R7, R379); one that meets a disabled or DRAINED port is reported as well (R378). -/
def noTaker (w : Waiting) (h : Packet) (absent disabled : Bool) (s : State) : State :=
  if programSend w && absent then reportItem w h stAbsent (absentCmd w.unit (discardW w s))
  else if programSend w && disabled then reportItem w h stAbortedDisabled (disabledWork w.unit (noCandidate w h s))
  else noCandidate w h s

/-- A packet with no eligible candidate of its set, if it has one. -/
def unreachable (w : Waiting) (h : Packet) (c : Option Nat) (s : State) : State :=
  match c with
  | some c => noTaker w h (setAbsent s c) (setDisabled s c) s
  | none => noCandidate w h s

/-- A packet that arrives with ttl = 0 (R66). -/
def ttlExpired (w : Waiting) (h : Packet) (s : State) : State :=
  let s1 := teleAdd w.unit telTtl 1 (discardW w s)
  if isReqVc h.vc then sendTransport w.unit h.src vcRsp h.tag tsTtlExpired s1 else s1

/-- VC_FWD_B at a dateline (R75): counted at the dateline port (DESIGN CHOICE, assumption 98). -/
def datelineDrop (port : Nat) (w : Waiting) (h : Packet) (s : State) : State :=
  sendTransport w.unit h.src vcRsp h.tag tsUnreachable (teleAdd port telUnreach 1 (discardW w s))

/-- Delivery to the switch's own units (R65), judged as an arriving packet would be (R59). A packet on VC_MGT that came through
a port stands in its management buffer from now on, and its ingress space goes back (R79). -/
def deliverLocal (w : Waiting) (s : State) : State :=
  match loadPacket s w.load with
  | none => discardW w s
  | some p =>
    if headerOk p = false then headerBad w.unit p (discardW w s)
    else if w.vc = vcMgt ∧ arrived w then
      let x : InPkt := { arrivedPkt w p with buf := none, pool := w.bufs.head?, home := none }
      takeOut w { s with inbox := insertIn x s.inbox }
    else deliverIn w p { s with waiting := s.waiting.erase w }

/-! ### Entering an egress buffer (R24) -/

/-- Bytes of room in use for a VC of a native port, or a TC of an Ethernet-mode port: what waits, and what has not been sent
to its end. -/
def roomUsed (now : Nat) (x : Port) (vc tc : Nat) : Nat :=
  (((x.egress ++ (if x.sendEnd ≤ now then [] else x.sending.toList)).filter (fun e =>
    if x.eth then e.tc == tc else e.vc == vc)).map egressBytes).sum

def hasRoom (now : Nat) (x : Port) (vc tc bytes : Nat) : Bool :=
  decide (roomUsed now x vc tc + bytes ≤ if x.eth then 18432 else 16640)

def classEmpty (x : Port) (t : Nat) : Bool := !x.egress.any (fun e => e.tc == t)

/-- A class whose lists were all empty has deficit 0, and its visit has ended (R314). -/
def freshClass (t : Nat) (x : Port) : Port :=
  if classEmpty x t then
    if x.inVisit ∧ x.drrPos = t then
      { x with deficit := x.deficit.set t 0, drrPos := (t + 1) % 8, inVisit := false }
    else { x with deficit := x.deficit.set t 0 }
  else x

/-- A packet joins the egress: the high-water mark of its VC and the unparking of lanes follow. -/
def joinEgress (port : Nat) (e : EPkt) (s : State) : State :=
  let s1 := s.updPort port (fun x => { freshClass e.tc x with egress := x.egress ++ [e] })
  let x := s1.port port
  let s2 := if x.eth then s1
    else teleSet port (telVc e.vc 5) (max (teleOf s1 port (telVc e.vc 5)) (queuedBytes x e.vc)) s1
  unparkCheck port s2

/-- orig_tc of a VC at a port (R309). -/
def origTc (s : State) (port vc : Nat) : Nat := lookFld s (pgLane port) prtSched_origTc / 2 ^ (3 * vc) % 8

/-- Packets of chains and of stream programs carry the tc and ttl of their image (R309). -/
def keepsTc (w : Waiting) : Bool :=
  arrived w || programSend w

/-- The header fields that may change where a packet joins an egress buffer (R55, R66, R75, R309, the field ce). -/
def hopHdr (s : State) (w : Waiting) (port vc : Nat) (h : Packet) : Packet :=
  let th := lookFld s (pgLane port) prtSched_ceTh
  { h with vc := vc, ttl := if arrived w then h.ttl - 1 else h.ttl,
           tc := if keepsTc w then h.tc else origTc s port vc,
           ce := h.ce || (decide (0 < th) && decide (th * 64 < queuedBytes (s.port port) vc)) }

/-- A packet that passes through is checked end to end: a mismatch is counted at its ingress port, and it goes on (R60). -/
def passCheck (w : Waiting) (s : State) : State :=
  match w.load with
  | .jfp p => if arrived w && !crcGood p then teleAdd w.unit telE2e 1 s else s
  | _ => s

/-- Enter the switching core toward a native port, or stay where it is for want of room; a result is encoded here (R106). -/
def enterNative (port : Nat) (c : Option Nat) (w : Waiting) (h : Packet) (s : State) : State :=
  let vc := if h.vc = vcFwdA ∧ s.flag (pgLane port) prtCfg_dateline then vcFwdB else h.vc
  if h.vc = vcFwdB ∧ s.flag (pgLane port) prtCfg_dateline then datelineDrop port w h s
  else
    match loadPacket s w.load with
    | none => discardW w s
    | some p =>
      let q := hopHdr s w port vc p
      let e : EPkt := ⟨.jfp q, vc, q.tc, w.org, w.bufs, w.unit⟩
      if hasRoom s.cyc (s.port port) vc q.tc (egressBytes e) = false then s
      else
        let s1 := passCheck w s
        let s2 := match c with
          | some c => { s1 with candPos := tset 0 s1.candPos c ((tget 0 s1.candPos c + 1) % 16) }
          | none => s1
        joinEgress port e (takeOut w s2)

/-- Enter toward the UDP endpoint of a FID (R87): the frame is built here, the result encoded for its member (R106). -/
def enterUdp (u : UdpEntry) (w : Waiting) (h : Packet) (s : State) : State :=
  let x := s.port u.port
  if (x.formed && x.eth && x.st == .up && !isDrain s (pgLane u.port)) = false then
    noTaker w h (!lanePresent s.fuses u.port) (portOut s u.port) s
  else
    match loadPacket s w.load with
    | none => discardW w s
    | some p =>
      let q := if arrived w then { p with ttl := p.ttl - 1 } else if keepsTc w then p
        else { p with tc := origTc s u.port p.vc }
      let tc := s.fld (pgLane u.port) prtPfc_cdnPcp
      let e : EPkt := ⟨.eth (udpFrame s u q), 0, tc, w.org, w.bufs, w.unit⟩
      if hasRoom s.cyc x 0 tc (egressBytes e) = false then s else joinEgress u.port e (takeOut w (passCheck w s))

/-- A bridged frame enters its port's list, or is dropped with a port that is no longer UP (R81) or drains (R30). -/
def enterFrame (port : Nat) (f : EthFrame) (w : Waiting) (s : State) : State :=
  let x := s.port port
  let e : EPkt := ⟨.eth f, 0, frameTc f, w.org, w.bufs, w.unit⟩
  if (x.formed && x.eth && x.st == .up && !isDrain s (pgLane port)) = false then discardW w s
  else if hasRoom s.cyc x 0 (frameTc f) (egressBytes e) = false then s
  else joinEgress port e (takeOut w s)

/-- Forward a packet that is not for this switch (R64, R66, R67, R87). -/
def forward (w : Waiting) (h : Packet) (s : State) : State :=
  if arrived w ∧ h.ttl = 0 then ttlExpired w h s
  else
    match (if h.ptype = ptCresult ∨ h.ptype = ptStatus then udpEntry s h.dst else none) with
    | some u => enterUdp u w h s
    | none =>
      match routeSet s h.dst with
      | none => unreachable w h none s
      | some c =>
        match choosePort s c h.vc with
        | none => unreachable w h (some c) s
        | some p => enterNative p (some c) w h s

/-! ### Parity in transit (R345) -/

/-- Remember since when the egress holds nothing (R416). -/
def noteIdle (port : Nat) (s : State) : State :=
  let x := s.port port
  if x.egress = [] ∧ x.copying = [] then s.setPort port { x with idleSince := s.cyc } else s

/-- Every copy of a shared result buffer that is still unsent is lost: FAILED_LINK to its destination (R345). -/
def sharedLost (b : Nat) (s : State) : State :=
  let ws := s.waiting.filter (fun w => w.bufs.contains b)
  let s1 := forAll (fun w s =>
    match loadHdr w.load with
    | some h => failDown w h (discardW w s)
    | none => discardW w s) ws s
  forAll (fun (p : Nat × Port) s =>
    forAll (fun (e : EPkt) s =>
      let s2 := s.updPort p.1 (fun x => { x with egress := x.egress.erase e })
      drainedDown p.1 (noteIdle p.1 (lostPacket p.1 e.load e.org (dropRefs e.bufs p.1 s2)))) (p.2.egress.filter (fun e => e.bufs.contains b)) s)
    s1.ports s1

/-- A packet in transit with a hard parity error is discarded (R345). -/
def transitLost (w : Waiting) (s : State) : State :=
  match w.bufs.head?, w.org with
  | some b, .down _ _ _ => sharedLost b s
  | _, .cnode k _ _ => abortKey k stFailedLink 0 (discardW w s)
  | _, .stale => discardW w s
  | _, _ =>
    let s1 := discardW w s
    match loadHdr w.load with
    | none => s1
    | some h =>
      match h.ext with
      | none => s1
      | some e =>
        if h.vc = vcCup then sendStatus w.unit h.src (extKey e) e.lo e.hiIncl stFailedLink 0 s1
        else abortKey (extKey e) stFailedLink 0 s1

/-- A buffer that a packet is read from has a handle that the Cellar refuses: a hard parity error of it (R344). -/
def refusedRef (s : State) (w : Waiting) : Option Nat := (w.bufs ++ w.home.toList).find? (bufRefused s)

/-- A write into buffer `b` was refused: what waits to be read from it is lost in transit (R344, R345). -/
def lostIfRefused (b : Nat) (s : State) : State :=
  if bufRefused s b then
    forAll transitLost (s.waiting.filter (fun w => w.bufs.contains b)) (countParity (bufQuad b) .hard s)
  else s

/-- A waiting packet tries to enter the switching core. -/
def enterCore (w : Waiting) (par : Parity) (s : State) : State :=
  let s0 := countParity (unitQuad w.unit) par s
  match refusedRef s w with
  | some b => transitLost w (countParity (bufQuad b) .hard (refuseHandle (bufQuad b) w.unit s0))
  | none =>
  if par = .hard then transitLost w s0
  else
    match w.org, w.load, loadHdr w.load with
    | .bridge p, .eth f, _ => enterFrame p f w s0
    | .lane p, _, some h =>
      if (s0.port p).st = .up then enterNative p none w h s0 else discardW w s0
    | _, _, some h =>
      if headerOk h = false then headerBad w.unit h (discardW w s0)
      else if h.dst = 0xFFFFF ∧ arrived w = false then forward w h s0
      else if addressedHere s0 h.dst then deliverLocal w s0
      else forward w h s0
    | _, _, none => discardW w s0

/-- A result whose mask entry cannot be read is lost to its destination (R350; DEDUCED, assumption 121). -/
def expandLost (w : Waiting) (s : State) : State :=
  match loadHdr w.load with
  | some h => failDown w h (discardW w s)
  | none => discardW w s

/-- A result that is expanded by its mask entry reads it in bulk class as it enters the core: its pseudo-channels wake first
(R28, R303, R355). -/
def enterExpanded (w : Waiting) (par : Parity) (s : State) : State :=
  match (if par = .hard then none else expandEntry s w.load) with
  | none => enterCore w par s
  | some (q, off, n) =>
    match hbmAsk s q off n with
    | .asleep => hbmWake q off n s
    | .ready =>
      let s1 := enterCore w par s
      if s1.waiting.contains w then s1 else hbmMoved .bulk q off n s1
    | .refused => expandLost w s
    | .beyond => expandLost w (refusePage q w.unit s)

/-- A frame, or a packet out of a frame, that still waits for its buffers (R338, R341). -/
def needsBuf (s : State) (w : Waiting) : Bool :=
  decide (w.unit < 512) && (s.port w.unit).eth && w.bufs.isEmpty &&
    (arrived w || (match w.org with | .bridge _ => true | _ => false))

/-- A packet on VC_MGT that the switch forms, or that is addressed to it, and that has no management buffer yet (R79, R338). -/
def needsMgmt (s : State) (w : Waiting) : Bool :=
  w.vc == vcMgt && w.bufs.isEmpty &&
    (match loadHdr w.load with | some h => !arrived w || addressedHere s h.dst | none => false)

/-- The first packet of a unit that waits for a management buffer takes buffer `b`; a packet of the switch's own is read from
it once, by the port it leaves through. -/
def mgmtGive (unit b : Nat) (s : State) : State :=
  match s.waiting.find? (fun w => w.unit == unit && needsMgmt s w) with
  | none => freeBuf b unit none s
  | some w =>
    let s1 := match loadHdr w.load with | some h => fillPacket b unit h s | none => s
    let s2 := if arrived w then s1 else freeBuf b unit none (shareBuf b 1 unit none s1)
    lostIfRefused b { s2 with waiting := s2.waiting.map (fun x => if x = w then { w with bufs := [b] } else x) }

/-- Take a management buffer for a unit's packet from the VC_MGT pool of its quadrant, or wait for one (R341). -/
def mgmtTake (unit : Nat) (s : State) : State :=
  if s.waiters.any (fun w => w.purpose == .mgmt unit) then s
  else
    match takeBuf (unitQuad unit) vcMgt unit s with
    | some (b, s1) => mgmtGive unit b s1
    | none => waitBuf (unitQuad unit) vcMgt unit (.mgmt unit) s

/-- A landed packet is read back from its landing zone: its pseudo-channels wake first (R355), and what the stacks refuse is
lost as a packet in transit is (R350, R377). -/
def enterLanded (w : Waiting) (par : Parity) (s : State) : State :=
  let q := unitQuad w.unit
  let base := landBase (s.port w.unit)
  match askPieces s q base w.spots with
  | .asleep => wakePieces q base w.spots s
  | .ready =>
    let s1 := enterCore w par s
    if s1.waiting.contains w then s1 else movedPieces .bulk q base w.spots s1
  | .refused => transitLost w s
  | .beyond => transitLost w (refusePage q w.unit s)

/-- The packet at place `n` of a unit's VC. -/
def waitingAt (s : State) (unit vc n : Nat) : Option Waiting := (s.waiting.filter (fun w => w.unit == unit && w.vc == vc))[n]?

/-- SWITCH_ENTRY (R24): packet `n` of those that wait at a unit on a VC. Landed packets leave in their order, before any
later arrival on their VC (R54). A packet on VC_MGT takes its management buffer first (R338). -/
def execSwitchEntry (unit vc n : Nat) (par : Parity) (s : State) : Result :=
  let ws := s.waiting.filter (fun w => w.unit == unit && w.vc == vc)
  .next (match ws[n]? with
    | none => s
    | some w =>
      if (ws.take n).any (fun x => x.landed) ∨ needsBuf s w then s
      else
        let s1 := if needsMgmt s w then mgmtTake unit s else s
        match waitingAt s1 unit vc n with
        | none => s1
        | some w1 => if needsMgmt s1 w1 then s1 else if w1.landed then enterLanded w1 par s1 else enterExpanded w1 par s1)

/-! ### The scheduler -/

/-- Bytes of an egress packet as sent. -/
def chargedLen (s : State) (port : Nat) (e : EPkt) : Nat := egressBytes e + ovhOf s port

def paused (s : State) (x : Port) (t : Nat) : Bool :=
  x.eth && (match at0 none x.pausedTo t with | some c => decide (s.cyc < c) | none => false)

/-- R312: credit or pause, gate, shaper. -/
def eligible (s : State) (port : Nat) (e : EPkt) : Bool :=
  let x := s.port port
  creditOk x e && !paused s x e.tc && gateAdmits s port e.tc (chargedLen s port e)
    && decide (0 ≤ (shaperNow s port e.tc).t)

/-- The eligible head of class `t` that R315 takes: the first VC in rotation after the one served last. -/
def classHead (s : State) (port t : Nat) : Option EPkt :=
  let x := s.port port
  let start := at0 6 x.lastVc t + 1
  (List.range (if x.eth then 1 else 7)).findSome? (fun i =>
    match headOf x t (if x.eth then 0 else (start + i) % 7) with
    | some e => if eligible s port e then some e else none
    | none => none)

def isStrict (s : State) (port t : Nat) : Bool := lookFld s (pgLane port) prtSched_sp / 2 ^ t % 2 == 1

/-- The highest strict class with an eligible head. -/
def strictPick (s : State) (port : Nat) : Option EPkt :=
  [7, 6, 5, 4, 3, 2, 1, 0].findSome? (fun t => if isStrict s port t then classHead s port t else none)

def quantumOf (s : State) (port t : Nat) : Nat := max 1 (lookFld s (pgLane port) (prtQuantum_quantum t)) * 256

/-- Deficit-weighted round robin (R314) from a port's present place: the port with its new place, and the packet to send.
The fuel bounds the visits. -/
def drrPick (s : State) (port : Nat) : Nat → Port → Port × Option EPkt
  | 0, x => (x, none)
  | fuel + 1, x =>
    let t := x.drrPos
    let next := { x with drrPos := (t + 1) % 8, inVisit := false }
    if isStrict s port t then drrPick s port fuel next
    else
      match classHead s port t with
      | none =>
        if classEmpty x t then drrPick s port fuel { next with deficit := x.deficit.set t 0 }
        else drrPick s port fuel next
      | some e =>
        let d := if x.inVisit then at0 0 x.deficit t else at0 0 x.deficit t + quantumOf s port t
        let c := chargedLen s port e
        if c ≤ d then ({ x with inVisit := true, deficit := x.deficit.set t (d - c) }, some e)
        else drrPick s port fuel { next with deficit := x.deficit.set t d }

/-- The visit of a class that has no eligible head has ended (R314). -/
def endVisit (s : State) (port : Nat) (x : Port) : Port :=
  if x.inVisit && (classHead s port x.drrPos).isNone then { x with drrPos := (x.drrPos + 1) % 8, inVisit := false } else x

/-- A new packet by R314, and the port's place in its rotation afterwards. -/
def pickNew (s : State) (port : Nat) : Port × Option EPkt :=
  let x := endVisit s port (s.port port)
  match strictPick s port with
  | some e => (x, some e)
  | none =>
    if (List.range 8).any (fun t => !isStrict s port t && (classHead s port t).isSome) then drrPick s port 512 x
    else (x, none)

/-! ### Sending -/

/-- Bytes that a port's replay store holds at most (R47). -/
def replayCap (x : Port) : Nat := if x.longReach then rttBytes x else x.w * 52428 + x.w * 4 / 5

def replayBytes (x : Port) : Nat := (x.replay.map (fun e => pktBytes e.pkt)).sum

/-- The port stops while a copy cannot be placed (R26, R43). -/
def replayRoom (x : Port) (n : Nat) : Bool :=
  decide (replayBytes x + n ≤ replayCap x) && decide (x.replay.length + 1 < 2 ^ 23)

/-- Busy until what starts now ends (R318, R323): a new packet `e`, which holds its room until then (R24), or a resend or a PFC
frame. -/
def busyFor (port bytes : Nat) (e : Option EPkt) (s : State) : State :=
  s.updPort port (fun x =>
    { x with sendEnd := s.cyc + sendTime (bytes + ovhOf s port) x.w, sendTc := e.map (fun y => y.tc), sending := e })

/-- The first lists served, shaper and rotation of a class after a packet of it starts (R315, R317). -/
def chargeSend (port : Nat) (e : EPkt) (s : State) : State :=
  shaperSend port e.tc (chargedLen s port e)
    (s.updPort port (fun x => { x with lastVc := x.lastVc.set e.tc (if x.eth then 6 else e.vc) }))

/-- Where the next packet of a port stands in its replay store in HBM, a ring of bytes: right behind the last one (R47, R49;
assumption 95). -/
def replayPos (x : Port) : Nat :=
  match x.replay.getLast? with
  | some e => if rttBytes x ≤ e.pos + pktBytes e.pkt then e.pos + pktBytes e.pkt - rttBytes x else e.pos + pktBytes e.pkt
  | none => 0

/-- The pieces of the store that `n` bytes from `pos` take: what does not fit before its end stands at its start. -/
def replaySpans (x : Port) (pos n : Nat) : List (Nat × Nat) :=
  if rttBytes x < pos + n then [(pos, rttBytes x - pos), (0, pos + n - rttBytes x)] else [(pos, n)]

/-- First byte of a port's replay store in its quadrant's stacks. -/
def replayBase (x : Port) : Nat := match x.replayPg with | some r => pageAddr r.1 | none => 0

/-- A long-reach port writes every packet it sends into its replay store (R49), in bulk class (R27). -/
def replayWrite (port pos : Nat) (p : Packet) (s : State) : State :=
  let x := s.port port
  if x.longReach then
    forAll (fun r s => hbmPut .bulk (port / 128) (replayBase x + r.1) r.2 port s)
      (pieceBytes (replaySpans x pos (pktBytes p)) (pktImage p)) s
  else s

/-- Number a packet of a native port and keep it in the replay store (R43, R45). -/
def numberSent (port : Nat) (p : Packet) (org : Origin) (abort : Bool) (s : State) : State :=
  let x := s.port port
  let pos := replayPos x
  replayWrite port pos p (s.updPort port (fun x =>
    { x with txSeq := (x.txSeq + 1) % 2 ^ 24, replay := x.replay ++ [⟨x.txSeq, p, org, abort, pos⟩],
             ackAt := match x.ackAt with | some t => some t | none => some (s.cyc + retryTime x) }))

/-- A packet of a native port starts to leave: its time on the wire, its class's shaper and rotation. -/
def startNative (port : Nat) (e : EPkt) (p : Packet) (abort : Bool) (s : State) : State :=
  (chargeSend port e (busyFor port (pktBytes p) (some e) s)).emit (.packet port p abort)

/-- A new packet of a native port starts: numbered, kept in the replay store, its credits consumed (R43, R45, R51). -/
def sendNative (port : Nat) (e : EPkt) (p0 : Packet) (s : State) : State :=
  let p := { p0 with linkSeq := (s.port port).txSeq }
  let s1 := numberSent port p e.org false (startNative port e p false s)
  let s2 := s1.updPort port (fun x =>
    { x with egress := x.egress.erase e, copying := x.copying ++ [e],
             cTx := x.cTx.set e.vc ((at0 0 x.cTx e.vc + pktCredits p) % 2 ^ 32) })
  teleAdd port (telVc e.vc 3) (pktBytes p) (teleAdd port (telVc e.vc 2) 1 s2)

/-- A codeword of a packet that is already leaving can turn out bad while its ingress link still receives it: it came through a
native port, and it is the last packet that the port has accepted (R69, R70). -/
def stillArriving (s : State) (e : EPkt) (p : Packet) : Bool :=
  let x := s.port e.unit
  decide (e.unit < 512) && isNative x && x.rxOn && !x.nakSent && x.e == (p.linkSeq + 1) % 2 ^ 24

/-- The ingress link recovers the original by retry (R70): its packet counts as corrupted, not as received, and a NAK goes out
(R44). -/
def unaccept (port : Nat) (p : Packet) (vc : Nat) (s : State) : State :=
  let s1 := s.updPort port (fun x =>
    { x with e := p.linkSeq % 2 ^ 24, cRx := x.cRx.set vc ((at0 0 x.cRx vc + 2 ^ 32 - pktCredits p) % 2 ^ 32) })
  let s2 := teleSet port (telVc vc 0) (teleOf s1 port (telVc vc 0) - 1) s1
  let s3 := teleSet port (telVc vc 1) (teleOf s2 port (telVc vc 1) - pktBytes p) s2
  sendNak port (teleAdd port telUncorr 1 s3)

/-- The egress port ends the packet with an abort marker and counts it; the recovered copy comes again through the ingress port
as a new packet, which the switch routes and numbers anew (R70). It counts among neither the packets and bytes sent nor the credits
consumed (DESIGN CHOICE, assumption 136). -/
def sendAborted (port : Nat) (e : EPkt) (p0 : Packet) (s : State) : State :=
  let p := { p0 with linkSeq := (s.port port).txSeq }
  let s1 := numberSent port p .none true (startNative port e p true s)
  let s2 := dropRefs e.bufs port (s1.updPort port (fun x => { x with egress := x.egress.erase e }))
  let vc := if p0.vc = vcFwdB ∧ s.flag (pgLane port) prtCfg_dateline then vcFwdA else p0.vc
  noteIdle port (unaccept e.unit p0 vc (teleAdd port telAbortTx 1 s2))

/-- The references of frames that have left an Ethernet-mode port whole are released. -/
def frameDone (port : Nat) (s : State) : State :=
  let x := s.port port
  if x.eth ∧ x.sendEnd ≤ s.cyc ∧ x.copying ≠ [] then
    noteIdle port (forAll (fun (e : EPkt) s => dropRefs e.bufs port s) x.copying (s.setPort port { x with copying := [] }))
  else s

/-- A frame of an Ethernet-mode port starts; nothing keeps it for a resend. It holds its room until it has been sent (R24). -/
def sendFrame (port : Nat) (e : EPkt) (s : State) : State :=
  match e.load with
  | .eth f =>
    let s1 := (chargeSend port e (busyFor port (frameLen f) (some e) (frameDone port s))).emit (.eth port f)
    s1.updPort port (fun x => { x with egress := x.egress.erase e, copying := x.copying ++ [e] })
  | _ => s

/-- Resend the packet at the replay position (R45). -/
def resendFrom (port r : Nat) (e : Sent) (s : State) : State :=
  let s1 := (busyFor port (pktBytes e.pkt) none s).emit (.packet port e.pkt e.aborted)
  teleAdd port telReplayed 1 (s1.updPort port (fun x => { x with resend := some ((r + 1) % 2 ^ 24) }))

/-- The same out of a store in HBM, read in the latency-critical class (R27): its pseudo-channels wake first (R355), and what
the stacks refuse takes the link down (R350, R377). -/
def resendNext (port r : Nat) (s : State) : State :=
  let x := s.port port
  match x.replay.find? (fun e => e.linkSeq == r) with
  | none => s
  | some e =>
    if x.longReach then
      let rs := replaySpans x e.pos (pktBytes e.pkt)
      match askPieces s (port / 128) (replayBase x) rs with
      | .ready => resendFrom port r e (movedPieces .lc (port / 128) (replayBase x) rs s)
      | .asleep => wakePieces (port / 128) (replayBase x) rs s
      | .refused => linkDown port s
      | .beyond => linkDown port (refusePage (port / 128) port s)
    else resendFrom port r e s

/-- Whether a port may start anything: UP, at a packet boundary, and not in an idle-window recalibration (R388). -/
def maySend (s : State) (x : Port) : Bool :=
  x.formed && x.st == .up && decide (x.sendEnd ≤ s.cyc)
    && (match x.recalTo with | some t => decide (t ≤ s.cyc) | none => true)

/-- The new packet that was chosen starts (R313, R314). -/
def sendNew (port : Nat) (abort : Bool) (e : EPkt) (s : State) : State :=
  match e.load with
  | .eth _ => sendFrame port e s
  | .jfp p => if abort && stillArriving s e p then sendAborted port e p s else sendNative port e p s
  | .result _ _ _ => s

/-- How the place of the next packet's copy in a long-reach port's replay store stands (R26, R49). -/
def replayAsk (s : State) (port n : Nat) : HbmAns :=
  let x := s.port port
  if x.longReach then askPieces s (port / 128) (replayBase x) (replaySpans x (replayPos x) n) else .ready

/-- Start a new packet, with the port's rotation as `y` leaves it, once its copy can be placed: the port stops while its store is
full, or while the stacks cannot take the copy, whose pseudo-channels wake (R26, R43). -/
def sendPlaced (port : Nat) (abort : Bool) (y : Port) (e : EPkt) (s : State) : State :=
  let x := s.port port
  if x.eth then sendNew port abort e (s.setPort port y)
  else if replayRoom x (egressBytes e) = false then s
  else
    match replayAsk s port (egressBytes e) with
    | .ready => sendNew port abort e (s.setPort port y)
    | .asleep => wakePieces (port / 128) (replayBase x) (replaySpans x (replayPos x) (egressBytes e)) s
    | .refused | .beyond => s

/-- The turn of a port that may send: a PAUSE frame, then a packet of a replay, then a new packet. -/
def sendTurn (port : Nat) (abort : Bool) (s : State) : State :=
  let x := s.port port
  match x.pfcDue, x.resend with
  | (t, q) :: rest, _ =>
    let s1 := (busyFor port 64 none s).emit (.pfc port t q)
    teleAdd port (telPfcTx t) 1 (s1.updPort port (fun x => { x with pfcDue := rest }))
  | [], some r => resendNext port r s
  | [], none =>
    match pickNew s port with
    | (y, none) => s.setPort port y
    | (y, some e) => sendPlaced port abort y e s

/-- The first item in the order of R313; the gates stand at the entry of this cycle (R320, R323). -/
def sendOne (port : Nat) (abort : Bool) (s : State) : State :=
  if maySend s (s.port port) = false then s else sendTurn port abort (gateView s port)

/-- PACKET_SEND (R313). -/
def execPacketSend (port : Nat) (abort : Bool) (s : State) : Result := .next (sendOne port abort s)

/-! ### The replay copy (R23) and the HELD state (R135) -/

/-- With every emit bit set and every CNODE in a replay store, a slot gives back its buffers and its reservation. -/
def slotHeld (k : Key) (s : State) : State :=
  match s.slotOf k with
  | none => s
  | some x =>
    let all := (scopeEmits (slotScope s x)).all (fun e => x.emitted.contains (e.lo, e.hi))
    if x.st = .opened ∧ x.sends = 0 ∧ all ∧ isRoot s k.group = false then
      sramNote k.group ((freeParts x s).setSlot { x with st := .held, parts := [], reserved := 0 })
    else s

/-- A CNODE of a slot is in the replay store. -/
def cnodeCopied (k : Key) (s : State) : State :=
  match s.slotOf k with
  | none => s
  | some x => slotHeld k (s.setSlot { x with sends := x.sends - 1 })

/-- REPLAY_COPY_DONE (R23); at an Ethernet-mode port, which has no replay store, the end of a frame. -/
def execReplayCopyDone (port : Nat) (s : State) : Result :=
  .next (if (s.port port).eth then drainedDown port (frameDone port s) else match (s.port port).copying with
    | [] => s
    | e :: rest =>
      let s1 := dropRefs e.bufs port (s.updPort port (fun x => { x with copying := rest }))
      let s2 := match e.org with
        | .cnode k _ _ => cnodeCopied k s1
        | _ => s1
      drainedDown port (noteIdle port s2))

/-! ### Arrival at a native port -/

/-- A header that passed R59 waits in its ingress buffer, metered (R24, R325, R328); with that buffer full, in the landing zone
(R54), whose writes are latency-critical (R27). A refused write is a hard parity error of the packet (R344, R345). -/
def acceptPacket (port : Nat) (p : Packet) (s : State) : State :=
  let x := s.port port
  let n := pktCredits p
  let (red, s0) := if p.vc = vcCup ∨ p.vc = vcCdn then (false, s) else meterAtPort port p.tc (pktBytes p) s
  let q := if red then { p with tc := 0, dm := true } else p
  let landed := x.longReach && decide (65 < onDieCredits s port p.vc + n)
  let spots := if landed then landSpots s port n else []
  let home := if landed then none else ingressBuf s port p.vc
  let s1 := if landed then
      forAll (fun r s => hbmPut .landing (port / 128) (landBase x + r.1) r.2 port s) (pieceBytes spots (pktImage q))
        (teleAdd port telLanded (pktBytes p) s0)
    else
      match home with
      | some b => fillPacket b port q s0
      | none => s0
  let w : Waiting := { unit := port, vc := p.vc, load := .jfp q, landed := landed, org := .none, credits := n, bufs := [],
                       frame := 0, tc := 0, spots := spots, seq := s1.arrivals, home := home }
  let s2 := { s1 with waiting := s1.waiting ++ [w], arrivals := s1.arrivals + 1 }
  match home with
  | some b => if bufRefused s b then transitLost w (countParity (bufQuad b) .hard s2) else s2
  | none => s2

/-- The receiver delivers a packet (R44, R51, R59, R80). -/
def deliverPacket (port : Nat) (p : Packet) (s : State) : State :=
  let n := pktCredits p
  let s1 := s.updPort port (fun x =>
    { x with cRx := x.cRx.set p.vc ((at0 0 x.cRx p.vc + n) % 2 ^ 32), lastIn := x.lastIn.set p.vc (some s.cyc) })
  let s2 := if p.vc < 7 then teleAdd port (telVc p.vc 1) (pktBytes p) (teleAdd port (telVc p.vc 0) 1 s1) else s1
  if headerOk p then acceptPacket port p s2 else ingressLeft port p.vc (headerBad port p s2)

/-- PACKET_ARRIVE (R42, R44, R491). -/
def execPacketArrive (port : Nat) (cls : RxClass) (fec : RxFec) (p : Packet) (s : State) : Result :=
  .next (
    let x := s.port port
    let s1 := fecSeen port fec s
    let c := rxClass cls fec
    if isNative x = false then s1
    else if x.rxOn = false then protoErr port s1
    else if c = .clean ∧ p.linkSeq = x.e then deliverPacket port p (advanceE port s1)
    else if c = .aborted ∧ p.linkSeq = x.e then advanceE port (teleAdd port telAbortRx 1 s1)
    else if x.nakSent then teleAdd port telRetry 1 s1
    else sendNak port s1)

end Sys2Proof.Machine
end

