-- ==== Sys2Proof/Machine/Ethernet.lean ====
section
/-!
DEFINITION. Ethernet mode: frames that are discarded, learned, bridged or flooded (R81), JFP over UDP on its way in (R86,
R88), policing of frames (R328), buffers of frames (R331, R335, R338), priority flow control (R329, R330) and the limit of
a pause on cdn_pcp (R84).
-/
namespace Sys2Proof.Machine

/-! ### Reading a frame -/

/-- A big-endian number of `n` bytes at an offset. -/
def beAt (bs : List Byte) (off n : Nat) : Nat := leVal (((bs.drop off).take n).reverse)

def etMacControl : Nat := 0x8808
def etIp6 : Nat := 0x86DD

/-- Multicast or broadcast destination: bit 0 of the first byte of the address, whose byte 0 is the most significant here. -/
def isMulticast (mac : Nat) : Bool := mac / 2 ^ 40 % 2 == 1

/-- The VLAN of a frame at a port: its C-tag's VID, or the port's default for an untagged or priority-tagged frame; none
for the reserved VID 4,095 (R81). A default of 0 or 4,095 is taken as it stands (DESIGN CHOICE, assumption 100). -/
def frameVid (s : State) (port : Nat) (f : EthFrame) : Option Nat :=
  match f.tag with
  | some (_, v) => if v = 0 then some (s.fld (pgLane port) prtEth_pvid) else if v < 4095 then some v else none
  | none => some (s.fld (pgLane port) prtEth_pvid)

/-- The address of a port as a number whose most significant byte goes first on the wire. -/
def portMac (s : State) (port : Nat) : Nat := s.fld (pgLane port) prtMac_mac

/-- A Neighbour Solicitation for the module's address (R88). -/
def isSolicit (s : State) (f : EthFrame) : Bool :=
  f.etype == etIp6 && beAt f.body 0 1 / 16 == 6 && beAt f.body 6 1 == 58 && beAt f.body 40 1 == 135
    && (f.body.drop 48).take 16 == moduleIp s

/-- The JFP packet of a frame that passes every check of R86. -/
def udpAccept (s : State) (port : Nat) (f : EthFrame) : Option Packet :=
  let b := f.body
  let ulen := beAt b 44 2
  let udp := (b.drop 40).take ulen
  let src := (b.drop 8).take 16
  let dst := (b.drop 24).take 16
  let p := parsePacket (b.drop 48)
  let clear := udp.take 6 ++ [0, 0] ++ udp.drop 8
  let named := match udpEntry s p.src with
    | some e => e.port == port && e.mac == f.smac && leBytes 16 e.ip6 == src
    | none => false
  if f.etype == etIp6 && beAt b 0 1 / 16 == 6 && beAt b 6 1 == 17 && dst == moduleIp s
      && beAt b 42 2 == s.fld pgRoute prtUdpCfg_udpDport && beAt b 46 2 != 0 && beAt b 46 2 == udpChecksum src dst clear
      && ulen == 72 + p.plen && udp.length == ulen && p.ptype == ptCwrite && headerOk p && named then some p
  else none

/-! ### The MAC table (R81) -/

def macFind (s : State) (vid mac : Nat) : Option MacEntry := s.macs.find? (fun m => m.vid == vid && m.mac == mac)

/-- Learn a source address; with a full table every frame from it is counted and it is not learned (DESIGN CHOICE,
assumption 129). -/
def macLearn (vid mac port : Nat) (s : State) : State :=
  if isMulticast mac then s
  else if (macFind s vid mac).isSome then
    { s with macs := s.macs.map (fun m => if m.vid = vid ∧ m.mac = mac then ⟨vid, mac, port, s.cyc⟩ else m) }
  else if s.macs.length < 65536 then { s with macs := s.macs ++ [⟨vid, mac, port, s.cyc⟩] }
  else s.addFld pgRoute prtUdpCfg_learnFull 1

/-- The Ethernet-mode ports that are UP, other than the one of arrival (assumption 26). -/
def floodPorts (s : State) (port : Nat) : List Nat :=
  (s.ports.filter (fun y => y.1 != port && y.2.formed && y.2.eth && y.2.st == .up && !isDrain s (pgLane y.1))).map
    (fun y => y.1)

/-- Where a frame goes: the port of a learned address, unless it drains (R30), or every port of the VLAN. -/
def frameDests (s : State) (port vid : Nat) (f : EthFrame) : List Nat :=
  if isMulticast f.dmac then floodPorts s port
  else
    match macFind s vid f.dmac with
    | some m => if m.port = port ∨ isDrain s (pgLane m.port) then [] else [m.port]
    | none => floodPorts s port

/-! ### Buffers of frames -/

/-- Allocate `n` buffers, all or none. -/
def allocMany (get : State → Option (Nat × State)) : Nat → State → Option (List Nat × State)
  | 0, s => some ([], s)
  | n + 1, s =>
    match get s with
    | none => none
    | some (b, s1) =>
      match allocMany get n s1 with
      | some (bs, s2) => some (b :: bs, s2)
      | none => none

/-- Share each buffer of a frame among its readers; the port is the named freer and frees it at once (R22, R343). -/
def shareFrame (port readers : Nat) (bs : List Nat) (s : State) : State :=
  forAll (fun b s => freeBuf b port none (shareBuf b readers port none s)) bs s

/-- A frame as a port holds it. -/
structure Held where
  load : Load
  /-- VC code of the pool that its buffers come from (R338) -/
  pool : Nat
  /-- its class (R311) -/
  tc : Nat
  credits : Nat
  orgs : List Origin
  /-- bytes of the frame as it came (R329) -/
  flen : Nat
deriving DecidableEq, Repr

/-- Buffers that it occupies: a JFP packet takes one, a frame one for each 4,096 bytes (R335). -/
def Held.bufs (h : Held) : Nat := match h.load with | .eth f => ceilDiv (frameLen f) 4096 | _ => 1

/-- One bit of the frame check sequence of IEEE 802.3. -/
def fcsBit (c : Nat) : Nat := if c % 2 = 1 then (c / 2) ^^^ 0xEDB88320 else c / 2

def fcsByte (c : Nat) (b : Byte) : Nat :=
  fcsBit (fcsBit (fcsBit (fcsBit (fcsBit (fcsBit (fcsBit (fcsBit (c ^^^ b.toNat))))))))

/-- A frame from its destination address to its FCS. -/
def frameBytes (f : EthFrame) : List Byte :=
  let b := beBytes 6 f.dmac ++ beBytes 6 f.smac
    ++ (match f.tag with | some (pcp, v) => beBytes 2 0x8100 ++ beBytes 2 (pcp % 8 * 2 ^ 13 + v % 4096) | none => [])
    ++ beBytes 2 f.etype ++ f.body
  b ++ leBytes 4 ((b.foldl fcsByte 0xFFFFFFFF) ^^^ 0xFFFFFFFF)

/-- What a port received stands in its buffers (R335). -/
def fillHeld (port : Nat) (load : Load) (bs : List Nat) (s : State) : State :=
  match load, bs with
  | .eth f, _ => fillFrame port bs (pieces 4096 (frameBytes f)) s
  | .jfp p, b :: _ => fillPacket b port p s
  | _, _ => s

/-- A frame's copies wait, one for each destination, with the buffers that hold it (R24). -/
def holdFrame (port : Nat) (h : Held) (bs : List Nat) (s : State) : State :=
  { s with
    frames := s.frames + 1
    arrivals := s.arrivals + 1
    waiting := s.waiting ++ h.orgs.map (fun o =>
      { unit := port, vc := h.pool, load := h.load, landed := false, org := o, credits := h.credits, bufs := bs,
        frame := s.frames + 1, tc := h.tc, spots := [], seq := s.arrivals, flen := h.flen }) }

/-- `n` headroom buffers of a priority that were drawn from pool `p`, when it has that many (R329, R338). -/
def takeHeads (port p t n : Nat) (s : State) : Option (List Nat × State) :=
  let hs := ((s.port port).headBufs.filter (fun b => b.1 == t && (s.buf b.2).pool == p)).take n
  if hs.length = n then
    some (hs.map (fun b => b.2), s.updPort port (fun x => { x with headBufs := x.headBufs.filter (fun b => !hs.contains b) }))
  else none

/-- The buffers of a frame: from its pool, or, on a PFC-enabled priority, out of the headroom (R329, R338). -/
def frameBufs (port : Nat) (h : Held) (s : State) : Option (List Nat × State) :=
  match allocMany (takeBuf (port / 128) h.pool port) h.bufs s with
  | some r => some r
  | none =>
    if pfcOn s port h.tc then takeHeads port h.pool h.tc h.bufs s else none

/-- Take the buffers of a frame: with none left a frame on a PFC-enabled priority waits, another is discarded (R331). -/
def placeFrame (port : Nat) (h : Held) (s : State) : State :=
  match frameBufs port h s with
  | some (bs, s1) =>
    pfcCheck port h.tc (forAll lostIfRefused bs
      (holdFrame port h bs (shareFrame port h.orgs.length bs (fillHeld port h.load bs s1))))
  | none =>
    if pfcOn s port h.tc then
      pfcCheck port h.tc (waitBuf (port / 128) h.pool port (.frame port) (holdFrame port h [] s))
    else s.addFld (pgLane port) prtPfc_taildrop 1

/-- The waiting frame of a port that came first gets its buffers when they can be had: BUFFER_ALLOCATE serves it. -/
def serveFrame (hs : List Waiter) (port pool : Nat) (s : State) : Option State :=
  match s.waiting.find? (fun w => w.unit == port && w.vc == pool && needsBuf s w) with
  | none => some s
  | some w =>
    let n := match w.load with | .eth f => ceilDiv (frameLen f) 4096 | _ => 1
    let same := s.waiting.filter (fun x => x.unit == port && x.frame == w.frame)
    match allocMany (allocAfter hs (port / 128) pool port) n s with
    | none => none
    | some (bs, s1) =>
      let s2 := shareFrame port same.length bs (fillHeld port w.load bs s1)
      some (forAll lostIfRefused bs { s2 with waiting := s2.waiting.map (fun x =>
        if x.unit = port ∧ x.frame = w.frame then { x with bufs := bs } else x) })

/-! ### Priority flow control received (R330) -/

def pauseCycles (x : Port) (q : Nat) : Nat := ceilDiv (q * 512) (100 * max 1 x.w)

/-- A PFC frame with quanta `q` for priority `t`. -/
def pfcTake (port t q : Nat) (s : State) : State :=
  let x := s.port port
  let running := match at0 none x.pausedTo t with | some c => decide (s.cyc < c) | none => false
  let since := if q = 0 then none else if running then x.cdnSince else some s.cyc
  let y := { x with pausedTo := x.pausedTo.set t (if q = 0 then none else some (s.cyc + pauseCycles x q)),
                    cdnSince := if t = s.fld (pgLane port) prtPfc_cdnPcp then since else x.cdnSince }
  teleAdd port (telPfcRx t) 1 (s.setPort port y)

def ethUp (s : State) (port : Nat) : Bool := (s.port port).formed && (s.port port).eth && (s.port port).st == .up

/-- A MAC control frame: PFC for each priority it enables, or a global PAUSE, which is discarded and counted (R81). -/
def macControl (port : Nat) (f : EthFrame) (s : State) : State :=
  if beAt f.body 0 2 = 0x0101 then
    forAll (fun t s => if beAt f.body 2 2 / 2 ^ t % 2 = 1 then pfcTake port t (beAt f.body (4 + 2 * t) 2) s else s)
      (List.range 8) s
  else if beAt f.body 0 2 = 1 then teleAdd port telPause 1 s
  else s

/-! ### Commands -/

/-- Bridge a frame that is not for the module (R81, R328). -/
def bridgeFrame (port vid : Nat) (f : EthFrame) (s : State) : State :=
  let (red, s1) := meterAtPort port (frameTc f) (frameLen f) s
  let ds := frameDests s1 port vid f
  if red ∨ ds = [] then s1 else placeFrame port ⟨.eth f, vcReq, frameTc f, 0, ds.map Origin.bridge, frameLen f⟩ s1

/-- A Neighbour Solicitation goes to firmware (R88), metered as any other frame (R325). -/
def solicitFrame (port : Nat) (f : EthFrame) (s : State) : State :=
  let (red, s1) := meterAtPort port (frameTc f) (frameLen f) s
  if red then s1 else s1.emit (.ns port f)

/-- A frame that passed the MAC: learned, then taken as JFP over UDP, handed to firmware, or bridged. A Neighbour Solicitation for the
module is taken whatever its destination MAC and is not bridged as well (DESIGN CHOICE, assumption 128). -/
def frameTake (port : Nat) (f : EthFrame) (s : State) : State :=
  match frameVid s port f with
  | none => s
  | some vid =>
    let s1 := macLearn vid f.smac port s
    if isSolicit s1 f then solicitFrame port f s1
    else if f.dmac = portMac s1 port then
      match udpAccept s1 port f with
      | some p => placeFrame port ⟨.jfp p, vcCup, frameTc f, pktCredits p, [.none], frameLen f⟩ s1
      | none => teleAdd port telUdp 1 s1
    else bridgeFrame port vid f s1

/-- ETHERNET_FRAME (R81); a frame with a byte in an uncorrectable codeword has no right FCS (R82). -/
def execEthernetFrame (port : Nat) (r : Rx EthFrame) (s0 : State) : Result :=
  let s := fecSeen port r.fec s0
  let f := r.it
  .next (if ethUp s port = false then s
    else if frameLen f < 64 then teleAdd port telRunt 1 s
    else if 9216 < frameLen f then teleAdd port telOver 1 s
    else if f.fcsOk = false ∨ 0 < r.fec.uncorrectable then teleAdd port telFcs 1 s
    else if f.etype = etMacControl then macControl port f s
    else frameTake port f s)

/-- MAC_AGE_OUT (R81): an entry older than mac_age seconds leaves the table; 0 disables ageing. -/
def execMacAgeOut (vid mac : Nat) (s : State) : Result :=
  .next (let age := s.fld pgRoute prtUdpCfg_macAge
    { s with macs := s.macs.filter (fun m =>
        !(m.vid == vid && m.mac == mac && age != 0 && decide (m.at_ + age * 2000000000 ≤ s.cyc))) })

/-- PFC_FRAME (R330). -/
def execPfcFrame (port prio : Nat) (quanta : Rx Nat) (s0 : State) : Result :=
  let s := fecSeen port quanta.fec s0
  .next (if ethUp s port = false then s
    else if 0 < quanta.fec.uncorrectable then teleAdd port telFcs 1 s
    else pfcTake port prio quanta.it s)

/-- PFC_PAUSE_EXPIRE (R330). -/
def execPfcPauseExpire (port prio : Nat) (s : State) : Result :=
  .next (let x := s.port port
    match at0 none x.pausedTo prio with
    | some c =>
      if c ≤ s.cyc then
        s.setPort port { x with pausedTo := x.pausedTo.set prio none,
                                cdnSince := if prio = s.fld (pgLane port) prtPfc_cdnPcp then none else x.cdnSince }
      else s
    | none => s)

/-- PFC_REFRESH (R329). -/
def execPfcRefresh (port prio : Nat) (s : State) : Result :=
  .next (let x := s.port port
    match at0 none x.refreshAt prio with
    | some c =>
      if c ≤ s.cyc ∧ pfcOn s port prio ∧ s.fld (pgLane port) prtPfcTh_xon < heldBytes s port prio then
        s.setPort port { x with pfcDue := x.pfcDue ++ [(prio, 0xFFFF)],
                                refreshAt := x.refreshAt.set prio (some (c + refreshCycles x)) }
      else s
    | none => s)

/-- Discard one queued CDN frame: counted, its reference released, its item reported (R84; assumption 27). -/
def cdnDrop (port : Nat) (e : EPkt) (s : State) : State :=
  let s1 := (s.updPort port (fun x => { x with egress := x.egress.erase e })).addFld (pgLane port) prtPfc_taildrop 1
  lostPacket port e.load e.org (dropRefs e.bufs port s1)

/-- CDN_PAUSE_LIMIT (R84). -/
def execCdnPauseLimit (port : Nat) (s : State) : Result :=
  .next (let x := s.port port
    let t := s.fld (pgLane port) prtPfc_cdnPcp
    match x.cdnSince with
    | some c =>
      if c + s.fld (pgLane port) prtPfc_cdnPauseLimit * 80 < s.cyc ∧ paused s x t then
        forAll (cdnDrop port) (x.egress.filter (fun e => match e.org with | .bridge _ => false | _ => true)) s
      else s
    | none => s)

end Sys2Proof.Machine
end

