-- ==== Sys2Proof/Machine/CurdCore.lean ====
section
/-!
DEFINITION. Curd cores outside their instructions: the local memory and program store of a Vat (R181, R212, R224), queues
(R186 to R190, R193 to R197), exceptions (R220), starting and ending a program (R182, R216 to R219), stop and clear (R218,
R221), inbound delivery (R191 to R194), and the Vat registers with a rule of their own.
-/
namespace Sys2Proof.Machine

/-! ### Memory of a Vat -/

def vatOf (core : Nat) : Nat := core / 8
def vatQuad (v : Nat) : Nat := v / 8

/-- The first byte above the local data area: the program cache takes the top of 8 MiB (R181, R224). -/
def localEnd (s : State) (v : Nat) : Nat :=
  8388608 - (match s.fld (pgVat v) vatCfg_pcSize with
    | 0 => 0
    | 1 => 262144
    | 2 => 524288
    | 4 => 2097152
    | _ => 1048576)

/-- Words of the program store (R212, R224). -/
def storeWords (s : State) (v : Nat) : Nat := s.fld (pgVat v) vatPstore_psPages * 128

def storeAt (s : State) (v n : Nat) : Nat := pageAddr (s.fld (pgVat v) vatPstore_psPg) + 32 * n

/-- Word `n` of the program store. -/
def storeWord (s : State) (v n : Nat) : Nat := rdLe s (spHbm (vatQuad v)) (storeAt s v n) 32

/-! ### Instruction and program caches (R181, R211, R213) -/

/-- 256-byte places of the program cache. -/
def cachePlaces (s : State) (v : Nat) : Nat := (8388608 - localEnd s v) / 256

def placeAt (s : State) (v i : Nat) : Nat := localEnd s v + 256 * i

/-- The line of a core's instruction cache. -/
def cachedLine (s : State) (core line : Nat) : Option (List Byte) :=
  ((s.vat (vatOf core)).icache.find? (fun x => x.core == core % 8 && x.line == line)).map (fun x => x.bytes)

/-- The word that the core has fetched at its pc; `none` where its line is not in the instruction cache. -/
def fetchedWord (s : State) (core : Nat) : Option Nat :=
  (cachedLine s core ((s.core core).pc / 8)).map (fun b => leAt b (32 * ((s.core core).pc % 8)) 32)

/-- Put a line into a core's instruction cache: 64 sets of 4 lines; which line a full set gives up is a free value
(assumption 9). -/
def icacheFill (core line : Nat) (bytes : List Byte) (s : State) : State :=
  let v := vatOf core
  let new : ILine := ⟨core % 8, line, bytes⟩
  let rest := (s.vat v).icache.filter (fun x => !(x.core == core % 8 && x.line == line))
  let set := rest.filter (fun x => x.core == core % 8 && x.line % 64 == line % 64)
  if set.length < 4 then s.setVat v { s.vat v with icache := rest ++ [new] }
  else
    let d := s.draw
    d.2.setVat v { d.2.vat v with icache := rest.erase (set.getD (d.1.toNat % 4) new) ++ [new] }

/-- The number of a place of the program cache whose line has been dropped: no line of a program store has it. -/
def noLine : Nat := 2 ^ 24

/-- Put a line into the Vat's program cache: where it stands, in a place whose line has been dropped, or in a new one; which line a
full cache gives up is a free value (assumption 9). -/
def pcacheFill (v line : Nat) (bytes : List Byte) (s : State) : State :=
  let n := cachePlaces s v
  let c := (s.vat v).pcache
  let i := if c.contains line then c.idxOf line else c.idxOf noLine
  if n = 0 then s
  else
    let d := if i < n then (i, s) else (s.draw.1.toNat % n, s.draw.2)
    let s1 := d.2.setVat v { d.2.vat v with pcache := if d.1 < c.length then c.set d.1 line else c ++ [line] }
    goodParity (upLocal v) (placeAt s v d.1) 256 (wrBytes s1 (spLocal v) (placeAt s v d.1) bytes)

/-- A line whose parity has failed is in neither cache any more; it comes back from the program store (R345). -/
def dropLine (core line : Nat) (s : State) : State :=
  let v := vatOf core
  countParity (vatQuad v) .replayed (s.setVat v
    { s.vat v with icache := (s.vat v).icache.filter (fun x => !(x.core == core % 8 && x.line == line)),
                   pcache := (s.vat v).pcache.map (fun x => if x = line then noLine else x) })

/-- The caches of a Vat hold nothing. -/
def dropCaches (v : Nat) (s : State) : State := s.setVat v { s.vat v with icache := [], pcache := [] }

/-- Key of a WINDOW's or a region's space: 0 local data area, 1 Cellar slice, 2 HBM stacks (R189). -/
def spaceKey (v space qd : Nat) : Nat := if space = 0 then spLocal v else if space = 1 then spCellar qd else spHbm qd

/-- Whether [a, a + n) lies wholly inside a space (R190, R227, R336). -/
def inSpace (s : State) (v space qd a n : Nat) : Bool :=
  match space with
  | 0 => decide (a + n ≤ localEnd s v)
  | 1 => quadPresent s.fuses qd && decide (openBase ≤ a) && decide (a + n ≤ openEnd s qd)
  | _ => decide (a + n ≤ quadPages s qd * 4096)

/-! ### Core states -/

/-- Running for R187 and R191: a program holds the core. -/
def coreActive (c : Core) : Bool := c.st == .starting || c.st == .running || c.st == .ending

def locVat (v off : Nat) : Loc := pageLoc .vat v (pgVat v) off

/-- Release the references of a queue's buffers and discard a packet under assembly (R219). -/
def releaseQueue (core : Nat) (x : Queue) (s : State) : State :=
  let s1 := forAll (fun (b : InBuf) s => itemRelease b.buf (repCore core) s) x.bufs s
  match x.asm with
  | none => s1
  | some a =>
    let s2 := freeBuf a.buf (repCore core) none s1
    if a.vecs = [] then s2 else s2.addFld (pgVat (vatOf core)) vatCnt_partial 1

/-- A library server ends with its program: the buffers that a PGATHER call has reserved return (R282),
and what it waits for and the rest is dropped. -/
def dropServer (core : Nat) (s : State) : State :=
  let held := match (s.server core).call with
    | some c => c.poolHeld ++ c.wheyHeld
    | none => []
  let s1 := { s with waiters := s.waiters.filter (fun w => w.purpose != .pgather core) }
  (forAll (fun b s => freeBuf b (repCore core) none s) held s1).setServer core Server.none

/-- Release every queue of a core (R219, R220). -/
def releaseQueues (core : Nat) (s : State) : State :=
  let qs := (s.core core).queues
  dropServer core
    (forAll (fun (q : Nat × Queue) s => releaseQueue core q.2 s) qs (s.updCore core (fun c => { c with queues := [] })))

def excIllegal : Nat := 1
def excQbind : Nat := 2
def excRegion : Nat := 3
def excRange : Nat := 4
def excFetch : Nat := 5
def excData : Nat := 6
def excBudget : Nat := 7
def excStopped : Nat := 8

/-- An exception (R220): recorded, raised, reported; the core is FAULTED and its queues are released. -/
def curdExc (core code pc vec : Nat) (s : State) : State :=
  let v := vatOf core
  let a := pgVat v + 8 * (core % 8)
  let s1 := s.updCore core (fun c => { c with st := .faulted, sb := [], fetching := false, budgetAt := none })
  let s2 := ((s1.setFld a vatExc_code code).setFld a vatExc_pc pc).setFld a vatExc_vec vec
  releaseQueues core (reportOwnOpen clsCurdExc (repCore core) (raiseEv (pgVat v) 1 s2))

/-- Back to IDLE; VAT_EXC clears when the core leaves FAULTED (R224). -/
def coreIdle (core : Nat) (s : State) : State :=
  touchUnit (puVat (vatOf core)) ((s.setCore core Core.idle).wr
    (pgVat (vatOf core) + 0x180 + 8 * (core % 8)) 0)

/-- The clear bit of VAT_CORE_CTRL (R218). -/
def clearCore (core : Nat) (s : State) : State :=
  let c := s.core core
  if c.st = .faulted then
    if c.items = [] then coreIdle core s else refuseCmd (locVat (vatOf core) 0x120) s
  else s

/-- The oldest instruction of a core, for an exception that no instruction made: its word and its step. -/
def oldestAt (c : Core) : Nat × Nat :=
  match c.sb with
  | e :: _ => (e.pc, e.steps)
  | [] => (c.pc, 0)

/-- A stop request (R221): not of an IDLE or FAULTED core, nor of one that ends in this cycle. -/
def stopCore (core : Nat) (s : State) : State :=
  let c := s.core core
  if coreActive c = false ∨ (c.st = .ending ∧ c.sb = [] ∧ c.items = []) then s
  else curdExc core excStopped (oldestAt c).1 (oldestAt c).2 s

/-- A write to VAT_CORE_CTRL: stops, then clears. -/
def coreCtrl (vat stop clear : Nat) (s : State) : State :=
  let s1 := forAll (fun k s => if stop / 2 ^ k % 2 = 1 then stopCore (vat * 8 + k) s else s) (List.range 8) s
  forAll (fun k s => if clear / 2 ^ k % 2 = 1 then clearCore (vat * 8 + k) s else s) (List.range 8) s1

/-! ### Queue access (R186, R193, R195, R196) -/

def ringOf (s : State) (v r : Nat) : Ring := tget Ring.empty (s.vat v).rings r
def setRing (v r : Nat) (x : Ring) (s : State) : State :=
  s.setVat v { s.vat v with rings := tset Ring.empty (s.vat v).rings r x }

def vecZero : List Byte := List.replicate 512 0

/-- Byte address of vector `i` of a backing. -/
def vecAt (x : Queue) (i : Nat) : Nat := (x.base + i % max 1 x.len) * 512

/-- How data that a core reads is lost, with DATA (R220). -/
inductive Lost where
  /-- a stack refuses it (R350, R377) -/
  | line
  /-- its page lies beyond the stacks of the quadrant, refused as a handle is (R348) -/
  | page (q : Nat)
  /-- a word of a slice has wrong parity (R345) -/
  | word (q off : Nat)
  /-- a word of local memory has wrong parity (R345) -/
  | local_
  /-- the handle of its buffer is refused, a hard parity error of it (R344, R345) -/
  | buf (b : Nat)
deriving DecidableEq, Repr

/-- What the loss counts and reports. -/
def lostMark (core : Nat) (l : Lost) (s : State) : State :=
  match l with
  | .line => s
  | .page q => refusePage q (repCore core) s
  | .word q off => upsetRead q off s
  | .local_ => countParity (vatQuad (vatOf core)) .hard s
  | .buf b => countParity (bufQuad b) .hard (refuseHandle (bufQuad b) (repCore core) s)

/-- What a read comes to: the data, nothing there yet, a pseudo-channel that must wake first (R355), or data lost with DATA
(R220). -/
inductive Look (α : Type) where
  | got (x : α)
  | dry
  | sleep (q off n : Nat)
  | lost (l : Lost)
deriving DecidableEq, Repr

def Look.map {α β : Type} (f : α → β) : Look α → Look β
  | .got x => .got (f x)
  | .dry => .dry
  | .sleep q off n => .sleep q off n
  | .lost w => .lost w

/-- Look at each in turn. -/
def lookAll {α β : Type} (f : α → Look β) : List α → Look (List β)
  | [] => .got []
  | x :: xs =>
    match f x with
    | .got y => (lookAll f xs).map (fun ys => y :: ys)
    | .dry => .dry
    | .sleep q off n => .sleep q off n
    | .lost w => .lost w

/-- Read `n` bytes of a space as a Vat's access does (R189, R245, R345, R353, R355). -/
def spaceLook (s : State) (v space qd a n : Nat) : Look (List Byte) :=
  match space with
  | 0 => if upsetIn s (upLocal v) a n then .lost .local_ else .got (localRead s v a n)
  | 1 => if upsetIn s qd a n then .lost (.word qd a) else .got (rdBytes s (spCellar qd) a n)
  | _ =>
    match hbmAsk s qd a n with
    | .ready => .got (rdBytes s (spHbm qd) a n)
    | .asleep => .sleep qd a n
    | .beyond => .lost (.page qd)
    | .refused => .lost .line

/-- Write bytes to a space: `false` where a stack refuses them with DATA (R348, R350, R377). -/
def spaceWrite (core ord space qd a : Nat) (bs : List Byte) (s : State) : Bool × State :=
  match space with
  | 0 => (true, localWrite (vatOf core) a (writeOrd core ord) bs s)
  | 1 => (true, openWrite qd a (repCore core) 0 bs s)
  | _ =>
    match hbmAsk s qd a bs.length with
    | .refused => (false, s)
    | .beyond => (false, refusePage qd (repCore core) s)
    | _ => (true, hbmWrite .bulk qd a bs (repCore core) s)

/-- The vectors that a pop of this cycle sees in a ring: those whose pushes completed before it (R188). -/
def ringSeen (s : State) (v r : Nat) : Nat := (ringOf s v r).count - actSum s (.pushed v r)

/-- The vectors that a push of this cycle finds in a ring: those popped in this cycle still count (R188). -/
def ringFilled (s : State) (v r : Nat) : Nat := (ringOf s v r).count + actSum s (.popped v r)

/-- The buffers that the first `n` vectors of a STREAM_IN queue stand in. -/
def headBuffers : Nat → List InBuf → List Nat
  | _, [] => []
  | n, b :: bs => if n = 0 then [] else b.buf.toList ++ headBuffers (n - b.vecs.length) bs

/-- The `n` vectors at the head of a queue. -/
def peekVecs (s : State) (core q n : Nat) : Look (List (List Byte)) :=
  let v := vatOf core
  let x := (s.core core).queue q
  match x.kind with
  | 1 =>
    let r := ringOf s v x.ring
    if n ≤ ringSeen s v x.ring then lookAll (fun i => spaceLook s v 0 0 (vecAt x (r.head + i)) 512) (List.range n) else .dry
  | 2 => lookAll (fun i => spaceLook s v x.space x.qd (vecAt x (x.rpos + i)) 512) (List.range n)
  | 3 =>
    let vs := x.bufs.flatMap (fun b => b.vecs)
    match (headBuffers n x.bufs).find? (bufRefused s) with
    | some b => .lost (.buf b)
    | none => if n ≤ vs.length then .got (vs.take n) else .dry
  | _ => .got (List.replicate n vecZero)

/-- Drop buffers at the head of a STREAM_IN queue that offer no vector (R193); the fuel bounds the buffers. -/
def dropEmpty (core q : Nat) : Nat → State → State
  | 0, s => s
  | fuel + 1, s =>
    let c := s.core core
    let x := c.queue q
    match x.bufs with
    | b :: rest =>
      if b.vecs = [] then
        dropEmpty core q fuel (itemRelease b.buf (repCore core) (s.setCore core (c.setQueue q { x with bufs := rest })))
      else s
    | [] => s

/-- Take one vector from the head of a STREAM_IN queue; its buffer's last one releases it and increments sync (R195). -/
def popStream (core q : Nat) (s : State) : State :=
  let c := s.core core
  let x := c.queue q
  match x.bufs with
  | b :: rest =>
    if b.vecs.length ≤ 1 then
      let s1 := itemRelease b.buf (repCore core) (s.setCore core (c.setQueue q { x with bufs := rest }))
      dropEmpty core q rest.length (syncIncrIf x.syncEn x.sync 1 (repCore core) s1)
    else s.setCore core (c.setQueue q { x with bufs := { b with vecs := b.vecs.drop 1 } :: rest })
  | [] => s

def popStreams (core q : Nat) : Nat → State → State
  | 0, s => s
  | n + 1, s => popStreams core q n (popStream core q s)

/-- A vector read from a WINDOW over HBM counts in the bulk class (R253, R359). -/
def windowMoved (x : Queue) (i : Nat) (s : State) : State :=
  if x.kind = 2 ∧ x.space = 2 then hbmMoved .bulk x.qd (vecAt x (x.rpos + i)) 512 s else s

/-- Pop `n` vectors. -/
def popVecs (core q n : Nat) (s : State) : State :=
  let v := vatOf core
  let c := s.core core
  let x := c.queue q
  match x.kind with
  | 1 =>
    let r := ringOf s v x.ring
    noteAct (.popped v x.ring) n (setRing v x.ring ⟨(r.head + n) % max 1 x.len, r.count - n⟩ s)
  | 2 =>
    forAll (windowMoved x) (List.range n) (s.setCore core (c.setQueue q { x with rpos := (x.rpos + n) % max 1 x.len }))
  | 3 => popStreams core q n s
  | _ => s

/-- The header bytes that a packet under assembly has: its first vector, or the template in force at it (R250). -/
def asmHeader (x : Queue) (a : Asm) : List Byte := if x.hdr then (a.vecs.headD vecZero).take 64 else a.template

/-- The packet of a complete STREAM_OUT assembly (R196). -/
def asmPacket (x : Queue) (a : Asm) : Packet :=
  let h := asmHeader x a
  let p := parsePacket (h.take 32 ++ (if bitsOf (leAt h 0 8) 23 1 = 1 then h.drop 32 else [])
    ++ ((if x.hdr then a.vecs.drop 1 else a.vecs).flatMap id))
  if x.hdr then p
  else { p with ptype := ptSend, plen := 4096, ext := none, payload := (a.vecs.flatMap id).take 4096 }

/-- The VC whose pool backs the packet that the vector `d` begins (R196, R338). -/
def asmPool (x : Queue) (d : List Byte) : Nat := if x.hdr then bitsOf (leAt d 0 8) 8 3 % 7 else vcReq

/-- Payload vectors that a packet takes (R196). -/
def asmNeed (x : Queue) (d : List Byte) : Nat := if x.hdr then ceilDiv (bitsOf (leAt d 0 8) 24 13) 512 else 8

/-- Whether a push of `n` vectors finds room now. A STREAM_OUT push needs a buffer where it begins a packet. -/
def hasRoomFor (s : State) (core q n : Nat) (d : List Byte) : Bool :=
  let x := (s.core core).queue q
  match x.kind with
  | 1 => decide (ringFilled s (vatOf core) x.ring + n ≤ x.len)
  | 4 => x.asm.isSome || (takeBuf (vatQuad (vatOf core)) (asmPool x d) (repCore core) s).isSome
  | _ => true

/-- A complete packet is handed to the chain engine of the Vat's quadrant, which sends it from its buffer (R176, R197):
`false` where it is refused with DATA. -/
def handOn (core q : Nat) (x : Queue) (a : Asm) (s : State) : Bool × State :=
  let p := asmPacket x a
  let u := repChain (vatQuad (vatOf core))
  let s1 := s.updCore core (fun c => c.setQueue q { x with asm := none })
  if p.ptype = ptCnode ∨ p.ptype = ptCresult ∨ p.ptype = ptLctl ∨ headerOk p = false then
    (false, (freeBuf a.buf (repCore core) none s1).addFld (pgVat (vatOf core)) vatCnt_partial 1)
  else
    let (p1, s2) := sealPacket p s1
    let s3 := shareBuf a.buf 1 (repCore core) none (fillPacket a.buf (repCore core) p1 s2)
    let s4 := freeBuf a.buf (repCore core) none s3
    (true, syncIncrIf x.syncEn x.sync 1 (repCore core) (lostIfRefused a.buf (enqueue u p.vc (.jfp p1) .none (some a.buf) s4)))

/-- Push one vector into a STREAM_OUT queue: `none` where it waits for a buffer (R341). The packet takes the template that is
in force at its first vector (R250). -/
def pushOut (core q : Nat) (d : List Byte) (s : State) : Option (Bool × State) :=
  let quad := vatQuad (vatOf core)
  let x := (s.core core).queue q
  let got := match x.asm with
    | some a => some (a, s)
    | none =>
      match takeBuf quad (asmPool x d) (repCore core) s with
      | some (b, s1) => some (⟨[], 0, b, []⟩, s1)
      | none => none
  match got with
  | none => none
  | some (a, s1) =>
    let a1 : Asm := if a.vecs = [] then ⟨[d], asmNeed x d + bit01 x.hdr, a.buf, x.template⟩ else { a with vecs := a.vecs ++ [d] }
    if a1.need ≤ a1.vecs.length then some (handOn core q x a1 s1)
    else some (true, s1.updCore core (fun c => c.setQueue q { x with asm := some a1 }))

/-- A STREAM_OUT push begins to wait for the pool (R341), once. -/
def waitOut (core q : Nat) (d : List Byte) (s : State) : State :=
  if s.waiters.any (fun w => w.purpose == .streamOut core q) then s
  else waitBuf (vatQuad (vatOf core)) (asmPool ((s.core core).queue q) d) (repCore core) (.streamOut core q) s

/-- Push one vector for instruction `ord` of the core: `none` where it must wait; `false` where the packet that it completes is
refused, or the window's stack refuses the write. -/
def pushVec (core ord q : Nat) (d : List Byte) (s : State) : Option (Bool × State) :=
  let v := vatOf core
  let c := s.core core
  let x := c.queue q
  match x.kind with
  | 1 =>
    let r := ringOf s v x.ring
    if ringFilled s v x.ring < x.len then
      some (true, noteAct (.pushed v x.ring) 1 (setRing v x.ring ⟨r.head, r.count + 1⟩
        (localWrite v (vecAt x (r.head + r.count)) (writeOrd core ord) d s)))
    else none
  | 2 =>
    let r := spaceWrite core ord x.space x.qd (vecAt x x.wpos) d s
    some (r.1, if r.1 then r.2.setCore core (c.setQueue q { x with wpos := (x.wpos + 1) % max 1 x.len }) else r.2)
  | 4 => pushOut core q d s
  | _ => some (true, s)

/-! ### Start (R182, R189, R190, R216 to R218) -/

/-- An entry of the queue table (R189). -/
def queueEntry (x y : Nat) : Nat × Queue :=
  (bitsOf x 0 6,
   { Queue.unbound with bound := true, kind := bitsOf x 8 3, space := bitsOf x 11 2, qd := bitsOf x 13 2,
                        ring := bitsOf x 16 6, ends := bitsOf x 22 2, hdr := bitsOf x 24 1 == 1, sync := bitsOf x 32 16,
                        syncEn := bitsOf x 48 1 == 1, base := bitsOf y 0 29, len := bitsOf y 32 32 })

def queueTable (s : State) (v qtab n : Nat) : List (Nat × Queue) :=
  (List.range n).map (fun i =>
    queueEntry (localLe s v (64 * qtab + 16 * i) 8) (localLe s v (64 * qtab + 16 * i + 8) 8))

/-- Ends of a ring that another running core of the Vat has bound. -/
def ringEnds (s : State) (core r : Nat) : List Nat :=
  ((List.range 8).map (fun k => vatOf core * 8 + k)).flatMap (fun c =>
    if c ≠ core ∧ coreActive (s.core c) then
      (((s.core c).queues.filter (fun q => q.2.kind == 1 && q.2.ring == r)).map (fun q => q.2.ends))
    else [])

def endsClash (a b : Nat) : Bool := a % 2 == 1 && b % 2 == 1 || decide (2 ≤ a) && decide (2 ≤ b)

/-- Entry `i` fails with QBIND (R190). -/
def bindBad (s : State) (core : Nat) (t : List (Nat × Queue)) (i : Nat) (e : Nat × Queue) : Bool :=
  let x := e.2
  decide (4 < x.kind) || (x.kind == 2 && x.space == 3) || (t.take i).any (fun y => y.1 == e.1)
    || (if x.kind = 1 ∨ x.kind = 2 then x.ends == 0 else x.ends != 0) || (x.hdr && decide (x.kind < 3))
    || ((x.kind == 1 || x.kind == 2 || x.kind == 3) && x.len == 0)
    || (x.kind == 1 && (ringEnds s core x.ring).any (endsClash x.ends))

/-- Entry fails with RANGE (R190). -/
def bindRange (s : State) (v : Nat) (x : Queue) : Bool :=
  (x.kind == 1 && !inSpace s v 0 0 (x.base * 512) (x.len * 512))
    || (x.kind == 2 && ((x.space != 0 && !quadPresent s.fuses x.qd)
        || !inSpace s v x.space x.qd (x.base * 512) (x.len * 512)))

/-- A start descriptor (R216), as four words. -/
structure StartDesc where
  w0 : Nat
  w1 : Nat
  w2 : Nat
  w3 : Nat
deriving DecidableEq, Repr

def startDesc (s : State) (v d : Nat) : StartDesc :=
  let x := storeWord s v d
  ⟨bitsOf x 0 64, bitsOf x 64 64, bitsOf x 128 64, bitsOf x 192 64⟩

def StartDesc.entry (d : StartDesc) : Nat := bitsOf d.w0 0 24
def StartDesc.mask (d : StartDesc) : Nat := bitsOf d.w0 24 8
def StartDesc.cmode (d : StartDesc) : Bool := bitsOf d.w0 32 1 == 1
def StartDesc.qtab (d : StartDesc) : Nat := bitsOf d.w0 33 17
def StartDesc.qcount (d : StartDesc) : Nat := bitsOf d.w0 50 7
def StartDesc.doneSync (d : StartDesc) : Nat := bitsOf d.w3 0 16
def StartDesc.doneEn (d : StartDesc) : Bool := bitsOf d.w3 16 1 == 1
def StartDesc.crg (d : StartDesc) : Nat := bitsOf d.w3 17 11
def StartDesc.crgLog2 (d : StartDesc) : Nat := bitsOf d.w3 28 4
def StartDesc.budget (d : StartDesc) : Nat := bitsOf d.w3 32 32

def crgBase (d : StartDesc) (core : Nat) : Nat := d.crg * 4096 + core % 8 * 32 * 2 ^ d.crgLog2

/-- The exception that a start meets, QBIND before RANGE (R190, R216); DATA where the queue table's words have wrong parity
(R345). -/
def bindExc (s : State) (core : Nat) (d : StartDesc) : Option Nat :=
  let v := vatOf core
  let t := queueTable s v d.qtab d.qcount
  let crgBad := decide (d.crgLog2 < 4) || decide (12 < d.crgLog2)
    || decide (localEnd s v < crgBase d core + 32 * 2 ^ d.crgLog2)
  if decide (localEnd s v < 64 * d.qtab + 16 * d.qcount) then some excRange
  else if upsetIn s (upLocal v) (64 * d.qtab) (16 * d.qcount) then some excData
  else if t.zipIdx.any (fun e => bindBad s core t e.2 e.1) then some excQbind
  else if crgBad || decide (64 < d.qcount) || t.any (fun e => bindRange s v e.2) then some excRange
  else none

/-- The registers at a program's start (R182). -/
def startRegs (core : Nat) (d : StartDesc) : Tab U64 :=
  tset 0 (tset 0 (tset 0 [] 1 (BitVec.ofNat 64 core)) 2 (BitVec.ofNat 64 d.w1)) 3 (BitVec.ofNat 64 d.w2)

/-- Bind the queues; a ring that no other running core has bound starts empty (R187). -/
def bindQueues (core : Nat) (t : List (Nat × Queue)) (s : State) : State :=
  let v := vatOf core
  let s1 := forAll (fun (e : Nat × Queue) s =>
    if e.2.kind = 1 ∧ ringEnds s core e.2.ring = [] then setRing v e.2.ring Ring.empty s else s) t s
  s1.updCore core (fun c => t.foldl (fun c e => c.setQueue e.1 e.2) c)

/-- Start a program on one core (R182, R190, R218). -/
def startCore (core : Nat) (d : StartDesc) (bySync : Bool) (s : State) : State :=
  let v := vatOf core
  let s1 := s.wr (pgVat v + 0x1C0 + 8 * (core % 8)) 0
  let s2 := s1.setCore core
    { Core.idle with st := .starting, cmode := d.cmode, pc := d.entry, s := startRegs core d,
                     crg := crgBase d core, crgLog2 := d.crgLog2, startAt := s.cyc, mask := d.mask, doneSync := d.doneSync,
                     doneEn := d.doneEn, fetching := true, bySync := bySync,
                     budgetAt := if d.budget = 0 then none else some (s.cyc + d.budget * 1024) }
  match bindExc s core d with
  | some code => curdExc core code d.entry 0 (if code = excData then lostMark core .local_ s2 else s2)
  | none => bindQueues core (queueTable s v d.qtab d.qcount) s2

/-- Discard the start requests of a Vat that takes none, those of waiting firings too, counted in refused (R222, R378). -/
def discardStarts (v : Nat) (s : State) : State :=
  let n := (s.vat v).startQ.length
  let s1 := (s.setVat v { s.vat v with startQ := [] }).addFld (pgVat v) vatCnt_refused n
  retryFires (s1.fires.filter (fun f => f.action == 2 && f.arg % 32 == v)) s1

/-- The head request leaves the start queue, and firings that wait for room follow. -/
def startTaken (v : Nat) (rest : List StartReq) (s : State) : State :=
  noteStart v (s.setVat v { s.vat v with startQ := rest })

/-- The head request starts nothing and is counted in refused. -/
def startLost (v : Nat) (rest : List StartReq) (s : State) : State :=
  let s1 := (startTaken v rest s).addFld (pgVat v) vatCnt_refused 1
  retryFires s1.fires s1

/-- Start the program of the head request on all cores of its mask, in one cycle, once they are IDLE (R217). Of two cores that name one
ring end the lower binds it, and the other takes QBIND (R190; DESIGN CHOICE, assumption 143). -/
def startHead (v : Nat) (r : StartReq) (rest : List StartReq) (s : State) : State :=
  let d := startDesc s v r.desc
  let cores := (List.range 8).filter (fun k => d.mask / 2 ^ k % 2 == 1)
  if cores.all (fun k => (s.core (v * 8 + k)).st == .idle) then
    let s1 := hbmMoved (if r.bySync then .lc else .bulk) (vatQuad v) (storeAt s v r.desc) 32 (startTaken v rest s)
    let s2 := forAll (fun k s => startCore (v * 8 + k) d r.bySync s) cores s1
    retryFires s2.fires s2
  else s

/-- PROGRAM_START (R217, R218): the start descriptor is read from the program store, as a sync-triggered read when a sync object
asked for the start (R27, R211). A descriptor beyond the store, or that the stacks refuse, starts nothing and is counted in
refused (assumption 45); a page beyond the stacks is refused as a handle is, for the Vat's first core (R348; assumption 123). -/
def execProgramStart (vat : Nat) (s : State) : Result :=
  .next (match (s.vat vat).startQ with
    | [] => s
    | r :: rest =>
      if isGold s (puVat vat) = false then wakeUnit (puVat vat) s
      else if storeWords s vat ≤ r.desc then startLost vat rest s
      else
        match hbmAsk s (vatQuad vat) (storeAt s vat r.desc) 32 with
        | .ready => startHead vat r rest s
        | .asleep => hbmWake (vatQuad vat) (storeAt s vat r.desc) 32 s
        | .refused => startLost vat rest s
        | .beyond => startLost vat rest (refusePage (vatQuad vat) (repCore (8 * vat)) s))

/-- The end of a program (R219). -/
def endCore (core : Nat) (s : State) : State :=
  let c := s.core core
  let s1 := coreIdle core (releaseQueues core s)
  syncIncrIf c.doneEn c.doneSync 1 (repCore core) s1

/-- PROGRAM_END (R219). -/
def execProgramEnd (core : Nat) (s : State) : Result :=
  .next (let c := s.core core
    if c.st = .ending ∧ c.sb = [] ∧ c.items = [] then endCore core s else s)

/-- The awaited line is in the core's instruction cache. -/
def fetchEnd (core : Nat) (s : State) : State :=
  s.updCore core (fun c => { c with fetching := false, st := if c.st = .starting then .running else c.st })

/-- A line is read from the program store: the first line of a program that a sync object started is a sync-triggered read
(R27, R211). -/
def fillFromStore (core line : Nat) (s : State) : State :=
  let v := vatOf core
  let c := s.core core
  let q := vatQuad v
  let off := storeAt s v (8 * line)
  match hbmAsk s q off 256 with
  | .ready =>
    let b := rdBytes s (spHbm q) off 256
    let cls := if c.bySync ∧ c.st = .starting then HbmClass.lc else .bulk
    fetchEnd core (icacheFill core line b (pcacheFill v line b (hbmMoved cls q off 256 s)))
  | .asleep => hbmWake q off 256 s
  | .refused => curdExc core excFetch c.pc 0 s
  | .beyond => curdExc core excFetch c.pc 0 (refusePage q (repCore core) s)

/-- The line comes from the program cache, else from the program store; a place of the program cache whose parity fails is no
source (R211, R345). -/
def fillLine (core line : Nat) (s : State) : State :=
  let v := vatOf core
  let at_ := placeAt s v ((s.vat v).pcache.idxOf line)
  if (s.vat v).pcache.contains line = false then fillFromStore core line s
  else if upsetIn s (upLocal v) at_ 256 then fillFromStore core line (dropLine core line s)
  else fetchEnd core (icacheFill core line (rdBytes s (spLocal v) at_ 256) s)

/-- CACHE_FILL_DONE (R211, R218). A line that fails its parity, the awaited one or the one that a running core reads, is filled again
from the store, its source (R345). -/
def execCacheFillDone (core : Nat) (par : Parity) (s : State) : Result :=
  .next (let c := s.core core
    let line := c.pc / 8
    let hit := (cachedLine s core line).isSome
    if c.fetching = false then
      if par ≠ .good ∧ hit ∧ c.st = .running then
        fillFromStore core line ((dropLine core line s).updCore core (fun c => { c with fetching := true }))
      else s
    else if storeWords s (vatOf core) ≤ c.pc then curdExc core excFetch c.pc 0 s
    else if par ≠ .good then fillFromStore core line (dropLine core line s)
    else if hit then fetchEnd core s
    else fillLine core line s)

/-- BUDGET_EXHAUSTED (R220). -/
def execBudgetExhausted (core : Nat) (s : State) : Result :=
  .next (let c := s.core core
    match c.budgetAt with
    | some t =>
      if t ≤ s.cyc ∧ coreActive c then curdExc core excBudget (oldestAt c).1 (oldestAt c).2 s else s
    | none => s)

/-! ### Vat registers (R217, R218, R221, R224) -/

def coresIdle (s : State) (v : Nat) : Bool := (vatCores s v).all (fun c => c.st == .idle)

/-- A block-specific register of a Vat page: absent pages ignore it (R6), a DARK Vat discards and counts it (R415). -/
def onVat (v off : Nat) (f : State → State) (s : State) : State :=
  if vatPresent s.fuses v = false then s
  else if isDark s (puVat v) then discardWrite (locVat v off) s
  else f s

/-- A write to VAT_CFG: one to pc_size is discarded and counted while some core is not IDLE (R224), and an invalidation takes
effect only while every core is IDLE (R213). A program cache of another size starts empty (assumption 9). -/
def vatCfgWrite (req v : Nat) (x : U64) (s : State) : State :=
  onVat v 0x100 (fun s =>
    let old := s.fld (pgVat v) vatCfg_pcSize
    if coresIdle s v then
      let s1 := plainWrite req (locVat v 0x100) x (fun _ => false) s
      if fieldOf x 3 1 = 1 then dropCaches v s1
      else if s1.fld (pgVat v) vatCfg_pcSize = old then s1
      else s1.setVat v { s1.vat v with pcache := [] }
    else
      plainWrite req (locVat v 0x100) (withField x vatCfg_pcSize.l vatCfg_pcSize.w old) (fun _ => false)
        (discardWrite (locVat v 0x100) s)) s

def vatPstoreWrite (req v : Nat) (x : U64) (s : State) : State :=
  onVat v 0x108 (fun s =>
    if coresIdle s v then plainWrite req (locVat v 0x108) x (fun _ => false) s else discardWrite (locVat v 0x108) s) s

def vatStartWrite (req v : Nat) (x : U64) (s : State) : State :=
  onVat v 0x110 (fun s =>
    let s1 := plainWrite req (locVat v 0x110) x (fun _ => false) (woTurn req (pgVat v + 0x110) s)
    (startRequest v (fieldOf x 0 24) req false s1).2) s

def vatCtrlWrite (req v : Nat) (x : U64) (s : State) : State :=
  onVat v 0x120 (fun s =>
    coreCtrl v (fieldOf x 0 8) (fieldOf x 8 8)
      (plainWrite req (locVat v 0x120) x (fun _ => false) (woTurn req (pgVat v + 0x120) s))) s

/-- VAT_START (R217): a start request for an absent Vat is answered under R379. -/
def execVatStart (req vat desc : Nat) (s : State) : Result :=
  .next (onPath req (fun s =>
    if vatPresent s.fuses vat then vatStartWrite req vat (BitVec.ofNat 64 desc) s else absentCmd req s) s)

/-- CACHE_INVALIDATE (R213). -/
def execCacheInvalidate (req vat : Nat) (v : U64) (s : State) : Result :=
  .next (onPath req (vatCfgWrite req vat v) s)

/-- CORE_STOP (R221). -/
def execCoreStop (req vat mask : Nat) (s : State) : Result :=
  .next (onPath req (vatCtrlWrite req vat (BitVec.ofNat 64 (mask % 256))) s)

/-- CORE_CLEAR (R218). -/
def execCoreClear (req vat mask : Nat) (s : State) : Result :=
  .next (onPath req (vatCtrlWrite req vat (BitVec.ofNat 64 (mask % 256 * 256))) s)

/-! ### Inbound delivery (R191 to R194) -/

structure InbEntry where
  valid : Bool
  core : Nat
  queue : Nat
deriving DecidableEq, Repr

def inbEntry (s : State) (e : Nat) : InbEntry :=
  let a := inbAt e
  ⟨s.flag a prtInb_valid, s.fld a prtInb_vat * 8 + s.fld a prtInb_core, s.fld a prtInb_queue⟩

/-- A READ_RSP, WRITE_ACK, MGMT reply or transport STATUS (R492). -/
def isReply (p : Packet) : Bool :=
  p.ptype == ptReadRsp || p.ptype == ptWriteAck || (p.ptype == ptStatus && p.ext.isNone)
    || (p.ptype == ptMgmt && bitsOf p.addr 55 1 == 1)

/-- A packet that R191 delivers: a WRITE, SEND or SCOUNT, or a response. -/
def inbKind (p : Packet) : Bool := p.ptype == ptWrite || p.ptype == ptSend || p.ptype == ptScount || isReply p

/-- A packet that another unit of the switch takes: the collective path, its registers or its Twin (R57), and the
reply to a lane request (R387). -/
def otherUnits (p : Packet) : Bool :=
  (!inbKind p && p.ptype != ptReadReq) || (isReply p && p.tag / 4096 == 0xF)

/-- A packet that R191 discards; one for a Vat that is DARK, disabled or DRAINED is reported under R378 too. -/
def inbDiscard (x : InPkt) (s : State) : State :=
  let v := vatOf (inbEntry s (x.pkt.tag % 4096)).core
  let s1 := if vatPresent s.fuses v then s.addFld (pgVat v) vatCnt_inb 1 else s
  let s2 := reportOpen x.pkt.src clsInbound x.port s1
  let off := vatPresent s.fuses v && (!isEnabled s (pgVat v) || isDark s (puVat v) || (isDrain s (pgVat v) && vatQuiet s v))
  consumed x (if off then disabledWork x.port s2 else s2)

/-- A WRITE_ACK that acknowledges one WRITE (R57, R191). -/
def writeAck (p : Packet) (s : State) : State :=
  originate repGrp (rawPacket s.ownFid ptWriteAck vcRsp p.src p.tag (p.seq % 2 ^ 24 + 2 ^ 24) none []) .none s

/-! #### Duplicates (R73, R74) -/

def seenOf (s : State) (p : Packet) : Option SeqSeen :=
  s.seen.find? (fun x => x.src == p.src && x.dst == p.dst && x.vc == p.vc)

/-- `a` lies within 2^23 behind `b`, or is `b`. -/
def seqBehind (a b : Nat) : Bool := decide ((b + 2 ^ 24 - a % 2 ^ 24) % 2 ^ 24 < 2 ^ 23)

/-- A WRITE that has been accepted before (R73). -/
def isDup (s : State) (p : Packet) : Bool :=
  p.ptype == ptWrite && (match seenOf s p with | some x => seqBehind p.seq x.high && x.got.contains p.seq | none => false)

/-- An accepted packet enters the record of its (src, dst, VC). -/
def noteSeq (p : Packet) (s : State) : State :=
  let old := (seenOf s p).getD ⟨p.src, p.dst, p.vc, p.seq, []⟩
  let high := if seqBehind old.high p.seq then p.seq else old.high
  let got := (if p.ptype = ptWrite then [p.seq] else []) ++ old.got
  let new : SeqSeen := { old with high := high, got := got.filter (fun q => seqBehind q high) }
  { s with seen := s.seen.filter (fun x => x != old) ++ [new] }

/-! #### Delivery -/

/-- A packet numbered `n` in the order of arrival came earlier than `x`, for the same queue. -/
def sameQueue (s : State) (x : InPkt) (n : Nat) (p : Packet) : Bool :=
  decide (n < x.seq) && decide (p.tag / 4096 = 0) && inbKind p && inbEntry s (p.tag % 4096) == inbEntry s (x.pkt.tag % 4096)

/-- An earlier packet for the same queue has not been delivered yet (R192). -/
def earlierIn (s : State) (x : InPkt) : Bool :=
  s.inbox.any (fun y => sameQueue s x y.seq y.pkt)
    || s.waiting.any (fun w => match w.load with | .jfp p => addressedHere s p.dst && sameQueue s x w.seq p | _ => false)

/-- A delivered packet stands in a buffer that its queue's core holds: its ingress buffer, for which its port has `b0`, or `b0`
(R195, R338). A refused write is a hard parity error of a packet in transit (R344, R345). -/
def deliverWith (x : InPkt) (b0 : Nat) (s : State) : State :=
  let p := x.pkt
  let e := inbEntry s (p.tag % 4096)
  let u := repCore e.core
  let (b, s0) := handBuf (some x) b0 s
  let s1 := freeBuf b u none (shareBuf b 1 u none (if b = b0 then fillPacket b u p s0 else s0))
  if bufRefused s b then consumed x (countParity (bufQuad b) .hard s1)
  else
    let s2 := noteSeq p (appendBuf e.core e.queue p (some b) s1)
    consumed x (if p.ptype = ptWrite then writeAck p s2 else s2)

/-- The packet can be delivered now, but for a buffer (R191, R192, R194). -/
def inbFits (s : State) (x : InPkt) : Bool :=
  let e := inbEntry s (x.pkt.tag % 4096)
  let q := (s.core e.core).queue e.queue
  inbKind x.pkt && decide (x.pkt.tag / 4096 = 0) && e.valid && coreActive (s.core e.core) && q.bound && q.kind == 3
    && decide (q.bufs.length < q.len) && !earlierIn s x

/-- A delivery waits for a buffer of its pool, once (R341). -/
def waitInbound (x : InPkt) (s : State) : State :=
  if s.waiters.any (fun w => w.purpose == .inbound x.seq) then s
  else waitBuf (unitQuad x.port) (x.pkt.vc % 7) x.port (.inbound x.seq) s

/-- Deliver a packet through the inbound table, discard it where R191 does not deliver its kind (DEDUCED, assumption 46), or hold
it where it is while the queue or the pool is full (R191, R194) or the Vat wakes (R184). A duplicate WRITE is
acknowledged again and delivered no second time (R74).
The buffer is one of the packet's VC pool of the quadrant where it arrived (R338); a packet on VC_MGT brings its own (R79). -/
def inbDeliver (x : InPkt) (s : State) : State :=
  let p := x.pkt
  let e := inbEntry s (p.tag % 4096)
  let q := (s.core e.core).queue e.queue
  let v := vatOf e.core
  if inbKind p = false ∨ p.tag / 4096 ≠ 0 ∨ e.valid = false then inbDiscard x s
  else if vatPresent s.fuses v ∧ takesWork s (pgVat v) (puVat v) ∧ isGold s (puVat v) = false then
    holdInbox x (wakeUnit (puVat v) s)
  else if coreActive (s.core e.core) = false ∨ q.bound = false ∨ q.kind ≠ 3 then inbDiscard x s
  else if isDup s p then consumed x (writeAck p s)
  else if q.len ≤ q.bufs.length then holdFull x s
  else if earlierIn s x then holdInbox x s
  else
    match x.pool with
    | some b => deliverWith { x with pool := none } b s
    | none =>
      match takeBuf (unitQuad x.port) (p.vc % 7) x.port s with
      | none => holdFull x (waitInbound x s)
      | some (b, s1) => deliverWith x b s1

/-- A buffer has come for a delivery that waited: the packet leaves the inbox, or the buffer goes back. -/
def giveInbound (seq b req : Nat) (s : State) : State :=
  match s.inbox.find? (fun x => x.seq == seq) with
  | none => freeBuf b req none s
  | some x =>
    let s1 := { s with inbox := s.inbox.erase x }
    if inbFits s1 x ∧ isDup s1 x.pkt = false then deliverWith x b s1 else freeBuf b req none s

/-- INBOUND_DELIVERY (R191, R60); a packet of another unit stays for it. -/
def execInboundDelivery (port : Nat) (p : Packet) (s : State) : Result :=
  .next (
    if otherUnits p then s
    else
      let (x, s1) := takeInbox port p s
      if crcGood p = false then consumed x (e2eFail port p s1) else inbDeliver x s1)

end Sys2Proof.Machine
end

