-- ==== Sys2Proof/Machine/Lanes.lean ====
section
/-!
DEFINITION. Tally's own commands (R381, R382, R385, R393), kept MGMT replies (R57, R74), lane requests and their answers
(R387, R416, R418, R492), and the self-tests of TLY_TEST (R386 to R388).
-/
namespace Sys2Proof.Machine

/-! ### Tally (R381, R382, R385, R393) -/

def locTally (off : Nat) : Loc := pageLoc .tally 0 pgTally off

/-- TALLY_ENTRY_CLOSE (R381, R382): an entry whose close_at has passed is written to the ring. -/
def execTallyEntryClose (subject cls : Nat) (s : State) : Result :=
  .next (
    let e := if cls = clsStorm then s.tally.storm
      else s.tally.entries.find? (fun e => e.subj == subject && e.cls == cls)
    match e with
    | some e => if e.closeAt < s.aon then tallyClose e s else s
    | none => s)

/-- Entries that wait for ring space are written as space appears (R382). -/
def tallySpace (s : State) : State := tallyDrain (s.tally.entries ++ s.tally.storm.toList) s

/-- A write to TLY_TAIL (R393): beyond head it is discarded and counted. -/
def tallyTail (req : Nat) (v : U64) (s : State) : State :=
  if s.fld pgTally tlyHead_head < v.toNat then discardWrite (locTally 0x118) s
  else tallySpace (plainWrite req (locTally 0x118) v (fun _ => false) s)

/-- TALLY_TAIL_WRITE (R382). -/
def execTallyTailWrite (req : Nat) (v : U64) (s : State) : Result := .next (onPath req (tallyTail req v) s)

/-- The lanes whose pages carry telemetry: present, and no member lane (R460). -/
def telemetryLanes (s : State) : List Nat := (List.range 512).filter (fun l => s.lanePres l && !isMember s l)

/-- A write to TLY_SNAP (R385). -/
def tallySnapWrite (req : Nat) (v : U64) (s : State) : State :=
  let s1 := plainWrite req (locTally 0x138) v (fun _ => false) s
  if fieldOf v 0 1 = 1 then (forAll teleSnap (telemetryLanes s1) s1).setFld pgTally tlySnapTime_time s1.aon else s1

/-- TALLY_SNAP (R385). -/
def execTallySnap (req : Nat) (s : State) : Result := .next (onPath req (tallySnapWrite req 1) s)

/-! ### MGMT replies (R57, R74) -/

def keptReply (s : State) (src seq : Nat) : Option Packet :=
  (s.mgmtKept.find? (fun k => k.src == src && k.seq == seq)).map (fun k => k.reply)

/-- The last 16 replies for each src are kept (R74). -/
def keepReply (src seq : Nat) (r : Packet) (s : State) : State :=
  let l := s.mgmtKept ++ [⟨src, seq, r⟩]
  { s with mgmtKept := if 16 < (l.filter (fun k => k.src == src)).length then l.eraseP (fun k => k.src == src) else l }

/-- The MGMT reply to a request that has been applied (R57). -/
def mgmtReply (port : Nat) (p : Packet) (data : List Byte) (s : State) : State :=
  let (q, s1) := sealPacket (rawPacket s.ownFid ptMgmt vcMgt p.src p.tag (p.addr % 2 ^ 28 + 2 ^ 55) none data) s
  enqueue (answerUnit port) vcMgt (.jfp q) .none none (keepReply p.src p.seq q s1)

/-- A kept reply is sent again (R74). -/
def mgmtAgain (port : Nat) (q : Packet) (s : State) : State := enqueue (answerUnit port) vcMgt (.jfp q) .none none s

/-- STATUS REJECTED to an MGMT request (R57, R387, R498). -/
def mgmtReject (port : Nat) (p : Packet) (s : State) : State := sendTransport port p.src vcMgt p.tag tsRejected s

/-! ### The result of a self-test (R386) -/

def resPass : Nat := 1
def resFail : Nat := 2
def resBusy : Nat := 3

/-- A test ends: its result, and a Tally record of class TEST with the result in detail (R384, R386). -/
def finishTest (r : Nat) (s : State) : State :=
  let s1 := (s.setFld pgTally tlyTest_result r).setFld pgTally tlyTest_busy 0
  reportOwn clsTest repTally r { s1 with test := none }

/-- The test in progress is a lane recalibration of this port; with `lane`, by request of that lane. -/
def testsPort (s : State) (port : Nat) : Bool :=
  match s.test with
  | some t => t.kind == 3 && t.inst == port
  | none => false

def testsLane (s : State) (port lane : Nat) : Bool :=
  match s.test with
  | some t => t.kind == 3 && t.inst == port && t.lane == some lane
  | none => false

/-! ### Lanes of a port (R387, R416, R418) -/

def addOnce (l : Nat) (ls : List Nat) : List Nat := if ls.contains l then ls else ls ++ [l]

/-- Lanes that would still stripe without lane `l`. -/
def stripesWithout (x : Port) (l : Nat) : List Nat :=
  (List.range x.w).filter (fun i => i != l && !x.parkedLanes.contains i && !x.dropped.contains i)

/-- A lane leaves striping and recalibrates. -/
def laneDrop (port l : Nat) (s : State) : State :=
  s.updPort port (fun x => { x with dropped := addOnce l x.dropped, recalLanes := addOnce l x.recalLanes })

/-- A lane leaves striping and its end goes to SLATE. -/
def lanePark (port l : Nat) (s : State) : State :=
  (s.setPu (puLane (port + l)) ⟨.slate, none, s.cyc, none⟩).updPort port (fun x =>
    { x with parkedLanes := addOnce l x.parkedLanes })

/-- A lane stripes again. -/
def laneRestore (port l : Nat) (s : State) : State :=
  s.updPort port (fun x => { x with parkedLanes := x.parkedLanes.erase l, dropped := x.dropped.erase l,
                                    recalLanes := x.recalLanes.erase l })

/-- Effect of an accepted lane request on the responder's end, with its reply (R387, R417). -/
def laneApply (port : Nat) (p : Packet) (l : Nat) (drop park : Bool) (s : State) : State :=
  let x := s.port port
  if drop then
    if park then unparkCheck port (mgmtReply port p [] (lanePark port l s)) else mgmtReply port p [] (laneDrop port l s)
  else if x.parkedLanes.contains l then
    let s1 := wakeUnit (puLane (port + l)) s
    if isGold s1 (puLane (port + l)) then mgmtReply port p [] (laneRestore port l s1)
    else s1.updPort port (fun x => { x with laneAns := x.laneAns.filter (fun a => a.1 != l) ++ [(l, p)] })
  else mgmtReply port p [] (laneRestore port l s)

/-- The module's own request for a lane is outstanding (R418). -/
def ownLaneReq (s : State) (port l : Nat) : Option LaneReq := (s.port port).laneReqs.find? (fun q => q.lane == l)

def dropLaneReq (port : Nat) (q : LaneReq) (s : State) : State :=
  s.updPort port (fun x => { x with laneReqs := x.laneReqs.erase q })

/-- A lane request that arrived through `port` (R387, R418). -/
def laneRequestIn (port : Nat) (p : Packet) (s : State) : State :=
  let v := leAt p.payload 0 8
  let x := s.port port
  let l := v % 8
  let drop := v / 8 % 2 == 1
  let park := v / 16 % 2 == 1
  if x.w ≤ l ∨ 32 ≤ v ∨ (drop ∧ stripesWithout x l = []) then mgmtReject port p s
  else
    match ownLaneReq s port l with
    | some q =>
      if s.ownFid < p.src then mgmtReject port p s
      else laneApply port p l drop park (dropLaneReq port q s)
    | none => laneApply port p l drop park s

/-- An MGMT write to PRT_LANE_REQ that names the neighbour (R451). -/
def isLaneReq (p : Packet) : Bool :=
  p.ptype == ptMgmt && p.dst == 0xFFFFF && p.addr % 2 ^ 28 == laneReqAddr && bitsOf p.addr 55 1 == 0 && p.plen == 8

/-- LANE_REQUEST (R387, R418, R451): whatever the port's mgmt_en; a repeat is answered again from the kept reply (R74). -/
def execLaneRequest (port : Nat) (p : Packet) (s : State) : Result :=
  .next (
    if isLaneReq p = false ∨ (s.port port).formed = false then s
    else
      let (x, s1) := takeInbox port p s
      if crcGood p = false then consumed x (e2eFail port p s1)
      else
        match keptReply s1 p.src p.seq with
        | some q => consumed x (mgmtAgain port q s1)
        | none => consumed x (laneRequestIn port p s1))

/-! ### The requester's side (R387, R416 to R418, R492) -/

/-- The outstanding request that a tag answers. -/
def laneReqByTag (s : State) (tag : Nat) : Option (Nat × LaneReq) :=
  match portOf s (tag % 4096) with
  | some p =>
    match (s.port p).laneReqs.find? (fun q => q.lane == tag % 4096 - p && !q.answered) with
    | some q => some (p, q)
    | none => none
  | none => none

/-- A request is rejected or unanswered: the lane stays as it was (R387, R418). -/
def laneRefused (port : Nat) (q : LaneReq) (s : State) : State :=
  let s1 := dropLaneReq port q s
  if q.park then
    if q.drop then s1.updPort port (fun x => { x with idleSince := s.cyc })
    else
      (s1.setPu (puLane (port + q.lane)) ⟨.slate, none, s.cyc, none⟩).updPort port (fun x =>
        { x with unparkAt := s.cyc + usCycles (s.fld (pgLane port) prtPark_parkUs) })
  else s1

/-- A request is answered: the requester's end follows (R387, R416, R417). -/
def laneAnswered (port : Nat) (q : LaneReq) (s : State) : State :=
  let u := puLane (port + q.lane)
  match q.drop, q.park with
  | true, true => unparkCheck port (lanePark port q.lane (dropLaneReq port q s))
  | true, false => laneDrop port q.lane (dropLaneReq port q s)
  | false, true =>
    if isGold s u then laneRestore port q.lane (dropLaneReq port q s)
    else s.updPort port (fun x =>
      { x with laneReqs := x.laneReqs.map (fun r => if r = q then { r with answered := true } else r) })
  | false, false =>
    let s1 := laneRestore port q.lane (dropLaneReq port q s)
    if testsLane s port q.lane then finishTest resPass s1 else s1

/-- A reply with tag[15:12] = 0xF (R492): an MGMT reply or a transport STATUS answers a lane request; every other packet counts
as a protocol error of its port. -/
def laneReply (x : InPkt) (s : State) : State :=
  match laneReqByTag s x.pkt.tag with
  | none => consumed x (protoErr x.port s)
  | some (p, q) =>
    if x.pkt.ptype = ptStatus then consumed x (laneRefused p q s)
    else if x.pkt.ptype = ptMgmt then consumed x (laneAnswered p q s)
    else consumed x (protoErr x.port s)

/-- RESPONSE_DELIVERY (R492, R60). -/
def execResponseDelivery (port : Nat) (p : Packet) (s : State) : Result :=
  .next (
    if isReply p = false then s
    else
      let (x, s1) := takeInbox port p s
      if crcGood p = false then consumed x (e2eFail port p s1)
      else if p.tag / 4096 = 0xF then laneReply x s1
      else inbDeliver x s1)

/-- LANE_REQ_TIMEOUT (R387, R418). -/
def execLaneReqTimeout (port : Nat) (s : State) : Result :=
  .next (forAll (fun (q : LaneReq) s => if q.answered = false ∧ q.deadline ≤ s.cyc then laneRefused port q s else s)
    (s.port port).laneReqs s)

/-- The lane that parks next: the highest of lanes w - 1 to 1 that is not parked (R416). -/
def nextPark (x : Port) : Option Nat :=
  ((List.range x.w).reverse.find? (fun l => decide (0 < l) && !x.parkedLanes.contains l))

/-- LANE_PARK (R416). -/
def execLanePark (port : Nat) (s : State) : Result :=
  .next (
    let x := s.port port
    if isNative x ∧ x.st = .up ∧ 2 ≤ x.w ∧ s.flag (pgLane port) prtPark_parkEn ∧ x.egress = [] ∧ x.copying = []
        ∧ x.laneReqs = [] ∧ x.idleSince + usCycles (s.fld (pgLane port) prtPark_parkUs) ≤ s.cyc then
      match nextPark x with
      | some l => if x.dropped.contains l then s else sendLaneReq port l true true s
      | none => s
    else s)

/-- A lane's end has reached GOLD: what waited for it goes on (R387, R417). -/
def laneGold (lane : Nat) (s : State) : State :=
  match portOf s lane with
  | none => s
  | some p =>
    let l := lane - p
    let s1 := match (s.port p).laneReqs.find? (fun q => q.lane == l && q.answered) with
      | some q => laneRestore p l (dropLaneReq p q s)
      | none => s
    match (s1.port p).laneAns.find? (fun a => a.1 == l) with
    | some a =>
      mgmtReply p a.2 [] ((laneRestore p l s1).updPort p (fun x => { x with laneAns := x.laneAns.filter (fun b => b.1 != l) }))
    | none => s1

/-! ### Self-tests (R386 to R388) -/

def bistCycles (kind : Nat) : Nat := if kind = 1 then 2400000 else 80000

def testPage (t : TestRun) : Nat := if t.kind = 1 then pgVat t.inst else pgPress t.inst
def testUnit (t : TestRun) : Nat := if t.kind = 1 then puVat t.inst else puPress t.inst

/-- The unit of a BIST holds no item: it is DRAINED (R222, R377). -/
def testDrained (s : State) (t : TestRun) : Bool :=
  if t.kind = 1 then vatQuiet s t.inst && (s.vat t.inst).startQ.isEmpty else s.fld (pgPress t.inst) prsLoad_slots == 0

/-- The BIST of a drained unit runs. -/
def testStart (s : State) : State :=
  match s.test with
  | some t =>
    if t.kind < 3 ∧ t.running = false ∧ testDrained s t then
      { wakeUnit (testUnit t) s with test := some { t with running := true, deadline := s.cyc + bistCycles t.kind } }
    else s
  | none => s

/-- A lane of a multi-lane port recalibrates by lane request; which one is a free value (assumption 28). -/
def recalBegin (port : Nat) (s : State) : State :=
  let x := s.port port
  if isNative x ∧ x.st = .up ∧ 2 ≤ x.w then
    let cand := (List.range x.w).filter (fun l => !x.parkedLanes.contains l && !x.dropped.contains l
      && (ownLaneReq s port l).isNone && !(stripesWithout x l).isEmpty)
    let d := s.draw
    match cand[d.1.toNat % max 1 cand.length]? with
    | some l =>
      sendLaneReq port l true false { d.2 with test := d.2.test.map (fun (t : TestRun) => { t with lane := some l }) }
    | none => s
  else s

/-- The unit that a test names can be tested. -/
def testable (s : State) (kind inst : Nat) : Bool :=
  match kind with
  | 1 => vatPresent s.fuses inst
  | 2 => pressPresent s.fuses inst
  | 3 => (s.port inst).formed
  | _ => false

/-- go (R386): a reserved kind, or a unit that is absent, ends FAIL and is counted. -/
def testGo (kind inst wait : Nat) (s : State) : State :=
  let s := orNext (kind == 1 && acted s (.start inst)) s
  let s0 := (s.setFld pgTally tlyTest_result 0).setFld pgTally tlyTest_busy 1
  if testable s kind inst = false then finishTest resFail (refuseCmd (locTally 0x130) s0)
  else
    let t : TestRun := ⟨kind, inst, none, false, s.cyc + wait * 80⟩
    let s1 := { s0 with test := some t }
    if kind = 3 then recalBegin inst s1
    else
      let s2 := s1.setFld (testPage t) blkCtrl_drain 1
      testStart (if kind = 1 then discardStarts inst s2 else s2)

/-- A write to TLY_TEST: a go while busy is discarded and counted. -/
def tlyTestWrite (req : Nat) (v : U64) (s : State) : State :=
  let s := if fieldOf v 13 1 = 1 then woTurn req (pgTally + 0x130) s else s
  let busy := s.flag pgTally tlyTest_busy
  let s1 := plainWrite req (locTally 0x130) v (fun _ => false) s
  if fieldOf v 13 1 = 0 then s1
  else if busy then discardWrite (locTally 0x130) s1
  else testGo (fieldOf v 0 4) (fieldOf v 4 9) (fieldOf v 20 28) s1

/-- VAT_BIST (R386): a write to TLY_TEST with kind 1. -/
def execVatBist (req : Nat) (v : U64) (s : State) : Result :=
  .next (if fieldOf v 0 4 = 1 then onPath req (tlyTestWrite req v) s else s)

/-- PRESS_BIST (R386): kind 2. -/
def execPressBist (req : Nat) (v : U64) (s : State) : Result :=
  .next (if fieldOf v 0 4 = 2 then onPath req (tlyTestWrite req v) s else s)

/-- LANE_RECAL (R386): kind 3. -/
def execLaneRecal (req : Nat) (v : U64) (s : State) : Result :=
  .next (if fieldOf v 0 4 = 3 then onPath req (tlyTestWrite req v) s else s)

/-- Local memory of a Vat is cleared, and with it the caches. -/
def clearLocal (v : Nat) (s : State) : State :=
  dropCaches v { s with mem := s.mem.filter (fun c => c.1 / 2 ^ 40 != spLocal v) }

/-- BIST_DONE (R386): the unit returns to service. -/
def execBistDone (pass : Bool) (s : State) : Result :=
  .next (match s.test with
    | some t =>
      if t.kind < 3 ∧ t.running ∧ t.deadline ≤ s.cyc then
        let s1 := if t.kind = 1 then clearLocal t.inst s else s
        finishTest (if pass then resPass else resFail) (s1.setFld (testPage t) blkCtrl_drain 0)
      else s
    | none => s)

/-- A lane recalibration has its exchange, its recalibration or its idle window under way. -/
def recalBusy (s : State) (port : Nat) : Bool :=
  let x := s.port port
  x.recalTo.isSome || !x.recalLanes.isEmpty || x.laneReqs.any (fun q => !q.park)

/-- TEST_WAIT_EXPIRE (R386, R388): the drain is cancelled, or no idle window occurred; the result is BUSY. -/
def execTestWaitExpire (s : State) : Result :=
  .next (match s.test with
    | some t =>
      if t.running ∨ s.cyc < t.deadline then s
      else if t.kind = 3 then (if recalBusy s t.inst then s else finishTest resBusy s)
      else finishTest resBusy (s.setFld (testPage t) blkCtrl_drain 0)
    | none => s)

/-- The far end of a link holds nothing unacknowledged, as far as this end can tell, and no packet of its has come for 100 us (R388;
DEDUCED, assumption 124). -/
def farIdle (s : State) (x : Port) : Bool :=
  x.acked == x.e && x.lastIn.all (fun t => match t with | some c => decide (c + 200000 ≤ s.cyc) | none => true)

/-- IDLE_RECAL (R388): an idle window of 100 us with nothing unacknowledged at either end. -/
def execIdleRecal (port : Nat) (s : State) : Result :=
  .next (
    let x := s.port port
    if testsPort s port ∧ recalBusy s port = false ∧ x.st = .up ∧ x.egress = [] ∧ x.copying = [] ∧ x.replay = []
        ∧ x.idleSince + 200000 ≤ s.cyc ∧ farIdle s x then
      s.setPort port { x with recalTo := some (s.cyc + 80000) }
    else s)

/-- RECAL_DONE (R387, R388): an idle-window recalibration ends; or this end of a dropped lane is ready, and the requester
asks for the lane back. -/
def execRecalDone (port lane : Nat) (s : State) : Result :=
  .next (
    let x := s.port port
    if x.recalTo.isSome then
      let s1 := s.setPort port { x with recalTo := none }
      if testsPort s port then finishTest resPass s1 else s1
    else if x.recalLanes.contains lane then
      let s1 := s.setPort port { x with recalLanes := x.recalLanes.erase lane }
      if testsLane s port lane then sendLaneReq port lane false false s1 else s1
    else s)

end Sys2Proof.Machine
end

