-- ==== Sys2Proof/Machine/Evc.lean ====
section
/-!
DEFINITION. The event controllers and what they do to their Rind cores: source levels (R399, R400), selection and delivery
(R401 to R403, R409), completion and the order fault (R407, R408), MRET, exceptions and WFI (R404 to R406), access faults
(R397), and EVC_CORE (R398).
-/
namespace Sys2Proof.Machine

/-! ### The caches of the Rind cores (R394, R396) -/

/-- Numbers of the caches of core `k`: instructions, data, and the level-2 cache of its quadrant. -/
def icacheOf (k : Nat) : Nat := k
def dcacheOf (k : Nat) : Nat := 16 + k
def l2Of (k : Nat) : Nat := 32 + k / 4

/-- Lines that a cache holds at most: 64 KiB, or 4 MiB at level 2. -/
def cacheRoom (c : Nat) : Nat := if c < 32 then 1024 else 65536

/-- The 64-byte line of an HBM byte. -/
def rvLine (q off : Nat) : Nat := (q * 2 ^ 38 + off) / 64

def State.rline (s : State) (l : Nat) : RLine := tget RLine.none s.rlines l
def State.setRline (s : State) (l : Nat) (x : RLine) : State := { s with rlines := tset RLine.none s.rlines l x }

/-- A line leaves a cache; without a copy it is gone. -/
def lineLeaves (c l : Nat) (s : State) : State :=
  let cs := (s.rline l).caches.filter (fun x => x != c)
  s.setRline l (if cs = [] then RLine.none else { s.rline l with caches := cs })

/-- A line enters a cache; which line it replaces, and whether it replaces one before the cache is full, is a free value
(assumption 134). -/
def lineEnters (c l : Nat) (s : State) : State :=
  let x := s.rline l
  if x.caches.contains c then s
  else
    let ls := (s.rlines.filter (fun y => y.2.caches.contains c)).map (fun y => y.1)
    let d := s.draw
    let n := if ls.length < cacheRoom c then ls.length + 1 else ls.length
    let s1 := match ls[d.1.toNat % n]? with
      | some v => lineLeaves c v d.2
      | none => d.2
    s1.setRline l { x with caches := x.caches ++ [c] }

/-- Core `k` has a line in its cache `c` and in the level-2 cache. -/
def lineUsed (c k l : Nat) (s : State) : State := lineEnters (l2Of k) l (lineEnters c l s)

/-- A core in reset or in DARK holds nothing in its own caches. -/
def dropCoreLines (k : Nat) (s : State) : State :=
  forAll (fun (x : Nat × RLine) s => lineLeaves (dcacheOf k) x.1 (lineLeaves (icacheOf k) x.1 s))
    (s.rlines.filter (fun x => x.2.caches.contains (icacheOf k) || x.2.caches.contains (dcacheOf k))) s

/-! ### Levels (R399) -/

/-- BLK_EV_STAT and BLK_EV_EN of a page share a set bit: BLK_STAT.fault, the level that the EVC sees (R456). -/
def pageFault (s : State) (page : Nat) : Bool := (s.rd (page + 0x20) &&& s.rd (page + 0x28)) != 0

/-- The condition of a page as one bit at position `i`; an absent page reads 0 (R6). -/
def faultBit (s : State) (here : Bool) (page i : Nat) : Nat := if here ∧ pageFault s page then 2 ^ i else 0

def faultBits (s : State) (n : Nat) (here : Nat → Bool) (page : Nat → Nat) : Nat :=
  (List.range n).foldl (fun m i => m + faultBit s (here i) (page i) i) 0

/-- Word group t of EVC_BPEND of quadrant q (R399, R422), as bits from 0. -/
def pendGroup (s : State) (q t : Nat) : Nat :=
  let f := s.fuses
  match t with
  | 0 => faultBits s 128 (fun i => lanePresent f (q * 128 + i)) (fun i => pgLane (q * 128 + i))
  | 1 => faultBits s 8 (fun i => pressPresent f (q * 8 + i)) (fun i => pgPress (q * 8 + i))
  | 2 => faultBits s 8 (fun i => vatPresent f (q * 8 + i)) (fun i => pgVat (q * 8 + i))
  | 3 => faultBit s (quadPresent f q) (pgCellar q) 0
  | 4 => faultBits s 5 (fun i => stackPresent f (q * 5 + i)) (fun i => pgHbm (q * 5 + i))
  | 5 => faultBit s (quadPresent f q) (pgSwc q) 0
  | _ => faultBits s 4 (fun i => rindPresent f (q * 4 + i)) (fun i => pgRind (q * 4 + i))

/-- Word w of EVC_BPEND of quadrant q (R422). -/
def pendWord (s : State) (q w : Nat) : Nat :=
  match w with
  | 0 => pendGroup s q 0 % 2 ^ 64
  | 1 => pendGroup s q 0 / 2 ^ 64
  | _ => pendGroup s q 1 + pendGroup s q 2 * 2 ^ 8 + pendGroup s q 3 * 2 ^ 16 + pendGroup s q 4 * 2 ^ 17
      + pendGroup s q 5 * 2 ^ 22 + pendGroup s q 6 * 2 ^ 23

/-- The level of source `src` of the EVC of Rind core `k` (R399, R400). -/
def evcLevel (s : State) (k src : Nat) : Bool :=
  if 512 ≤ src then s.soft.contains (k * 1024 + src)
  else if 16 ≤ src ∧ src < 48 then
    let q := (src - 16) / 8
    quadPresent s.fuses q && decide ((src - 16) % 8 < 7) && pendGroup s q ((src - 16) % 8) != 0
  else
    match src with
    | 0 => s.fld pgTally tlyHead_head != s.fld pgTally tlyTail_tail
    | 1 => pageFault s pgTally
    | 2 => twinPresent s.fuses && pageFault s pgTwin
    | 3 => pageFault s pgRennet
    | 4 => pageFault s pgPwr
    | 5 => pageFault s pgGrp
    | 6 => pageFault s pgPcie
    | 7 => pageFault s pgMgmt
    | 8 => pageFault s pgI3c
    | 9 => s.pins.pmbAlert
    | _ => false

/-! ### Selection (R401) -/

/-- The configuration byte of a source (R422). -/
def evcCfg (s : State) (k src : Nat) : Nat := s.fld (pgRind k + 8 * (src / 8)) (evcCfg_cfg (src % 8))

def evcEn (s : State) (k src : Nat) : Bool := evcCfg s k src % 2 == 1
def evcFast (s : State) (k src : Nat) : Bool := evcCfg s k src / 2 % 2 == 1
def evcPrio (s : State) (k src : Nat) : Nat := evcCfg s k src / 4 % 16

/-- Pending: its level is high and it is enabled. -/
def evcPending (s : State) (k src : Nat) : Bool := evcEn s k src && evcLevel s k src

/-- The pending source of a class with the highest priority, the lowest-numbered among equals. -/
def evcSelect (s : State) (k : Nat) (fast : Bool) : Option Nat :=
  ((List.range 1024).filter (fun i => evcEn s k i && evcFast s k i == fast && evcLevel s k i)).foldl (fun best i =>
    match best with
    | some b => if evcPrio s k b < evcPrio s k i then some i else some b
    | none => some i) none

/-! ### Rind cores -/

/-- A core that runs: present, released and powered (R398, R414). -/
def rindRuns (s : State) (k : Nat) : Bool :=
  rindPresent s.fuses k && !s.flag (pgRind k) evcCore_hold && isGold s (puRind k)

def State.updRind (s : State) (k : Nat) (f : Rind → Rind) : State := s.setRind k (f (s.rindOf k))

/-- A core leaves WFI: it goes on after that instruction (R406). -/
def leaveWfi (k : Nat) (s : State) : State :=
  if s.flag (pgRind k) evcCore_wfi then
    (s.updRind k (fun r => { r with pc := r.pc + 4 })).setFld (pgRind k) evcCore_wfi 0
  else s

/-- Bits of mstatus: MIE, MPIE, MPP, MPRV. -/
def msMie (v : U64) : Nat := fieldOf v 3 1
def msMpie (v : U64) : Nat := fieldOf v 7 1
def msMpp (v : U64) : Nat := fieldOf v 11 2

/-- A trap into M-mode as RISC-V defines it (R402, R405): mepc, mcause, mtval, mstatus, the mode and the handler, with the
vectored mode of mtvec for interrupts. -/
def trapTo (intr : Bool) (code : Nat) (tval : U64) (r : Rind) : Rind :=
  let base := r.mtvec.toNat / 4 * 4
  let target := if intr ∧ r.mtvec.toNat % 4 = 1 then base + 4 * code else base
  let ms := withField (withField (withField r.mstatus 7 1 (msMie r.mstatus)) 3 1 0) 11 2 r.priv
  { r with mepc := r.pc, mcause := BitVec.ofNat 64 (bit01 intr * 2 ^ 63 + code), mtval := tval, mstatus := ms, priv := 3,
           pc := BitVec.ofNat 64 target }

/-- A control and status register of a core by its number. -/
def rindCsr (r : Rind) (n : Nat) : U64 := tget 0 r.csrs n
def setRindCsr (n : Nat) (v : U64) (r : Rind) : Rind := { r with csrs := tset 0 r.csrs n v }

def csrMedeleg : Nat := 0x302
def csrMideleg : Nat := 0x303
def csrStvec : Nat := 0x105
def csrSepc : Nat := 0x141
def csrScause : Nat := 0x142
def csrStval : Nat := 0x143

/-- A trap into S-mode as RISC-V defines it: sepc, scause, stval, the status and the handler in stvec. -/
def trapToS (intr : Bool) (code : Nat) (tval : U64) (r : Rind) : Rind :=
  let tvec := (rindCsr r csrStvec).toNat
  let target := if intr ∧ tvec % 4 = 1 then tvec / 4 * 4 + 4 * code else tvec / 4 * 4
  let ms := withField (withField (withField r.mstatus 5 1 (fieldOf r.mstatus 1 1)) 1 1 0) 8 1 r.priv
  let r1 := setRindCsr csrSepc r.pc (setRindCsr csrScause (BitVec.ofNat 64 (bit01 intr * 2 ^ 63 + code))
    (setRindCsr csrStval tval r))
  { r1 with mstatus := ms, priv := 1, pc := BitVec.ofNat 64 target }

/-- Traps below M-mode that mideleg or medeleg hands to S-mode are taken there. -/
def trapDelegated (intr : Bool) (code : Nat) (r : Rind) : Bool :=
  decide (r.priv < 3) && fieldOf (rindCsr r (if intr then csrMideleg else csrMedeleg)) code 1 == 1

def trapTaken (intr : Bool) (code : Nat) (tval : U64) (r : Rind) : Rind :=
  if trapDelegated intr code r then trapToS intr code tval r else trapTo intr code tval r

/-- The standard MRET. -/
def mretStd (r : Rind) : Rind :=
  let p := msMpp r.mstatus
  let ms := withField (withField (withField r.mstatus 3 1 (msMpie r.mstatus)) 7 1 1) 11 2 0
  { r with pc := r.mepc, priv := p, mstatus := if p = 3 then ms else withField ms 17 1 0 }

/-! ### Delivery (R402, R403, R409) -/

def nSrc (s : State) (k : Nat) : Nat := s.fld (pgRind k) evcCur_nSrc
def fSrc (s : State) (k : Nat) : Nat := s.fld (pgRind k) evcCur_fSrc
def nValid (s : State) (k : Nat) : Bool := s.flag (pgRind k) evcCur_nValid
def fValid (s : State) (k : Nat) : Bool := s.flag (pgRind k) evcCur_fValid

/-- The fast source that would be delivered now. -/
def fastDue (s : State) (k : Nat) : Option Nat :=
  if rindRuns s k && s.flag (pgRind k) evcCtrl_fastEn && !fValid s k && (s.rindOf k).fie then evcSelect s k true else none

/-- The normal source that would be delivered now: a fast one that is deliverable goes first, and none is delivered while
order is 1 (R408, R409). -/
def normalDue (s : State) (k : Nat) : Option Nat :=
  let r := s.rindOf k
  let open_ := (msMie r.mstatus == 1 && fieldOf r.mie 11 1 == 1) || decide (r.priv < 3)
  if rindRuns s k && s.flag (pgRind k) evcCtrl_normEn && !nValid s k && !fValid s k && open_
      && !s.flag (pgRind k) evcCur_order && (fastDue s k).isNone then evcSelect s k false
  else none

/-- NORMAL_DELIVERY (R402): a machine external interrupt, code 11. -/
def execNormalDelivery (core : Nat) (s : State) : Result :=
  .next (match normalDue s core with
    | none => s
    | some i =>
      let s0 := noteAct (.delivered core) i (leaveWfi core s)
      let s1 := (s0.setFld (pgRind core) evcCur_nSrc i).setFld (pgRind core) evcCur_nValid 1
      s1.updRind core (trapTo true 11 0))

/-- FAST_DELIVERY (R403). -/
def execFastDelivery (core : Nat) (s : State) : Result :=
  .next (match fastDue s core with
    | none => s
    | some i =>
      let s0 := noteAct (.delivered core) i (leaveWfi core s)
      let s1 := (s0.setFld (pgRind core) evcCur_fSrc i).setFld (pgRind core) evcCur_fValid 1
      s1.updRind core (fun r =>
        { r with mfepc := r.pc, mfcause := BitVec.ofNat 64 i, ppriv := r.priv, active := true, fie := false, priv := 3,
                 pc := r.mftvec }))

/-! ### Register writes of an EVC -/

def locRind (k off : Nat) : Loc := pageLoc .rind k (pgRind k) off

/-- A block-specific register of a Rind page: an absent page ignores it (R6), a DARK one discards and counts it (R415). -/
def onRind (k off : Nat) (f : State → State) (s : State) : State :=
  if rindPresent s.fuses k = false then s
  else if isDark s (puRind k) then discardWrite (locRind k off) s
  else f s

/-- The order fault (R408). -/
def orderFault (k src : Nat) (s : State) : State :=
  let s1 := (s.setFld (pgRind k) evcCur_order 1).addFld (pgRind k) evcErr_order 1
  reportOwn clsEvcOrder (repRind k) src (raiseEv (pgRind k) 1 s1)

/-- A completion that was applied, for an unwind of the same cycle (R409). -/
def noteDone (k : Nat) (s : State) : State := { s with same := { s.same with dones := k :: s.same.dones } }

/-- `evc_done` of R407. A completion goes before a selection of its cycle (R409): after a delivery it belongs to the next cycle
(assumption 8). -/
def evcDone (k src : Nat) (s0 : State) : State :=
  let s := orNext (acted s0 (.delivered k)) s0
  if fValid s k ∧ src = fSrc s k then noteDone k (s.setFld (pgRind k) evcCur_fValid 0)
  else if nValid s k ∧ src = nSrc s k then
    if fValid s k then noteAct (.orderFault k) src (orderFault k src s)
    else noteDone k (s.setFld (pgRind k) evcCur_nValid 0)
  else s.addFld (pgRind k) evcErr_stray 1

/-- unwind (R408); a completion of the same cycle counts as stray (R409). After an order fault the unwind belongs to the next
cycle. -/
def evcUnwind (k : Nat) (s0 : State) : State :=
  let s := orNext (acted s0 (.orderFault k)) s0
  let n := (s.same.dones.filter (fun x => x == k)).length
  let s1 := { s with same := { s.same with dones := s.same.dones.filter (fun x => x != k) } }
  (((s1.setFld (pgRind k) evcCur_nValid 0).setFld (pgRind k) evcCur_fValid 0).setFld (pgRind k) evcCur_order 0).addFld
    (pgRind k) evcErr_stray n

def evcDoneWrite (req k : Nat) (v : U64) (s : State) : State :=
  onRind k 0x110 (fun s =>
    evcDone k (fieldOf v 0 10) (plainWrite req (locRind k 0x110) v (fun _ => false) (woTurn req (pgRind k + 0x110) s))) s

def evcSsetWrite (req k : Nat) (v : U64) (s : State) : State :=
  onRind k 0x118 (fun s => softSet k (fieldOf v 0 10) (plainWrite req (locRind k 0x118) v (fun _ => false) s)) s

def evcSclrWrite (req k : Nat) (v : U64) (s : State) : State :=
  onRind k 0x120 (fun s => softClear k (fieldOf v 0 10) (plainWrite req (locRind k 0x120) v (fun _ => false) s)) s

def evcCtrlWrite (req k : Nat) (v : U64) (s : State) : State :=
  onRind k 0x100 (fun s =>
    let s1 := plainWrite req (locRind k 0x100) v (fun _ => false) s
    if fieldOf v 2 1 = 1 then evcUnwind k s1 else s1) s

/-- A core enters reset (R398): only its shadow bank keeps its contents (R403). -/
def rindStop (k : Nat) (s : State) : State :=
  ((dropCoreLines k s).updRind k (fun r => { Rind.reset with shadow := r.shadow })).setFld (pgRind k) evcCore_wfi 0

/-- A core starts in M-mode at rvec (R398); FAULT_N is released (R435). -/
def rindStart (k : Nat) (s : State) : State :=
  let s1 := (rindStop k s).updRind k (fun r => { r with pc := BitVec.ofNat 64 (4 * s.fld (pgRind k) evcCore_rvec) })
  { s1 with pins := { s1.pins with faultN := true } }

/-- A write to EVC_CORE (R398, R422): rvec keeps its value while hold is 0, and while the boot stands halted Rennet keeps every
core held (R435). -/
def evcCoreWrite (req k : Nat) (v : U64) (s : State) : State :=
  onRind k 0x138 (fun s =>
    let was := s.flag (pgRind k) evcCore_hold
    let s1 := plainWrite req (locRind k 0x138) v (fun f => f.fd == evcCore_rvec && !was
      || f.fd == evcCore_hold && s.flag pgRennet rntBoot_halted) s
    let now := s1.flag (pgRind k) evcCore_hold
    if was ∧ now = false then rindStart k s1
    else if was = false ∧ now then rindStop k s1
    else s1) s

/-- EVC_DONE (R407). -/
def execEvcDone (req core src : Nat) (s : State) : Result :=
  .next (onPath req (evcDoneWrite req core (BitVec.ofNat 64 (src % 1024))) s)

/-- EVC_SSET (R400); an absent core is answered ABSENT (R7; 95_what_each_step_holds.md). -/
def execEvcSset (req core src : Nat) (s : State) : Result :=
  .next (onPath req (if rindPresent s.fuses core then evcSsetWrite req core (BitVec.ofNat 64 (src % 1024))
    else absentCmd req) s)

/-- EVC_SCLR (R400). -/
def execEvcSclr (req core src : Nat) (s : State) : Result :=
  .next (onPath req (evcSclrWrite req core (BitVec.ofNat 64 (src % 1024))) s)

/-- UNWIND (R408): unwind is a WO bit, so only it acts; norm_en and fast_en keep their values. -/
def execUnwind (req core : Nat) (s : State) : Result :=
  .next (onPath req (onRind core 0x100 (evcUnwind core)) s)

/-- CORE_RELEASE (R398): a write to EVC_CORE with hold = 0. -/
def execCoreRelease (req core : Nat) (v : U64) (s : State) : Result :=
  .next (if fieldOf v 0 1 = 0 then onPath req (evcCoreWrite req core v) s else s)

/-- RIND_HOLD (R398): a write to EVC_CORE with hold = 1. -/
def execRindHold (req core : Nat) (v : U64) (s : State) : Result :=
  .next (if fieldOf v 0 1 = 1 then onPath req (evcCoreWrite req core v) s else s)

/-! ### MRET, exceptions, WFI -/

/-- A synchronous exception of a core that runs (R397, R405). -/
def rindTrap (k cause : Nat) (tval : U64) (s : State) : State :=
  if rindRuns s k then (leaveWfi k s).updRind k (trapTaken false (cause % 2 ^ 63) tval) else s

/-- MRET of a core in M-mode or in a fast handler (R404): from a fast handler back to mfepc in mode ppriv with the main bank, else
the standard one. -/
def rindMret (r : Rind) : Rind :=
  if r.active then { r with pc := r.mfepc, priv := r.ppriv, active := false, fie := true } else mretStd r

/-- MRET_FAST (R404): below M-mode an MRET is an illegal instruction, whose mtval is a free value. -/
def execMretFast (core : Nat) (s : State) : Result :=
  .next (
    let r := s.rindOf core
    if rindRuns s core = false then s
    else if r.active || r.priv == 3 then s.setRind core (rindMret r)
    else rindTrap core 2 s.draw.1 s.draw.2)

/-- SYNCHRONOUS_EXCEPTION (R405): through mtvec, the shadow bank still live, mepc and mcause overwritten. -/
def execSynchronousException (core cause : Nat) (tval : U64) (s : State) : Result := .next (rindTrap core cause tval s)

/-- WFI_WAKE (R406): any enabled source with a high level, whatever the enables and the slots. -/
def execWfiWake (core : Nat) (s : State) : Result :=
  .next (if rindRuns s core ∧ (List.range 1024).any (fun i => evcEn s core i && evcLevel s core i) then leaveWfi core s
    else s)

end Sys2Proof.Machine
end

