-- ==== Sys2Proof/Machine/Sfu.lean ====
section
/-!
DEFINITION. The special function unit (R254 to R257): its tables, coefficients and core functions in integer arithmetic,
with the special cases of R254. A division of an Int by a power of two rounds toward minus infinity, as the spec's `>>`.
-/
namespace Sys2Proof.Machine

def tabTX0 : List Nat :=
  [1073741824, 1085434106, 1097253708, 1109202018, 1121280436, 1133490379, 1145833280, 1158310587,
   1170923762, 1183674286, 1196563654, 1209593378, 1222764986, 1236080024, 1249540052, 1263146652]
def tabTX1 : List Nat :=
  [1276901417, 1290805962, 1304861917, 1319070932, 1333434672, 1347954824, 1362633090, 1377471191,
   1392470869, 1407633882, 1422962010, 1438457051, 1454120821, 1469955159, 1485961921, 1502142985]
def tabTX2 : List Nat :=
  [1518500250, 1535035634, 1551751076, 1568648537, 1585730000, 1602997467, 1620452965, 1638098541,
   1655936265, 1673968228, 1692196547, 1710623359, 1729250827, 1748081133, 1767116489, 1786359126]
def tabTX3 : List Nat :=
  [1805811301, 1825475297, 1845353420, 1865448001, 1885761398, 1906295993, 1927054196, 1948038440,
   1969251188, 1990694927, 2012372174, 2034285470, 2056437387, 2078830522, 2101467502, 2124350982]
/-- Table TX of R255: the integer nearest to 2^(i/64) x 2^30. -/
def tabTX : List Nat := tabTX0 ++ tabTX1 ++ tabTX2 ++ tabTX3

def tabTL0 : List Nat :=
  [0, 24017256, 47667823, 70962728, 93912511, 116527249, 138816582, 160789745,
   182455581, 203822568, 224898838, 245692198, 266210141, 286459867, 306448298, 326182095]
def tabTL1 : List Nat :=
  [345667660, 364911161, 383918542, 402695523, 421247625, 439580171, 457698295, 475606957,
   493310944, 510814882, 528123240, 545240343, 562170370, 578917365, 595485245, 611877800]
def tabTL2 : List Nat :=
  [628098702, 644151509, 660039670, 675766524, 691335320, 706749198, 722011214, 737124328,
   752091421, 766915285, 781598637, 796144115, 810554284, 824831638, 838978603, 852997541]
def tabTL3 : List Nat :=
  [866890746, 880660456, 894308842, 907838030, 921250079, 934547002, 947730758, 960803258,
   973766363, 986621888, 999371608, 1012017244, 1024560485, 1037002979, 1049346326, 1061592099]
/-- Table TL of R255: the integer nearest to -log2(TR[i] x 2^-30) x 2^30. -/
def tabTL : List Nat := tabTL0 ++ tabTL1 ++ tabTL2 ++ tabTL3

def tabTSa0 : List Nat :=
  [1073741824, 1065450257, 1057347856, 1049427536, 1041682578, 1034106604, 1026693558, 1019437682,
   1012333500, 1005375799, 998559613, 991880210, 985333074, 978913898, 972618566, 966443148]
def tabTSa1 : List Nat :=
  [960383883, 954437177, 948599586, 942867814, 937238702, 931709222, 926276469, 920937655,
   915690104, 910531246, 905458609, 900469818, 895562589, 890734723, 885984104, 881308694]
def tabTSa2 : List Nat :=
  [876706528, 872175715, 867714429, 863320910, 858993459, 854730438, 850530263, 846391405,
   842312387, 838291779, 834328203, 830420321, 826566842, 822766514, 819018128, 815320510]
def tabTSa3 : List Nat :=
  [811672525, 808073073, 804521086, 801015531, 797555404, 794139734, 790767575, 787438013,
   784150157, 780903145, 777696137, 774528319, 771398898, 768307107, 765252196, 762233438]
/-- Table TS[0] of R255: the integer nearest to 2^30 / sqrt((64 + i) / 64). -/
def tabTSa : List Nat := tabTSa0 ++ tabTSa1 ++ tabTSa2 ++ tabTSa3

def tabTSb0 : List Nat :=
  [759250125, 753387102, 747657839, 742057327, 736580814, 731223792, 725981977, 720851298,
   715827883, 710908045, 706088274, 701365222, 696735698, 692196655, 687745184, 683378504]
def tabTSb1 : List Nat :=
  [679093957, 674889000, 670761200, 666708225, 662727842, 658817909, 654976372, 651201261,
   647490682, 643842818, 640255922, 636728315, 633258380, 629844563, 626485368, 623179354]
def tabTSb2 : List Nat :=
  [619925131, 616721362, 613566757, 610460069, 607400100, 604385689, 601415717, 598489102,
   595604800, 592761802, 589959130, 587195840, 584471019, 581783781, 579133272, 576518662]
def tabTSb3 : List Nat :=
  [573939147, 571393950, 568882316, 566403514, 563956835, 561541591, 559157115, 556802759,
   554477894, 552181909, 549914212, 547674226, 545461392, 543275165, 541115017, 538980433]
/-- Table TS[1] of R255: the integer nearest to 2^30 / sqrt((64 + i) x 2 / 64). -/
def tabTSb : List Nat := tabTSb0 ++ tabTSb1 ++ tabTSb2 ++ tabTSb3

/-- Table TR of R255: the integer nearest to 2^36 / (64 + i). -/
def tabTR (i : Nat) : Int := ((2 ^ 37 + 64 + i) / (2 * (64 + i)) : Nat)

def txAt (i : Nat) : Int := (tabTX.getD i 0 : Nat)
def tlAt (i : Nat) : Int := (tabTL.getD i 0 : Nat)
def tsAt (h i : Nat) : Int := ((if h = 0 then tabTSa else tabTSb).getD i 0 : Nat)

/-- Arithmetic shift right by 30. -/
def q30 (x : Int) : Int := x / 2 ^ 30

/-- What a core function returns: sign, y and shift (R254 step 3). -/
structure SfuOut where
  neg : Bool
  y : Nat
  sh : Int
deriving DecidableEq, Repr

/-- `core_exp2` of R257, from t = rne(x x 2^30). -/
def coreExp2 (t : Int) : SfuOut :=
  let k := q30 t
  let f := t % 2 ^ 30
  let i := (f / 2 ^ 24).toNat
  let z := f % 2 ^ 24
  let z2 := q30 (z * z)
  let z3 := q30 (z2 * z)
  let p := q30 (744261118 * z) + q30 (257941248 * z2) + q30 (59597083 * z3)
  let m := txAt i + q30 (txAt i * p)
  ⟨false, m.toNat, k - 30⟩

/-- `split` of R257: sig in [2^23, 2^24) and e. -/
def sfuSplit (m : Nat) (ex : Int) : Nat × Int :=
  let top := Nat.log2 m
  let sig := if top ≤ 23 then m * 2 ^ (23 - top) else m / 2 ^ (top - 23)
  (sig, ex + top)

/-- w of the reciprocal and logarithm cores, with the table index. -/
def sfuResidual (sig : Nat) : Nat × Int :=
  let i := sig / 2 ^ 17 % 64
  (i, q30 ((sig * 2 ^ 7 : Nat) * tabTR i) - 2 ^ 30)

/-- `powers` of R257. -/
def sfuPowers (w : Int) : Int × Int × Int :=
  let w2 := q30 (w * w)
  let w3 := q30 (w2 * w)
  (w2, w3, q30 (w3 * w))

/-- `core_log2` of R257. -/
def coreLog2 (m : Nat) (ex : Int) : SfuOut :=
  let (sig, e) := sfuSplit m ex
  let (i, w) := sfuResidual sig
  let (w2, w3, w4) := sfuPowers w
  let p := q30 (1549082005 * w) + q30 (-774541002 * w2) + q30 (516360668 * w3) + q30 (-387270501 * w4)
  let l := e * 2 ^ 30 + tlAt i + p
  ⟨decide (l < 0), l.natAbs, -30⟩

/-- `core_rcp` of R257. -/
def coreRcp (neg : Bool) (m : Nat) (ex : Int) : SfuOut :=
  let (sig, e) := sfuSplit m ex
  let (i, w) := sfuResidual sig
  let (w2, w3, w4) := sfuPowers w
  let q := 2 ^ 30 - w + w2 - w3 + w4
  ⟨neg, (q30 (tabTR i * q)).toNat, -e - 30⟩

/-- `core_rsq` of R257. -/
def coreRsq (m : Nat) (ex : Int) : SfuOut :=
  let (sig, e) := sfuSplit m ex
  let h := (e % 2).toNat
  let ee := e - h
  let i := sig / 2 ^ 17 % 64
  let ts := tsAt h i
  let g := q30 ((sig * 2 ^ (7 + h) : Nat) * ts)
  let w := q30 (g * ts) - 2 ^ 30
  let (w2, w3, w4) := sfuPowers w
  let q := 2 ^ 30 - w / 2 + (3 * w2) / 8 - (5 * w3) / 16 + (35 * w4) / 128
  ⟨false, (q30 (ts * q)).toNat, -(ee / 2) - 30⟩

def SfuOut.val (o : SfuOut) : Val := if o.y = 0 then .zero o.neg else .fin o.neg o.y o.sh

/-- A value rounded to an arithmetic format (R99), and whether the rounding made a finite value infinite. -/
def rndTo (fmt : Nat) (v : Val) : Val × Bool :=
  let (c, f) := encodeFloat (layoutOf fmt) none v
  (ofCode fmt c, f)

/-- EXP2 on an FP32 value (R254). -/
def sfuExp2 : Val → Val
  | .nan => .nan
  | .inf n => if n then .zero false else .inf false
  | .zero _ => .fin false 1 0
  | .fin n m e =>
    if 0 ≤ Val.cmp (.fin n m e) (.fin false 1 7) then .inf false
    else if Val.cmp (.fin n m e) (.fin true 5 5) < 0 then .zero false
    else (coreExp2 (roundInt (-(2 ^ 40)) (2 ^ 40) none (.fin n m (e + 30))).1).val

/-- LOG2 on an FP32 value (R254). -/
def sfuLog2 : Val → Val
  | .nan => .nan
  | .inf n => if n then .nan else .inf false
  | .zero _ => .inf true
  | .fin n m e => if n then .nan else (coreLog2 m e).val

/-- RCP on an FP32 value (R254). -/
def sfuRcp : Val → Val
  | .nan => .nan
  | .inf n => .zero n
  | .zero n => .inf n
  | .fin n m e => (coreRcp n m e).val

/-- RSQ on an FP32 value (R254). -/
def sfuRsq : Val → Val
  | .nan => .nan
  | .inf n => if n then .nan else .zero false
  | .zero n => .inf n
  | .fin n m e => if n then .nan else (coreRsq m e).val

/-- A special function of an operand, rounded to afmt (R254), and whether a rounding overflowed. -/
def sfuApply (f : Val → Val) (afmt : Nat) (v : Val) : Val × Bool :=
  let (x, f1) := rndTo 0 v
  let (y, f2) := rndTo afmt (f x)
  (y, f1 || f2)

end Sys2Proof.Machine
end

