-- ==== Sys2Proof/Machine/CurdOps.lean ====
section
/-!
DEFINITION. Curd instruction words: their operands (R226, R227), what each instruction uses and may hold (R228, R230 to
R236, R240 to R251), the registers and queue ends it names, and what one step computes on elements, lanes and records.
-/
namespace Sys2Proof.Machine

/-! ### Operands (R226, R227, R231) -/

/-- A source operand. -/
structure Src where
  q : Nat
  peek : Bool
  fmt : Nat
deriving DecidableEq, Repr

/-- A destination operand. -/
structure Dst where
  q : Nat
  fmt : Nat
  srnd : Bool
deriving DecidableEq, Repr

def srcOf (x : Nat) : Src := ⟨x % 64, x / 64 % 2 == 1, x / 128 % 16⟩
def dstOf (x : Nat) : Dst := ⟨x % 64, x / 64 % 16, x / 1024 % 2 == 1⟩

/-- A region field. -/
structure Region where
  w : Bool
  space : Nat
  qd : Nat
  base : Nat
  pages : Nat
deriving DecidableEq, Repr

def regionOf (x : Nat) : Region := ⟨x % 2 == 1, x / 2 % 4, x / 8 % 4, x / 32 % 32, x / 1024 % 8192 + 1⟩

def regionFields (w : CurdWord) : List Nat := [w.rg0, w.rg1, w.rg2, w.rg3]

/-- A region field that names no region holds nothing else, and qd is used by spaces 2 and 3 alone (R227, R228). -/
def regionOk (x : Nat) : Bool :=
  let r := regionOf x
  if r.space = 0 then x == 0 else r.space != 1 || r.qd == 0

/-- E of an arithmetic format. -/
def stepElems (afmt : Nat) : Nat := if afmt = 0 then 128 else 256

/-- Elements of a unit (R231). -/
def unitElems (fmt : Nat) : Nat :=
  match fmt with
  | 0 => 128
  | 1 => 256
  | 2 => 256
  | 3 => 512
  | 4 => 512
  | _ => 2048

/-- Vectors of a unit (R231). -/
def unitVecs (fmt : Nat) : Nat := if fmt = 7 then 2 else if 5 ≤ fmt then 3 else 1

/-! ### Classes of instructions -/

def isFloat (op : Nat) : Bool := decide (0x10 ≤ op) && decide (op ≤ 0x1E)
def hasB (op : Nat) : Bool := decide (0x10 ≤ op) && decide (op ≤ 0x17)
def isLane (op : Nat) : Bool := decide (0x20 ≤ op) && decide (op ≤ 0x27)
def isVector (op : Nat) : Bool := isFloat op || (decide (0x20 ≤ op) && decide (op ≤ 0x2B)) || op == 0x30 || op == 0x31 || op == 0x40
def isCompare (op : Nat) : Bool := decide (0x59 ≤ op) && decide (op ≤ 0x5E)
def isAlu (op : Nat) : Bool := decide (0x50 ≤ op) && decide (op ≤ 0x5E)
def isBranch (op : Nat) : Bool := op == 0x68 || op == 0x69

def bsel (w : CurdWord) : Nat := w.imm % 4

/-- What an instruction uses: the bits of each field that may be non-zero (R228). -/
structure Uses where
  afmt : Nat := 0
  sa : Nat := 0
  sb : Nat := 0
  sc : Nat := 0
  dd : Nat := 0
  de : Nat := 0
  rd : Nat := 0
  rs1 : Nat := 0
  rs2 : Nat := 0
  imm : Nat := 0
deriving DecidableEq, Repr

/-- A whole source field, one whose format is 0 (raw, mask or records), and one of records that no peek reads. -/
def srcFull : Nat := 0x7FF
def srcRaw : Nat := 0x7F
def srcPop : Nat := 0x3F
def dstFull : Nat := 0x7FF
def dstRaw : Nat := 0x3F
def immHigh : Nat := 0xFFFFFFFF00000000

/-- Floating-point vector instructions (R238, R240, R241). -/
def floatUses (op : Nat) (w : CurdWord) : Uses :=
  { afmt := 3, sa := srcFull
    sb := if hasB op && bsel w == 0 then srcFull else 0
    sc := if op = 0x13 then srcFull else if op = 0x17 then srcRaw else 0
    dd := if op = 0x16 then dstRaw else dstFull
    rd := 31
    rs1 := if hasB op && bsel w == 2 then 31 else 0
    imm := if hasB op then 3 + (if op = 0x16 then 0x1C else 0) + (if bsel w = 1 then immHigh else 0) else 0 }

/-- Integer lanes, movement and records (R241, R244). -/
def laneUses (op : Nat) (w : CurdWord) : Uses :=
  match op with
  | 0x20 => { sa := srcRaw, sb := srcRaw, dd := dstRaw, imm := 3 }
  | 0x21 => { sa := srcRaw, sb := srcRaw, dd := dstRaw, imm := 3 }
  | 0x22 => { sa := srcRaw, sb := srcRaw, dd := dstRaw }
  | 0x23 => { sa := srcRaw, sb := srcRaw, dd := dstRaw }
  | 0x24 => { sa := srcRaw, sb := srcRaw, dd := dstRaw }
  | 0x25 => { sa := srcRaw, sb := srcRaw, dd := dstRaw, imm := 3 }
  | 0x26 => { sa := srcRaw, sb := srcRaw, dd := dstRaw, imm := 7 }
  | 0x27 => { sa := srcRaw, sb := srcRaw, dd := dstRaw, imm := 0x3F }
  | 0x28 => { sa := srcRaw, dd := dstRaw, de := if w.imm / 256 % 2 = 1 then dstRaw else 0, imm := 0x100 }
  | 0x29 => { sa := srcRaw, sc := srcRaw, dd := dstRaw, rd := 31, imm := 3 }
  | 0x2A => { sa := srcRaw, dd := dstRaw, rs1 := 31, imm := 0x1F }
  | _ => { sa := srcRaw, sb := if w.imm % 16 = 2 then srcRaw else srcPop, rs1 := 31, imm := 0x1F }

/-- Scalar instructions. -/
def scalarUses (op : Nat) : Uses :=
  if isCompare op then { rd := 7, rs1 := 31, rs2 := 31, imm := 2 ^ 64 - 1 }
  else if isAlu op then { rd := 31, rs1 := 31, rs2 := 31, imm := 2 ^ 64 - 1 }
  else
    match op with
    | 0x60 => { rd := 31, rs1 := 31, imm := 2 ^ 64 - 1 }
    | 0x61 => { rs1 := 31, rs2 := 31, imm := 2 ^ 64 - 1 }
    | 0x68 => { imm := 0xFFFFFF }
    | 0x69 => { rd := 31, imm := 0xFFFFFF }
    | _ => { rd := 31 }

/-- What the instruction of an opcode uses. -/
def usesOf (op : Nat) (w : CurdWord) : Uses :=
  if isFloat op then floatUses op w
  else if 0x20 ≤ op ∧ op ≤ 0x2B then laneUses op w
  else if 0x50 ≤ op then scalarUses op
  else
    match op with
    | 0x30 => { sa := srcFull, dd := dstRaw, imm := 0x1F }
    | 0x31 => { sa := srcRaw, dd := dstRaw, imm := 0x3FFF }
    | 0x32 => { sa := srcPop, sb := srcPop, dd := dstRaw, rs1 := 31, rs2 := 31, imm := 0x3FFF }
    | 0x40 => { afmt := 3, sa := srcFull, sb := if w.imm % 2 = 1 then srcFull else 0, dd := 0x7C0, de := dstFull, rs1 := 31,
                rs2 := 31, imm := 0x73 }
    | 0x41 => { rd := 31 }
    | 0x42 => { rs1 := 31, rs2 := 31, imm := immHigh + 0xFFFF }
    | 0x43 => { rs1 := 31, rs2 := 31, imm := 0xFFFF }
    | 0x44 => { imm := 2 ^ 64 - 1 }
    | 0x45 => { dd := dstRaw, rs1 := 31, imm := 0xFFFF }
    | _ => {}

/-- No bit of a field outside the mask is set. -/
def fits (x mask : Nat) : Bool := (x &&& mask) == x

def usesOk (u : Uses) (w : CurdWord) : Bool :=
  fits w.afmt u.afmt && fits w.sa u.sa && fits w.sb u.sb && fits w.sc u.sc && fits w.dd u.dd && fits w.de u.de
    && fits w.rd u.rd && fits w.rs1 u.rs1 && fits w.rs2 u.rs2 && fits w.imm u.imm

/-! ### Queues and registers that an instruction names -/

/-- Source operands. -/
def srcsOf (op : Nat) (w : CurdWord) : List Src :=
  let u := usesOf op w
  (if u.sa ≠ 0 then [srcOf w.sa] else []) ++ (if u.sb ≠ 0 then [srcOf w.sb] else [])
    ++ (if u.sc ≠ 0 then [srcOf w.sc] else [])

/-- Destination operands: the ASEND fields dd and de name a format and a result queue, and are none. -/
def dstsOf (op : Nat) (w : CurdWord) : List Dst :=
  let u := usesOf op w
  if op = 0x40 then [] else (if u.dd ≠ 0 then [dstOf w.dd] else []) ++ (if u.de ≠ 0 then [dstOf w.de] else [])

def popEnds (op : Nat) (w : CurdWord) : List Nat := (srcsOf op w).map (fun x => x.q)
def pushEnds (op : Nat) (w : CurdWord) : List Nat := (dstsOf op w).map (fun x => x.q)

/-- Every queue an instruction names (R209). -/
def namedQs (op : Nat) (w : CurdWord) : List Nat :=
  popEnds op w ++ pushEnds op w ++ (if op = 0x40 then [(dstOf w.de).q] else [])

/-- Registers by number: s1 to s31 are 1 to 31, p1 to p7 are 33 to 39. -/
def realReg (r : Nat) : Bool := r != 0 && r != 32

def drawsRandom (op : Nat) (w : CurdWord) : Bool := (isFloat op || op == 0x40) && (dstOf w.dd).srnd

/-- Registers an instruction reads (R204, R227, R236). -/
def readsOf (cmode : Bool) (op : Nat) (w : CurdWord) : List Nat :=
  let u := usesOf op w
  ([32 + w.pr] ++ (if u.rs1 ≠ 0 then [w.rs1] else []) ++ (if u.rs2 ≠ 0 then [w.rs2] else [])
    ++ (if op = 0x69 then [w.rd] else []) ++ (if drawsRandom op w then [28, 29] else [])
    ++ (if cmode then [] else
        ((regionFields w).map regionOf).filterMap (fun (r : Region) => if r.space = 0 then none else some r.base))).filter realReg

/-- Registers an instruction writes. -/
def writesOf (op : Nat) (w : CurdWord) : List Nat :=
  let u := usesOf op w
  (if op = 0x41 then [w.rd, w.rd + 1, w.rd + 2, w.rd + 3]
   else if isCompare op then [32 + w.rd % 8]
   else if u.rd ≠ 0 then [w.rd] else []).filter realReg

/-! ### ILLEGAL (R228, R230, R232 to R236, R242, R246 to R249) -/

/-- A format may be peeked: one vector holds at least E elements (R233). -/
def peekable (afmt fmt : Nat) : Bool := decide (fmt < 5) && decide (stepElems afmt ≤ unitElems fmt)

/-- A valued operand's format, peek and length in whole units (R228, R232, R233). -/
def srcOk (w : CurdWord) (x : Src) : Bool :=
  decide (x.fmt < 8) && (!x.peek || peekable w.afmt x.fmt) && w.rep * stepElems w.afmt % unitElems x.fmt == 0

def srndOk (x : Dst) : Bool := decide (x.fmt < 8) && (!x.srnd || decide (3 ≤ x.fmt))

def floatOk (op : Nat) (w : CurdWord) : Bool :=
  let srcs := (if op = 0x17 then (srcsOf op w).dropLast else srcsOf op w)
  w.afmt != 3 && srcs.all (srcOk w) && !(hasB op && bsel w == 3) && !(op == 0x16 && w.imm / 4 % 8 == 7)
    && (op == 0x16 || (srndOk (dstOf w.dd) && w.rep * stepElems w.afmt % unitElems (dstOf w.dd).fmt == 0))

def recordLog (w : CurdWord) : Nat := w.imm % 16
def sortLog (w : CurdWord) : Nat := w.imm % 8
def keyOff (w : CurdWord) : Nat := w.imm / 8 % 64
def keyLen (w : CurdWord) : Nat := w.imm / 512 % 32 + 1

def sortOk (w : CurdWord) : Bool :=
  decide (3 ≤ sortLog w) && decide (sortLog w ≤ 6) && decide (keyOff w + keyLen w ≤ 2 ^ sortLog w)

def keyxOk (w : CurdWord) : Bool :=
  let kind := w.imm % 4
  let fmt := (srcOf w.sa).fmt
  kind != 3 && (if kind = 2 then w.imm / 8 % 4 == 0 && decide (fmt < 3) else fmt == 0)

/-- The constraints stated for one instruction. -/
def opOk (op : Nat) (w : CurdWord) : Bool :=
  if isFloat op then floatOk op w
  else
    match op with
    | 0x27 => decide (w.imm / 8 % 8 < 6)
    | 0x2A => decide (2 ≤ recordLog w) && decide (recordLog w ≤ 9)
    | 0x2B => decide (2 ≤ recordLog w) && decide (recordLog w ≤ 9)
    | 0x30 => keyxOk w
    | 0x31 => sortOk w
    | 0x32 => sortOk w
    | 0x40 => w.afmt != 3 && (srcsOf op w).all (srcOk w) && srndOk (dstOf w.dd) && srndOk (dstOf w.de)
    | 0x41 => decide (1 ≤ w.rd) && decide (w.rd ≤ 28)
    | _ => true

/-- The opcodes of R241. -/
def opKnown (op : Nat) : Bool :=
  op == 0 || isFloat op || (decide (0x20 ≤ op) && decide (op ≤ 0x2B)) || (decide (0x30 ≤ op) && decide (op ≤ 0x32))
    || (decide (0x40 ≤ op) && decide (op ≤ 0x46)) || isAlu op || op == 0x60 || op == 0x61
    || (decide (0x68 ≤ op) && decide (op ≤ 0x6A))

def nodupNat : List Nat → Bool
  | [] => true
  | x :: xs => !xs.contains x && nodupNat xs

/-- Two sources share a queue only when at most one pops it, and two destinations never do (R234). -/
def queuesOk (op : Nat) (w : CurdWord) : Bool :=
  nodupNat (((srcsOf op w).filter (fun x => !x.peek)).map (fun x => x.q)) && nodupNat (pushEnds op w)

/-- The word is legal (R228). -/
def legal (cmode : Bool) (op : Nat) (w : CurdWord) : Bool :=
  opKnown op && usesOk (usesOf op w) w && (if isVector op then w.rep != 0 else w.rep == 0) && opOk op w && queuesOk op w
    && (cmode || (regionFields w).all regionOk)

/-! ### Operand streams (R231, R233) -/

/-- Elements whose codes lie in one vector of a unit. -/
def vecElems (fmt : Nat) : Nat := if isScaled fmt then 4096 / elemBits fmt else unitElems fmt

/-- Vectors of the unit that have been popped before step `k` (R233). -/
def goneVecs (afmt k : Nat) (x : Src) : Nat :=
  if x.peek then 0 else k * stepElems afmt % unitElems x.fmt / vecElems x.fmt

/-- Vectors that step `k` must see at the head of a queue, and vectors it pops: each with its last element, a unit's scales
with the unit (R233). -/
def srcNeed (afmt k : Nat) (x : Src) : Nat × Nat :=
  if x.peek then (1, 0)
  else
    let u := unitElems x.fmt
    let n := stepElems afmt
    if u ≤ n then (n / u, n / u)
    else
      let left := unitVecs x.fmt - goneVecs afmt k x
      let upto := k * n % u + n
      (left, if upto = u then left else upto / vecElems x.fmt - goneVecs afmt k x)

/-- The same in the instruction: raw, mask and record operands give one vector a step, the records of SCAT 128. -/
def needOf (op : Nat) (w : CurdWord) (k i : Nat) (x : Src) : Nat × Nat :=
  let one := if x.peek then (1, 0) else (1, 1)
  if isFloat op ∨ op = 0x40 then (if op = 0x17 ∧ i = (srcsOf op w).length - 1 then one else srcNeed w.afmt k x)
  else if op = 0x2B ∧ i = 1 then (if x.peek then (1, 0) else (2 ^ (recordLog w - 2), 2 ^ (recordLog w - 2)))
  else one

/-- Position in its unit of the first element of step `k`. -/
def unitPos (afmt k : Nat) (x : Src) : Nat := if x.peek then 0 else k * stepElems afmt % unitElems x.fmt

/-- The bytes of the unit, of which step `k` sees what has not been popped. -/
def unitBytes (afmt k : Nat) (x : Src) (vecs : List (List Byte)) : List Byte :=
  List.replicate (512 * goneVecs afmt k x) 0 ++ vecs.flatMap id

/-- The elements of step `k` of a valued operand. -/
def stepVals (afmt k : Nat) (x : Src) (vecs : List (List Byte)) : List Val :=
  let n := stepElems afmt
  let u := unitElems x.fmt
  let bs := unitBytes afmt k x vecs
  (List.range n).map (fun j => elemVal x.fmt u bs (unitPos afmt k x + j))

/-- Scales of step `k` outside the band, and reserved codes (R97, R185). -/
def stepScale (lo hi afmt k : Nat) (x : Src) (vecs : List (List Byte)) : Nat :=
  if isScaled x.fmt then
    ((List.range (stepElems afmt / 32)).filter (fun j =>
      let sc := scaleByte x.fmt 2048 (unitBytes afmt k x vecs) (unitPos afmt k x + 32 * j)
      sc != 0xFF && (decide (sc < lo) || decide (hi < sc)))).length
  else 0

def stepRsv (afmt k : Nat) (x : Src) (vecs : List (List Byte)) : Nat :=
  if x.fmt = 7 then
    ((List.range (stepElems afmt)).filter (fun j =>
      let bs := unitBytes afmt k x vecs
      elemCode 7 bs (unitPos afmt k x + j) == 2 && scaleByte 7 2048 bs (unitPos afmt k x + j) != 0xFF)).length
  else 0

/-! ### Element operations (R242, R243) -/

/-- The larger or smaller of two values (R242). -/
def pickVal (max : Bool) (a b : Val) : Val :=
  if a.isNan || b.isNan then .nan
  else
    match a, b with
    | .zero s, .zero t => .zero (if max then s && t else s || t)
    | _, _ => if max then (if Val.cmp a b < 0 then b else a) else (if 0 < Val.cmp a b then b else a)

/-- A compare condition (R242). -/
def cmpVal (cond : Nat) (a b : Val) : Bool :=
  if a.isNan || b.isNan then cond == 1 || cond == 6
  else
    let c := Val.cmp a b
    match cond with
    | 0 => c == 0
    | 1 => c != 0
    | 2 => decide (c < 0)
    | 3 => decide (c ≤ 0)
    | 4 => decide (0 < c)
    | 5 => decide (0 ≤ c)
    | _ => false

/-- Bit `j` of a mask vector. -/
def maskBit (v : List Byte) (j : Nat) : Bool := (v.getD (j / 8) 0).toNat / 2 ^ (j % 8) % 2 == 1

/-- A mask vector of these bits. -/
def maskVec (bs : List Bool) : List Byte :=
  let p := packCodes 1 (bs.map bit01)
  p ++ List.replicate (512 - p.length) 0

/-- The result of one element of a floating-point instruction other than CMP, SEL, RSUM and RMAX, with its afmt rounding. -/
def floatElem (op afmt : Nat) (a b c : Val) : Val × Bool :=
  match op with
  | 0x10 => rndTo afmt (Val.add a b)
  | 0x11 => rndTo afmt (Val.add a b.negate)
  | 0x12 => rndTo afmt (Val.mul a b)
  | 0x13 => rndTo afmt (Val.add (Val.mul a b) c)
  | 0x14 => (pickVal true a b, false)
  | 0x15 => (pickVal false a b, false)
  | 0x18 => (a, false)
  | 0x1B => sfuApply sfuExp2 afmt a
  | 0x1C => sfuApply sfuLog2 afmt a
  | 0x1D => sfuApply sfuRcp afmt a
  | _ => sfuApply sfuRsq afmt a

/-- RSUM and RMAX: the canonical tree over the step's elements rounded to afmt (R243). -/
def reduceStep (max : Bool) (afmt : Nat) (as : List Val) : Val × Bool :=
  let join := fun (x y : Val × Bool) =>
    if max then (pickVal true x.1 y.1, x.2 || y.2)
    else
      let r := rndTo afmt (Val.add x.1 y.1)
      (r.1, x.2 || y.2 || r.2)
  (canonFold join 20 (as.map (rndTo afmt))).getD (.zero false, false)

def nthVal (l : List Val) (i : Nat) : Val := l.getD i (.zero false)

/-- The values that one step of a floating-point instruction gives its destination. -/
def floatStep (op afmt : Nat) (as bs cs : List Val) (mask : List Byte) : List (Val × Bool) :=
  let n := stepElems afmt
  if op = 0x19 ∨ op = 0x1A then [reduceStep (op == 0x1A) afmt as]
  else if op = 0x17 then
    (List.range n).map (fun i => rndTo afmt (if maskBit mask i then nthVal as i else nthVal bs i))
  else (List.range n).map (fun i => floatElem op afmt (nthVal as i) (nthVal bs i) (nthVal cs i))

/-- A value that waits to be encoded, as one number: its flag, its kind, and for a finite value sig and exp + 2048. -/
def packVal (x : Val × Bool) : Nat :=
  let v := match x.1 with
    | .nan => 0
    | .inf s => 1 + bit01 s
    | .zero s => 3 + bit01 s
    | .fin s m e => 5 + bit01 s + 8 * ((e + 2048).toNat + 4096 * m)
  bit01 x.2 + 2 * v

def unpackVal (n : Nat) : Val × Bool :=
  let v := n / 2
  let w := v / 8
  let x : Val := match v % 8 with
    | 0 => .nan
    | 1 => .inf false
    | 2 => .inf true
    | 3 => .zero false
    | 4 => .zero true
    | 5 => .fin false (w / 4096) ((w % 4096 : Nat) - 2048 : Int)
    | _ => .fin true (w / 4096) ((w % 4096 : Nat) - 2048 : Int)
  (x, n % 2 == 1)

/-- Encoding of a destination unit: its bytes, unfilled parts 0, and the elements a rounding flagged (R233, R236, R238). -/
def unitOut (fmt : Nat) (rnd : Nat → Option Nat) (xs : List Nat) : List Byte × Nat :=
  let vs := xs.map unpackVal
  let ps := vs.zipIdx.map (fun x => (x.1.1, rnd x.2))
  let size := unitVecs fmt * 512
  if isScaled fmt then
    let gs := (pieces 32 ps).map (encodeGroup fmt)
    let codes := gs.flatMap (fun g => g.codes)
    let sat := (pieces 32 ps).map (fun g =>
      if g.any (fun x => x.1.isNan) then g.map (fun _ => false)
      else g.map (fun x => (encodeScaled fmt (scaleExp fmt (g.map (fun y => y.1))) x.2 x.1).2))
    let body := packCodes (elemBits fmt) (codes ++ List.replicate (2048 - codes.length) 0)
      ++ (gs.map (fun g => BitVec.ofNat 8 g.scale))
    (body ++ List.replicate (size - body.length) 0,
      ((vs.zip (sat.flatMap id)).filter (fun x => x.1.2 || x.2)).length)
  else
    let cs := ps.map (fun x => encodeFloat (layoutOf fmt) x.2 x.1)
    let body := packCodes (elemBits fmt) (cs.map (fun c => c.1))
    (body ++ List.replicate (size - body.length) 0, ((vs.zip cs).filter (fun x => x.1.2 || x.2.2)).length)

/-! ### Lanes (R241, R246) -/

def laneBytes (w : CurdWord) : Nat := 2 ^ (w.imm % 4)

def lanesOf (nb : Nat) (v : List Byte) : List Nat := (pieces nb v).map leVal

/-- The lane value as a two's-complement integer. -/
def signedOf (bits x : Nat) : Int := if 2 ^ (bits - 1) ≤ x then (x : Int) - 2 ^ bits else x

/-- One lane of IADD to SHR. -/
def laneOp (op bits : Nat) (sign : Bool) (a b : Nat) : Nat :=
  match op with
  | 0x20 => (a + b) % 2 ^ bits
  | 0x21 => (a + 2 ^ bits - b) % 2 ^ bits
  | 0x22 => a &&& b
  | 0x23 => a ||| b
  | 0x24 => a ^^^ b
  | 0x25 => a * 2 ^ (b % bits) % 2 ^ bits
  | _ => if sign then ((signedOf bits a / 2 ^ (b % bits)) % 2 ^ bits).toNat else a / 2 ^ (b % bits)

def cmpInt (cond : Nat) (a b : Int) : Bool :=
  match cond with
  | 0 => a == b
  | 1 => a != b
  | 2 => decide (a < b)
  | 3 => decide (a ≤ b)
  | 4 => decide (b < a)
  | _ => decide (b ≤ a)

/-- The vector that one step of a lane instruction pushes. -/
def laneStep (op : Nat) (w : CurdWord) (a b : List Byte) : List Byte :=
  let nb := if op = 0x22 ∨ op = 0x23 ∨ op = 0x24 then 8 else laneBytes w
  let bits := 8 * nb
  let xs := (lanesOf nb a).zip (lanesOf nb b)
  let sign := w.imm / 4 % 2 == 1
  if op = 0x27 then
    maskVec (xs.map (fun x =>
      if sign then cmpInt (w.imm / 8 % 8) (signedOf bits x.1) (signedOf bits x.2) else cmpInt (w.imm / 8 % 8) x.1 x.2))
  else xs.flatMap (fun x => leBytes nb (laneOp op bits sign x.1 x.2))

/-- `keyx` of R246. -/
def keyx (bits kind : Nat) (desc : Bool) (fmt c : Nat) : Nat :=
  let msk := 2 ^ bits - 1
  let top := 2 ^ (bits - 1)
  if kind = 2 ∧ (ofCode fmt c).isNan then msk
  else
    let k := if kind = 2 then (if c < top then c + top else msk - c)
      else if kind = 1 then (if c < top then c + top else c - top) else c
    if desc then msk - k else k

def keyxStep (w : CurdWord) (a : List Byte) : List Byte :=
  let kind := w.imm % 4
  let fmt := (srcOf w.sa).fmt
  let nb := if kind = 2 then accBytes fmt else 2 ^ (w.imm / 8 % 4)
  (lanesOf nb a).flatMap (fun c => leBytes nb (keyx (8 * nb) kind (w.imm / 4 % 2 == 1) fmt c))

/-! ### Records (R247) -/

def recKey (w : CurdWord) (r : List Byte) : Nat := leVal ((r.drop (keyOff w)).take (keyLen w))

/-- Insert after every record with a key not above it. -/
def insertRec (w : CurdWord) (r : List Byte) : List (List Byte) → List (List Byte)
  | [] => [r]
  | x :: xs => if recKey w r < recKey w x then r :: x :: xs else x :: insertRec w r xs

/-- Stable ascending sort (R247). -/
def sortRecs (w : CurdWord) (rs : List (List Byte)) : List (List Byte) := rs.foldl (fun acc r => insertRec w r acc) []

def sortStep (w : CurdWord) (a : List Byte) : List Byte := (sortRecs w (pieces (2 ^ sortLog w) a)).flatMap id

/-- COMPACT: the lanes whose mask bit is set. -/
def compactStep (w : CurdWord) (a c : List Byte) : List (List Byte) :=
  ((pieces (laneBytes w) a).zipIdx.filter (fun x => maskBit c x.2)).map (fun x => x.1)

/-! ### Scalar results (R241) -/

def w64 (x : Int) : U64 := BitVec.ofInt 64 x

/-- SADD to SSRA. -/
def aluOp (op : Nat) (a b : U64) : U64 :=
  match op with
  | 0x50 => a + b
  | 0x51 => a - b
  | 0x52 => a * b
  | 0x53 => a &&& b
  | 0x54 => a ||| b
  | 0x55 => a ^^^ b
  | 0x56 => a <<< (b.toNat % 64)
  | 0x57 => a >>> (b.toNat % 64)
  | _ => a.sshiftRight (b.toNat % 64)

/-- SCEQ to SCGES. -/
def cmpOp (op : Nat) (a b : U64) : Bool :=
  match op with
  | 0x59 => a == b
  | 0x5A => a != b
  | 0x5B => decide (a.toNat < b.toNat)
  | 0x5C => decide (a.toInt < b.toInt)
  | 0x5D => decide (b.toNat ≤ a.toNat)
  | _ => decide (b.toInt ≤ a.toInt)

end Sys2Proof.Machine
end

