-- ==== Sys2Proof/Machine/CurdExec.lean ====
section
/-!
DEFINITION. How a Curd core issues, starts, runs and completes an instruction (R201 to R209, R218, R220, R227 to R240): the
holds, what an instruction reads when it starts, and its steps. A command of the table that names an instruction issues it,
starts it when nothing holds it, and runs it until it completes or must wait; INSTRUCTION_START and INSTRUCTION_COMPLETE take
it further.
-/
namespace Sys2Proof.Machine

/-! ### Registers of a core (R182) -/

def Core.sreg (c : Core) (r : Nat) : U64 := if r = 0 then 0 else tget (0 : U64) c.s r
def Core.preg (c : Core) (p : Nat) : Bool := p == 0 || c.p / 2 ^ p % 2 == 1

/-- Write a scalar register; s0 ignores writes. -/
def writeS (core r : Nat) (v : U64) (s : State) : State :=
  if r = 0 then s else s.updCore core (fun c => { c with s := tset 0 c.s r v })

/-- Write a predicate; p0 ignores writes. -/
def writeP (core p : Nat) (b : Bool) (s : State) : State :=
  if p = 0 then s
  else s.updCore core (fun c => { c with p := c.p - c.p / 2 ^ p % 2 * 2 ^ p + bit01 b * 2 ^ p })

/-- What an instruction reads when it starts. -/
def capture (c : Core) (w : CurdWord) : List Nat :=
  ([w.rs1, w.rs2, w.rd, 28, 29] ++ (regionFields w).map (fun x => (regionOf x).base)).map (fun r => (c.sreg r).toNat)

def Sb.at_ (e : Sb) (i : Nat) : Nat := e.cap.getD i 0
def Sb.rs1 (e : Sb) : Nat := e.at_ 0
def Sb.rs2 (e : Sb) : Nat := e.at_ 1

/-! ### Regions (R205, R206, R227) -/

/-- The declared regions with their bases. -/
def regionsWith (w : CurdWord) (bases : List Nat) : List (Region × Nat) :=
  (((regionFields w).map regionOf).zip bases).filter (fun (x : Region × Nat) => x.1.space != 0)

def Sb.regions (e : Sb) : List (Region × Nat) := regionsWith e.w (e.cap.drop 5)

/-- The regions of an instruction whose registers are ready. -/
def regionsNow (c : Core) (w : CurdWord) : List (Region × Nat) := regionsWith w ((capture c w).drop 5)

/-- A region that is aligned and lies wholly inside its space (R227). -/
def regionGood (s : State) (v : Nat) (x : Region × Nat) : Bool :=
  x.2 % 4096 == 0 && inSpace s v (x.1.space - 1) x.1.qd x.2 (x.1.pages * 4096)

def sameSpace (a b : Region) : Bool := a.space == b.space && a.qd == b.qd

/-- Two regions of which at least one is written overlap. -/
def regionClash (a b : Region × Nat) : Bool :=
  sameSpace a.1 b.1 && (a.1.w || b.1.w) && decide (a.2 < b.2 + b.1.pages * 4096) && decide (b.2 < a.2 + a.1.pages * 4096)

/-- An access of `n` bytes at `a` of a space lies inside a declared region of its direction (R206). -/
def covered (e : Sb) (wr : Bool) (space qd a n : Nat) : Bool :=
  e.regions.any (fun x => x.1.w == wr && x.1.space == space + 1 && (space == 0 || x.1.qd == qd) && decide (x.2 ≤ a)
    && decide (a + n ≤ x.2 + x.1.pages * 4096))

/-! ### Holds (R202, R204, R205, R209) -/

def meets (a b : List Nat) : Bool := a.any (fun x => b.contains x)

def Sb.reads (cmode : Bool) (e : Sb) : List Nat := readsOf cmode e.op e.w
def Sb.writes (e : Sb) : List Nat := writesOf e.op e.w

/-- Some entry of `before` writes a register that `e` reads. -/
def readHeld (cmode : Bool) (before : List Sb) (e : Sb) : Bool := before.any (fun x => meets x.writes (e.reads cmode))

/-- Whether the regions of entry `x`, with `before` older than it, hold the later regions `js`: a started entry by its
bases, one whose registers are ready by their present values, any other as if it covered every space it names (R227). -/
def regionHolds (c : Core) (before : List Sb) (x : Sb) (js : List (Region × Nat)) : Bool :=
  if x.started then x.regions.any (fun a => js.any (regionClash a))
  else if readHeld c.cmode before x then
    ((regionFields x.w).map regionOf).any (fun a =>
      a.space != 0 && js.any (fun (b : Region × Nat) => sameSpace a b.1 && (a.w || b.1.w)))
  else (regionsNow c x.w).any (fun a => js.any (regionClash a))

/-- Queues that a BARRIER names. -/
def maskQs (m : Nat) : List Nat := (List.range 64).filter (fun q => m / 2 ^ q % 2 == 1)

/-- An older entry `x` holds the entry `e`. -/
def holds (c : Core) (before : List Sb) (x e : Sb) : Bool :=
  meets (popEnds x.op x.w) (popEnds e.op e.w) || meets (pushEnds x.op x.w) (pushEnds e.op e.w)
    || meets x.writes (e.reads c.cmode) || meets x.writes e.writes || (!x.started && meets (x.reads c.cmode) e.writes)
    || (e.op == 0x44 && meets (namedQs x.op x.w) (maskQs e.w.imm))
    || (c.cmode && !x.started)
    || (!c.cmode && regionHolds c before x (regionsNow c e.w))

/-- The entries issued before number `ord`. -/
def olderThan (c : Core) (ord : Nat) : List Sb := c.sb.filter (fun x => decide (x.ord < ord))

/-- An entry of the scoreboard is held by an older one. -/
def heldAt (c : Core) (e : Sb) : Bool := (olderThan c e.ord).any (fun x => holds c (olderThan c x.ord) x e)

/-- The instructions of a core that have completed in this cycle. -/
def retiredNow (s : State) (core : Nat) : List Sb :=
  s.same.acts.filterMap (fun x => match x.1 with | .retired c e => if c = core then some e else none | _ => none)

/-- One that has completed in this cycle held the entry until now (R207). -/
def heldUntil (s : State) (core : Nat) (e : Sb) : Bool :=
  (retiredNow s core).any (fun x => decide (x.ord < e.ord) && holds (s.core core) [] x e)

/-- An entry can start: nothing holds it, and nothing that held it has completed in this cycle (R207). -/
def canStart (s : State) (core : Nat) (e : Sb) : Bool :=
  !e.started && !heldAt (s.core core) e && !heldUntil s core e

def Core.entry (c : Core) (ord : Nat) : Option Sb := c.sb.find? (fun x => x.ord == ord)
def Core.setEntry (c : Core) (e : Sb) : Core := { c with sb := c.sb.map (fun x => if x.ord = e.ord then e else x) }

/-- The unit that an instruction runs on (R203, R252): 0 datapath, 1 scalar unit, 2 special function unit. -/
def unitOf (op : Nat) : Nat := if 0x1B ≤ op ∧ op ≤ 0x1E then 2 else if isVector op || op == 0x32 then 0 else 1

/-- Issue is blocked (R208, R209, R215, R218). -/
def issueBlocked (c : Core) : Bool :=
  c.sb.any (fun e => e.op == 0x43 || (!e.started && (e.op == 0x44 || e.op == 0x46 || c.cmode)))

/-! ### Bindings (QBIND of R220) -/

def popOk (x : Queue) (peek : Bool) : Bool :=
  x.bound && (match x.kind with
    | 0 => !peek
    | 1 => x.ends % 2 == 1
    | 2 => x.ends % 2 == 1
    | 3 => true
    | _ => false)

def pushOk (x : Queue) : Bool :=
  x.bound && (match x.kind with
    | 0 => true
    | 1 => decide (2 ≤ x.ends)
    | 2 => decide (2 ≤ x.ends)
    | 4 => true
    | _ => false)

/-- The queues an instruction names are bound as it uses them; OHDR wants a STREAM_OUT without headers (R250). -/
def bindingOk (c : Core) (e : Sb) : Bool :=
  (srcsOf e.op e.w).all (fun x => popOk (c.queue x.q) x.peek)
    && (if e.op = 0x45 then (c.queue (dstOf e.w.dd).q).bound && (c.queue (dstOf e.w.dd).q).kind == 4
          && !(c.queue (dstOf e.w.dd).q).hdr
        else (dstsOf e.op e.w).all (fun x => pushOk (c.queue x.q)))
    && (e.op != 0x40 || ((c.queue (dstOf e.w.de).q).bound && (c.queue (dstOf e.w.de).q).kind == 3))

/-! ### One step -/

/-- What a step of an instruction comes to. -/
inductive StepRes where
  | wait (e : Sb) (s : State)
  | more (e : Sb) (s : State)
  | done (s : State)
  | exc (code : Nat) (e : Sb) (s : State)

/-- The seed and place of R236 for element `n` of the destination stream. -/
def floatRnd (e : Sb) (n : Nat) : Option Nat :=
  if (dstOf e.w.dd).srnd then
    let f := if e.w.afmt = 0 then 1024 else 2048
    let s29 := e.at_ 4
    some (xgMix (e.at_ 3) (bitsOf s29 0 12) (bitsOf s29 12 16) ((bitsOf s29 38 24 + n / f) % 2 ^ 24) (n % f))
  else none

/-- Entries of `acc` that make a destination unit: values of a format, or bytes. -/
def unitSize (e : Sb) : Nat :=
  if isFloat e.op && e.op != 0x16 then unitElems (dstOf e.w.dd).fmt else 512

/-- The pushes of one unit, and its flagged elements. -/
def unitPushes (e : Sb) (xs : List Nat) : List (Nat × List Byte) × Nat :=
  let d := dstOf e.w.dd
  if isFloat e.op && e.op != 0x16 then
    let (bs, n) := unitOut d.fmt (fun j => floatRnd e (e.cntB + j)) xs
    ((pieces 512 bs).map (fun v => (d.q, v)), n)
  else
    let v := (xs.map (fun b => (BitVec.ofNat 8 b : Byte))) ++ List.replicate (512 - xs.length) 0
    ([(d.q, v)] ++ (if e.op = 0x28 ∧ e.w.imm / 256 % 2 = 1 then [((dstOf e.w.de).q, v)] else []), 0)

/-- Pushes to one queue of a list. -/
def pushesTo (q : Nat) (ps : List (Nat × List Byte)) : List (Nat × List Byte) := ps.filter (fun x => x.1 == q)

/-- Every queue of the list has room for its pushes. -/
def roomAll (s : State) (core : Nat) (ps : List (Nat × List Byte)) : Bool :=
  ps.all (fun x => hasRoomFor s core x.1 (pushesTo x.1 ps).length x.2)

/-- Wait for room: a STREAM_OUT queue waits in the pool's order (R341). -/
def waitRoom (core : Nat) (ps : List (Nat × List Byte)) (s : State) : State :=
  match ps.find? (fun x => !hasRoomFor s core x.1 (pushesTo x.1 ps).length x.2) with
  | some x => if ((s.core core).queue x.1).kind = 4 then waitOut core x.1 x.2 s else s
  | none => s

/-- Push in order: how many went in, and whether none was refused. -/
def pushAll (core ord : Nat) : List (Nat × List Byte) → Nat → State → Nat × Bool × State
  | [], n, s => (n, true, s)
  | (q, v) :: ps, n, s =>
    match pushVec core ord q v s with
    | none => (n, true, waitOut core q v s)
    | some (true, s1) => pushAll core ord ps (n + 1) s1
    | some (false, s1) => (n + 1, false, s1)

/-- Accesses through a WINDOW lie in declared regions in native mode (R206): `n` vectors from position `pos`. -/
def windowOk (c : Core) (e : Sb) (q : Nat) (wr : Bool) (n : Nat) : Bool :=
  let x := c.queue q
  c.cmode || x.kind != 2 ||
    (List.range n).all (fun i => covered e wr x.space x.qd (vecAt x ((if wr then x.wpos else x.rpos) + i)) 512)

/-- The entry as an exception at one of its pushes reports it: the step that made the unit; MERGE has no repeat count. -/
def Sb.atPush (e : Sb) : Sb := { e with steps := if e.op = 0x32 then 0 else e.steps - 1 }

/-- Push the unit `xs` at the head of `acc` (R233). -/
def emitUnit (core : Nat) (e : Sb) (xs : List Nat) (s : State) : StepRes :=
  let (all, fl) := unitPushes e xs
  let ps := all.drop e.cntA
  if ps.any (fun x => !windowOk (s.core core) e x.1 true (pushesTo x.1 ps).length) then
    .exc excRegion e.atPush s
  else if e.cntA = 0 ∧ roomAll s core ps = false then .wait e (waitRoom core ps s)
  else
    match pushAll core e.ord ps 0 s with
    | (_, false, s1) => .exc excData e.atPush s1
    | (n, true, s1) =>
      if n = ps.length then
        .more { e with acc := e.acc.drop xs.length, cntA := 0, cntB := e.cntB + xs.length, flag := e.flag + fl } s1
      else .wait { e with cntA := e.cntA + n } s1

/-- Room for the first unit that `acc` would complete. -/
def roomNext (s : State) (core : Nat) (e : Sb) : Bool :=
  if e.acc.length < unitSize e then true else roomAll s core (unitPushes e (e.acc.take (unitSize e))).1

def waitNext (core : Nat) (e : Sb) (s : State) : State :=
  waitRoom core (unitPushes e (e.acc.take (unitSize e))).1 s

/-- The sources with what a step sees of each. -/
def seeSrcs (s : State) (core : Nat) (e : Sb) : Look (List (Src × Nat × List (List Byte))) :=
  lookAll (fun (x : Src × Nat) =>
    let n := needOf e.op e.w e.steps x.2 x.1
    (peekVecs s core x.1.q n.1).map (fun vs => (x.1, n.2, vs))) (srcsOf e.op e.w).zipIdx

/-- A step goes on with what it sees, or waits, or takes DATA (R203, R220, R345, R350, R355). -/
def withLook {α : Type} (core : Nat) (e : Sb) (s : State) (l : Look α) (k : α → StepRes) : StepRes :=
  match l with
  | .got x => k x
  | .dry => .wait e s
  | .sleep q off n => .wait e (hbmWake q off n s)
  | .lost l => .exc excData e (lostMark core l s)

/-- The windows that a step reads. -/
def readsOk (c : Core) (e : Sb) (xs : List (Src × Nat × List (List Byte))) : Bool :=
  xs.all (fun x => windowOk c e x.1.q false x.2.2.length)

def popSrcs (core : Nat) (xs : List (Src × Nat × List (List Byte))) (s : State) : State :=
  forAll (fun (x : Src × Nat × List (List Byte)) s =>
    if x.1.peek then windowMoved ((s.core core).queue x.1.q) 0 s else popVecs core x.1.q x.2.1 s) xs s

/-- Count decoded values in the core's census (R185, R239). -/
def censusAdd (core nan inf rsv scale : Nat) (s : State) : State :=
  let a := pgVat (vatOf core) + 8 * (core % 8)
  (((s.addFld a vatCensus_nan nan).addFld a vatCensus_inf inf).addFld a vatCensus_rsvCode rsv).addFld a vatCensus_scale scale

def infCount (vs : List Val) : Nat := (vs.filter (fun v => match v with | .inf _ => true | _ => false)).length

/-- The census of one step of a source operand that is decoded. -/
def censusSrc (core afmt k : Nat) (x : Src) (vecs : List (List Byte)) (s : State) : State :=
  let a := pgVat (vatOf core)
  let vs := stepVals afmt k x vecs
  censusAdd core (vs.filter Val.isNan).length (infCount vs) (stepRsv afmt k x vecs)
    (stepScale (s.fld a vatCfg_scaleLo) (s.fld a vatCfg_scaleHi) afmt k x vecs) s

/-- The broadcast operand B (R240). -/
def broadcast (e : Sb) : Val := ofCode 0 (if bsel e.w = 1 then bitsOf e.w.imm 32 32 else e.rs1 % 2 ^ 32)

def usesBroadcast (e : Sb) : Bool := hasB e.op && bsel e.w != 0

/-- Values of the operand in a field, when the field is a queue operand. -/
def operand (e : Sb) (field : Nat) (xs : List (Src × Nat × List (List Byte))) : List Val :=
  match xs.find? (fun x => x.1 == srcOf field) with
  | some x => stepVals e.w.afmt e.steps x.1 x.2.2
  | none => []

/-- A step of a floating-point instruction: what it adds to `acc`. -/
def floatRead (e : Sb) (xs : List (Src × Nat × List (List Byte))) : Sb :=
  let as := operand e e.w.sa xs
  let bs := if usesBroadcast e then List.replicate (stepElems e.w.afmt) (broadcast e) else operand e e.w.sb xs
  let cs := if e.op = 0x13 then operand e e.w.sc xs else []
  let mask := match xs.getLast? with
    | some x => x.2.2.flatMap id
    | none => []
  if e.op = 0x16 then
    let m := maskVec ((List.range (stepElems e.w.afmt)).map (fun i => cmpVal (e.w.imm / 4 % 8) (nthVal as i) (nthVal bs i)))
    { e with acc := e.acc ++ m.map (fun b => b.toNat) }
  else { e with acc := e.acc ++ (floatStep e.op e.w.afmt as bs cs mask).map packVal }

/-- Census of a floating-point step: every decoded operand, and the broadcast once. -/
def floatCensus (core : Nat) (e : Sb) (xs : List (Src × Nat × List (List Byte))) (s : State) : State :=
  let ys := if e.op = 0x17 then xs.dropLast else xs
  let s1 := forAll (fun (x : Src × Nat × List (List Byte)) s => censusSrc core e.w.afmt e.steps x.1 x.2.2 s) ys s
  if usesBroadcast e then
    censusAdd core (bit01 (broadcast e).isNan) (infCount [broadcast e]) 0 0 s1
  else s1

/-- The 128 indices of a GATH or SCAT step. -/
def indicesOf (v : List Byte) : List Nat := lanesOf 4 v

/-- Space of GATH and SCAT: 0 local data area, 1 the Cellar slice of the Vat's quadrant. -/
def recSpace (w : CurdWord) : Nat := w.imm / 16 % 2

def recAddr (e : Sb) (x : Nat) : Nat := e.rs1 + x * 2 ^ recordLog e.w

/-- The exception that a GATH or SCAT step meets (R244). -/
def recExc (s : State) (core : Nat) (e : Sb) (wr : Bool) (ix : List Nat) : Option Nat :=
  let v := vatOf core
  let n := 2 ^ recordLog e.w
  if e.rs1 % n ≠ 0 ∨ ix.any (fun x => !inSpace s v (recSpace e.w) (vatQuad v) (recAddr e x) n) then some excRange
  else if !(s.core core).cmode && ix.any (fun x => !covered e wr (recSpace e.w) (vatQuad v) (recAddr e x) n) then
    some excRegion
  else none

/-- The records that a GATH step addresses. -/
def gathLook (s : State) (core : Nat) (e : Sb) (ix : List Nat) : Look (List Byte) :=
  (lookAll (fun x => spaceLook s (vatOf core) (recSpace e.w) (vatQuad (vatOf core)) (recAddr e x) (2 ^ recordLog e.w)) ix).map
    (fun rs => rs.flatMap id)

/-- SCAT writes its records in index order, so the later of two stays (R244). -/
def scatWrite (core : Nat) (e : Sb) : List (Nat × List Byte) → State → State
  | [], s => s
  | (x, r) :: xs, s =>
    scatWrite core e xs (spaceWrite core e.ord (recSpace e.w) (vatQuad (vatOf core)) (recAddr e x) r s).2

/-- Raw vectors of source `i`. -/
def rawOf (xs : List (Src × Nat × List (List Byte))) (i : Nat) : List Byte :=
  match xs[i]? with
  | some x => x.2.2.flatMap id
  | none => []

/-- The bytes that one step of an instruction on raw vectors adds to `acc`, and the lanes it counts; `g` are the records of a
GATH. -/
def rawRead (e : Sb) (g : List Byte) (xs : List (Src × Nat × List (List Byte))) : List Byte × Nat :=
  let a := rawOf xs 0
  if isLane e.op then (laneStep e.op e.w a (rawOf xs 1), 0)
  else
    match e.op with
    | 0x28 => (a, 0)
    | 0x29 => let l := compactStep e.w a (rawOf xs 1); (l.flatMap id, l.length)
    | 0x2A => (g, 0)
    | 0x30 => (keyxStep e.w a, 0)
    | 0x31 => (sortStep e.w a, 0)
    | _ => ([], 0)

/-- A step whose inputs are all there: room for what it completes, its census, its writes and its pops. -/
def takeStep (core : Nat) (e : Sb) (xs : List (Src × Nat × List (List Byte))) (ix : List Nat) (g : List Byte) (s : State) :
    StepRes :=
  let e1 :=
    if isFloat e.op then floatRead e xs
    else
      let r := rawRead e g xs
      { e with acc := e.acc ++ r.1.map (fun b => b.toNat), flag := e.flag + r.2 }
  if roomNext s core e1 = false then .wait e (waitNext core e1 s)
  else
    let s1 := if isFloat e.op then floatCensus core e xs s else s
    let s2 := if e.op = 0x2B then scatWrite core e (ix.zip (pieces (2 ^ recordLog e.w) (rawOf xs 1))) s1 else s1
    .more { e1 with steps := e.steps + 1 } (popSrcs core xs s2)

/-- The next step of a vector instruction other than ASEND: inputs seen, exceptions, room, pops, results (R203, R233, R234). The memory
is looked at before the regions: an undeclared read of a refused or failed word is a DATA exception (R206; DESIGN CHOICE,
assumption 144). -/
def readStep (core : Nat) (e : Sb) (s : State) : StepRes :=
  withLook core e s (seeSrcs s core e) (fun xs =>
    if readsOk (s.core core) e xs = false then .exc excRegion e s
    else
      let ix := indicesOf (rawOf xs 0)
      let bad := if e.op = 0x2A ∨ e.op = 0x2B then recExc s core e (e.op == 0x2B) ix else none
      match bad with
      | some code => .exc code e s
      | none =>
        if e.op = 0x2A then withLook core e s (gathLook s core e ix) (fun g => takeStep core e xs ix g s)
        else takeStep core e xs ix [] s)

/-- A vector instruction: push full units, then the next step, then the last unit and the count (R238, R241). -/
def vecStep (core : Nat) (e : Sb) (s : State) : StepRes :=
  if unitSize e ≤ e.acc.length then emitUnit core e (e.acc.take (unitSize e)) s
  else if e.steps < e.w.rep then readStep core e s
  else if e.acc ≠ [] then emitUnit core e e.acc s
  else .done (if isFloat e.op ∨ e.op = 0x29 then writeS core e.w.rd (BitVec.ofNat 64 e.flag) s else s)

/-- MERGE (R247): one record at a time; `steps` counts the records moved and `sent` those of A. -/
def mergeStep (core : Nat) (e : Sb) (s : State) : StepRes :=
  let n := 2 ^ sortLog e.w
  let per := 512 / n
  let a := srcOf e.w.sa
  let b := srcOf e.w.sb
  let takenB := e.steps - e.sent
  let hasA := decide (e.sent < e.rs1)
  let hasB := decide (takenB < e.rs2)
  if 512 ≤ e.acc.length then emitUnit core e (e.acc.take 512) s
  else if !hasA && !hasB then
    if e.acc ≠ [] then emitUnit core e e.acc s
    else
      let s1 := if e.rs1 % per ≠ 0 then popVecs core a.q 1 s else s
      .done (if e.rs2 % per ≠ 0 then popVecs core b.q 1 s1 else s1)
  else
    let look := lookAll (fun (x : Bool × Src) => if x.1 then peekVecs s core x.2.q 1 else .got []) [(hasA, a), (hasB, b)]
    withLook core e s look (fun heads =>
      let va := heads.getD 0 []
      let vb := heads.getD 1 []
      if (hasA && !windowOk (s.core core) e a.q false 1) || (hasB && !windowOk (s.core core) e b.q false 1) then
        .exc excRegion { e with steps := 0 } s
      else
        let ra := ((va.flatMap id).drop (n * (e.sent % per))).take n
        let rb := ((vb.flatMap id).drop (n * (takenB % per))).take n
        let fromA := hasA && (!hasB || decide (recKey e.w ra ≤ recKey e.w rb))
        let r := if fromA then ra else rb
        let e1 : Sb := { e with acc := e.acc ++ r.map (fun x => x.toNat), steps := e.steps + 1, sent := e.sent + bit01 fromA }
        if roomNext s core e1 = false then .wait e (waitNext core e1 s)
        else
          let spent := if fromA then (e.sent + 1) % per == 0 else (takenB + 1) % per == 0
          .more e1 (if spent then popVecs core (if fromA then a.q else b.q) 1 s else s))

/-! ### ASEND (R198 to R200, R248) -/

/-- The key of the next block of an ASEND. -/
def asendKey (e : Sb) : Key :=
  let x := e.rs1
  ⟨bitsOf x 0 12, bitsOf x 12 16, bitsOf x 28 10, (bitsOf x 38 24 + e.sent) % 2 ^ 24⟩

def asendRank (e : Sb) : Nat := e.rs2 % 2 ^ 17

/-- The CWRITE of the block held in `acc` (R145, R248). -/
def asendPacket (s : State) (e : Sb) : Packet :=
  let k := asendKey e
  let d := dstOf e.w.dd
  let r := dstOf e.w.de
  let vals := (e.acc.map unpackVal).zipIdx.map (fun x =>
    (x.1.1, if d.srnd then some (xgMix (e.at_ 3) k.group k.epoch k.block x.2) else none))
  let ext : ExtHdr :=
    { group := k.group, epoch := k.epoch, window := k.window, block := k.block, accFmt := e.w.afmt, lo := asendRank e,
      hiIncl := asendRank e, pgen := grpF s k.group grpCfg_pgen, wfmt := d.fmt, rfmt := r.fmt, spfmt := 0, denseRx := true,
      esc := false, srnd := r.srnd, accum := grpFlag s k.group grpCfg_accum,
      eow := e.steps == e.w.rep && e.w.imm / 2 % 2 == 1, rsvA := 0, status := 0, nelem := e.acc.length, cNan := 0, cInf := 0,
      cRsv := 0, cScale := 0, cSat := 0, rsvB := 0, digest := 0 }
  { rawPacket s.ownFid ptCwrite vcCup s.ownFid 0 0 (some ext) (encodeElems d.fmt vals).1 with tc := e.w.imm / 16 % 8 }

/-- The waits of R198 and R199, for the block at position `pos` of its group. -/
def asendWaits (s : State) (core : Nat) (e : Sb) (pos : Nat) : Bool :=
  let c := s.core core
  let g := (asendKey e).group
  let q := c.queue (dstOf e.w.de).q
  c.items.any (fun i => i.k.group == g && decide (i.pos + grpF s g grpLink_wCredits ≤ pos))
    || decide (2 ^ c.crgLog2 ≤ c.items.length + (c.crgTail - c.crgHead))
    || decide (q.len ≤ q.bufs.length + c.items.length)

/-- An older ASEND of the core has blocks of the group still to hand on, or its group is not readable yet: the Vat keeps the items
of a group in the order of issue (R198). -/
def asendOlder (c : Core) (e : Sb) : Bool :=
  (olderThan c e.ord).any (fun x => x.op == 0x40 &&
    (if x.started then (asendKey x).group == (asendKey e).group
     else readHeld c.cmode (olderThan c x.ord) x
       || (c.preg x.w.pr != (x.w.pn == 1) && bitsOf (c.sreg x.w.rs1).toNat 0 12 == (asendKey e).group)))

/-- Hand a block on as an item (R198, R200). -/
def asendHand (core : Nat) (e : Sb) (s : State) : StepRes :=
  let c := s.core core
  let k := asendKey e
  let pos := tget 0 c.order k.group
  if asendOlder c e ∨ asendWaits s core e pos then .wait e s
  else
    let (p, s1) := sealPacket (asendPacket s e) s
    let it : Item := { n := c.nextItem, pos := pos, k := k, rank := asendRank e, pkt := p, q := (dstOf e.w.de).q,
                       deadline := s.cyc + itemTo s }
    let s2 := (noteMember k.group (asendRank e) (vatOf core) s1).updCore core (fun c =>
      { c with items := c.items ++ [it], nextItem := c.nextItem + 1, order := tset 0 c.order k.group (pos + 1) })
    .more { e with acc := [], sent := e.sent + 1 } (enqueue (repCore core) vcCup (.jfp p) .none none s2)

def asendStep (core : Nat) (e : Sb) (s : State) : StepRes :=
  if e.acc ≠ [] ∧ (e.steps % 8 = 0 ∨ e.steps = e.w.rep) then asendHand core e s
  else if e.w.rep ≤ e.steps then .done s
  else
    withLook core e s (seeSrcs s core e) (fun xs =>
      if readsOk (s.core core) e xs = false then .exc excRegion e s
      else
        let as := operand e e.w.sa xs
        let bs := if e.w.imm % 2 = 1 then operand e e.w.sb xs else []
        let vs := (List.range (stepElems e.w.afmt)).map (fun i =>
          rndTo e.w.afmt (if e.w.imm % 2 = 1 then Val.add (nthVal as i) (nthVal bs i) else nthVal as i))
        let s1 := forAll (fun (x : Src × Nat × List (List Byte)) s => censusSrc core e.w.afmt e.steps x.1 x.2.2 s) xs s
        .more { e with acc := e.acc ++ vs.map packVal, steps := e.steps + 1 } (popSrcs core xs s1))

/-! ### Scalar, synchronisation and control (R214, R215, R249, R250) -/

/-- SLD and SST: aligned and inside the local data area, and declared in native mode. -/
def localExc (s : State) (core : Nat) (e : Sb) (wr : Bool) (a : Nat) : Option Nat :=
  if a % 8 ≠ 0 ∨ inSpace s (vatOf core) 0 0 a 8 = false then some excRange
  else if !(s.core core).cmode && !covered e wr 0 0 a 8 then some excRegion
  else none

/-- A SWAIT is satisfied: (cnt - v) as a signed number is 0 or more. -/
def swaitMet (s : State) (k v : Nat) : Bool := decide ((syncCnt s k + 2 ^ 64 - v) % 2 ^ 64 < 2 ^ 63)

def syncObj (e : Sb) : Nat := (e.rs1 + e.w.imm % 65536) % 65536

/-- CPOP: the oldest record into four registers, in program order of the core's CPOPs; one written in this cycle is not there yet
(R245). -/
def cpopStep (core : Nat) (e : Sb) (s : State) : StepRes :=
  let c := s.core core
  let v := vatOf core
  if c.crgTail ≤ c.crgHead + actSum s (.pushed v (64 + core % 8)) ∨ (olderThan c e.ord).any (fun x => x.op == 0x41) then
    .wait e s
  else
    let at_ := c.crg + c.crgHead % 2 ^ c.crgLog2 * 32
    withLook core e s (spaceLook s v 0 0 at_ 32) (fun b =>
      let s1 := forAll (fun j s => writeS core (e.w.rd + j) (BitVec.ofNat 64 (leAt b (8 * j) 8)) s) [0, 1, 2, 3] s
      .done (s1.updCore core (fun c => { c with crgHead := c.crgHead + 1 })))

/-- The instructions outside the vector units, other than branches. -/
def scalarStep (core : Nat) (e : Sb) (s : State) : StepRes :=
  let a := BitVec.ofNat 64 e.rs1
  let b := BitVec.ofNat 64 (e.rs2 + e.w.imm)
  let addr := (e.rs1 + e.w.imm) % 2 ^ 64
  if isCompare e.op then .done (writeP core (e.w.rd % 8) (cmpOp e.op a b) s)
  else if isAlu e.op then .done (writeS core e.w.rd (aluOp e.op a b) s)
  else
    match e.op with
    | 0x41 => cpopStep core e s
    | 0x42 =>
      if quadPresent s.fuses (syncQuad (syncObj e)) = false then .exc excRange e s
      else .done (syncIncr (syncObj e) ((e.rs2 + bitsOf e.w.imm 32 32) % 2 ^ 64) (repCore core) s)
    | 0x43 =>
      if quadPresent s.fuses (syncQuad (syncObj e)) = false then .exc excRange e s
      else if swaitMet s (syncObj e) e.rs2 then .done s else .wait e s
    | 0x45 =>
      let from_ := (e.rs1 + e.w.imm % 65536) % 2 ^ 64
      if from_ % 64 ≠ 0 ∨ inSpace s (vatOf core) 0 0 from_ 64 = false then .exc excRange e s
      else
        let q := (dstOf e.w.dd).q
        withLook core e s (spaceLook s (vatOf core) 0 0 from_ 64) (fun t =>
          .done (s.updCore core (fun c => c.setQueue q { c.queue q with template := t })))
    | 0x46 => .done (s.updCore core (fun c => { c with st := .ending }))
    | 0x60 =>
      match localExc s core e false addr with
      | some code => .exc code e s
      | none =>
        withLook core e s (spaceLook s (vatOf core) 0 0 addr 8) (fun b => .done (writeS core e.w.rd (BitVec.ofNat 64 (leVal b)) s))
    | 0x61 =>
      match localExc s core e true addr with
      | some code => .exc code e s
      | none => .done (localWrite (vatOf core) addr (writeOrd core e.ord) (leBytes 8 e.rs2) s)
    | 0x6A => .done (writeS core e.w.rd (BitVec.ofNat 64 (s.cyc - (s.core core).startAt)) s)
    | _ => .done s

/-- One step of a started instruction. -/
def microStep (core : Nat) (e : Sb) (s : State) : StepRes :=
  if e.op = 0x40 then asendStep core e s
  else if e.op = 0x32 then mergeStep core e s
  else if isVector e.op then vecStep core e s
  else scalarStep core e s

/-! ### Running an entry -/

/-- Steps until the instruction completes, waits or takes an exception; the fuel bounds its steps and pushes. -/
def runSteps (core : Nat) : Nat → Sb → State → StepRes
  | 0, e, s => .wait e s
  | fuel + 1, e, s =>
    match microStep core e s with
    | .more e1 s1 => runSteps core fuel e1 s1
    | r => r

/-- Enough for every step and push of an instruction. -/
def fuelOf (e : Sb) : Nat := if e.op = 0x32 then 2 * (e.rs1 + e.rs2) + 8 else e.w.rep * 132 + 8

/-- An instruction whose registers are ready has a region that is no good: REGION at vector 0 (R227). -/
def regionFault (s : State) (core : Nat) : Option Sb :=
  let c := s.core core
  if c.cmode then none
  else c.sb.find? (fun e => !e.started && !readHeld false (olderThan c e.ord) e
    && !(regionsNow c e.w).all (regionGood s (vatOf core)))

/-- Regions are evaluated once the register holds have cleared, whatever else holds the instruction (R227). -/
def judgeRegions (core : Nat) (s : State) : State :=
  match regionFault s core with
  | some e => if coreActive (s.core core) then curdExc core excRegion e.pc 0 s else s
  | none => s

/-- An instruction completes: its scoreboard entry is free, and what it held starts in the next cycle at the earliest (R201,
R207). -/
def retire (core ord : Nat) (s : State) : State :=
  let c := s.core core
  match c.entry ord with
  | none => s
  | some x =>
    judgeRegions core (noteAct (.retired core x) 0
      (s.updCore core (fun c => { c with sb := c.sb.filter (fun e => e.ord != ord) })))

/-- Put back what a run of entry `ord` came to. -/
def settle (core ord : Nat) : StepRes → State
  | .wait e s => s.updCore core (fun c => c.setEntry e)
  | .more e s => s.updCore core (fun c => c.setEntry e)
  | .done s => retire core ord s
  | .exc code e s => curdExc core code e.pc e.steps s

/-- An earlier instruction of the core has stored to local memory in this cycle. -/
def storedBefore (s : State) (core ord : Nat) : Bool :=
  s.same.stores.any (fun x => x.sp == spLocal (vatOf core) && x.req / 2 ^ 64 == core % 8 && decide (x.req % 2 ^ 64 < ord))

/-- Run entry `ord` when it has started: after an earlier instruction's store to local memory it goes on in the next cycle, which
sees the store (R210, R245). -/
def runEntry (core ord : Nat) (s0 : State) : State :=
  let s := orNext (storedBefore s0 core ord) s0
  match (s.core core).entry ord with
  | some e => if e.started then settle core ord (runSteps core (fuelOf e) e s) else s
  | none => s

/-- A unit serves its started instructions, the oldest first (R203). -/
def serveUnit (core u : Nat) (s : State) : State :=
  forAll (fun (e : Sb) s => if coreActive (s.core core) then runEntry core e.ord s else s)
    ((s.core core).sb.filter (fun e => e.started && unitOf e.op == u)) s

/-! ### Start (R201, R227, R229) -/

/-- Entry `ord` starts when nothing holds it: guard, bindings, then its unit serves it behind the older ones. -/
def startEntry (core ord : Nat) (par : Parity) (s : State) : State :=
  let c := s.core core
  match c.entry ord with
  | none => s
  | some e =>
    if canStart s core e = false then s
    else
      let e1 : Sb := { e with started := true, cap := capture c e.w }
      let s1 := noteAct (.begun core) ord (countParity (vatQuad (vatOf core)) par s)
      if !c.cmode && !e1.regions.all (regionGood s (vatOf core)) then curdExc core excRegion e.pc 0 s1
      else if c.preg e.w.pr = (e.w.pn == 1) then retire core ord s1
      else if bindingOk c e = false then curdExc core excQbind e.pc 0 s1
      else if e.op = 0x32 ∧ (2 ^ 28 < e1.rs1 ∨ 2 ^ 28 < e1.rs2) then curdExc core excRange e.pc 0 s1
      else if par = .hard then curdExc core excData e.pc 0 s1
      else serveUnit core (unitOf e.op) (s1.updCore core (fun c => c.setEntry e1))

/-! ### Issue (R201, R228, R251) -/

def freshSb (ord op pc : Nat) (w : CurdWord) : Sb :=
  { ord := ord, op := op, w := w, pc := pc, started := false, steps := 0, acc := [], flag := 0, cntA := 0, cntB := 0, sent := 0,
    cap := [] }

/-- Some instruction of `xs` keeps a branch from its guard or its register (R204). -/
def branchHeld (c : Core) (xs : List Sb) (op : Nat) (w : CurdWord) : Bool :=
  let e := freshSb c.issued op 0 w
  readHeld c.cmode xs e || xs.any (fun x => !x.started && meets (x.reads c.cmode) e.writes)

/-- A branch finds its guard and its register available. -/
def branchReady (c : Core) (op : Nat) (w : CurdWord) : Bool := !branchHeld c c.sb op w

/-- A region of some instruction of `xs` holds the regions that a branch declares, in native mode (R205). -/
def branchOverlaps (c : Core) (xs : List Sb) (w : CurdWord) : Bool :=
  !c.cmode && xs.any (fun x => regionHolds c (olderThan c x.ord) x (regionsNow c w))

/-- Go on at `pc`; a branch beyond the program store raises FETCH at its target (R251). -/
def branchTo (core pc : Nat) (s : State) : State :=
  if storeWords s (vatOf core) ≤ pc then curdExc core excFetch pc 0 (s.updCore core (fun c => { c with pc := pc }))
  else s.updCore core (fun c => { c with pc := pc })

/-- BR and LOOP (R251): the next instruction issues 2 cycles later at the earliest. -/
def branch (core op : Nat) (w : CurdWord) (s0 : State) : State :=
  let s := s0.updCore core (fun c => { c with issueFrom := s0.cyc + 2 })
  let c := s.core core
  let go := c.preg w.pr != (w.pn == 1)
  let fall := s.updCore core (fun c => { c with pc := (c.pc + 1) % 2 ^ 24 })
  if !go then fall
  else if op = 0x68 then branchTo core (w.imm % 2 ^ 24) s
  else
    let n := if w.rd = 0 then 0 else c.sreg w.rd - 1
    if n = 0 then writeS core w.rd n fall else branchTo core (w.imm % 2 ^ 24) (writeS core w.rd n s)

/-- An instruction that held the issue of later ones until now has completed in this cycle (R207): a SWAIT, a BARRIER, or in
compatibility mode one that has also started in it (R208, R209, R215). -/
def issueHeldNow (s : State) (core : Nat) : Bool :=
  (retiredNow s core).any (fun x => x.op == 0x43 || x.op == 0x44
    || ((s.core core).cmode && s.same.acts.contains (.begun core, x.ord)))

/-- The state in the cycle in which the core's next instruction issues: 2 cycles after a branch (R251), in the next cycle where
another one has issued in this (R201), and where an instruction that has completed in this cycle held it (R207). -/
def issueCycle (core op : Nat) (w : CurdWord) (s0 : State) : State :=
  let c := s0.core core
  let s1 := orNext (decide (s0.cyc < c.issueFrom)) s0
  let s2 := orNext (decide (s1.cyc < c.issueFrom)) s1
  let gone := retiredNow s2 core
  orNext (acted s2 (.issued core) || issueHeldNow s2 core
    || (isBranch op && (branchHeld c gone op w || branchOverlaps c gone w))) s2

/-- Issue the instruction of the fetched word on a running core (R201): ILLEGAL at issue (R228), a branch at once with its
regions judged (R227, R251), any other into the scoreboard, where it starts when nothing holds it. A branch waits for its guard,
its register and the regions that overlap its own (R204, R205). -/
def issueWord (core op : Nat) (w : CurdWord) (s0 : State) : State :=
  let c := s0.core core
  let s := issueCycle core op w s0
  let s1 := noteAct (.issued core) 0 s
  if legal c.cmode op w = false then curdExc core excIllegal c.pc 0 s
  else if isBranch op then
    if branchReady c op w = false then s0
    else if !c.cmode && !(regionsNow c w).all (regionGood s (vatOf core)) then curdExc core excRegion c.pc 0 s1
    else if branchOverlaps c c.sb w then s0
    else branch core op w s1
  else
    startEntry core c.issued .good (judgeRegions core (s1.updCore core (fun c =>
      { c with sb := c.sb ++ [freshSb c.issued op c.pc w], issued := c.issued + 1, pc := (c.pc + 1) % 2 ^ 24 })))

/-- A row that names an instruction issues it when it is the one that the core has fetched (R201, R211): FETCH beyond the store,
a line fill where the instruction cache lacks the word, ILLEGAL for a reserved opcode whichever row comes. A core that cannot
issue now, or whose next instruction is another one, is left as it is (assumption 18). -/
def issue (core op : Nat) (w : CurdWord) (s : State) : State :=
  let c := s.core core
  if c.st ≠ .running ∨ 32 ≤ c.sb.length ∨ c.fetching ∨ issueBlocked c then s
  else if storeWords s (vatOf core) ≤ c.pc then curdExc core excFetch c.pc 0 s
  else
    match fetchedWord s core with
    | none => s.updCore core (fun c => { c with fetching := true })
    | some x =>
      if opKnown (x % 256) = false then curdExc core excIllegal c.pc 0 s
      else if x % 256 = op ∧ curdFields x = w then issueWord core op w s
      else s

/-- Run the started entries in program order until one completes or takes an exception (R203). -/
def sweep (core : Nat) : List Nat → State → State
  | [], s => s
  | i :: is, s =>
    let n := (s.core core).sb.length
    let s1 := runEntry core i s
    if (s1.core core).sb.length < n then s1 else sweep core is s1

/-- INSTRUCTION_START (R201): the oldest instruction that has not started and that nothing holds. -/
def execInstructionStart (core : Nat) (par : Parity) (s : State) : Result :=
  .next (match (s.core core).sb.find? (canStart s core) with
    | some e => if coreActive (s.core core) then startEntry core e.ord par s else s
    | none => s)

/-- INSTRUCTION_COMPLETE (R201, R203). -/
def execInstructionComplete (core : Nat) (s : State) : Result :=
  .next (if coreActive (s.core core) then sweep core ((s.core core).sb.map (fun e => e.ord)) s else s)

/-- The SWAIT of a core's scoreboard looks at its object again (R215). -/
def wakeSwait (core : Nat) (s : State) : State :=
  match (s.core core).sb.find? (fun e => e.op == 0x43) with
  | some e => runEntry core e.ord s
  | none => s

end Sys2Proof.Machine
end

