-- ==== Sys2Proof/Machine/CurdRows.lean ====
section
/-!
DEFINITION. The Curd instructions of R241, one meaning each: the instruction is issued under its opcode (`issue`), and its
steps are those of `microStep`.
-/
namespace Sys2Proof.Machine

/-- ADD (R241). Vector add of A and B into D. -/
def execCAdd (core : Nat) (w : CurdWord) (s : State) : Result := .next (issue core 0x10 w s)

/-- SUB (R241). Vector subtract of B from A into D. -/
def execCSub (core : Nat) (w : CurdWord) (s : State) : Result := .next (issue core 0x11 w s)

/-- MUL (R241). Vector multiply of A and B into D. -/
def execCMul (core : Nat) (w : CurdWord) (s : State) : Result := .next (issue core 0x12 w s)

/-- FMA (R241). Vector fused multiply-add A times B plus C with one rounding. -/
def execCFma (core : Nat) (w : CurdWord) (s : State) : Result := .next (issue core 0x13 w s)

/-- MAX (R242). Vector maximum of A and B. -/
def execCMax (core : Nat) (w : CurdWord) (s : State) : Result := .next (issue core 0x14 w s)

/-- MIN (R242). Vector minimum of A and B. -/
def execCMin (core : Nat) (w : CurdWord) (s : State) : Result := .next (issue core 0x15 w s)

/-- CMP (R242). Vector compare producing a mask. -/
def execCCmp (core : Nat) (w : CurdWord) (s : State) : Result := .next (issue core 0x16 w s)

/-- SEL (R242). Vector select of A or B by a mask. -/
def execCSel (core : Nat) (w : CurdWord) (s : State) : Result := .next (issue core 0x17 w s)

/-- CVT (R235). Vector conversion of A to D's format with one rounding. -/
def execCCvt (core : Nat) (w : CurdWord) (s : State) : Result := .next (issue core 0x18 w s)

/-- RSUM (R243). Canonical sum of each step's elements. -/
def execCRsum (core : Nat) (w : CurdWord) (s : State) : Result := .next (issue core 0x19 w s)

/-- RMAX (R243). Canonical maximum of each step's elements. -/
def execCRmax (core : Nat) (w : CurdWord) (s : State) : Result := .next (issue core 0x1A w s)

/-- EXP2 (R254). Special function 2 to the power A. -/
def execCExp2 (core : Nat) (w : CurdWord) (s : State) : Result := .next (issue core 0x1B w s)

/-- LOG2 (R254). Special function log2 of A. -/
def execCLog2 (core : Nat) (w : CurdWord) (s : State) : Result := .next (issue core 0x1C w s)

/-- RCP (R254). Special function reciprocal of A. -/
def execCRcp (core : Nat) (w : CurdWord) (s : State) : Result := .next (issue core 0x1D w s)

/-- RSQ (R254). Special function reciprocal square root of A. -/
def execCRsq (core : Nat) (w : CurdWord) (s : State) : Result := .next (issue core 0x1E w s)

/-- IADD (R241). Wrapping lane sum. -/
def execCIadd (core : Nat) (w : CurdWord) (s : State) : Result := .next (issue core 0x20 w s)

/-- ISUB (R241). Wrapping lane difference. -/
def execCIsub (core : Nat) (w : CurdWord) (s : State) : Result := .next (issue core 0x21 w s)

/-- AND (R241). Bitwise and of lanes. -/
def execCAnd (core : Nat) (w : CurdWord) (s : State) : Result := .next (issue core 0x22 w s)

/-- OR (R241). Bitwise or of lanes. -/
def execCOr (core : Nat) (w : CurdWord) (s : State) : Result := .next (issue core 0x23 w s)

/-- XOR (R241). Bitwise exclusive or of lanes. -/
def execCXor (core : Nat) (w : CurdWord) (s : State) : Result := .next (issue core 0x24 w s)

/-- SHL (R241). Lane shift left. -/
def execCShl (core : Nat) (w : CurdWord) (s : State) : Result := .next (issue core 0x25 w s)

/-- SHR (R241). Lane shift right, arithmetic or logical. -/
def execCShr (core : Nat) (w : CurdWord) (s : State) : Result := .next (issue core 0x26 w s)

/-- ICMP (R241). Integer lane compare producing a mask. -/
def execCIcmp (core : Nat) (w : CurdWord) (s : State) : Result := .next (issue core 0x27 w s)

/-- MOV (R241). Copies each vector to one or two destinations. -/
def execCMov (core : Nat) (w : CurdWord) (s : State) : Result := .next (issue core 0x28 w s)

/-- COMPACT (R241). Pushes the masked lanes packed and writes their count. -/
def execCCompact (core : Nat) (w : CurdWord) (s : State) : Result := .next (issue core 0x29 w s)

/-- GATH (R244). Gathers indexed records into D. -/
def execCGath (core : Nat) (w : CurdWord) (s : State) : Result := .next (issue core 0x2A w s)

/-- SCAT (R244). Scatters records to indexed addresses. -/
def execCScat (core : Nat) (w : CurdWord) (s : State) : Result := .next (issue core 0x2B w s)

/-- KEYX (R246). Order-preserving key transform of each lane. -/
def execCKeyx (core : Nat) (w : CurdWord) (s : State) : Result := .next (issue core 0x30 w s)

/-- SORTV (R247). Stable sort of the records of each vector. -/
def execCSortv (core : Nat) (w : CurdWord) (s : State) : Result := .next (issue core 0x31 w s)

/-- MERGE (R247). Merges two record streams by key with ties to A. -/
def execCMerge (core : Nat) (w : CurdWord) (s : State) : Result := .next (issue core 0x32 w s)

/-- NOP (R241). Does nothing. -/
def execCNop (core : Nat) (w : CurdWord) (s : State) : Result := .next (issue core 0x00 w s)

/-- ASEND (R248). Contributes blocks to a collective as a member rank, waiting on window and ring room. -/
def execCAsend (core : Nat) (w : CurdWord) (s : State) : Result := .next (issue core 0x40 w s)

/-- CPOP (R249). Pops the oldest completion record into four scalar registers, waiting while the ring is empty. -/
def execCCpop (core : Nat) (w : CurdWord) (s : State) : Result := .next (issue core 0x41 w s)

/-- SINC (R214). Increments a sync object. -/
def execCSinc (core : Nat) (w : CurdWord) (s : State) : Result := .next (issue core 0x42 w s)

/-- SWAIT (R215). Waits until a sync object's counter reaches a value. -/
def execCSwait (core : Nat) (w : CurdWord) (s : State) : Result := .next (issue core 0x43 w s)

/-- BARRIER (R209). Orders later instructions after every earlier one that names a masked queue. -/
def execCBarrier (core : Nat) (w : CurdWord) (s : State) : Result := .next (issue core 0x44 w s)

/-- OHDR (R250). Copies 64 bytes into a STREAM_OUT queue's header template. -/
def execCOhdr (core : Nat) (w : CurdWord) (s : State) : Result := .next (issue core 0x45 w s)

/-- END (R218). Ends the program and the core stops issuing. -/
def execCEnd (core : Nat) (w : CurdWord) (s : State) : Result := .next (issue core 0x46 w s)

/-- SADD (R241). Scalar add. -/
def execCSadd (core : Nat) (w : CurdWord) (s : State) : Result := .next (issue core 0x50 w s)

/-- SSUB (R241). Scalar subtract. -/
def execCSsub (core : Nat) (w : CurdWord) (s : State) : Result := .next (issue core 0x51 w s)

/-- SMUL (R241). Scalar multiply, low 64 bits. -/
def execCSmul (core : Nat) (w : CurdWord) (s : State) : Result := .next (issue core 0x52 w s)

/-- SAND (R241). Scalar and. -/
def execCSand (core : Nat) (w : CurdWord) (s : State) : Result := .next (issue core 0x53 w s)

/-- SOR (R241). Scalar or. -/
def execCSor (core : Nat) (w : CurdWord) (s : State) : Result := .next (issue core 0x54 w s)

/-- SXOR (R241). Scalar exclusive or. -/
def execCSxor (core : Nat) (w : CurdWord) (s : State) : Result := .next (issue core 0x55 w s)

/-- SSHL (R241). Scalar shift left. -/
def execCSshl (core : Nat) (w : CurdWord) (s : State) : Result := .next (issue core 0x56 w s)

/-- SSHR (R241). Scalar logical shift right. -/
def execCSshr (core : Nat) (w : CurdWord) (s : State) : Result := .next (issue core 0x57 w s)

/-- SSRA (R241). Scalar arithmetic shift right. -/
def execCSsra (core : Nat) (w : CurdWord) (s : State) : Result := .next (issue core 0x58 w s)

/-- SCEQ (R241). Scalar compare equal into a predicate. -/
def execCSceq (core : Nat) (w : CurdWord) (s : State) : Result := .next (issue core 0x59 w s)

/-- SCNE (R241). Scalar compare not equal into a predicate. -/
def execCScne (core : Nat) (w : CurdWord) (s : State) : Result := .next (issue core 0x5A w s)

/-- SCLTU (R241). Scalar unsigned less-than into a predicate. -/
def execCScltu (core : Nat) (w : CurdWord) (s : State) : Result := .next (issue core 0x5B w s)

/-- SCLTS (R241). Scalar signed less-than into a predicate. -/
def execCSclts (core : Nat) (w : CurdWord) (s : State) : Result := .next (issue core 0x5C w s)

/-- SCGEU (R241). Scalar unsigned greater-or-equal into a predicate. -/
def execCScgeu (core : Nat) (w : CurdWord) (s : State) : Result := .next (issue core 0x5D w s)

/-- SCGES (R241). Scalar signed greater-or-equal into a predicate. -/
def execCScges (core : Nat) (w : CurdWord) (s : State) : Result := .next (issue core 0x5E w s)

/-- SLD (R241). Scalar load of a u64 from local memory. -/
def execCSld (core : Nat) (w : CurdWord) (s : State) : Result := .next (issue core 0x60 w s)

/-- SST (R241). Scalar store of a u64 to local memory. -/
def execCSst (core : Nat) (w : CurdWord) (s : State) : Result := .next (issue core 0x61 w s)

/-- BR (R251). Branches to a word. -/
def execCBr (core : Nat) (w : CurdWord) (s : State) : Result := .next (issue core 0x68 w s)

/-- LOOP (R251). Decrements a register and branches while it is non-zero. -/
def execCLoop (core : Nat) (w : CurdWord) (s : State) : Result := .next (issue core 0x69 w s)

/-- SCYC (R241). Reads the cycles since the program started. -/
def execCScyc (core : Nat) (w : CurdWord) (s : State) : Result := .next (issue core 0x6A w s)

end Sys2Proof.Machine
end

