-- ==== Sys2Proof/Machine/Library.lean ====
section
/-!
DEFINITION. The library's servers (08_stream_programs.md): call blocks and their check (R258 to R262), member streams (R261,
R263), replies and end records (R265), and what each program computes: AGATHER, SORT, FILTER, TOPK, DISPATCH, COMBINE,
LSEMERGE and PGATHER; the row routines of 09_sparsity.md (R306, R307). A server stands on its intake core; what its program
does between packets is given by its contract (R267), not by its instructions.
-/
namespace Sys2Proof.Machine

/-! ### Call blocks (R258 to R260) -/

structure CallBlk where
  w0 : Nat
  w1 : Nat
  w2 : Nat
  w3 : Nat
  w4 : Nat
  ps : List Nat
deriving DecidableEq, Repr

def readBlk (s : State) (core off : Nat) : CallBlk :=
  let w := fun i => localLe s (vatOf core) (off + 8 * i) 8
  ⟨w 0, w 1, w 2, w 3, w 4, (List.range 8).map (fun i => w (8 + i))⟩

def CallBlk.prog (b : CallBlk) : Nat := bitsOf b.w0 0 8
def CallBlk.ver (b : CallBlk) : Nat := bitsOf b.w0 8 8
def CallBlk.group (b : CallBlk) : Nat := bitsOf b.w0 16 12
def CallBlk.num (b : CallBlk) : Nat := bitsOf b.w0 28 16
def CallBlk.inEntry (b : CallBlk) : Nat := bitsOf b.w0 44 12
def CallBlk.nM1 (b : CallBlk) : Nat := bitsOf b.w1 0 17
def CallBlk.outRank (b : CallBlk) : Nat := bitsOf b.w1 17 17
def CallBlk.outMode (b : CallBlk) : Nat := bitsOf b.w1 34 2
def CallBlk.outTag (b : CallBlk) : Nat := bitsOf b.w1 36 16
def CallBlk.rmapPg (b : CallBlk) : Nat := bitsOf b.w2 0 26
def CallBlk.rmapQd (b : CallBlk) : Nat := bitsOf b.w2 26 2
def CallBlk.stgPg (b : CallBlk) : Nat := bitsOf b.w2 28 26
def CallBlk.stgQd (b : CallBlk) : Nat := bitsOf b.w2 54 2
def CallBlk.stgBytes (b : CallBlk) : Nat := bitsOf b.w3 0 32 * 4096
def CallBlk.doneSync (b : CallBlk) : Nat := bitsOf b.w3 32 16
def CallBlk.doneEn (b : CallBlk) : Bool := bitsOf b.w3 48 1 == 1
def CallBlk.limit (b : CallBlk) : Nat := bitsOf b.w4 0 32
def CallBlk.p (b : CallBlk) (i : Nat) : Nat := b.ps.getD i 0

def pgAgather : Nat := 1
def pgSort : Nat := 2
def pgFilter : Nat := 3
def pgTopk : Nat := 4
def pgDispatch : Nat := 5
def pgCombine : Nat := 6
def pgLsemerge : Nat := 7
def pgPgather : Nat := 8

/-- The server on an intake core: as it stands, or as its start descriptor's arguments set it up (R258). -/
def serverOf (s : State) (core : Nat) : Server :=
  let x := s.server core
  if x.active then x
  else
    let a1 := ((s.core core).sreg 3).toNat
    { Server.none with active := true, ring := ((s.core core).sreg 2).toNat, log2 := a1 % 16, obj := bitsOf a1 16 16 }

def nextOff (x : Server) : Nat := x.ring + 128 * (x.next % 2 ^ x.log2)

/-- The members of a call: the group's N. -/
def callN (s : State) (b : CallBlk) : Nat := groupN s b.group

/-- FID of rank `r` (R148), in the rank map as the call read it. -/
def rankFid (c : Call) (r : Nat) : Nat := c.fids.getD r 0

/-! ### Parameters (R260, R262, R271, R273) -/

/-- A key descriptor. -/
structure KeyDesc where
  off : Nat
  len : Nat
  kind : Nat
  ffmt : Nat
  desc : Bool
  recLog : Nat
deriving DecidableEq, Repr

def keyDesc (p : Nat) : KeyDesc :=
  ⟨bitsOf p 0 6, bitsOf p 6 4 + 1, bitsOf p 10 2, bitsOf p 12 2, bitsOf p 14 1 == 1, bitsOf p 15 3⟩

def keyDescOk (p : Nat) : Bool :=
  let d := keyDesc p
  decide (p < 2 ^ 18) && decide (3 ≤ d.recLog) && decide (d.recLog ≤ 6) && decide (d.off + d.len ≤ 2 ^ d.recLog)
    && d.kind != 3 && d.ffmt != 3 && (d.kind == 2 || d.ffmt == 0)
    && (d.kind != 1 || [1, 2, 4, 8].contains d.len) && (d.kind != 2 || d.len == accBytes d.ffmt)

/-- FILTER's field: offset, width in bytes, kind, format, comparison, record size. -/
structure FilterP where
  off : Nat
  width : Nat
  kind : Nat
  ffmt : Nat
  op : Nat
  recLog : Nat
deriving DecidableEq, Repr

def filterP (p : Nat) : FilterP :=
  ⟨bitsOf p 0 6, 2 ^ bitsOf p 6 2, bitsOf p 8 2, bitsOf p 10 2, bitsOf p 12 3, bitsOf p 15 3⟩

def filterOk (p : Nat) : Bool :=
  let f := filterP p
  decide (p < 2 ^ 18) && decide (3 ≤ f.recLog) && decide (f.recLog ≤ 6) && decide (f.off + f.width ≤ 2 ^ f.recLog)
    && f.kind != 3 && f.ffmt != 3 && (f.kind == 2 || f.ffmt == 0) && (f.kind != 2 || f.width == accBytes f.ffmt)
    && f.op != 7

/-- Parameter words from `i` on are 0. -/
def zeroFrom (b : CallBlk) (i : Nat) : Bool := (b.ps.drop i).all (fun x => x == 0)

def recordsMax : Nat := 2 ^ 28

def rowBytes (b : CallBlk) : Nat := bitsOf (b.p 0) 0 16 * 512
def nExp (b : CallBlk) : Nat := bitsOf (b.p 0) 16 12 + 1
def tokMax (b : CallBlk) : Nat := bitsOf (b.p 2) 0 32

/-- Entry of the expert map (R275). -/
def expertRank (s : State) (core : Nat) (b : CallBlk) (e : Nat) : Nat := localLe s (vatOf core) (b.p 1 + 4 * e) 4

/-- LSEMERGE: dv, element bytes of a, and bytes of a query block (R279). -/
def lseDv (b : CallBlk) : Nat := 64 * 2 ^ bitsOf (b.p 0) 0 2
def lseFmt (b : CallBlk) : Nat := bitsOf (b.p 0) 2 1
def lseNorm (b : CallBlk) : Bool := bitsOf (b.p 0) 3 1 == 1
def lseQ (b : CallBlk) : Nat := bitsOf (b.p 0) 4 25
def lseBb (b : CallBlk) : Nat := 1024 + 128 * lseDv b * accBytes (lseFmt b)

/-- Entry `j` of the prediction list (R281). -/
def predicted (s : State) (core : Nat) (b : CallBlk) (j : Nat) : Nat := localLe s (vatOf core) (b.p 1 + 4 * j) 4

def predList (s : State) (core : Nat) (b : CallBlk) : List Nat := (List.range (b.p 2)).map (predicted s core b)

def ascending (n : Nat) : List Nat → Bool
  | [] => true
  | [x] => decide (x < n)
  | x :: y :: r => decide (x < y) && ascending n (y :: r)

/-- The VC_REQ buffers of a PGATHER call fit the pool (R282). -/
def pgFits (s : State) (core : Nat) (b : CallBlk) : Bool :=
  let q := vatQuad (vatOf core)
  let others := ((List.range 7).map (fun j => if j = vcReq then 0 else poolRes s q j)).sum
  decide (b.p 2 ≤ poolCap s q vcReq) && decide (b.p 2 + others ≤ nBufs s q)

/-- Every parameter in its range. -/
def paramsOk (s : State) (core : Nat) (b : CallBlk) : Bool :=
  let n := callN s b
  let p := b.p
  match b.prog with
  | 1 => decide (p 0 % 64 = 0) && decide (64 ≤ p 0) && decide (p 0 ≤ 2 ^ 31) && decide (n * p 0 ≤ 2 ^ 35) && zeroFrom b 1
  | 2 => keyDescOk (p 0) && decide (p 1 ≤ recordsMax) && zeroFrom b 2
  | 3 => filterOk (p 0) && decide (p 3 ≤ recordsMax) && zeroFrom b 4
  | 4 => keyDescOk (p 0) && decide (p 1 < 65536) && zeroFrom b 2
  | 5 => decide (p 0 < 2 ^ 28) && decide (p 1 + 4 * nExp b ≤ localEnd s (vatOf core)) && decide (p 2 < 2 ^ 32)
      && (List.range (nExp b)).all (fun e => decide (expertRank s core b e < n)) && zeroFrom b 3
  | 6 => decide (p 0 < 65536) && decide (p 1 < 65536) && zeroFrom b 2
  | 7 => decide (p 0 < 2 ^ 29) && bitsOf (p 0) 0 2 != 3 && decide (1 ≤ lseQ b) && decide (lseQ b ≤ 2 ^ 24) && zeroFrom b 1
  | 8 => decide (p 0 < 2 ^ 32) && decide (p 2 < 65536) && decide (p 3 < 65536)
      && decide (p 1 + 4 * p 2 ≤ localEnd s (vatOf core)) && ascending (p 0) (predList s core b) && pgFits s core b
      && zeroFrom b 4
  | _ => false

/-- The program's staging need in bytes (R268, R272 to R280, R282). -/
def stagingNeed (s : State) (b : CallBlk) : Nat :=
  let p := b.p
  match b.prog with
  | 2 => 64 * p 1 + p 1 * 2 ^ (keyDesc (p 0)).recLog
  | 3 => p 3 * 2 ^ (filterP (p 0)).recLog
  | 5 => callN s b * tokMax b * (64 + rowBytes b)
  | 7 => callN s b * lseBb b * 2
  | 8 => p 0 * 4096
  | _ => 0

def modeOk (b : CallBlk) : Bool :=
  match b.prog with
  | 1 => b.outMode == 1
  | 2 => b.outMode == 0 || b.outMode == 2
  | 3 => b.outMode == 0
  | 4 => b.outMode == 0 || b.outMode == 1
  | 7 => b.outMode == 0 || b.outMode == 1
  | 8 => b.outMode == 1
  | _ => b.outMode != 3

/-- No stack of the staging region refuses new allocations of staging space (R30, R377): any 5,120 bytes touch every stack
that a longer region does. A call whose region it refuses fails the check (assumption 103). -/
def stagingTaken (s : State) (b : CallBlk) : Bool :=
  !(hbmUnits s b.stgQd (pageAddr b.stgPg) (min 5120 (stagingNeed s b))).any (fun u => isDrain s (pgHbm u.1))

/-- The check of R262. -/
def callOk (s : State) (core : Nat) (b : CallBlk) : Bool :=
  b.ver == 1 && b.nM1 + 1 == callN s b && decide (1 ≤ b.prog) && decide (b.prog ≤ 8) && modeOk b
    && decide (b.outRank < callN s b) && paramsOk s core b && decide (stagingNeed s b ≤ b.stgBytes) && stagingTaken s b

/-! ### Streams (R261, R263) -/

def streamOf (c : Call) (r : Nat) : LibStream := (c.streams.find? (fun x => x.rank == r)).getD ⟨r, [], none, none, 0⟩

def setStream (c : Call) (x : LibStream) : Call :=
  { c with streams := (c.streams.filter (fun y => y.rank != x.rank)) ++ [x] }

/-- Insert by number: a segment by its offset, a block by its number. -/
def insertSeg {α : Type} (x : Nat × α) : List (Nat × α) → List (Nat × α)
  | [] => [x]
  | y :: ys => if x.1 < y.1 then x :: y :: ys else y :: insertSeg x ys

/-- Bytes received without a gap from `base` upward. -/
def prefixEnd (base : Nat) (segs : List (Nat × List Byte)) : Nat :=
  segs.foldl (fun e x => if base ≤ x.1 ∧ x.1 ≤ e then max e (x.1 + x.2.length) else e) base

def overlaps (segs : List (Nat × List Byte)) (off len : Nat) : Bool :=
  segs.any (fun x => decide (x.1 < off + len) && decide (off < x.1 + x.2.length) && decide (0 < len))

/-- Where token rows begin (R275). -/
def rowBase : Nat := 2 ^ 33

/-- The end of what a rank's stream holds. -/
def streamEnd (x : LibStream) : Nat := x.segs.foldl (fun e y => max e (y.1 + y.2.length)) 0

/-- The bytes of a stream from `base`, as far as they are without a gap. -/
def streamBytes (x : LibStream) (base : Nat) : List Byte :=
  (x.segs.filter (fun y => decide (base ≤ y.1) && decide (y.1 < prefixEnd base x.segs))).flatMap (fun y => y.2)

/-- The bytes of a stream, of a complete one up to its end (R261, R267). -/
def wholeBytes (x : LibStream) : List Byte :=
  match x.total with
  | some t => (streamBytes x 0).take t
  | none => streamBytes x 0

/-- Whether the bytes [a, a + n) of a stream have been received. -/
def hasBytes (x : LibStream) (a n : Nat) : Bool :=
  decide (n = (x.segs.map (fun y => min (a + n) (y.1 + y.2.length) - max a y.1)).sum)

/-- Bytes [a, a + n) of a stream. -/
def cutBytes (x : LibStream) (a n : Nat) : List Byte :=
  x.segs.flatMap (fun y => (y.2.drop (a - y.1)).take (a + n - max a y.1))

/-- A route record (R275). -/
structure Route where
  token : Nat
  m : Nat
  experts : List Nat
  gates : List Nat
  rsvOk : Bool
deriving DecidableEq, Repr

def routeOf (bs : List Byte) : Route :=
  { token := leAt bs 0 4, m := leAt bs 4 1, experts := (List.range 8).map (fun i => leAt bs (16 + 2 * i) 2),
    gates := (List.range 8).map (fun i => leAt bs (32 + 2 * i) 2),
    rsvOk := ((bs.drop 5).take 11).all (fun x => x == 0) && ((bs.drop 48).take 16).all (fun x => x == 0) }

/-- Token rows of a stream whose last packet holds rows: those below its end (R261, R275). -/
def rowCount (b : CallBlk) (x : LibStream) : Nat :=
  ceilDiv (x.total.getD 0 - rowBase) (if rowBytes b = 0 then 512 else rowBytes b)

/-- Where the route records end: at the end of the last packet, or, where that one holds token rows, at the bound of t_max records,
or of one for each of the rows below its end where these are more (R261, R275; assumption 62). -/
def routeEnd (b : CallBlk) (x : LibStream) : Nat :=
  match x.total with
  | none => rowBase
  | some t => if t ≤ rowBase then t else 64 * max (tokMax b) (rowCount b x)

def routesOf (b : CallBlk) (x : LibStream) : List Route :=
  ((pieces 64 ((streamBytes x 0).take (routeEnd b x))).filter (fun r => r.length == 64)).map routeOf

def routeOk (b : CallBlk) (r : Route) : Bool :=
  decide (r.token < tokMax b) && decide (1 ≤ r.m) && decide (r.m ≤ 8) && r.rsvOk
    && (r.experts.take r.m).all (fun e => decide (e < nExp b)) && (r.experts.drop r.m).all (fun e => e == 0)
    && (r.gates.drop r.m).all (fun g => g == 0)

/-- Rows of a DISPATCH stream that hold some byte. -/
def rowsSeen (b : CallBlk) (x : LibStream) : List Nat :=
  (x.segs.filter (fun y => decide (rowBase ≤ y.1))).flatMap (fun y =>
    if rowBytes b = 0 then []
    else (List.range (ceilDiv (y.2.length + (y.1 - rowBase) % rowBytes b) (rowBytes b))).map (fun i =>
      (y.1 - rowBase) / rowBytes b + i))

/-- Every row that a route record names has been received; in a call whose block passed the check, the rows of its tokens. -/
def rowsDone (failed : Bool) (b : CallBlk) (x : LibStream) : Bool :=
  (routesOf b x).all (fun r => (!failed && decide (tokMax b ≤ r.token))
    || hasBytes x (rowBase + r.token * rowBytes b) (rowBytes b))

/-- The route records have all been received. -/
def routesWhole (b : CallBlk) (x : LibStream) : Bool := x.total.isSome && decide (routeEnd b x ≤ prefixEnd 0 x.segs)

/-- The route records break no rule of R275. -/
def routesOk (b : CallBlk) (x : LibStream) : Bool :=
  let rs := routesOf b x
  rs.all (routeOk b) && nodupNat (rs.map (fun r => r.token))

/-- Every row has a route record. -/
def rowsRouted (b : CallBlk) (x : LibStream) : Bool :=
  (rowsSeen b x).all (fun t => ((routesOf b x).map (fun r => r.token)).contains t)

/-- The end of the last packet is the end of a route record or of a row (R275). -/
def endOk (b : CallBlk) (x : LibStream) : Bool :=
  let t := x.total.getD 0
  if t ≤ rowBase then t % 64 == 0 else (t - rowBase) % rowBytes b == 0

/-- What R275 asks of a stream. -/
def dispatchOk (b : CallBlk) (x : LibStream) : Bool := endOk b x && routesOk b x && rowsRouted b x

/-- Every byte below the end of the last packet has been received (R261). -/
def streamWhole (x : LibStream) : Bool :=
  match x.total with
  | none => false
  | some t => decide (t ≤ prefixEnd 0 x.segs)

/-- A member's part of a call is complete (R261, R283). For DISPATCH every byte of the routes and of the rows below the end of the
last packet, and the row of every route (R276; assumption 62). -/
def streamDone (failed : Bool) (b : CallBlk) (x : LibStream) : Bool :=
  let t := x.total.getD 0
  if b.prog = pgPgather then (match x.scount with | some n => x.blocks == n | none => false)
  else if b.prog = pgDispatch then
    routesWhole b x && (decide (t ≤ rowBase) || decide (t ≤ prefixEnd rowBase x.segs)) && rowsDone failed b x
  else streamWhole x

def allDone (s : State) (b : CallBlk) (c : Call) : Bool :=
  (List.range (callN s b)).all (fun r => streamDone c.failed b (streamOf c r))

def incomplete (s : State) (b : CallBlk) (c : Call) : Nat :=
  ((List.range (callN s b)).filter (fun r => !streamDone c.failed b (streamOf c r))).length

/-- The kept dispatch index that a COMBINE names (R277). -/
def pairedRows (sv : Server) (b : CallBlk) : Option (List DispRow) :=
  (sv.disps.find? (fun d => d.num == b.p 1)).map (fun d => d.rows)

/-- Rows that expert rank `x` received in the paired DISPATCH call (R276). -/
def rowsOf (rows : List DispRow) (x : Nat) : List DispRow := rows.filter (fun d => d.expert == x)

/-- Total bytes held by the ranks, with this rank's end at `e`. -/
def heldTotal (c : Call) (r e : Nat) : Nat :=
  ((c.streams.filter (fun x => x.rank != r)).map streamEnd).sum + max e (streamEnd (streamOf c r))

/-- A packet at [off, off + len) exceeds the program's bound or the staging region (R263). -/
def exceeds (sv : Server) (b : CallBlk) (c : Call) (r off len : Nat) : Bool :=
  let e := off + len
  match b.prog with
  | 1 => decide (b.p 0 < e)
  | 2 => decide (b.p 1 * 2 ^ (keyDesc (b.p 0)).recLog < heldTotal c r e)
  | 3 => decide (b.p 3 * 2 ^ (filterP (b.p 0)).recLog < heldTotal c r e)
  | 4 => let z := 2 ^ (keyDesc (b.p 0)).recLog
    decide (b.stgBytes < ceilDiv (heldTotal c r e) z * (64 + z))
  | 5 => if off < rowBase then decide (tokMax b * 64 < e) else decide (rowBase + tokMax b * rowBytes b < e)
  | 6 => (match pairedRows sv b with
    | some rows => decide ((rowsOf rows r).length * rowBytes b < e)
    | none => false)
  | 7 => decide (ceilDiv (lseQ b) 128 * lseBb b < e)
  | _ => false

/-- What a rank's stream already shows ends the call REFUSED (R268, R270, R275, R277, R279). -/
def streamBad (sv : Server) (b : CallBlk) (x : LibStream) (r : Nat) : Bool :=
  let len := x.total.getD 0
  match b.prog with
  | 1 => streamWhole x && len != b.p 0
  | 2 => streamWhole x && len % 2 ^ (keyDesc (b.p 0)).recLog != 0
  | 3 => streamWhole x && len % 2 ^ (filterP (b.p 0)).recLog != 0
  | 4 => streamWhole x && len % 2 ^ (keyDesc (b.p 0)).recLog != 0
  | 5 => !routesOk b x || (routesWhole b x && !dispatchOk b x)
  | 6 => (match pairedRows sv b with
    | some rows => streamWhole x && len != (rowsOf rows r).length * rowBytes b
    | none => true)
  | 7 => streamWhole x && len != ceilDiv (lseQ b) 128 * lseBb b
  | _ => false

/-- The call ends REFUSED (R265). -/
def callBad (s : State) (core : Nat) (b : CallBlk) (c : Call) : Bool :=
  c.refused || (List.range (callN s b)).any (fun r => streamBad (serverOf s core) b (streamOf c r) r)

/-! ### Replies (R265) -/

/-- One reply packet, read from a buffer or not. -/
def libReply (core : Nat) (b : CallBlk) (c : Call) (rank off : Nat) (last : Bool) (buf : Option Nat) (payload : List Byte)
    (s : State) : State :=
  let p := rawPacket s.ownFid ptSend vcReq (rankFid c rank) b.outTag (off % 2 ^ 35) none payload
  let r := sealPacket { p with last := last } s
  enqueue (repCore core) vcReq (.jfp r.1) .none buf r.2

/-- Output data to a rank at an offset, in packets of at most 4,096 bytes. -/
def sendData (core : Nat) (b : CallBlk) (c : Call) (rank off : Nat) (data : List Byte) (s : State) : State :=
  forAll (fun (x : List Byte × Nat) s => libReply core b c rank (off + 4096 * x.2) false none x.1 s)
    (pieces 4096 data).zipIdx s

/-- The end record of a rank whose output is `len` bytes. -/
def endRecord (core : Nat) (b : CallBlk) (c : Call) (rank len status n : Nat) (s : State) : State :=
  let r : Rec := { k := ⟨b.group, b.num, b.prog, 0⟩, lo := rank, hi := rank, pgen := 0, status := status, esc := false,
                   root := false, cen := Census.zero, csat := 0, n := n, digest := 0 }
  libReply core b c rank len true none (recBytes r) s

/-- The ranks that receive (R259, R265). -/
def receivers (s : State) (b : CallBlk) : List Nat :=
  let n := callN s b
  let one := b.outMode == 0 && (b.prog == pgSort || b.prog == pgFilter || b.prog == pgTopk || b.prog == pgLsemerge)
  if one then (if b.outRank < n then [b.outRank] else []) else List.range n

/-- The end of a call: end records, status and counts in the call block, done_sync, and the next call (R265). The dispatch
index that a COMBINE names is kept no longer (R276). -/
def endCall (core : Nat) (b : CallBlk) (c : Call) (status n : Nat) (len : Nat → Nat) (s : State) : State :=
  let s1 := forAll (fun r s => endRecord core b c r (len r) status n s) (receivers s b) s
  let ord := writeOrd core (s1.core core).issued
  let put := fun off x s => localWrite (vatOf core) off ord (leBytes 8 x) s
  let s2 := put (c.off + 48) (min c.rej 65535 + min c.dup 65535 * 2 ^ 16 + min c.late 65535 * 2 ^ 32)
    (put (c.off + 40) (status + n % 2 ^ 32 * 2 ^ 32) s1)
  let s3 := forAll (fun x s => freeBuf x (repCore core) none s) (c.poolHeld ++ c.wheyHeld)
    { s2 with waiters := s2.waiters.filter (fun w => w.purpose != .pgather core) }
  let sv := serverOf s3 core
  let keep := if b.prog = pgCombine then sv.disps.filter (fun d => d.num != b.p 1) else sv.disps
  syncIncrIf b.doneEn b.doneSync 1 (repCore core)
    (s3.setServer core { sv with call := none, next := sv.next + 1, disps := keep })

/-- A refused call sends no data of its own at the end (R262, R265). -/
def refuseCall (core : Nat) (b : CallBlk) (c : Call) (s : State) : State :=
  endCall core b c stRefused 0 (fun _ => 0) s

/-! ### Records: SORT, TOPK, FILTER (R270 to R274) -/

/-- All records in (rank, index) order. -/
def allRecords (s : State) (b : CallBlk) (c : Call) (recLog : Nat) : List (List Byte) :=
  (List.range (callN s b)).flatMap (fun r => pieces (2 ^ recLog) (wholeBytes (streamOf c r)))

/-- The transformed key K of a record (R272). -/
def sortKey (d : KeyDesc) (r : List Byte) : Nat := keyx (8 * d.len) d.kind d.desc d.ffmt (leAt r d.off d.len)

def insertKey (d : KeyDesc) (r : List Byte) : List (List Byte) → List (List Byte)
  | [] => [r]
  | x :: xs => if sortKey d r < sortKey d x then r :: x :: xs else x :: insertKey d r xs

/-- Ascending order of (K, rank, index): a stable sort of the records in (rank, index) order. -/
def sortAll (d : KeyDesc) (rs : List (List Byte)) : List (List Byte) := rs.foldl (fun acc r => insertKey d r acc) []

/-- Whether a record passes FILTER (R273). -/
def passes (f : FilterP) (c0 c1 : Nat) (r : List Byte) : Bool :=
  let x := leAt r f.off f.width
  let a := c0 % 2 ^ (8 * f.width)
  let z := c1 % 2 ^ (8 * f.width)
  if f.kind = 2 then
    let v := ofCode f.ffmt x
    if f.op = 6 then cmpVal 3 (ofCode f.ffmt a) v && cmpVal 3 v (ofCode f.ffmt z) else cmpVal f.op v (ofCode f.ffmt a)
  else
    let g := fun y => if f.kind = 1 then signedOf (8 * f.width) y else (y : Int)
    if f.op = 6 then cmpInt 3 (g a) (g x) && cmpInt 3 (g x) (g z) else cmpInt f.op (g x) (g a)

/-- The records that rank `q` receives. -/
def recordsFor (s : State) (b : CallBlk) (c : Call) (q : Nat) : List (List Byte) :=
  let n := callN s b
  if b.prog = pgFilter then
    let f := filterP (b.p 0)
    (allRecords s b c f.recLog).filter (passes f (b.p 1) (b.p 2))
  else
    let d := keyDesc (b.p 0)
    let all := sortAll d (allRecords s b c d.recLog)
    if b.prog = pgTopk then all.take (b.p 1 + 1)
    else if b.outMode = 2 then
      (all.drop (q * all.length / n)).take ((q + 1) * all.length / n - q * all.length / n)
    else all

def closeRecords (core : Nat) (b : CallBlk) (c : Call) (s : State) : State :=
  let data := fun q => (recordsFor s b c q).flatMap id
  let s1 := forAll (fun q st => sendData core b c q 0 (data q) st) (receivers s b) s
  endCall core b c stOk 0 (fun q => (data q).length) s1

/-! ### DISPATCH and COMBINE (R275 to R278) -/

/-- The dispatch rows in ascending (source rank, token, slot). -/
def dispRows (s : State) (core : Nat) (b : CallBlk) (c : Call) : List DispRow :=
  (List.range (callN s b)).flatMap (fun r =>
    let rs := routesOf b (streamOf c r)
    let sorted := (rs.foldl (fun (acc : List Route) x =>
      (acc.takeWhile (fun y => decide (y.token < x.token))) ++ [x] ++ acc.dropWhile (fun y => decide (y.token < x.token))) [])
    sorted.flatMap (fun t => (List.range t.m).map (fun j =>
      ⟨expertRank s core b (t.experts.getD j 0), r, t.token, j, t.gates.getD j 0⟩)))

def indexWord (d : DispRow) : Nat := d.rank % 2 ^ 17 + d.token % 2 ^ 32 * 2 ^ 17 + d.slot % 8 * 2 ^ 49

def dispData (b : CallBlk) (c : Call) (rows : List DispRow) : List Byte :=
  rows.flatMap (fun d => cutBytes (streamOf c d.rank) (rowBase + d.token * rowBytes b) (rowBytes b))
    ++ rows.flatMap (fun d => leBytes 8 (indexWord d))

def closeDispatch (core : Nat) (b : CallBlk) (c : Call) (s : State) : State :=
  let rows := dispRows s core b c
  let data := fun x => dispData b c (rowsOf rows x)
  let s1 := forAll (fun x st => sendData core b c x 0 (data x) st) (List.range (callN s b)) s
  let sv := serverOf s1 core
  endCall core b c stOk 0 (fun x => (data x).length) (s1.setServer core { sv with disps := sv.disps ++ [⟨b.num, rows⟩] })

def half (c : Nat) : Val := ofCode 1 c

/-- `combine_row` of R278 on codes: the (gate, element) pairs in slot order. -/
def combineElem : List (Nat × Nat) → Nat
  | [] => 0
  | (g, x) :: r =>
    r.foldl (fun y z => toCode 1 (Val.add (Val.mul (half z.1) (half z.2)) (half y))) (toCode 1 (Val.mul (half g) (half x)))

/-- The returned row of a dispatch row: its place among the rows of its expert rank (R277). -/
def returnedRow (rows : List DispRow) (b : CallBlk) (c : Call) (d : DispRow) : List Byte :=
  let j := ((rowsOf rows d.expert).takeWhile (fun y => y != d)).length
  cutBytes (streamOf c d.expert) (j * rowBytes b) (rowBytes b)

def combineRow (rows : List DispRow) (b : CallBlk) (c : Call) (ds : List DispRow) : List Byte :=
  let rs := ds.map (fun d => (d.gate, returnedRow rows b c d))
  (List.range (rowBytes b / 2)).flatMap (fun i => leBytes 2 (combineElem (rs.map (fun x => (x.1, leAt x.2 (2 * i) 2)))))

/-- Tokens of a source rank in the kept dispatch. -/
def tokensOf (rows : List DispRow) (r : Nat) : List Nat := ((rows.filter (fun d => d.rank == r)).map (fun d => d.token)).dedup

def closeCombine (core : Nat) (b : CallBlk) (c : Call) (s : State) : State :=
  let rows := (pairedRows (serverOf s core) b).getD []
  let s1 := forAll (fun r st => forAll (fun t st =>
    sendData core b c r (t * rowBytes b) (combineRow rows b c (rows.filter (fun d => d.rank == r && d.token == t))) st)
    (tokensOf rows r) st) (List.range (callN s b)) s
  endCall core b c stOk 0 (fun r => ((tokensOf rows r).foldl (fun a t => max a (t + 1)) 0) * rowBytes b) s1

/-! ### LSEMERGE (R279, R280) -/

/-- A partial of one query. -/
structure LseV where
  m : Val
  l : Val
  a : List Val
deriving DecidableEq, Repr

def negInf (v : Val) : Bool := v == .inf true

def f32 (v : Val) : Val := (rndTo 0 v).1

/-- `lse_merge` of R280. -/
def lseMerge (fmt : Nat) (x y : LseV) : LseV :=
  if negInf x.m && negInf y.m then ⟨.inf true, .zero false, x.a.map (fun _ => .zero false)⟩
  else
    let m := pickVal true x.m y.m
    let ex := fun v => (sfuApply sfuExp2 0 (f32 (Val.add v m.negate))).1
    let sx := ex x.m
    let sy := ex y.m
    let join := fun f p q => (rndTo f (Val.add (Val.mul q sy) (rndTo f (Val.mul p sx)).1)).1
    ⟨m, join 0 x.l y.l, (x.a.zip y.a).map (fun z => join fmt z.1 z.2)⟩

/-- The partial of a rank for query `q`. -/
def lsePart (b : CallBlk) (bs : List Byte) (q : Nat) : LseV :=
  let base := q / 128 * lseBb b
  let j := q % 128
  let w := accBytes (lseFmt b)
  ⟨ofCode 0 (leAt bs (base + 4 * j) 4), ofCode 0 (leAt bs (base + 512 + 4 * j) 4),
    (List.range (lseDv b)).map (fun i => ofCode (lseFmt b) (leAt bs (base + 1024 + (j * lseDv b + i) * w) w))⟩

def lseResult (s : State) (b : CallBlk) (c : Call) (q : Nat) : LseV :=
  let parts := (List.range (callN s b)).map (fun r => lsePart b (wholeBytes (streamOf c r)) q)
  (canonFold (lseMerge (lseFmt b)) 20 parts).getD ⟨.zero false, .zero false, []⟩

/-- The normalised output of a query: a times rcp(l); +0 where l is +0. -/
def lseNormed (fmt : Nat) (x : LseV) : List Val :=
  if x.l = .zero false then x.a.map (fun _ => .zero false)
  else
    let r := (sfuApply sfuRcp 0 x.l).1
    x.a.map (fun v => (rndTo fmt (Val.mul v r)).1)

/-- What the bits of a call's output may depend on (R389): its parameters and the bytes of each stream. -/
def callInputs (s : State) (b : CallBlk) (c : Call) : List Nat :=
  b.ps ++ (List.range (callN s b)).flatMap (fun r =>
    let bs := wholeBytes (streamOf c r)
    bs.length :: bs.map (fun x => x.toNat))

/-- Code of output lane `n`: of a query, or, beyond q_count, open (assumption 30). -/
def lseCode (ins : List Nat) (fmt n : Nat) (inRange : Bool) (v : Val) : Nat :=
  if inRange then toCode fmt v else (Config.lsePad ins n).toNat % 2 ^ (8 * accBytes fmt)

/-- One output query block (R279, R280). -/
def lseBlock (s : State) (b : CallBlk) (c : Call) (k : Nat) : List Byte :=
  let fmt := lseFmt b
  let dv := lseDv b
  let ins := callInputs s b c
  let rs := (List.range 128).map (fun j => (decide (128 * k + j < lseQ b), lseResult s b c (128 * k + j)))
  let base := k * (256 + 128 * dv)
  let as := (rs.zipIdx).flatMap (fun x =>
    ((if lseNorm b then lseNormed fmt x.1.2 else x.1.2.a).zipIdx).flatMap (fun y =>
      leBytes (accBytes fmt) (lseCode ins fmt (base + 256 + x.2 * dv + y.2) x.1.1 y.1)))
  if lseNorm b then as
  else (rs.zipIdx).flatMap (fun x => leBytes 4 (lseCode ins 0 (base + x.2) x.1.1 x.1.2.m))
    ++ (rs.zipIdx).flatMap (fun x => leBytes 4 (lseCode ins 0 (base + 128 + x.2) x.1.1 x.1.2.l)) ++ as

def closeLse (core : Nat) (b : CallBlk) (c : Call) (s : State) : State :=
  let data := (List.range (ceilDiv (lseQ b) 128)).flatMap (lseBlock s b c)
  let s1 := forAll (fun q st => sendData core b c q 0 data st) (receivers s b) s
  endCall core b c stOk 0 (fun _ => data.length) s1

/-! ### AGATHER (R268) -/

def closeAgather (core : Nat) (b : CallBlk) (c : Call) (s : State) : State :=
  endCall core b c stOk 0 (fun _ => callN s b * b.p 0) s

/-! ### PGATHER (R281 to R284) -/

def stagingAt (b : CallBlk) (blk : Nat) : Nat := pageAddr b.stgPg + blk * 4096

def putCall (core : Nat) (c : Call) (s : State) : State := s.setServer core { serverOf s core with call := some c }

/-- The whey part of a reservation (R282, R346); `first` counts a wait that begins. -/
def pgWhey (core : Nat) (b : CallBlk) (c : Call) (first : Bool) (s : State) : State :=
  let q := vatQuad (vatOf core)
  match allocMany (allocWhey q) (b.p 3) s with
  | some (ws, s1) => putCall core { c with wheyHeld := ws, reserved := true } s1
  | none => putCall core c (if first then wheyWait q s else s)

/-- Hold the two reservations of R282, each whole, the VC_REQ buffers first. The VC_REQ part waits in the order of its pool
(R341). -/
def pgReserve (core : Nat) (b : CallBlk) (c : Call) (first : Bool) (s : State) : State :=
  let q := vatQuad (vatOf core)
  let wait := Purpose.pgather core
  if b.p 2 = 0 ∨ c.poolHeld ≠ [] then pgWhey core b c first s
  else if s.waiters.any (fun w => w.purpose == wait) then
    match (poolHead s q vcReq).filter (fun w => w.purpose == wait) with
    | some w =>
      match allocMany (allocAfter (headsBefore s w) q vcReq (repCore core)) (b.p 2) s with
      | some (ps, s1) =>
        pgWhey core b { c with poolHeld := ps } true { s1 with waiters := s1.waiters.filter (fun w => w.purpose != wait) }
      | none => s
    | none => s
  else
    match allocMany (takeBuf q vcReq (repCore core)) (b.p 2) s with
    | some (ps, s1) => pgWhey core b { c with poolHeld := ps } true s1
    | none => putCall core c (waitBuf q vcReq (repCore core) wait s)

/-- Send a kept block to every member at an output position. -/
def pgSend (core : Nat) (b : CallBlk) (c : Call) (pos : Nat) (buf : Option Nat) (data : List Byte) (s : State) : State :=
  forAll (fun r s => libReply core b c r (pos * 4096) false buf data s) (List.range (callN s b)) s

/-- Unpredicted blocks kept, ascending. -/
def latePart (s : State) (core : Nat) (b : CallBlk) (c : Call) : List (Nat × Option Nat) :=
  let ps := predList s core b
  (c.fetched.filter (fun x => !ps.contains x.1)).foldl (fun acc x => insertSeg x acc) []

def dirWord (blk : Nat) (present unpredicted : Bool) : Nat := blk % 2 ^ 32 + bit01 present * 2 ^ 32 + bit01 unpredicted * 2 ^ 33

/-- The bytes of an unpredicted block: from its whey buffer, else from staging. One whose whey buffer cannot be read counts as
not received (R344, R350). -/
def lateLook (s : State) (core : Nat) (b : CallBlk) (x : Nat × Option Nat) : Look (Nat × Option (List Byte)) :=
  match x.2 with
  | none => (spaceLook s (vatOf core) 2 b.stgQd (stagingAt b x.1) 4096).map (fun d => (x.1, some d))
  | some w =>
    if bufRefused s w then .got (x.1, none)
    else
      match spaceLook s (vatOf core) 2 (bufQuad w) (bufOff s w + 64) 4096 with
      | .got d => .got (x.1, some d)
      | .sleep q off n => .sleep q off n
      | .dry | .lost _ => .got (x.1, none)

/-- A read of an unpredicted block counts its lines, or its handle as refused. -/
def lateRead (core : Nat) (b : CallBlk) (x : Nat × Option Nat) (s : State) : State :=
  match x.2 with
  | none => hbmMoved .bulk b.stgQd (stagingAt b x.1) 4096 s
  | some w =>
    if bufRefused s w then lostMark core (.buf w) s
    else
      match spaceLook s (vatOf core) 2 (bufQuad w) (bufOff s w + 64) 4096 with
      | .lost l => lostMark core l s
      | _ => hbmMoved .bulk (bufQuad w) (bufOff s w + 64) 4096 s

/-- Data that the intake core must read is lost (R220, R350). -/
def libData (core : Nat) (s : State) : State :=
  curdExc core excData (oldestAt (s.core core)).1 (oldestAt (s.core core)).2 s

/-- Close a PGATHER call (R284), whose unpredicted blocks hold `late`; `expired` says that its limit ended it. -/
def pgClose (core : Nat) (b : CallBlk) (c : Call) (expired : Bool) (late : List (Nat × List Byte)) (s : State) : State :=
  let ps := predList s core b
  let held := fun k => c.fetched.any (fun x => x.1 == k)
  let absent := (ps.filter (fun k => !held k)).length
  let s1 := forAll (fun (x : (Nat × List Byte) × Nat) st => pgSend core b c (ps.length + x.2) none x.1.2 st) late.zipIdx s
  let dir := ps.flatMap (fun k => leBytes 8 (dirWord k (held k) false))
    ++ late.flatMap (fun x => leBytes 8 (dirWord x.1 true true))
  let n := ps.length + late.length
  let s2 := forAll (fun r st => sendData core b c r (n * 4096) dir st) (List.range (callN s b)) s1
  let status := if absent ≠ 0 ∨ expired then stMissing else if late ≠ [] then stUnpredicted else stOk
  let cnt := if absent ≠ 0 then absent else if expired then incomplete s b c else late.length
  endCall core b c status cnt (fun _ => n * 4096 + dir.length) s2

/-- The close of a PGATHER call reads its unpredicted blocks first; it waits for a pseudo-channel that must wake (R355). -/
def closePgather (core : Nat) (b : CallBlk) (c : Call) (expired : Bool) (s : State) : State :=
  let late := latePart s core b c
  match lookAll (lateLook s core b) late with
  | .got ds =>
    pgClose core b c expired (ds.filterMap (fun x => x.2.map (fun d => (x.1, d)))) (forAll (lateRead core b) late s)
  | .sleep q off n => hbmWake q off n s
  | .lost l => libData core (lostMark core l s)
  | .dry => s

/-- What judging a packet comes to: the call after it; a pseudo-channel that must wake before the packet is popped; data lost
(R220). -/
inductive Judged where
  | took (c : Call) (s : State)
  | wake (q off n : Nat)
  | data (l : Lost)

/-- Block `k` is kept, in whey buffer `w` where it has one. -/
def Call.kept (c : Call) (k : Nat) (w : Option Nat) : Call := { c with fetched := c.fetched ++ [(k, w)] }

/-- A predicted block leaves for every member through its reserved buffer; a refused write into it loses what is read from it (R282,
R344). -/
def pgForward (core : Nat) (b : CallBlk) (c : Call) (j : Nat) (p : Packet) (s : State) : State :=
  let u := repCore core
  match c.poolHeld[j]? with
  | some x => lostIfRefused x (pgSend core b c j (some x) p.payload (shareBuf x (callN s b) u none (fillPacket x u p s)))
  | none => pgSend core b c j none p.payload s

/-- An unpredicted block is kept in whey buffer `w`; where the write is refused, it counts as not received (R344, R350). -/
def pgWheyKeep (core : Nat) (c : Call) (k w : Nat) (p : Packet) (s : State) : Judged :=
  let s1 := fillPacket w (repCore core) p s
  if bufRefused s w then .took c (countParity (bufQuad w) .hard s1) else .took (c.kept k (some w)) s1

/-- A block is kept for the first time (R281, R282): in staging, and with the members through its reserved buffer, or in a whey
buffer, or in staging only. A call that ends REFUSED keeps it in staging, for the copies that may follow. -/
def pgKeep (core : Nat) (b : CallBlk) (c : Call) (k : Nat) (p : Packet) (s : State) : Judged :=
  match hbmAsk s b.stgQd (stagingAt b k) 4096 with
  | .refused => .data .line
  | .beyond => .data (.page b.stgQd)
  | _ =>
    let s1 := hbmWrite .bulk b.stgQd (stagingAt b k) p.payload (repCore core) s
    if c.refused then .took (c.kept k none) s1
    else
      match (predList s core b).findIdx? (fun x => x == k) with
      | some j => .took (c.kept k none) (pgForward core b c j p s1)
      | none =>
        match c.wheyHeld.find? (fun w => !c.fetched.any (fun x => x.2 == some w)) with
        | some w => pgWheyKeep core c k w p s1
        | none =>
          match allocWhey (vatQuad (vatOf core)) s1 with
          | some (w, s2) => pgWheyKeep core { c with wheyHeld := c.wheyHeld ++ [w] } k w p s2
          | none => .took (Call.kept { c with overflow := c.overflow + 1 } k none) s1

/-- A SEND of a PGATHER call that R263 does not discard (R281). A later copy of a block is compared with the first. A call that
failed its check has no reservation and keeps nothing (R262). -/
def pgTake (core : Nat) (b : CallBlk) (c : Call) (p : Packet) (r off : Nat) (s : State) : Judged :=
  let x := streamOf c r
  let k := off / 4096
  let c1 := setStream c { x with blocks := x.blocks + 1, segs := x.segs ++ [(off, p.payload)] }
  if p.plen ≠ 4096 ∨ off % 4096 ≠ 0 ∨ b.p 0 ≤ k then .took { c1 with refused := true, rej := c.rej + 1 } s
  else if c.reserved = false then .took c1 s
  else if c.fetched.any (fun y => y.1 == k) then
    match spaceLook s (vatOf core) 2 b.stgQd (stagingAt b k) 4096 with
    | .got d =>
      let s1 := hbmMoved .bulk b.stgQd (stagingAt b k) 4096 s
      .took (if d = p.payload then { c1 with dup := c1.dup + 1 } else { c1 with refused := true }) s1
    | .sleep q o n => .wake q o n
    | .lost l => .data l
    | .dry => .took c1 s
  else pgKeep core b c1 k p s

/-! ### Packets, closing, limits -/

/-- Close a call whose streams are complete. -/
def closeCall (core : Nat) (b : CallBlk) (c : Call) (s : State) : State :=
  if callBad s core b c then refuseCall core b c s
  else
    match b.prog with
    | 1 => closeAgather core b c s
    | 5 => closeDispatch core b c s
    | 6 => closeCombine core b c s
    | 7 => closeLse core b c s
    | 8 => closePgather core b c false s
    | _ => closeRecords core b c s

/-- A packet of a stream that R263 does not discard as a duplicate (R263, R268). -/
def streamTake (core : Nat) (b : CallBlk) (c : Call) (p : Packet) (r off : Nat) (s : State) : Call × State :=
  let x := streamOf c r
  let c1 := setStream c
    { x with segs := insertSeg (off, p.payload) x.segs,
             total := if p.last then some (max (off + p.plen) (x.total.getD 0)) else x.total }
  if exceeds (serverOf s core) b c r off p.plen then ({ c1 with refused := true, rej := c1.rej + 1 }, s)
  else if c.refused = false ∧ b.prog = pgAgather ∧ p.payload ≠ [] then
    (c1, forAll (fun m s => libReply core b c m (r * b.p 0 + off) false none p.payload s) (List.range (callN s b)) s)
  else (c1, s)

/-- The intake core judges a packet (R263). -/
def judge (core : Nat) (b : CallBlk) (c : Call) (p : Packet) (s : State) : Judged :=
  let r := p.addr / 2 ^ 39 % 2 ^ 17
  let off := p.addr % 2 ^ 35
  if callN s b ≤ r ∨ rankFid c r ≠ p.src then .took { c with rej := c.rej + 1 } s
  else if p.addr / 2 ^ 35 % 16 ≠ c.num % 16 then .took { c with late := c.late + 1 } s
  else if b.prog = pgPgather ∧ p.ptype = ptScount then .took (setStream c { streamOf c r with scount := some off }) s
  else if overlaps (streamOf c r).segs off p.plen then .took { c with dup := c.dup + 1 } s
  else if b.prog = pgPgather then pgTake core b c p r off s
  else
    let t := streamTake core b c p r off s
    .took t.1 t.2

/-- The intake queues of a call: that of its own inbound entry first (R259, R263). -/
def intakeQs (s : State) (core : Nat) (b : CallBlk) (num : Nat) : List Nat :=
  let own := inbEntry s ((b.inEntry + num % 2) % 4096)
  let other := inbEntry s ((b.inEntry + 1 - num % 2) % 4096)
  ([own, other].filter (fun e => e.valid && e.core == core)).map (fun e => e.queue)

/-- The buffer at the head of the first intake queue that holds one, where its handle is refused (R344). -/
def intakeRefused (s : State) (core : Nat) (qs : List Nat) : Option Nat :=
  ((qs.find? (fun q => (((s.core core).queue q).bufs != []))).bind (fun q =>
    (((s.core core).queue q).bufs.head?).bind (fun x => x.buf))).filter (bufRefused s)

/-- Pop the whole buffer at the head of the first intake queue that holds one. -/
def popIntake (core : Nat) (qs : List Nat) (s : State) : Option (Packet × State) :=
  match qs.find? (fun q => (((s.core core).queue q).bufs != [])) with
  | none => none
  | some q =>
    match ((s.core core).queue q).bufs with
    | [] => none
    | x :: _ => some (x.pkt, popStreams core q x.vecs.length s)

/-- The intake core of a server: the lowest core of its mask, which runs its program (R263). -/
def serving (s : State) (core : Nat) : Bool :=
  (s.core core).st == .running &&
    (List.range 8).find? (fun k => (s.core core).mask / 2 ^ k % 2 == 1) == some (core % 8)

/-- The call takes no packet yet: its reservations are not both held (R282). -/
def Call.waits (c : Call) : Bool := c.prog == pgPgather && !c.refused && !c.reserved

/-- A packet has been judged: the call closes when every stream is complete. -/
def afterPacket (core : Nat) (b : CallBlk) (c : Call) (s : State) : State :=
  if allDone s b c then closeCall core b c (putCall core c s) else putCall core c s

/-- LIBRARY_PACKET (R263): pop, judge, and close the call when every stream is complete. A call whose streams are complete and
that could not close yet closes. -/
def execLibraryPacket (core : Nat) (s : State) : Result :=
  .next (match (serverOf s core).call with
    | none => s
    | some c =>
      let b := readBlk s core c.off
      if serving s core = false ∨ c.waits then s
      else
        match intakeRefused s core (intakeQs s core b c.num), popIntake core (intakeQs s core b c.num) s with
        | some x, _ => libData core (lostMark core (.buf x) s)
        | none, none => if allDone s b c then closeCall core b c s else s
        | none, some (p, s1) =>
          match judge core b c p s1 with
          | .took c1 s2 => afterPacket core b c1 s2
          | .wake q off n => hbmWake q off n s
          | .data l => libData core (lostMark core l s))

/-- CALL_LIMIT_EXPIRE (R265): the call ends MISSING, unless what it holds ends it REFUSED. -/
def execCallLimitExpire (core : Nat) (s : State) : Result :=
  .next (match (serverOf s core).call with
    | none => s
    | some c =>
      let b := readBlk s core c.off
      match c.deadline with
      | none => s
      | some t =>
        if serving s core = false ∨ s.cyc < t then s
        else if callBad s core b c then refuseCall core b c s
        else if c.prog = pgPgather then closePgather core b c true s
        else
          endCall core b c stMissing (incomplete s b c) (fun _ => if c.prog = pgAgather then callN s b * b.p 0 else 0) s)

/-- PGATHER_RESERVE (R282). -/
def execPgatherReserve (core : Nat) (s : State) : Result :=
  .next (match (serverOf s core).call with
    | none => s
    | some c =>
      if serving s core ∧ c.waits then
        pgReserve core (readBlk s core c.off) c false s
      else s)

/-- Open a call, with the rank map that it names read (R148, R262). A DISPATCH number that comes round again names the new
call. -/
def openCall (core : Nat) (b : CallBlk) (s : State) : State :=
  let sv := serverOf s core
  let fids := (List.range (callN s b)).map (fun r => rdLe s (spHbm b.rmapQd) (pageAddr b.rmapPg + 4 * r) 4 % 2 ^ 20)
  let c : Call :=
    { off := nextOff sv, prog := b.prog, num := b.num, failed := !callOk s core b, refused := !callOk s core b, fids := fids,
      streams := [], rej := 0, dup := 0, late := 0,
      deadline := if b.limit = 0 then none else some (s.cyc + b.limit * 1024), reserved := false,
      wheyHeld := [], poolHeld := [], overflow := 0, fetched := [] }
  let keep := if b.prog = pgDispatch then sv.disps.filter (fun d => d.num != b.num) else sv.disps
  let s1 := hbmMoved .bulk b.rmapQd (pageAddr b.rmapPg) (4 * callN s b) (s.setServer core { sv with call := some c, disps := keep })
  if c.waits then pgReserve core b c true s1 else s1

/-- The local data that a call is taken by: its block, and the expert map or the prediction list that it names. -/
def callData (core : Nat) (s : State) : List (Nat × Nat) :=
  let off := nextOff (serverOf s core)
  let b := readBlk s core off
  (off, 128) :: (if b.prog = pgDispatch then [(b.p 1, 4 * nExp b)] else if b.prog = pgPgather then [(b.p 1, 4 * b.p 2)] else [])

/-- Take the next call (R258, R262): the SWAIT on the call object has been met and the block names this program. The rank map is
read first (R350, R355). -/
def takeCall (core : Nat) (wanted : Nat → Bool) (s : State) : State :=
  let sv := serverOf s core
  let b := readBlk s core (nextOff sv)
  if serving s core = false ∨ sv.call.isSome ∨ swaitMet s sv.obj ((sv.next + 1) % 2 ^ 64) = false ∨ wanted b.prog = false then s
  else if (callData core s).any (fun y => upsetIn s (upLocal (vatOf core)) y.1 y.2) then libData core (lostMark core .local_ s)
  else
    match hbmAsk s b.rmapQd (pageAddr b.rmapPg) (4 * callN s b) with
    | .ready => openCall core b s
    | .asleep => hbmWake b.rmapQd (pageAddr b.rmapPg) (4 * callN s b) s
    | .refused => libData core s
    | .beyond => libData core (lostMark core (.page b.rmapQd) s)

/-- AGATHER (R268): the server takes its next call. -/
def execCallAgather (core : Nat) (s : State) : Result := .next (takeCall core (fun p => p == pgAgather) s)
/-- SORT (R272). -/
def execCallSort (core : Nat) (s : State) : Result := .next (takeCall core (fun p => p == pgSort) s)
/-- FILTER (R273). -/
def execCallFilter (core : Nat) (s : State) : Result := .next (takeCall core (fun p => p == pgFilter) s)
/-- TOPK (R274). -/
def execCallTopk (core : Nat) (s : State) : Result := .next (takeCall core (fun p => p == pgTopk) s)
/-- DISPATCH (R276). -/
def execCallDispatch (core : Nat) (s : State) : Result := .next (takeCall core (fun p => p == pgDispatch) s)
/-- COMBINE (R278). -/
def execCallCombine (core : Nat) (s : State) : Result := .next (takeCall core (fun p => p == pgCombine) s)
/-- LSEMERGE (R280). -/
def execCallLsemerge (core : Nat) (s : State) : Result := .next (takeCall core (fun p => p == pgLsemerge) s)
/-- PGATHER (R281, R282): the call's reservations are taken, or begin to wait. -/
def execCallPgather (core : Nat) (s : State) : Result := .next (takeCall core (fun p => p == pgPgather) s)

/-- The cores that a program's start set running: those of its mask that started with it (R217, R258). -/
def serverCores (s : State) (core : Nat) : List Nat :=
  (((List.range 8).filter (fun k => (s.core core).mask / 2 ^ k % 2 == 1)).map (fun k => vatOf core * 8 + k)).filter (fun k =>
    (s.core k).st == .running && (s.core k).startAt == (s.core core).startAt)

/-- SERVER_STOP (R258): a call block with prog 0 ends the program on its cores with END (R218). -/
def execServerStop (core : Nat) (s : State) : Result :=
  .next (let sv := serverOf s core
    if serving s core = false ∨ sv.call.isSome ∨ swaitMet s sv.obj ((sv.next + 1) % 2 ^ 64) = false
      ∨ (readBlk s core (nextOff sv)).prog ≠ 0 then s
    else forAll (fun k s => s.updCore k (fun c => { c with st := .ending })) (serverCores s core) s)

/-- SWAIT_WAKE (R215): the SWAIT of a core completes when its object has reached the value; a server that waits for a call
whose prog is reserved takes it, and R262 refuses it. -/
def execSwaitWake (core : Nat) (s : State) : Result :=
  .next (if (s.core core).sb.any (fun e => e.op == 0x43) then wakeSwait core s
    else if (s.core core).sb = [] then takeCall core (fun p => decide (8 < p)) s
    else s)

/-! ### Row routines (R306, R307) -/

/-- The core that runs chunk `k` of a program's row routine: core k mod C of its mask (R306). -/
def chunkCore (s : State) (core k : Nat) : Nat :=
  let cs := (List.range 8).filter (fun j => (s.core core).mask / 2 ^ j % 2 == 1)
  vatOf core * 8 + cs.getD (k % max 1 cs.length) (core % 8)

/-- A row stream as a routine reads it: its directory, its values and its factors. -/
structure RowData where
  dir : List Byte
  vals : List Byte
  facs : List Byte
deriving DecidableEq, Repr

def RowData.entry (d : RowData) (r : Nat) : Nat := leAt d.dir (8 * r) 8
def RowData.val (d : RowData) (fmt e : Nat) : Nat := leAt d.vals (accBytes fmt * e) (accBytes fmt)
def RowData.fac (d : RowData) (fmt r : Nat) : Nat := leAt d.facs (accBytes fmt * r) (accBytes fmt)

/-- The entries of row `r`. -/
def RowData.row (d : RowData) (r : Nat) : List Nat :=
  (List.range (d.entry (r + 1) - d.entry r)).map (fun i => d.entry r + i)

/-- The parts of a stream: (offset, bytes) of what is read, and of what is written, `outs` output elements. -/
def rowParts (x : RowStream) (n facs outs : Nat) : List (Nat × Nat) :=
  let w := accBytes x.fmt
  [(x.dirOff, 8 * (x.rows + 1)), (x.valOff, w * n), (x.facOff, w * facs), (x.outOff, w * outs)]

/-- What a row routine meets when it reads its stream. -/
inductive RowLook where
  | got (d : RowData)
  | range
  | sleep (q off n : Nat)
  | lost (l : Lost)
deriving DecidableEq, Repr

/-- A stack refuses the part that a routine writes (R350, R377). -/
def outRefused (s : State) (x : RowStream) (off n : Nat) : Bool := decide (2 ≤ x.space) && n != 0 && hbmAsk s x.qd off n == .refused

def rowLook (s : State) (v : Nat) (x : RowStream) (scaled : Bool) : RowLook :=
  let look := fun a n => spaceLook s v x.space x.qd a n
  if inSpace s v x.space x.qd x.dirOff (8 * (x.rows + 1)) = false then .range
  else
    match look x.dirOff (8 * (x.rows + 1)) with
    | .got dir =>
      let n := leAt dir (8 * x.rows) 8
      let parts := rowParts x n (if scaled then x.rows else 0) (if scaled then n else x.rows)
      if parts.any (fun y => y.2 != 0 && !inSpace s v x.space x.qd y.1 y.2) then .range
      else if (parts.drop 3).any (fun y => outRefused s x y.1 y.2) then .lost .line
      else
        match lookAll (fun (y : Nat × Nat) => if y.2 = 0 then .got [] else look y.1 y.2) ((parts.drop 1).take 2) with
        | .got ds => .got ⟨dir, ds.getD 0 [], ds.getD 1 []⟩
        | .sleep q a m => .sleep q a m
        | .lost l => .lost l
        | .dry => .lost .line
    | .sleep q a m => .sleep q a m
    | .lost l => .lost l
    | .dry => .lost .line

/-- The bytes that a routine reads count in the bulk class (R353, R359). -/
def rowMoved (x : RowStream) (d : RowData) (s : State) : State :=
  if x.space = 2 then
    hbmMoved .bulk x.qd x.dirOff d.dir.length (hbmMoved .bulk x.qd x.valOff d.vals.length
      (hbmMoved .bulk x.qd x.facOff d.facs.length s))
  else s

/-- Store outputs: (core that writes it, element, code) (R306). -/
def rowWrites (x : RowStream) (outs : List (Nat × Nat × Nat)) (s : State) : State :=
  let w := accBytes x.fmt
  forAll (fun (o : Nat × Nat × Nat) s =>
    (spaceWrite o.1 (s.core o.1).issued x.space x.qd (x.outOff + w * o.2.1) (leBytes w o.2.2) s).2) outs s

/-- Run a row routine on the cores of a running program: RANGE where a part does not lie in its space, DATA where data is lost
(R190, R220); it waits for a pseudo-channel that must wake (R355). The values that a library routine decodes are not counted in
VAT_CENSUS (R115; DESIGN CHOICE, assumption 138). -/
def runRows (core : Nat) (x : RowStream) (scaled : Bool) (outs : RowData → List (Nat × Nat × Nat)) (s : State) : State :=
  if (s.core core).st = .running then
    match rowLook s (vatOf core) x scaled with
    | .got d => rowWrites x (outs d) (rowMoved x d s)
    | .range => curdExc core excRange (oldestAt (s.core core)).1 (oldestAt (s.core core)).2 s
    | .sleep q a n => hbmWake q a n s
    | .lost l => libData core (lostMark core l s)
  else s

/-- ROW_SCALE (R307): each entry is mul(value, factor[r]), rounded once to the value format. -/
def execRowScale (core : Nat) (rs : RowStream) (s : State) : Result :=
  .next (runRows core rs true (fun d => (List.range rs.rows).flatMap (fun r => (d.row r).map (fun e =>
    (chunkCore s core (e / 4096), e,
      toCode rs.fmt (Val.mul (ofCode rs.fmt (d.val rs.fmt e)) (ofCode rs.fmt (d.fac rs.fmt r))))))) s)

/-- The pieces of a row: its entries cut at multiples of 4,096 (R306). -/
def rowPieces (es : List Nat) : List (List Nat) :=
  match es with
  | [] => []
  | e :: _ => (List.range (es.length / 4096 + 2)).filterMap (fun i =>
      let p := es.filter (fun x => x / 4096 == e / 4096 + i)
      if p = [] then none else some p)

/-- The canonical sum of codes; a leaf is its element rounded to the format, so that a NaN is the canonical one (R100, R119). -/
def canonSum (fmt : Nat) (cs : List Nat) : Nat :=
  (canonFold (addCodes fmt) 40 (cs.map (fun c => toCode fmt (ofCode fmt c)))).getD 0

/-- The sum of row `r`: the canonical sum, in chunk order, of the canonical sums of its pieces (R307). -/
def rowSumOf (fmt : Nat) (d : RowData) (r : Nat) : Nat :=
  canonSum fmt ((rowPieces (d.row r)).map (fun p => canonSum fmt (p.map (d.val fmt))))

/-- ROW_SUM (R307), each row's sum written by the core of its last chunk (R308). -/
def execRowSum (core : Nat) (rs : RowStream) (s : State) : Result :=
  .next (runRows core rs false (fun d => (List.range rs.rows).map (fun r =>
    (chunkCore s core ((d.entry (r + 1) - 1) / 4096), r, rowSumOf rs.fmt d r))) s)

end Sys2Proof.Machine
end

