-- ==== Sys2Proof/Machine/Memory.lean ====
section
/-!
DEFINITION. Commands of the Cellar slices and the HBM stacks: waiters and pools (R339, R341, R342), the indirect access
(R125, R337), the whey and long-reach registers (R346, R358), HBM reads and their errors (R348 to R350, R397), and patrol
scrub (R351).
-/
namespace Sys2Proof.Machine

def locCellar (q off : Nat) : Loc := pageLoc .cellar q (pgCellar q) off

/-- A register of a Cellar page; an absent slice ignores it (R6). -/
def onCellar (q : Nat) (f : State → State) (s : State) : State := if quadPresent s.fuses q then f s else s

/-! ### Waiting allocations (R339, R341) -/

/-- A head is served when what it needs is left by the ready heads before it. -/
def headTurn (s : State) (w : Waiter) : Bool := heedsHeads s w.qd w.pool (headsBefore s w)

/-- Give a buffer to the waiter that it was allocated for. -/
def giveBuf (w : Waiter) (b : Nat) (s : State) : State :=
  match w.purpose with
  | .credit port vc =>
    if (s.port port).rxOn ∧ isDrain s (pgLane port) = false then grantStep port vc b s else freeBuf b port none s
  | .streamOut core q =>
    let c := s.core core
    let x := c.queue q
    if x.bound ∧ x.kind = 4 ∧ x.asm = none then s.setCore core (c.setQueue q { x with asm := some ⟨[], 0, b, []⟩ })
    else freeBuf b (repCore core) none s
  | .result k =>
    match s.slotOf k with
    | none => freeBuf b w.req none s
    | some x =>
      match x.result with
      | none => freeBuf b w.req none s
      | some r => if isRoot s k.group then resultReady x r b s else passDown x r b s
  | .mgmt unit => mgmtGive unit b s
  | .inbound seq => giveInbound seq b w.req s
  | .frame _ | .pgather _ => freeBuf b w.req none s

def dropWaiter (w : Waiter) (s : State) : State := { s with waiters := s.waiters.erase w }

/-- Serve a waiter: a frame and a PGATHER reservation take all the buffers they need or none (R282), every other waiter one. -/
def serveWaiter (w : Waiter) (s : State) : State :=
  match w.purpose with
  | .frame port =>
    match serveFrame (headsBefore s w) port w.pool (dropWaiter w s) with
    | some s1 => s1
    | none => s
  | .pgather core =>
    match (serverOf s core).call with
    | some c => pgReserve core (readBlk s core c.off) c false s
    | none => dropWaiter w s
  | _ =>
    match allocAfter (headsBefore s w) w.qd w.pool w.req (dropWaiter w s) with
    | some (b, s1) => giveBuf w b s1
    | none => s

/-- BUFFER_ALLOCATE (R339, R341). -/
def execBufferAllocate (qd pool : Nat) (s : State) : Result :=
  .next (match poolHead s qd pool with
    | none => s
    | some w => if canAllocate s qd pool && headTurn s w then serveWaiter w s else s)

/-! ### Pools and areas (R342, R346, R358) -/

/-- A reserve lowered below its use bars the pool until used_p has fallen below it (R342); at a reserve of 0 until the pool is
empty (assumption 105). -/
def holdPool (q p old : Nat) (s : State) : State :=
  let res := poolRes s q p
  let used := poolUsed s q p
  if res < old ∧ res < used then { s with poolHold := tset 0 s.poolHold (8 * q + p) 1 }
  else if used < max 1 res then { s with poolHold := tset 0 s.poolHold (8 * q + p) 0 }
  else s

/-- A write to CEL_POOL: discarded when it would make cap below res or the reserves exceed n_bufs. hwm is a field like another,
no counter (assumption 106). -/
def poolWrite (req q p : Nat) (v : U64) (s : State) : State :=
  let x := locCellar q (0x140 + 8 * p)
  let others := ((List.range 7).map (fun j => if j = p then 0 else poolRes s q j)).sum
  if fieldOf v 16 16 < fieldOf v 0 16 ∨ nBufs s q < others + fieldOf v 0 16 then discardWrite x s
  else holdPool q p (poolRes s q p) (plainWrite req x v (fun _ => false) s)

/-- POOL_WRITE (R342). -/
def execPoolWrite (req qd pool : Nat) (v : U64) (s : State) : Result :=
  .next (if pool < 7 then onPath req (onCellar qd (poolWrite req qd pool v)) s else s)

/-- Every port of the quadrant is down and no pool holds a buffer. -/
def sliceQuiet (s : State) (q : Nat) : Bool :=
  s.ports.all (fun p => p.1 / 128 != q || !p.2.formed || p.2.st == .down)
    && (List.range 7).all (fun p => poolUsed s q p == 0)

/-- A write to CEL_AREA: open_pages keeps its value unless the slice is quiet and 4,096 buffers are left. -/
def areaWrite (req q : Nat) (v : U64) (s : State) : State :=
  let n := (sliceBytes - (openBase + fieldOf v 0 16 * 4096)) / bufBytes
  let ok := sliceQuiet s q && decide (4096 ≤ n)
  if ok then plainWrite req (locCellar q 0x100) v (fun _ => false) s else discardWrite (locCellar q 0x100) s

/-- OPEN_PAGES_WRITE (R342). -/
def execOpenPagesWrite (req qd : Nat) (v : U64) (s : State) : Result :=
  .next (onPath req (onCellar qd (areaWrite req qd v)) s)

def wheyHeldIn (s : State) (q : Nat) : Bool :=
  s.bufs.any (fun b => decide (2 ^ 20 ≤ b.1) && bufQuad b.1 == q && b.2.st != .free)

/-- A write to CEL_WHEY (R358): the region starts with every buffer free. -/
def wheyWrite (req q : Nat) (v : U64) (s : State) : State :=
  if 8259553 < fieldOf v 26 24 ∨ wheyHeldIn s q then discardWrite (locCellar q 0x118) s
  else
    let s1 := plainWrite req (locCellar q 0x118) v (fun _ => false) s
    s1.setFld (pgCellar q) celWheyStat_free (s1.fld (pgCellar q) celWhey_wheyN)

/-- A write to CEL_WHEY_STAT: a clear of low starts a new lowest value. -/
def wheyStatWrite (req q : Nat) (v : U64) (s : State) : State :=
  let s1 := plainWrite req (locCellar q 0x120) v (fun _ => false) s
  if fieldOf v 24 24 = 0 then { s1 with wheySeen := tset 0 s1.wheySeen q 0 } else s1

/-- A write to CEL_LINK: discarded while a long-reach port of the quadrant is UP. -/
def linkAreaWrite (req q : Nat) (v : U64) (s : State) : State :=
  if s.ports.any (fun p => p.1 / 128 == q && p.2.formed && p.2.longReach && p.2.st == .up) then
    discardWrite (locCellar q 0x128) s
  else plainWrite req (locCellar q 0x128) v (fun _ => false) s

/-! ### Indirect access (R125, R337) -/

def indOff (s : State) (q : Nat) : Nat := 8 * s.fld (pgCellar q) celIndAddr_off

/-- off advances by 8 after an access when inc is 1, and wraps at 2^27. -/
def indStep (q : Nat) (s : State) : State :=
  if s.flag (pgCellar q) celIndAddr_inc then
    s.setFld (pgCellar q) celIndAddr_off ((s.fld (pgCellar q) celIndAddr_off + 1) % 2 ^ 24)
  else s

/-- A write to CEL_IND_ADDR: the low three bits of off are ignored. -/
def indAddrWrite (req q : Nat) (v : U64) (s : State) : State :=
  plainWrite req (locCellar q 0x108) (BitVec.ofNat 64 (v.toNat / 8 * 8)) (fun _ => false) s

/-- A slice word of wrong parity is read through the window (R345): a sync object is disarmed, the open area and the chain store
are reported, a buffer only counts. -/
def indParity (q o : Nat) (s : State) : State :=
  if o < 0x80000 then syncParity (q * 16384 + o / 32) s
  else if upsetIn s q o 8 then (if o < openEnd s q then upsetRead q o s else countParity q .hard s)
  else s

/-- The u64 at off: sync objects as their registers hold them, every other area as the slice stores it, 0 beyond the slice. -/
def indRead (q : Nat) (s : State) : U64 × State :=
  let o := indOff s q
  let s1 := indParity q o s
  if o < 0x80000 then (lookReg s1 (syncAt (q * 16384 + o / 32) + o % 32), s1)
  else if o < sliceBytes then (BitVec.ofNat 64 (rdLe s (spCellar q) o 8), s1)
  else (0, s)

/-- A read of CEL_IND_DATA. In the cycle of a write to it, the word is the one that a read before that write gave (R454). -/
def indDataRead (q : Nat) (s : State) : U64 × State :=
  match s.same.oldReg.find? (fun r => r.1 == pgCellar q + 0x110) with
  | some r => (r.2, indStep q s)
  | none =>
    let r := indRead q s
    (r.1, indStep q r.2)

/-- The word at off is remembered before this cycle's first write to CEL_IND_DATA. -/
def noteInd (q : Nat) (s : State) : State :=
  if s.same.oldReg.any (fun r => r.1 == pgCellar q + 0x110) then s
  else { s with same := { s.same with oldReg := (pgCellar q + 0x110, (indRead q s).1) :: s.same.oldReg } }

/-- A write of CEL_IND_DATA (R125, R337): a write into the scope table of an enabled group counts in its Press page. -/
def indWrite (req q : Nat) (v : U64) (s : State) : State :=
  let o := indOff s q
  if o < 0x80000 ∨ openEnd s q ≤ o then discardWrite (locCellar q 0x110) s
  else openWrite q o req 0x110 (leBytes 8 v.toNat) s

def indDataWrite (req q : Nat) (v : U64) (s : State) : State := indStep q (indWrite req q v (noteInd q s))

/-- CEL_IND_DATA_READ (R337). -/
def execCelIndDataRead (req qd : Nat) (s : State) : Result :=
  .next (onPath req (fun s =>
    if quadPresent s.fuses qd then
      let r := indDataRead qd s
      r.2.emit (.readData req (pgCellar qd + 0x110) r.1)
    else s.emit (.readData req (pgCellar qd + 0x110) 0)) s)

/-- CEL_IND_DATA_WRITE (R337). -/
def execCelIndDataWrite (req qd : Nat) (v : U64) (s : State) : Result :=
  .next (onPath req (onCellar qd (indDataWrite req qd v)) s)

/-! ### HBM (R348 to R351) -/

/-- The stack and pseudo-channel that hold a line of a quadrant (R348). -/
def hbmPlace (s : State) (q page line : Nat) : Nat × Nat := chunkUnit s q ((page * 4096 + line * 64) / 1024)

/-- The first uncorrectable line since valid was cleared is recorded (R359). -/
def noteUncorr (st page line : Nat) (s : State) : State :=
  if s.flag (pgHbm st) hbmErrAddr_valid then s
  else
    let s1 := ((s.setFld (pgHbm st) hbmErrAddr_page page).setFld (pgHbm st) hbmErrAddr_line line).setFld (pgHbm st)
      hbmErrAddr_valid 1
    { s1 with same := { s1.same with evSet := (pgHbm st + 0x110, 32) :: s1.same.evSet } }

/-- What the check of a line counts and raises (R349). A line that fails on the on-die path is read again once and counted in
CEL_PAR; a second failure is an uncorrectable line (R345). -/
def hbmCheck (st page line : Nat) (o : EccOutcome) (s : State) : State :=
  match o with
  | .clean => s
  | .corrected => s.addFld (pgHbm st) hbmEcc_corr 1
  | .rereadOk => s.addFld (pgHbm st) hbmEcc_rereadOk 1
  | .pathReread => countParity (st / 5) .replayed s
  | .uncorrectable | .pathHard =>
    let s0 := if o = .pathHard then countParity (st / 5) .hard s else s
    let s1 := noteUncorr st page line (s0.addFld (pgHbm st) hbmEcc_uncorr 1)
    reportOwnOpen clsHbmUncorr (repHbm st) (raiseEv (pgHbm st) 1 s1)

/-- Requester number of a use. -/
def useReq (s : State) : HbmUse → Nat
  | .replay p => p
  | .landing p _ => p
  | .spill k _ _ => match s.slotOf k with | some x => repPress x.array | none => repGrp
  | .accum g _ => repPress (homePress s g)
  | .mask _ | .retention _ | .completionLog => repGrp
  | .programStore c | .curdData c | .whey c _ => repCore c
  | .rindLoad k | .rindFetch k | .rindPrefetch k => repRind k

/-- The class in which a line counts here (R27, R353, R359): a prefetch of a Rind core is latency-critical, a read of the completion
log is bulk. The lines of every other use are counted by what reads them (assumption 47). -/
def useLc : HbmUse → Option Bool
  | .rindPrefetch _ => some true
  | .completionLog => some false
  | _ => none

/-- What a line that has been read does in the caches of a Rind core (R397): a prefetched one enters the data cache, an
uncorrectable one is discarded. -/
def useLine (u : HbmUse) (lost : Bool) (q off : Nat) (s : State) : State :=
  let l := rvLine q off
  match u, lost with
  | .rindLoad _, true | .rindFetch _, true | .rindPrefetch _, true => s.setRline l RLine.none
  | .rindPrefetch k, false =>
    if (s.rline l).caches = [] then lineUsed (dcacheOf k) k l (s.setRline l ⟨rdBytes s (spHbm q) off 64, []⟩)
    else lineUsed (dcacheOf k) k l s
  | _, _ => s

/-- The quadrant whose stacks hold a use's data (R17, R148, R169, R171, R216, R346); `none` where software places it in any
(R189, R396). -/
def useQuad (s : State) : HbmUse → Option Nat
  | .replay p | .landing p _ => some (p / 128)
  | .spill k _ _ | .mask k => (s.slotOf k).map (fun x => x.qd)
  | .accum g _ => some (grpF s g grpCfg_homeQd)
  | .retention k => (findRetained s k).map (fun x => x.2)
  | .completionLog => some 0
  | .programStore c | .whey c _ => some (vatQuad (vatOf c))
  | .curdData _ | .rindLoad _ | .rindFetch _ | .rindPrefetch _ => none

/-- An unpredicted block of a PGATHER call counts as not received (R284, R350). -/
def dropBlock (core blk : Nat) (s : State) : State :=
  let sv := s.server core
  match sv.call with
  | some c =>
    let c1 : Call := { c with fetched := c.fetched.filter (fun x => x.1 != blk) }
    s.setServer core { sv with call := some c1 }
  | none => s

/-- A requester receives a line that is uncorrectable, or an access that was refused (R350, R377, R397). -/
def useFailed (u : HbmUse) (s : State) : State :=
  match u with
  | .replay p => if (s.port p).formed ∧ (s.port p).st ≠ .down then linkDown p s else s
  | .landing p vc =>
    match s.waiting.find? (fun w => w.unit == p && w.vc == vc && w.landed) with
    | some w => transitLost w s
    | none => s
  | .spill k _ _ => abortKey k stFailedLink 0 s
  | .accum g b => setTag g b (tagSettled s g b) (tagMissing s g b + 1) (clearAcc g b s)
  | .mask k => maskRead k false s
  | .retention k => dropRetained k s
  | .completionLog => s
  | .programStore c =>
    if coreActive (s.core c) then curdExc c excFetch (s.core c).pc 0 s else s
  | .curdData c =>
    if coreActive (s.core c) then curdExc c excData (oldestAt (s.core c)).1 (oldestAt (s.core c)).2 s else s
  | .whey c b => dropBlock c b s
  | .rindLoad k => rindTrap k 5 s.draw.1 s.draw.2
  | .rindFetch k => rindTrap k 1 s.draw.1 s.draw.2
  | .rindPrefetch _ => s

/-- A line whose check failed goes to its requester as uncorrectable (R345, R349). -/
def lineLost (o : EccOutcome) : Bool := o == .uncorrectable || o == .pathHard

/-- HBM_READ_DONE (R348 to R350, R377): a page beyond the stacks is refused; a stack that is DARK or disabled refuses every
access; a pseudo-channel in SLATE wakes first (R355). A unit reads its data in the stacks that hold them and in no other
(R17). -/
def execHbmReadDone (qd page line : Nat) (use : HbmUse) (outcome : EccOutcome) (s : State) : Result :=
  .next (
    if (useQuad s use).any (fun q => q != qd) then s
    else if quadPages s qd ≤ page then
      useFailed use (refusePage qd (useReq s use) s)
    else
      let (st, pc) := hbmPlace s qd page (line % 64)
      if stackOn s st = false then useFailed use s
      else if isGold s (puPc st pc) = false then wakeUnit (puPc st pc) s
      else
        let s0 := match useLc use with | some lc => queueBursts (if lc then .lc else .bulk) (puPc st pc) 1 s | none => s
        let s1 := useLine use (lineLost outcome) qd (page * 4096 + line % 64 * 64) (hbmCheck st page (line % 64) outcome s0)
        if lineLost outcome then useFailed use s1 else s1)

/-- Lines of a pseudo-channel (R351). -/
def pcLines : Nat := 18874368

def scrubOf (s : State) (u : Nat) : Scrub := tget ⟨0, 0⟩ s.scrubs u

/-- The page and line of line `l` of a pseudo-channel (R348). -/
def scrubAddr (s : State) (st pc l : Nat) : Nat × Nat :=
  let a := ((l / 16 * 32 + pc) * quadStacks s (st / 5) + st % 5) * 1024 + l % 16 * 64
  (a / 4096, a % 4096 / 64)

/-- Bursts of a scrub: its read, and the write-back of a line whose read was corrected (R351). -/
def scrubBursts (o : EccOutcome) : Nat := if o = .corrected then 2 else 1

/-- SCRUB (R351, R412): every scrub_us, in ascending address order, while the pseudo-channel is in GOLD; its bursts stand in the
bulk queue (R353). The corrected line that is written back holds the bytes that it held. -/
def execScrub (stack pc : Nat) (outcome : EccOutcome) (s : State) : Result :=
  .next (
    let u := 32 * stack + pc
    let x := scrubOf s u
    if pc < 32 ∧ stackOn s stack ∧ isGold s (puPc stack pc) ∧ s.flag (pgHbm stack) hbmCfg_scrubEn
        ∧ x.at_ + usCycles (max 1 (s.fld (pgHbm stack) hbmCfg_scrubUs)) ≤ s.cyc then
      let (page, line) := scrubAddr s stack pc x.line
      let s1 := { s with scrubs := tset ⟨0, 0⟩ s.scrubs u ⟨(x.line + 1) % pcLines, s.cyc⟩ }
      hbmCheck stack page line outcome (queueBursts .bulk (puPc stack pc) (scrubBursts outcome) s1)
    else s)

end Sys2Proof.Machine
end

