-- ==== Sys2Proof/Machine/Power.lean ====
section
/-!
DEFINITION. The power controller: parking and transitions of units (R410 to R413), DARK (R414, R415), supply monitoring and
PMBus (R419, R421, R423), the PMBus alert (R399) and the thermal trip (R488).
-/
namespace Sys2Proof.Machine

def locPwr (off : Nat) : Loc := pageLoc .pwr 0 pgPwr off

/-! ### Units by number -/

/-- The block page of a unit with a page of its own. -/
def unitPage (u : Nat) : Nat :=
  if u < 32 then pgPress u else if u < 64 then pgVat (u - 32) else if u < 96 then pgHbm (u - 64) else pgRind (u - 96)

def unitHere (s : State) (u : Nat) : Bool :=
  if u < 32 then pressPresent s.fuses u
  else if u < 64 then vatPresent s.fuses (u - 32)
  else if u < 96 then stackPresent s.fuses (u - 64)
  else if u < 128 then rindPresent s.fuses (u - 96)
  else if u < 1024 then stackPresent s.fuses ((u - 128) / 32)
  else lanePresent s.fuses (u - 1024)

/-- The idle time of a unit's class in cycles (R412, R423): 0 never parks. -/
def classIdle (s : State) (u : Nat) : Nat :=
  80 * (if u < 32 then s.fld pgPwr pwrIdle_pressIdle
    else if u < 64 then s.fld pgPwr pwrIdle_vatIdle
    else if 128 ≤ u ∧ u < 768 then s.fld pgPwr pwrIdle_hbmIdle
    else 0)

/-- The hold bit of PWR_HOLD. -/
def held (s : State) (u : Nat) : Bool := decide (u < 64) && fieldOf (s.rd (pgPwr + 0x110)) u 1 == 1

/-- Idle now (R184, R412): no add ready; every core IDLE with no item and no start request; a pseudo-channel's queues are
empty between commands. -/
def unitIdle (s : State) (u : Nat) : Bool :=
  if u < 32 then (readyAdd s u).isNone
  else if u < 64 then
    (vatCores s (u - 32)).all (fun c => c.st == .idle && c.items.isEmpty) && (s.vat (u - 32)).startQ.isEmpty
  else decide (1024 ≤ u) || (decide (128 ≤ u) && hbmQueue s u == { HbmQ.empty with run := (hbmQueue s u).run })

/-- AUTO_PARK (R412): the unit reaches SLATE one always-on cycle later. -/
def execAutoPark (unit : Nat) (s : State) : Result :=
  .next (
    let x := s.pu unit
    if s.flag pgPwr pwrCtrl_autoPark ∧ unitHere s unit ∧ x.st = .gold ∧ x.until_ = none ∧ held s unit = false
        ∧ unitIdle s unit ∧ classIdle s unit ≠ 0 ∧ x.idleSince + classIdle s unit ≤ s.cyc then
      s.setPu unit { x with until_ := some (s.cyc + 80) }
    else s)

/-! ### Entering and leaving states -/

/-- The block-specific registers of a page take their Reset values. -/
def resetPage (page : Nat) (s : State) : State :=
  { s with regs := s.regs.filter (fun r => !(decide (page + 0x100 ≤ r.1) && decide (r.1 < page + 0x1000))) }

/-- The bytes of a stack are lost (R355): its 1 KiB row chunks (R348), and what waits in its queues. -/
def clearStack (st : Nat) (s : State) : State :=
  let n := max 1 (quadStacks s (st / 5))
  { s with
    hbmQ := s.hbmQ.filter (fun x => (x.1 - 128) / 32 != st),
    mem := s.mem.filter (fun c => !(c.1 / 2 ^ 40 == spHbm (st / 5) && c.1 % 2 ^ 40 / 1024 % n == st % 5)) }

/-- A Vat loses its local memory on leaving GOLD (R184). -/
def loseLocal (u : Nat) (s : State) : State := if 32 ≤ u ∧ u < 64 then clearLocal (u - 32) s else s

/-- The pseudo-channels of a stack that has been trained are in self-refresh (R434). -/
def stackToSlate (st : Nat) (s : State) : State :=
  forAll (fun k s => s.setPu (puPc st k) ⟨.slate, none, s.cyc, none⟩) (List.range 32)
    (s.setPu (puStack st) ⟨.gold, none, s.cyc, none⟩)

/-- What a unit loses in DARK (R410, R355): its block-specific registers and the state that they describe. -/
def darkLoses (u : Nat) (s : State) : State :=
  let s1 := loseLocal u (resetPage (unitPage u) s)
  if u < 32 then s1
  else if u < 64 then
    forAll (fun k s => s.setCore ((u - 32) * 8 + k) Core.idle) (List.range 8) (s1.setVat (u - 32) Vat.reset)
  else if u < 96 then clearStack (u - 64) s1
  else
    let s2 := dropCoreLines (u - 96) (s1.setRind (u - 96) Rind.reset)
    { s2 with soft := s2.soft.filter (fun i => i / 1024 != u - 96) }

def enterDark (u : Nat) (s : State) : State := darkLoses u (s.setPu u ⟨.dark, none, s.cyc, none⟩)

/-- A Vat goes to SLATE only while every core is IDLE and holds no item (R184). -/
def slateOk (s : State) (u : Nat) : Bool :=
  decide (u < 32) || decide (64 ≤ u) || (vatCores s (u - 32)).all (fun c => c.st == .idle && c.items.isEmpty)

/-- Accepted DARK writes take the unit from SLATE to DARK with the next always-on cycle (R414, R415); a Vat whose cores are not
all IDLE stays as it is until they are (R184; assumption 104). -/
def darken (s : State) : State :=
  forAll (fun (x : Nat × PwrUnit) s =>
    match x.2.darkAt with
    | some t => if t < s.aon ∧ slateOk s x.1 then enterDark x.1 s else s
    | none => s) s.pwr s

/-- WAKE_COMPLETE (R411 to R413): from GOLD to SLATE after one always-on cycle, unless work has come; from AMBER to GOLD;
from DARK to SLATE, a Rind core to GOLD, with its registers at their Reset values whatever has reached it in DARK (R414). -/
def execWakeComplete (unit : Nat) (s : State) : Result :=
  .next (
    let x := s.pu unit
    match x.until_ with
    | none => s
    | some t =>
      match x.st with
      | .gold =>
        if s.cyc < t then s
        else if unitIdle s unit then loseLocal unit (s.setPu unit ⟨.slate, none, s.cyc, none⟩)
        else s.setPu unit { x with until_ := none }
      | .amber =>
        let s1 := s.setPu unit ⟨.gold, none, s.cyc, none⟩
        if 1024 ≤ unit then laneGold (unit - 1024) s1 else settleAll s1
      | .dark =>
        let s1 := darkLoses unit s
        if 64 ≤ unit ∧ unit < 96 then stackToSlate (unit - 64) s1
        else s1.setPu unit ⟨if 96 ≤ unit then .gold else .slate, none, s.cyc, none⟩
      | .slate => s)

/-! ### DARK (R414, R415) -/

/-- No write waits in the queues of a stack. -/
def stackQuiet (s : State) (st : Nat) : Bool :=
  (List.range 32).all (fun k => let q := hbmQueue s (puPc st k); q.land + q.lc + q.bulk == 0)

/-- A unit holds no work item: its BLK_STAT reports DRAINED, or its enable is 0; a Rind core is held in reset. -/
def darkOk (s : State) (u : Nat) : Bool :=
  let page := unitPage u
  if u < 32 then !isEnabled s page || (isDrain s page && s.fld page prsLoad_slots == 0)
  else if u < 64 then !isEnabled s page || (isDrain s page && vatQuiet s (u - 32))
  else if u < 96 then !isEnabled s page || (isDrain s page && stackQuiet s (u - 64))
  else u != puRind 0 && s.flag (pgRind (u - 96)) evcCore_hold

/-- A wake request for the unit, or for a pseudo-channel of the stack, came in this always-on count. -/
def wokeNow (s : State) (u : Nat) : Bool := (darkCover u).any (fun i => s.asked.contains (i, s.aon))

def refuseDark (s : State) : State := s.addFld pgPwr pwrCnt_darkRefused 1

/-- An accepted DARK write takes a unit to SLATE first: a Vat with all cores IDLE loses its local memory (R184), a stack puts
its pseudo-channels into self-refresh; a Rind core has no SLATE (R410, R414). -/
def slateFirst (u : Nat) (s0 : State) : State :=
  let s : State := { s0 with
    back := (darkCover u).map (fun i => (i, s0.pu i)) ++ s0.back.filter (fun x => darkOwner x.1 != u) }
  let x := { s.pu u with darkAt := some s.aon }
  if 96 ≤ u ∨ slateOk s u = false then s.setPu u x
  else if 64 ≤ u then (stackToSlate (u - 64) s).setPu u ⟨.gold, none, s.cyc, some s.aon⟩
  else loseLocal u (s.setPu u ⟨.slate, none, s.cyc, some s.aon⟩)

/-- A write of 1 to a unit's PWR_DARK bit. -/
def darkSet (u : Nat) (s : State) : State :=
  let x := s.pu u
  if unitHere s u = false ∨ darkOk s u = false ∨ wokeNow s u then refuseDark s
  else if x.st = .dark then (s.setPu u { x with until_ := none }).setFld pgPwr (darkFd u) 1
  else (slateFirst u s).setFld pgPwr (darkFd u) 1

/-- The longest time out of DARK (R411). -/
def exitMax (u : Nat) : Nat := if u < 32 then 40000 else if u < 64 then 100000 else if u < 96 then 10000000 else 200000

/-- A write of 0 to a unit's PWR_DARK bit: a DARK unit comes up, a stack is trained again on the way. -/
def darkClear (u : Nat) (s : State) : State :=
  let x := s.pu u
  let s1 := s.setFld pgPwr (darkFd u) 0
  if x.st = .dark ∧ x.until_ = none then s1.setPu u { x with until_ := some (s.cyc + exitMax u) }
  else if x.darkAt.isSome then s1.setPu u { x with darkAt := none }
  else s1

/-- One bit of a write to a PWR_DARK register; a 1 to a bit that is 1 changes nothing where the unit's condition holds. -/
def darkBit (u : Nat) (one : Bool) (s : State) : State :=
  if one then (if s.fld pgPwr (darkFd u) = 1 ∧ unitHere s u ∧ darkOk s u then s else darkSet u s) else darkClear u s

/-- The units of a PWR_DARK register, by bit. -/
def darkUnits (off : Nat) : List Nat :=
  if off = 0x118 then List.range 64 else (List.range 20).map puStack ++ (List.range 16).map puRind

/-- A write to PWR_DARK_A or PWR_DARK_B that a higher requester's write of this cycle has overtaken does nothing (R454). -/
def darkRow (req off : Nat) (f : State → State) (s : State) : State :=
  if lostRace s req (pgPwr + off) then s else noteWrite req (pgPwr + off) (f (noteReg (pgPwr + off) s))

/-- A write to PWR_DARK_A or PWR_DARK_B (R414, R423). -/
def darkWrite (req off : Nat) (v : U64) (s : State) : State :=
  let us := darkUnits off
  let s1 := if v.toNat / 2 ^ us.length ≠ 0 then errAt (locPwr off) 4 s else s
  darkRow req off (forAll (fun (x : Nat × Nat) s => darkBit x.1 (fieldOf v x.2 1 == 1) s) us.zipIdx) s1

def isDarkUnit (u : Nat) : Bool := decide (u < 84) || (decide (96 ≤ u) && decide (u < 112))

/-- DARK_REQUEST (R414). -/
def execDarkRequest (req unit : Nat) (s : State) : Result :=
  .next (if isDarkUnit unit then onPath req (darkRow req (darkFd unit).off (darkBit unit true)) s else s)

/-- DARK_EXIT (R414). -/
def execDarkExit (req unit : Nat) (s : State) : Result :=
  .next (if isDarkUnit unit then onPath req (darkRow req (darkFd unit).off (darkBit unit false)) s else s)

/-! ### Supply and temperature (R419, R421, R423, R488) -/

/-- PWR_TEMP_WARN is raised while any quadrant's temp reaches warn_c (R421). -/
def tempCheck (s : State) : State :=
  if (List.range 4).any (fun q => quadPresent s.fuses q &&
      decide (s.fld pgPwr pwrCtrl_warnC ≤ s.fld (pgPwr + 8 * q) pwrAvs_temp)) then raiseEv pgPwr 2 s
  else s

/-- AVS_UPDATE (R419): the monitors of a quadrant. -/
def execAvsUpdate (qd mv temp : Nat) (s : State) : Result :=
  .next (if quadPresent s.fuses qd then
      tempCheck ((s.setFld (pgPwr + 8 * qd) pwrAvs_recMv mv).setFld (pgPwr + 8 * qd) pwrAvs_temp temp)
    else s)

/-- A write to PWR_CTRL. -/
def pwrCtrlWrite (req : Nat) (v : U64) (s : State) : State :=
  tempCheck (plainWrite req (locPwr 0x100) v (fun _ => false) s)

/-- The end of a PMBus transaction: busy clears, a failure is kept, and PWR_PMB_DONE is raised. -/
def pmbEnd (ok : Bool) (s : State) : State :=
  let s1 := { s with ifc := { s.ifc with pmb := none } }
  let s2 := s1.setFld pgPwr pwrPmbCmd_busy 0
  let s3 := if ok then s2
    else
      let s4 := s2.setFld pgPwr pwrPmbCmd_fail 1
      { s4 with same := { s4.same with evSet := (pgPwr + 0x1C0, 21) :: s4.same.evSet } }
  raiseEv pgPwr 1 s3

/-- go (R423): the reserved len fails the transaction. -/
def pmbGo (s : State) : State :=
  let f := fun (d : Fd) => s.fld pgPwr d
  if f pwrPmbCmd_len = 3 then pmbEnd false s
  else
    let s1 := (s.setFld pgPwr pwrPmbCmd_busy 1).emit
      (.pmbus (f pwrPmbCmd_addr) (f pwrPmbCmd_code) (f pwrPmbCmd_len) (f pwrPmbCmd_read == 1) (f pwrPmbCmd_pec == 1)
        (f pwrPmbData_data))
    { s1 with ifc := { s1.ifc with pmb := some (f pwrPmbCmd_read == 1, f pwrPmbCmd_len) } }

/-- A write to PWR_PMB_CMD: go is discarded and counted while a transaction runs. -/
def pmbWrite (req : Nat) (v : U64) (s : State) : State :=
  let s := if fieldOf v 19 1 = 1 then woTurn req (pgPwr + 0x1C0) s else s
  let busy := s.flag pgPwr pwrPmbCmd_busy
  let s1 := plainWrite req (locPwr 0x1C0) v (fun _ => false) s
  if fieldOf v 19 1 = 0 then s1 else if busy then discardWrite (locPwr 0x1C0) s1 else pmbGo s1

/-- PMBUS_GO (R423): a write to PWR_PMB_CMD with go = 1. -/
def execPmbusGo (req : Nat) (v : U64) (s : State) : Result :=
  .next (if fieldOf v 19 1 = 1 then onPath req (pmbWrite req v) s else s)

/-- PMBUS_DONE (R423): a read leaves its data in PWR_PMB_DATA, one byte or two. -/
def execPmbusDone (ok : Bool) (data : Nat) (s : State) : Result :=
  .next (match s.ifc.pmb with
    | none => s
    | some (rd, len) =>
      pmbEnd ok (if ok ∧ rd ∧ len ≠ 0 then s.setFld pgPwr pwrPmbData_data (if len = 1 then data % 256 else data) else s))

/-- PMB_ALERT (R399). -/
def execPmbAlert (level : Bool) (s : State) : Result := .next { s with pins := { s.pins with pmbAlert := level } }

/-- THERM_TRIP (R488): held low until PORESET_N is asserted. -/
def execThermTrip (stack : Bool) (temp : Nat) (s : State) : Result :=
  .next (if (if stack then 105 else 115) ≤ temp then { s with pins := { s.pins with thermTripN := false } } else s)

end Sys2Proof.Machine
end

