-- ==== Sys2Proof/Machine/Units.lean ====
section
/-!
DEFINITION. BLK_CTRL and BLK_STAT (R456, R457): drain, cancelling a drain, forced disable, return to service and block reset
of ports, Press arrays, Vats and HBM stacks (R222, R223, R377, R455).
-/
namespace Sys2Proof.Machine

/-- Units that support drain and forced disable (R457). -/
def drainOk : PKind → Bool
  | .lane | .press | .vat | .hbm => true
  | _ => false

/-- The unit of a page holds no item (R222, R377). -/
def holdsNothing (s : State) (x : Loc) : Bool :=
  match x.kind with
  | .lane => !(s.port x.inst).formed || ((s.port x.inst).st == .down
      && !s.waiting.any (fun w => w.unit == x.inst && decide (0 < w.credits))
      && !s.inbox.any (fun i => i.port == x.inst && i.pool.isNone))
  | .press => s.fld x.base prsLoad_slots == 0
  | .vat => vatQuiet s x.inst
  | .hbm => stackQuiet s x.inst
  | _ => true

/-! ### Forced disable (R377) -/

/-- ABORTED_DISABLED for an item that a disabled Vat gives up (R223). -/
def abortItem (core : Nat) (i : Item) (s : State) : State :=
  let r : Rec := { k := i.k, lo := i.rank, hi := i.rank, pgen := grpF s i.k.group grpCfg_pgen,
                   status := stAbortedDisabled, esc := false, root := false, cen := Census.zero, csat := 0, n := 0,
                   digest := 0 }
  dropItem core i.n (crgWrite core r s)

def disableCore (core : Nat) (s : State) : State :=
  let s1 := stopCore core s
  forAll (abortItem core) (s1.core core).items s1

/-- A forced disable acts at once. -/
def forceDisable (x : Loc) (s : State) : State :=
  match x.kind with
  | .lane => if (s.port x.inst).formed ∧ (s.port x.inst).st ≠ .down then linkDown x.inst s else s
  | .press => forAll (fun y s => abortKey y.k stAbortedDisabled 0 s) (s.slots.filter (fun y => y.array == x.inst)) s
  | .vat => forAll disableCore ((List.range 8).map (fun k => x.inst * 8 + k)) (discardStarts x.inst s)
  | _ => s

/-- A unit enters DRAINING. -/
def enterDraining (x : Loc) (s : State) : State :=
  match x.kind with
  | .lane => drainedDown x.inst s
  | .vat => discardStarts x.inst s
  | _ => s

/-- A unit returns to service: a port whose software asks for the link starts bring-up. -/
def returnToService (x : Loc) (s : State) : State :=
  match x.kind with
  | .lane =>
    if wantsUp s x.inst ∧ (s.port x.inst).st = .down ∧ (s.port x.inst).retryAt = none then startBringup x.inst s else s
  | _ => s

/-! ### Block reset (R455) -/

/-- The state that a page's block-specific registers describe. -/
def resetState (x : Loc) (s : State) : State :=
  match x.kind with
  | .lane => if isMember s x.inst then s else (teleReset x.inst s).setPort x.inst Port.none
  | .vat => forAll (fun k s => s.setCore (x.inst * 8 + k) Core.idle) (List.range 8) (s.setVat x.inst Vat.reset)
  | _ => s

def blockReset (x : Loc) (s : State) : State := resetPage x.base (resetState x s)

/-! ### BLK_CTRL -/

/-- What a write to BLK_CTRL changes, once the fields hold their new values. -/
def ctrlEffect (x : Loc) (en dr : Bool) (s : State) : State :=
  let en' := isEnabled s x.base
  let dr' := isDrain s x.base
  if en' = false then (if en then forceDisable x s else s)
  else if dr' then (if dr ∧ en then s else enterDraining x s)
  else if en = false ∨ dr then returnToService x s
  else s

/-- A write to BLK_CTRL (R456, R457). A drain takes effect before the start requests of its cycle (R222): where one has acted
already, the drain belongs to the next cycle, and so does a reset that a higher requester's write has overtaken (R454;
assumption 8). -/
def blkCtrlWrite (req : Nat) (x : Loc) (v : U64) (s : State) : State :=
  let s := orNext ((x.kind == .vat && fieldOf v 1 1 == 1 && acted s (.start x.inst))
    || (fieldOf v 2 1 == 1 && lostRace s req (x.base + x.off))) s
  let en := isEnabled s x.base
  let dr := isDrain s x.base
  let s1 := plainWrite req x v (fun f => !drainOk x.kind && f.acc == .rw) s
  let s2 := ctrlEffect x en dr s1
  if fieldOf v 2 1 = 0 then s2
  else if en = false ∧ holdsNothing s2 x then blockReset x s2
  else errAt x 2 s2

/-- BLK_CTRL of a page as a command of the page's address. -/
def ctrlRow (req page : Nat) (f : U64 → U64) (s : State) : Result :=
  .next (onPath req (fun s =>
    match presentLoc s (page + 0x10) with
    | some x => if x.kind.isWindow then s else blkCtrlWrite req x (f (s.rd (page + 0x10))) s
    | none => s) s)

/-- BLOCK_RESET (R455). -/
def execBlockReset (req page : Nat) (s : State) : Result := ctrlRow req page (fun v => withField v 2 1 1) s

/-- UNIT_ENABLE (R456). -/
def execUnitEnable (req page : Nat) (s : State) : Result := ctrlRow req page (fun v => withField v 0 1 1) s

/-- DRAIN (R377). -/
def execDrainUnit (req page : Nat) (s : State) : Result := ctrlRow req page (fun v => withField v 1 1 1) s

/-- DRAIN_CANCEL (R456): drain written 0 with enable 1. -/
def execDrainCancel (req page : Nat) (s : State) : Result :=
  ctrlRow req page (fun v => withField (withField v 1 1 0) 0 1 1) s

/-- FORCED_DISABLE (R377). -/
def execForcedDisable (req page : Nat) (s : State) : Result := ctrlRow req page (fun v => withField v 0 1 0) s

/-! ### BLK_STAT (R456) -/

/-- The power state code of a page's unit (R410); blocks that are not power-managed read 3. -/
def pageState (s : State) (x : Loc) : Nat :=
  match x.kind with
  | .lane => pwrCode (s.pu (puLane x.inst)).st
  | .press => pwrCode (s.pu (puPress x.inst)).st
  | .vat => pwrCode (s.pu (puVat x.inst)).st
  | .hbm =>
    if isDark s (puStack x.inst) then 0
    else ((List.range 32).map (fun k => pwrCode (s.pu (puPc x.inst k)).st)).foldl max 1
  | .rind => pwrCode (s.pu (puRind x.inst)).st
  | _ => 3

/-- The value of BLK_STAT. -/
def blkStat (s : State) (x : Loc) : Nat :=
  let dr := isDrain s x.base
  let done := dr && holdsNothing s x
  pageState s x + bit01 (dr && !done) * 2 ^ 2 + bit01 done * 2 ^ 3 + bit01 (!isEnabled s x.base) * 2 ^ 4
    + bit01 (pageFault s x.base) * 2 ^ 5

end Sys2Proof.Machine
end

