-- ==== Sys2Proof/Machine/Rennet.lean ====
section
/-!
DEFINITION. Rennet: resets (R455, R479, R481), the boot sequence, image checks and recovery (R426 to R436), measurements
(R438 to R440), the command register (R441, R444), attestation (R442, R443) and debug unlock (R445, R446).
-/
namespace Sys2Proof.Machine

def locRennet (off : Nat) : Loc := pageLoc .rennet 0 pgRennet off

/-- A field of Rennet's page. -/
def rnt (s : State) (f : Fd) : Nat := s.fld pgRennet f

/-! ### Failure codes (R436, R446) -/

def rcFormat : Nat := 1
def rcKey : Nat := 2
def rcRollback : Nat := 3
def rcRsa : Nat := 4
def rcSlh : Nat := 5
def rcBody : Nat := 6
def rcFlash : Nat := 7
def rcHbm : Nat := 8
def rcFuse : Nat := 9
def rcNonce : Nat := 0x0B
def rcSerial : Nat := 0x0C

/-! ### Measurement slots and words (R438, R440) -/

/-- `n` registers of Rennet's page from `off`, as bytes: byte 8j in bits [7:0] of word j. -/
def regBytes (s : State) (off n : Nat) : List Byte :=
  (List.range n).flatMap (fun j => leBytes 8 (s.rd (pgRennet + off + 8 * j)).toNat)

def setRegBytes (off n : Nat) (bs : List Byte) (s : State) : State :=
  forAll (fun j s => s.wr (pgRennet + off + 8 * j) (BitVec.ofNat 64 (leVal ((bs.drop (8 * j)).take 8)))) (List.range n) s

def measBytes (s : State) (m : Nat) : List Byte := regBytes s (0x200 + 0x30 * m) 6
def setMeas (m : Nat) (bs : List Byte) (s : State) : State := setRegBytes (0x200 + 0x30 * m) 6 bs s

/-- Extend slot m with a digest: SHA-384 of the slot and the digest (R438). -/
def extendMeas (m : Nat) (d : List Byte) (s : State) : State := setMeas m (sha384 (measBytes s m ++ d)) s

/-- A new nonce from the random number generator (R446, R447). -/
def drawNonce (s : State) : State :=
  let n := s.rennet.draws
  forAll (fun j s => s.wr (pgRennet + 0x180 + 8 * j) (Config.trng (n + j))) (List.range 4)
    { s with rennet := { s.rennet with draws := n + 4 } }

/-! ### Images (R427, R428, R432, R433) -/

/-- A little-endian field of `n` bytes. -/
def fieldAt (h : List Byte) (off n : Nat) : Nat := leVal ((h.drop off).take n)

def bytesAt (h : List Byte) (off n : Nat) : List Byte := (h.drop off).take n

def allZero (bs : List Byte) : Bool := bs.all (fun b => b == 0)

def imgLen (h : List Byte) : Nat := fieldAt h 0x00C 4
def imgLoad (h : List Byte) : Nat := fieldAt h 0x010 4
def imgSvn (h : List Byte) : Nat := fieldAt h 0x008 4
def imgKey (h : List Byte) : Nat := fieldAt h 0x006 2
def imgEntry (h : List Byte) : Nat := fieldAt h 0x018 8

/-- Step 6: magic, version, reserved bytes, the ranges of R432, and the body inside QD0's stacks. -/
def formatOk (s : State) (h : List Byte) : Bool :=
  fieldAt h 0 4 == 0x4C414358 && fieldAt h 4 2 == 1 && decide (imgKey h ≤ 3) && decide (imgSvn h ≤ 64)
    && imgLen h % 4096 == 0 && decide (4096 ≤ imgLen h) && decide (imgLen h ≤ 33533952)
    && fieldAt h 0x014 4 == 0 && imgEntry h % 4 == 0 && decide (imgEntry h < imgLen h)
    && allZero (bytesAt h 0x058 40) && allZero (bytesAt h 0x230 464)
    && decide (imgLoad h * 4096 + imgLen h ≤ quadPages s 0 * 4096)

/-- A key block matches slot k: its digest is the slot's hash and the slot is not revoked (R427). -/
def keyBlockOk (f : Fuses) (k : Nat) (block : List Byte) : Bool :=
  f.keyHash.getD k [] == sha384 block && f.revoked / 2 ^ k % 2 == 0

/-- Both signatures over a message under the keys of a key block; RSA is reported before SLH (R428, step 8). -/
def sigCode (block msg sig : List Byte) : Nat :=
  let r := rsaVerify (block.take 384) msg (sig.take 384)
  let l := slhVerify (bytesAt block 384 48) msg (bytesAt sig 384 16224)
  if r = false then rcRsa else if l = false then rcSlh else 0

/-- Steps 6 to 8 on an image. -/
def checkImage (s : State) (img : List Byte) : Nat :=
  let h := img.take 1024
  let block := bytesAt h 0x080 432
  if formatOk s h = false then rcFormat
  else if keyBlockOk s.fuses (imgKey h) block = false then rcKey
  else if imgSvn h < s.fuses.svn then rcRollback
  else sigCode block h (bytesAt img (0x400 + imgLen h) 16608)

/-- Steps 6 to 9: the code of an image, and the state with its body streamed to load_pg when step 9 ran. A stack that refuses the body
counts as an uncorrectable line (R377). -/
def tryImage (img : List Byte) (bodyOk copyOk : Bool) (s : State) : Nat × State :=
  let h := img.take 1024
  let c := checkImage s img
  if c ≠ 0 then (c, s)
  else if bodyOk = false then (rcFlash, s)
  else
    let body := bytesAt img 0x400 (imgLen h)
    let s1 := hbmWrite .bulk 0 (pageAddr (imgLoad h)) body repRennet s
    if copyOk = false ∨ hbmAsk s 0 (pageAddr (imgLoad h)) body.length = .refused then (rcHbm, s1)
    else if sha384 body ≠ bytesAt h 0x020 48 then (rcBody, s1)
    else (0, s1)

/-- The bytes of an image that stands at `base`: header, body and signature. -/
def imageAt (s : State) (sp base : Nat) : List Byte :=
  let h := rdBytes s sp base 1024
  h ++ rdBytes s sp (base + 0x400) (imgLen h + 16608)

/-! ### The boot sequence (R434, R435, R439) -/

/-- The first byte of the boot ROM in the Rind address map (R395). -/
def romBase : Nat := 0x10000000

/-- The boot record of R439. -/
def bootRecord (s : State) : List Byte :=
  [BitVec.ofNat 8 (rnt s rntBoot_src), BitVec.ofNat 8 (rnt s rntBoot_keyIdx), BitVec.ofNat 8 s.fuses.svn,
    BitVec.ofNat 8 (rnt s rntStat_levels), 0, 0, 0, 0]

/-- Step 10: the boot measurements. -/
def bootMeasure (h : List Byte) (s : State) : State :=
  let s0 := extendMeas 0 (sha384 (rdBytes s spRom 0 131072)) s
  let s1 := extendMeas 1 (sha384 h) s0
  let s2 := extendMeas 2 (bytesAt h 0x020 48) s1
  extendMeas 3 (sha384 (bootRecord s2)) s2

/-- Steps 10 and 11 for the image from `src` with header `h`. -/
def finishBoot (src : Nat) (h : List Byte) (s : State) : State :=
  let s1 := ((s.setFld pgRennet rntBoot_src src).setFld pgRennet rntBoot_svnImg (imgSvn h)).setFld pgRennet
    rntBoot_keyIdx (imgKey h)
  let s2 := bootMeasure h (s1.setFld pgRennet rntBoot_halted 0)
  let s3 := s2.setFld pgRennet rntHandoff_entryAddr (imgLoad h * 4096 + imgEntry h)
  let s4 := (s3.setFld (pgRind 0) evcCore_rvec (romBase / 4)).setFld (pgRind 0) evcCore_hold 0
  rindStart 0 { s4 with rennet := { s4.rennet with released := true } }

def driveFault (s : State) : State := { s with pins := { s.pins with faultN := false } }

/-- Recovery (R435): halted, FAULT_N low, every Rind core held. -/
def enterRecovery (s : State) : State := driveFault (s.setFld pgRennet rntBoot_halted 1)

/-- A boot that halts without recovery (R426, R434); the code is slot A's. -/
def haltBoot (code : Nat) (s : State) : State :=
  let s1 := enterRecovery (s.setFld pgRennet rntBoot_codeA code)
  { s1 with rennet := { s1.rennet with halt := code } }

/-- Steps 5 to 9 on an image slot of the flash. -/
def trySlot (base : Nat) (readOk bodyOk copyOk : Bool) (s : State) : Nat × State :=
  if readOk = false then (rcFlash, s) else tryImage (imageAt s spFlash base) bodyOk copyOk s

/-- Steps 5 to 11: slot A, then slot B, then recovery. -/
def runSlots (env : BootEnv) (s : State) : State :=
  let a := trySlot 0 (env.sfdpOk && env.readOkA) env.bodyOkA env.copyOkA s
  let s1 := a.2.setFld pgRennet rntBoot_codeA a.1
  if a.1 = 0 then finishBoot 0 (rdBytes s1 spFlash 0 1024) s1
  else
    let b := trySlot 0x2000000 (env.sfdpOk && env.readOkB) env.bodyOkB env.copyOkB s1
    let s2 := b.2.setFld pgRennet rntBoot_codeB b.1
    if b.1 = 0 then finishBoot 1 (rdBytes s2 spFlash 0x2000000 1024) s2 else enterRecovery s2

/-- Step 3: the clock-alignment protocol (R391). -/
def alignClocks (failures : Nat) (s : State) : State :=
  let s1 := (s.setFld pgTally tlyAlign_done 1).setFld pgTally tlyAlign_tries (min 3 (failures + 1))
  if failures < 3 then s1 else reportOwnOpen clsAlignFail repRennet (s1.setFld pgTally tlyAlign_fail 1)

/-- Step 4 for one stack: trained, or left DARK with its bit of hbm_fail. -/
def trainStack (env : BootEnv) (st : Nat) (s : State) : State :=
  if stackPresent s.fuses st = false then s
  else if env.failedStacks.contains st then
    let s1 := s.setPu (puStack st) ⟨.dark, none, s.cyc, none⟩
    if st < 5 then s1 else s1.setFld pgRennet rntBoot_hbmFail (rnt s1 rntBoot_hbmFail ||| 2 ^ (st - 5))
  else stackToSlate st s

/-- Steps 1 to 4; the second step is the reset of the slots. -/
def powerOn (env : BootEnv) (s : State) : State :=
  if env.fuseOk = false then haltBoot rcFuse s
  else
    let s1 := forAll (trainStack env) (List.range 20) (alignClocks env.alignFailures s)
    if (List.range 5).any (fun st => stackPresent s.fuses st && env.failedStacks.contains st) then haltBoot rcHbm s1
    else s1

/-! ### Resets (R455, R479, R481) -/

/-- Memory that a reset keeps: the flash, and across SYSRESET_N the stacks. -/
def keepsByte (por : Bool) (sp : Nat) : Bool := sp == spFlash || (!por && decide (36 ≤ sp) && decide (sp < 40))

/-- The shadow banks are not cleared at reset (R403). -/
def keepShadow (rs : Tab Rind) : Tab Rind :=
  rs.filterMap (fun r => if r.2.shadow = [] then none else some (r.1, { Rind.reset with shadow := r.2.shadow }))

/-- The fuses after a power-on reset that meets a fuse command (R444): svn_fused stands between its old value and the target, and
a revoke bit may have blown; which, is a free value. -/
def fuseCut (s : State) : State :=
  match s.rennet.cmd with
  | some c =>
    let d := s.draw
    if c.cmd = 4 then
      { d.2 with fuses := { s.fuses with svn := s.fuses.svn + d.1.toNat % (c.arg - s.fuses.svn + 1) } }
    else if c.cmd = 5 ∧ d.1.toNat % 2 = 1 then { d.2 with fuses := { s.fuses with revoked := s.fuses.revoked ||| 2 ^ (c.arg % 4) } }
    else if c.cmd = 5 then d.2
    else s
  | none => s

/-- The reset state of the module: by PORESET_N or a low PWRGOOD (`por`), or by SYSRESET_N, which keeps the stacks, their
training and TLY_ALIGN. Fuses, the flash, the local time, THERM_TRIP_N and the model's own records stay. -/
def resetModule (por : Bool) (s0 : State) : State :=
  let s := if por then fuseCut s0 else s0
  let s1 : State := { State.reset with
    pending := s.pending, cyc := s.cyc, fuses := s.fuses, out := s.out, draws := s.draws,
    pins := { s.pins with faultN := por || s.pins.faultN, syncIn := none },
    regs := if por then [] else s.regs.filter (fun r => r.1 == pgTally + 0x148),
    mem := s.mem.filter (fun c => keepsByte por (c.1 / 2 ^ 40)),
    pwr := if por then [] else s.pwr.filter (fun u => decide (64 ≤ u.1) && decide (u.1 < 96) && u.2.st == .dark),
    rinds := keepShadow s.rinds,
    rennet := { Rennet.reset with draws := s.rennet.draws, halt := if por then 0 else s.rennet.halt },
    ifc := { Iface.reset with pcieReady := s.pins.perstN } }
  let s2 := forAll touchUnit (List.range 64) s1
  if por then s2
  else forAll (fun st s => if stackPresent s.fuses st && !isDark s (puStack st) then stackToSlate st s else s)
    (List.range 20) s2

/-- PORESET_N and PWRGOOD are both high. -/
def powered (s : State) : Bool := s.pins.poresetN && s.pins.pwrgood

/-- The boot after a power-on reset; while SYSRESET_N is low it waits before step 5. -/
def coldBoot (env : BootEnv) (s : State) : State :=
  let s1 := powerOn env (drawNonce (resetModule true s))
  if s1.rennet.halt ≠ 0 ∨ s1.pins.sysresetN = false then s1 else runSlots env s1

/-- PORESET_ASSERT (R455); THERM_TRIP_N is released (R488). -/
def execPoresetAssert (s : State) : Result :=
  .next (resetModule true { s with pins := { s.pins with poresetN := false, thermTripN := true } })

/-- PWRGOOD_FALL (R479): as if PORESET_N were asserted. -/
def execPwrgoodFall (s : State) : Result :=
  .next (resetModule true { s with pins := { s.pins with pwrgood := false, thermTripN := true } })

/-- PORESET_RELEASE (R434, R479). -/
def execPoresetRelease (env : BootEnv) (s : State) : Result :=
  .next (
    let s1 : State := { s with pins := { s.pins with poresetN := true } }
    if s1.pins.pwrgood then coldBoot env s1 else s1)

/-- PWRGOOD_RISE (R479). -/
def execPwrgoodRise (env : BootEnv) (s : State) : Result :=
  .next (
    let s1 : State := { s with pins := { s.pins with pwrgood := true } }
    if s1.pins.poresetN then coldBoot env s1 else s1)

/-- SYSRESET_ASSERT (R481). -/
def execSysresetAssert (s : State) : Result := .next { s with pins := { s.pins with sysresetN := false } }

/-- SYSRESET_RELEASE (R481): acts only while PORESET_N and PWRGOOD are high; a boot that halted for the fuses or for QD0's
stacks halts again, since steps 1 to 4 do not run. -/
def execSysresetRelease (env : BootEnv) (s : State) : Result :=
  .next (
    let s1 : State := { s with pins := { s.pins with sysresetN := true } }
    if powered s = false then s1
    else
      let s2 := drawNonce (resetModule false s1)
      if s2.rennet.halt ≠ 0 then haltBoot s2.rennet.halt s2 else runSlots env s2)

/-! ### Commands (R441, R444) -/

def refuseRnt (s : State) : State := s.addFld pgRennet rntStat_refused 1

/-- Whether a command may start, by its own rule (R435, R440, R444, R447). -/
def rntAllowed (s : State) (v : U64) : Bool :=
  let arg := fieldOf v 32 7
  match fieldOf v 0 3 with
  | 1 => decide (4 ≤ fieldOf v 3 3)
  | 2 => true
  | 3 => true
  | 4 => decide (s.fuses.svn < arg) && decide (arg ≤ rnt s rntBoot_svnImg)
  | 5 => rnt s rntBoot_src == 3 || rnt s rntBoot_keyIdx != arg % 4
  | 6 => rnt s rntBoot_halted == 1 && s.rennet.halt == 0
  | _ => false

/-- The body of an attestation report (R443). -/
def reportBody (s : State) : List Byte :=
  let src := rnt s rntBoot_src
  let levels := rnt s rntStat_levels
  let flags := bit01 (levels != 0) + bit01 (src == 1) * 2 + bit01 (src == 2) * 4 + s.fld pgTally tlyAlign_fail * 8
  leBytes 4 0x50525441 ++ leBytes 2 1 ++ leBytes 2 flags ++ leBytes 8 s.fuses.serial ++ leBytes 8 0x0101
    ++ leBytes 1 s.fuses.svn ++ leBytes 1 (rnt s rntBoot_svnImg) ++ leBytes 1 (rnt s rntBoot_keyIdx) ++ leBytes 1 levels
    ++ leBytes 4 0 ++ regBytes s 0x1A0 4 ++ (List.range 8).flatMap (measBytes s) ++ List.replicate 64 0

/-- The bytes of QD0's stacks that a command reads when it starts (R435, R446): a debug token, or the recovery image. -/
def rntReads (s : State) (v : U64) : Option (Nat × Nat) :=
  match fieldOf v 0 3 with
  | 3 => some (pageAddr (fieldOf v 6 26), 17104)
  | 6 => some (0, (imageAt s (spHbm 0) 0).length)
  | _ => none

/-- What a command reads when it starts (R441). What the stacks refuse reads as zeros. -/
def rntInput (s : State) (v : U64) : List Byte :=
  match rntReads s v with
  | some (off, n) =>
    match hbmAsk s 0 off n with
    | .refused | .beyond => List.replicate n 0
    | _ => rdBytes s (spHbm 0) off n
  | none => if fieldOf v 0 3 = 1 then regBytes s 0x140 6 else if fieldOf v 0 3 = 2 then reportBody s else []

/-- The reads of a command: a pseudo-channel in SLATE wakes within the time that the command takes (R355), and the lines count
in the bulk class (assumption 47). -/
def rntMoved (v : U64) (s : State) : State :=
  match rntReads s v with
  | some (off, n) =>
    match hbmAsk s 0 off n with
    | .refused | .beyond => s
    | _ => hbmMoved .bulk 0 off n (hbmWake 0 off n s)
  | none => s

/-- Pages that lie beyond QD0's stacks are refused (R348). -/
def checkPages (v : U64) (s : State) : State :=
  if (fieldOf v 0 3 = 2 ∨ fieldOf v 0 3 = 3) ∧ quadPages s 0 < fieldOf v 6 26 + 5 then refuseHandle 0 repRennet s else s

def rntStart (v : U64) (s : State) : State :=
  if s.rennet.cmd.isSome ∨ rntAllowed s v = false then refuseRnt s
  else
    let c : RCmd := { cmd := fieldOf v 0 3, slot := fieldOf v 3 3, pg := fieldOf v 6 26, arg := fieldOf v 32 7,
                      input := rntInput s v, meas := measBytes s (fieldOf v 3 3) }
    let s1 := rntMoved v (checkPages v (s.setFld pgRennet rntStat_busy 1))
    { s1 with rennet := { s1.rennet with cmd := some c } }

/-- A lower-numbered requester has written the register in this cycle. -/
def lowerCame (s : State) (req addr : Nat) : Bool := s.same.writes.any (fun w => w.1 == addr && decide (w.2 < req))

/-- A write to RNT_CMD (R441): of two in one cycle the lower requester's is taken, though its own rule refuse it, and the other
is counted. A lower requester's write that comes after a higher one's begins the next cycle (R454; assumption 8). -/
def rntCmdWrite (req : Nat) (v : U64) (s0 : State) : State :=
  let s := woTurn req (pgRennet + 0x118) s0
  let s1 := plainWrite req (locRennet 0x118) v (fun _ => false) s
  if lowerCame s req (pgRennet + 0x118) then refuseRnt s1 else rntStart v s1

/-- A row that is a write to RNT_CMD with one command. -/
def rntRow (cmd req : Nat) (v : U64) (s : State) : Result :=
  .next (if fieldOf v 0 3 = cmd then onPath req (rntCmdWrite req v) s else s)

/-- EXTEND (R440). -/
def execExtend (req : Nat) (v : U64) (s : State) : Result := rntRow 1 req v s

/-- ATTEST (R443). -/
def execAttest (req : Nat) (v : U64) (s : State) : Result := rntRow 2 req v s

/-- UNLOCK (R446). -/
def execUnlock (req : Nat) (v : U64) (s : State) : Result := rntRow 3 req v s

/-- SVN_ADV (R444). -/
def execSvnAdv (req : Nat) (v : U64) (s : State) : Result := rntRow 4 req v s

/-- REVOKE (R444). -/
def execRevoke (req : Nat) (v : U64) (s : State) : Result := rntRow 5 req v s

/-- REC_GO (R435). -/
def execRecGo (req : Nat) (v : U64) (s : State) : Result := rntRow 6 req v s

/-- The writes to RNT_REC_DATA that higher requesters have made in this cycle: the last ones received. -/
def recHigher (s : State) (req : Nat) : Nat :=
  (s.same.writes.filter (fun w => w.1 == pgRennet + 0x130 && decide (req < w.2))).length

/-- A write to RNT_REC_DATA (R447): of the writes of one cycle each acts in ascending requester number (R454), so it stands
before what a higher requester has written in this cycle. -/
def recDataWrite (req : Nat) (v : U64) (s0 : State) : State :=
  let n := rnt s0 rntRecLen_len
  let s := if rsvWritten (locRennet 0x130).fields v then errAt (locRennet 0x130) 4 s0 else s0
  if rnt s rntBoot_halted = 1 ∧ n < 33554432 then
    let k := min (8 * recHigher s req) n
    let later := rdBytes s (spHbm 0) (n - k) k
    noteWrite req (pgRennet + 0x130)
      ((hbmPut .bulk 0 (n - k) (leBytes 8 v.toNat ++ later) repRennet s).setFld pgRennet rntRecLen_len (n + 8))
  else discardWrite (locRennet 0x130) s

/-- REC_DATA (R447). -/
def execRecData (req : Nat) (v : U64) (s : State) : Result := .next (onPath req (recDataWrite req v) s)

/-! ### Attestation and unlock (R442, R443, R445, R446) -/

/-- The identity region: the last 1 MiB of the flash (R430). -/
def identBase (s : State) : Nat := s.fuses.flashSize - 0x100000

/-- The RSA key pair of the identity region: the blob decrypted under the wrap key, or nothing where it does not authenticate
(R442). -/
def unwrapKey (uds region : List Byte) : Option (List Byte) :=
  gcmOpen (hkdf384 uds (asciiBytes "XGL-9240 ID WRAP") 32) (Config.blobIv region) (Config.blobAad region)
    (Config.blobText region) (Config.blobTag region)

/-- The SLH-DSA identity key (R442): SK.seed, SK.prf and PK.seed from the device secret. -/
def slhIdentity (uds : List Byte) : SlhKey := slhKeyOf (hkdf384 uds (asciiBytes "XGL-9240 ID SLH") 72)

/-- `n` words of the random number generator. -/
def randomBytes (n : Nat) (s : State) : List Byte × State :=
  ((List.range n).flatMap (fun j => leBytes 8 (Config.trng (s.rennet.draws + j)).toNat),
    { s with rennet := { s.rennet with draws := s.rennet.draws + n } })

/-- The dual signature of the device over a message (R428, R442, R443): the PSS salt is random, and so is the randomness of
SLH-DSA (assumption 5). -/
def dualSign (uds key m : List Byte) (s : State) : List Byte × State :=
  let salt := randomBytes 6 s
  let rand := randomBytes 3 salt.2
  (rsaSign (Config.rsaModulus key) (Config.rsaExponent key) m salt.1 ++ slhSign (slhIdentity uds) m rand.1, rand.2)

def setAttResult (code : Nat) (s : State) : State := { s with rennet := { s.rennet with attResult := code } }

/-- The end of ATTEST (R442, R443): the signed report in five pages at `pg`, in bulk class, or result KEY and no report; pages
beyond the stacks are not written. -/
def attestDone (c : RCmd) (s : State) : State :=
  match unwrapKey s.fuses.uds (rdBytes s spFlash (identBase s) 0x100000) with
  | some key =>
    let d := dualSign s.fuses.uds key c.input s
    raiseEv pgRennet 1 (hbmWrite .bulk 0 (pageAddr c.pg) (c.input ++ d.1) repRennet (setAttResult 0 d.2))
  | none => raiseEv pgRennet 1 (setAttResult rcKey s)

/-- The outcome of a debug token (R446). -/
def tokenCode (s : State) (tok : List Byte) : Nat :=
  let block := bytesAt tok 64 432
  if fieldAt tok 0 4 ≠ 0x4B544744 ∨ fieldAt tok 4 2 ≠ 1 ∨ 3 < fieldAt tok 6 1
      ∨ 15 < fieldAt tok 7 1 ∨ allZero (bytesAt tok 48 16) = false then rcFormat
  else if fieldAt tok 8 8 ≠ s.fuses.serial then rcSerial
  else if bytesAt tok 16 32 ≠ regBytes s 0x180 4 then rcNonce
  else if keyBlockOk s.fuses (fieldAt tok 6 1) block = false then rcKey
  else sigCode block (tok.take 496) (bytesAt tok 496 16608)

def unlockDone (c : RCmd) (s : State) : State :=
  let code := tokenCode s c.input
  let s1 := drawNonce (s.setFld pgRennet rntStat_tokResult code)
  let s2 :=
    if code = 0 then
      extendMeas 3 (sha384 (c.input.take 64))
        (s1.setFld pgRennet rntStat_levels (rnt s1 rntStat_levels ||| fieldAt c.input 7 1))
    else s1.addFld pgRennet rntStat_tokFail 1
  raiseEv pgRennet 2 s2

/-- REC_GO's own end: steps 6 to 11 on the recovery image (R435). -/
def recoverDone (c : RCmd) (copyOk : Bool) (s : State) : State :=
  let r := tryImage c.input true copyOk s
  let s1 := r.2.setFld pgRennet rntBoot_codeRec r.1
  if r.1 = 0 then finishBoot 2 (c.input.take 1024) s1 else s1

/-- What a command does when it ends. -/
def rntEffect (c : RCmd) (copyOk : Bool) (s : State) : State :=
  match c.cmd with
  | 1 => setMeas c.slot (sha384 (c.meas ++ c.input)) s
  | 2 => attestDone c s
  | 3 => unlockDone c s
  | 4 => { s with fuses := { s.fuses with svn := c.arg } }
  | 5 => { s with fuses := { s.fuses with revoked := s.fuses.revoked ||| 2 ^ (c.arg % 4) } }
  | _ => recoverDone c copyOk s

/-- RENNET_CMD_DONE (R441); a boot that SYSRESET_N interrupts does not end (R481). -/
def execRennetCmdDone (bodyOk : Bool) (s : State) : Result :=
  .next (match s.rennet.cmd with
    | none => s
    | some c =>
      if c.cmd = 6 ∧ s.pins.sysresetN = false then s
      else
        let s1 : State := { s with rennet := { s.rennet with cmd := none } }
        rntEffect c bodyOk (s1.setFld pgRennet rntStat_busy 0))

end Sys2Proof.Machine
end

