-- ==== Sys2Proof/Machine/Iface.lean ====
section
/-!
DEFINITION. The PCIe endpoint (R458, R468, R482), the management port (R468) and the xSPI controller (R430, R431, R468).
-/
namespace Sys2Proof.Machine

/-! ### PCIe (R458, R468, R482) -/

/-- Every register of a page takes its Reset value. -/
def clearPage (page : Nat) (s : State) : State :=
  { s with regs := s.regs.filter (fun r => !(decide (page ≤ r.1) && decide (r.1 < page + 0x1000))) }

/-- PCIE_PERST_ASSERT (R482): the endpoint alone is reset, and its path is closed while the pin is low. -/
def execPciePerstAssert (s : State) : Result :=
  .next (
    let s1 := clearPage pgPcie s
    { s1 with pins := { s1.pins with perstN := false }, ifc := { s1.ifc with pcieReady := false } })

/-- PCIE_PERST_RELEASE (R482). -/
def execPciePerstRelease (s : State) : Result :=
  .next { s with pins := { s.pins with perstN := true }, ifc := { s.ifc with pcieReady := true } }

/-- PCIE_LINK (R458, R468): PRT_PCIE_STAT follows the link; while PCIE_PERST_N is low there is none. -/
def execPcieLink (up : Bool) (speed width : Nat) (s : State) : Result :=
  .next (
    if s.pins.perstN = false then s
    else
      let s1 := ((s.setFld pgPcie prtPcieStat_up (bit01 up)).setFld pgPcie prtPcieStat_speed (if up then speed else 0)).setFld
        pgPcie prtPcieStat_width (if up then width else 0)
      raiseEv pgPcie 1 s1)

/-- PCIE_FLR (R458). -/
def execPcieFlr (s : State) : Result := .next (if s.pins.perstN then raiseEv pgPcie 2 s else s)

/-! ### Management port (R468) -/

/-- MGMT_PORT_FRAME (R458, R468): a received frame joins what firmware takes from the receive ring, a sent one leaves
(assumption 14); DONE either way. -/
def execMgmtPortFrame (received : Bool) (frame : List Byte) (s : State) : Result :=
  .next (raiseEv pgMgmt 1 (
    if received then { s with ifc := { s.ifc with mgmtRx := s.ifc.mgmtRx ++ [frame] } } else s.emit (.mgmtFrame frame)))

/-! ### xSPI (R430, R431, R468) -/

def locXspi (off : Nat) : Loc := pageLoc .xspi 0 pgXspi off

/-- The first byte and the number of bytes that a program or erase changes. -/
def xspiSpan (op addr len : Nat) : Nat × Nat := if op = 3 then (addr / 4096 * 4096, 4096) else (addr, len)

/-- A transfer may start (R431, R468): core 0 of QD0 has been released, no transfer runs, the length is one the field
names, and no program or erase reaches the identity region. -/
def xspiOk (s : State) (op addr len : Nat) : Bool :=
  let sp := xspiSpan op addr len
  s.rennet.released && !s.flag pgXspi rntXspiCmd_busy
    && (op == 3 || (decide (8 ≤ len) && decide (len ≤ 2048) && len % 8 == 0))
    && (op == 1 || decide (sp.1 + sp.2 ≤ identBase s))

/-- op of RNT_XSPI_CMD. -/
def xspiGo (op len : Nat) (s : State) : State :=
  let addr := s.fld pgXspi rntXspiAddr_addr
  if op = 0 then s
  else if xspiOk s op addr len then
    let s1 := s.setFld pgXspi rntXspiCmd_busy 1
    { s1 with ifc := { s1.ifc with xspi := some ⟨op, addr, len⟩ } }
  else refuseCmd (locXspi 0x108) s

/-- A write to RNT_XSPI_CMD. -/
def xspiCmdWrite (req : Nat) (v : U64) (s : State) : State :=
  xspiGo (fieldOf v 0 2) (fieldOf v 2 12)
    (plainWrite req (locXspi 0x108) v (fun _ => false) (woTurn req (pgXspi + 0x108) s))

def xspiRow (op req : Nat) (v : U64) (s : State) : Result :=
  .next (if fieldOf v 0 2 = op then onPath req (xspiCmdWrite req v) s else s)

/-- XSPI_READ (R468). -/
def execXspiRead (req : Nat) (v : U64) (s : State) : Result := xspiRow 1 req v s

/-- XSPI_PROGRAM (R431, R468). -/
def execXspiProgram (req : Nat) (v : U64) (s : State) : Result := xspiRow 2 req v s

/-- XSPI_ERASE (R431, R468). -/
def execXspiErase (req : Nat) (v : U64) (s : State) : Result := xspiRow 3 req v s

/-- Word `j` of the flash bytes at `addr` enters the transfer buffer; beyond the flash it is a free value. -/
def xspiLoad (addr j : Nat) (s : State) : State :=
  let r : U64 × State :=
    if addr + 8 * j + 8 ≤ s.fuses.flashSize then (BitVec.ofNat 64 (rdLe s spFlash (addr + 8 * j) 8), s) else s.draw
  r.2.wr (pgXspi + 0x800 + 8 * j) r.1

/-- The first `len` bytes of the transfer buffer. -/
def xspiBuffer (s : State) (len : Nat) : List Byte :=
  (List.range (len / 8)).flatMap (fun j => leBytes 8 (s.rd (pgXspi + 0x800 + 8 * j)).toNat)

/-- What a transfer does: a read fills the buffer, a program clears bits, an erase sets every bit (assumption 16). -/
def xspiEffect (c : XCmd) (s : State) : State :=
  if c.op = 1 then forAll (xspiLoad c.addr) (List.range (c.len / 8)) s
  else if c.op = 2 then
    wrBytes s spFlash c.addr (List.zipWith (fun a b => a &&& b) (rdBytes s spFlash c.addr c.len) (xspiBuffer s c.len))
  else wrBytes s spFlash (c.addr / 4096 * 4096) (List.replicate 4096 0xFF)

/-- XSPI_DONE (R468). -/
def execXspiDone (s : State) : Result :=
  .next (match s.ifc.xspi with
    | none => s
    | some c =>
      let s1 := xspiEffect c { s with ifc := { s.ifc with xspi := none } }
      raiseEv pgXspi 1 (s1.setFld pgXspi rntXspiCmd_busy 0))

end Sys2Proof.Machine
end

