-- ==== Sys2Proof/Machine/Twin.lean ====
section
/-!
DEFINITION. Twin pairing (R360 to R375, R392): roles and states, TWIN packets and their entries in tseq order (R362, R363),
digests and aborts (R367 to R370), the mirrored log and the takeover (R372 to R375).
-/
namespace Sys2Proof.Machine

def locTwin (off : Nat) : Loc := pageLoc .twin 0 pgTwin off

/-- An access to the Twin page, which is absent on XGL-9216 (R360). -/
def onTwin (f : State → State) (s : State) : State := if twinPresent s.fuses then f s else s

def setTwin (f : Twin → Twin) (s : State) : State := { s with twin := f s.twin }

def hbCycles (s : State) : Nat := usCycles (max 1 (s.fld pgTwin twnTime_hbUs))
def lostCycles (s : State) : Nat := usCycles (s.fld pgTwin twnTime_lostUs)
def mirrorRtt (s : State) : Nat := s.fld pgTwin twnStat_rtt * 80

def setTwState (x : Nat) (s : State) : State := s.setFld pgTwin twnStat_state x

/-- Keys of results held for their twin's digest. -/
def heldKeys (s : State) : List Key := (s.slots.filter (fun x => x.twinAt.isSome)).map (fun x => x.k)

/-- Release a held result, if the key still has one. -/
def releaseKey (k : Key) (s : State) : State :=
  match s.slotOf k with
  | some x => if x.twinAt.isSome then releaseUnverified x s else s
  | none => s

/-- Every held result is released when the state leaves PAIRED (R369). -/
def releaseHeld (s : State) : State := forAll releaseKey (heldKeys s) s

/-- Leave PAIRED for another state: a HEART must come in that state before REJOIN (R364). -/
def leavePaired (next_ : Nat) (s : State) : State :=
  let was := twState s
  let s1 := setTwin (fun t => { t with heartSeen := false }) (setTwState next_ s)
  if was = twPaired then releaseHeld s1 else s1

/-- Enter PAIRED: the numbering of entries begins again at 0 (R363). -/
def enterPaired (s : State) : State :=
  setTwin (fun t => { t with txSeq := 0, unacked := [], rxNext := 0, held := [], lastRx := some s.cyc, heartSeen := false })
    (setTwState twPaired s)

/-! ### Takeover (R373 to R375) -/

/-- The Twin groups, by their TWN_GMODE bits. -/
def twinGroups (s : State) : List Nat := (List.range 4096).filter (twinGroup s)

/-- Step 3 for one group: cur_epoch of the last EPOCH entry, age 0; an ACCUM group starts again with every block missing
one (R375). -/
def takeGroup (g : Nat) (s : State) : State :=
  let s1 := match s.twin.epochs.find? (fun x => x.1 == g) with
    | some x => s.setFld (grpAt g) grpEpoch_curEpoch x.2
    | none => s
  let s2 := s1.updGrp g (fun x => { x with ageStart := s.aon, ageHeld := 0 })
  if grpFlag s2 g grpCfg_accum then accRestart g 1 s2 else s2

/-- Step 4 for one group: a sweep status to every input destination of its scope (R374). -/
def sweepGroup (g : Nat) (s : State) : State :=
  if grpFlag s g grpCfg_enabled then
    let k : Key := ⟨g, grpF s g grpEpoch_curEpoch, 0x3FF, 0xFFFFFF⟩
    statusDown repTwin k (scopeInputs (scopeTable s g (grpF s g grpCfg_homeQd))) stFailedTwinLost 0 s
  else s

/-- Keys of the mirrored log with an OPEN entry and no DONE entry. -/
def unfinished (s : State) : Nat := (s.twin.openLog.dedup.filter (fun k => !s.twin.doneLog.contains k)).length

/-- The standby takes over (R373). -/
def takeOver (s : State) : State :=
  let s1 := setTwin (fun t => { t with held := [], aliasOn := true }) s
  let gs := twinGroups s1
  let s2 := forAll takeGroup gs s1
  let s3 := forAll sweepGroup gs s2
  setTwState twActive (s3.addFld pgTwin twnCnt_recovered (unfinished s3))

/-! ### TWN_CFG (R360) -/

/-- mode = 0: OFF, held results released, the mirrored log discarded, the module unpaired. -/
def unpair (s : State) : State := setTwin (fun _ => Twin.reset) (leavePaired twOff s)

/-- A write to TWN_CFG. A standby that is LOST takes over once auto_take is 1 (R373). -/
def twnCfgWrite (req : Nat) (v : U64) (s : State) : State :=
  onTwin (fun s =>
    let off := twState s == twOff
    let was := twMode s
    let new := fieldOf v 0 2
    let held := fun (f : FieldRow) => (f.fd == twnCfg_mode && !off && new != 0) || (f.fd == twnCfg_twinFid && !off)
    let s1 := plainWrite req (locTwin 0x100) v held s
    if twMode s1 = 0 then (if was = 0 ∧ off then s1 else unpair s1)
    else if was = 0 then setTwin (fun t => { t with heartAt := s.cyc }) s1
    else if twMode s1 = 3 ∧ twState s1 = twLost ∧ s1.flag pgTwin twnCfg_autoTake then takeOver s1
    else s1) s

/-- TWIN_MODE_SET (R360): a write to TWN_CFG with mode not 0. -/
def execTwinModeSet (req : Nat) (v : U64) (s : State) : Result :=
  .next (if fieldOf v 0 2 ≠ 0 then onPath req (twnCfgWrite req v) s else s)

/-- TWIN_UNPAIR (R360): a write to TWN_CFG with mode 0. -/
def execTwinUnpair (req : Nat) (v : U64) (s : State) : Result :=
  .next (if fieldOf v 0 2 = 0 then onPath req (twnCfgWrite req v) s else s)

/-- A write to TWN_GMODE: only while OFF (R392). -/
def gmodeWrite (req k : Nat) (v : U64) (s : State) : State :=
  onTwin (fun s =>
    if twState s = twOff then plainWrite req (locTwin (0x400 + 8 * k)) v (fun _ => false) s
    else discardWrite (locTwin (0x400 + 8 * k)) s) s

/-! ### TWN_CMD (R364, R373) -/

/-- TWN_CMD: a command that the present state does not take is counted. -/
def twnCmd (cmd : Nat) (s : State) : State :=
  let st := twState s
  if cmd = 1 then
    if twMode s = 3 ∧ st ≠ twPaired ∧ st ≠ twOff ∧ st ≠ twActive then takeOver s else refuseCmd (locTwin 0x118) s
  else if cmd = 2 then (if st = twPaired then leavePaired twSolo s else refuseCmd (locTwin 0x118) s)
  else if cmd = 3 then
    if (st = twSolo ∨ st = twLost) ∧ s.twin.heartSeen then enterPaired s else refuseCmd (locTwin 0x118) s
  else refuseCmd (locTwin 0x118) s

def twnCmdWrite (req : Nat) (v : U64) (s : State) : State :=
  onTwin (fun s =>
    twnCmd (fieldOf v 0 4) (plainWrite req (locTwin 0x118) v (fun _ => false) (woTurn req (pgTwin + 0x118) s))) s

/-- TAKEOVER (R373). -/
def execTakeover (req : Nat) (s : State) : Result := .next (onPath req (twnCmdWrite req 1) s)
/-- SOLO (R364). -/
def execSolo (req : Nat) (s : State) : Result := .next (onPath req (twnCmdWrite req 2) s)
/-- REJOIN (R364). -/
def execRejoin (req : Nat) (s : State) : Result := .next (onPath req (twnCmdWrite req 3) s)

/-! ### Entries (R362, R363, R370, R372) -/

/-- The key of a key word (R171). -/
def keyOfWord (x : Nat) : Key := ⟨bitsOf x 0 12, bitsOf x 12 16, bitsOf x 28 10, bitsOf x 38 24⟩

/-- A DIGEST entry: compared at once, compared late, or kept; `false` while the table is full, when no DIGEST entry is applied
(R370). -/
def digestEntry (k : Key) (d : Nat) (s : State) : Bool × State :=
  if 65536 ≤ s.twin.digests.length then (false, s)
  else
    match s.slotOf k with
    | some x => if x.twinAt.isSome then (true, twinCompare x d s) else (true, keep)
    | none => (true, keep)
where
  keep : State :=
    match s.twin.unverified.find? (fun u => u.1 == k) with
    | some u =>
      let s1 := setTwin (fun t => { t with unverified := t.unverified.erase u }) s
      if u.2 = d then s1
      else reportOwnOpen clsTwinMismatch repTwin (raiseEv pgTwin 1 (s1.addFld pgTwin twnCnt_mismatch 1))
    | none => setTwin (fun t => { t with digests := t.digests ++ [(k, d)] }) s

/-- An ABORT entry: a held result is released, and one not formed yet will not wait (R369). -/
def abortEntry (k : Key) (s : State) : State :=
  match s.slotOf k with
  | some x => if x.twinAt.isSome then releaseUnverified x s
    else setTwin (fun t => { t with aborted := t.aborted ++ [k] }) s
  | none => setTwin (fun t => { t with aborted := t.aborted ++ [k] }) s

/-- A CFG entry: the register write applied to the group table (R372). -/
def cfgEntry (addr : Nat) (v : U64) (s : State) : State :=
  match locate addr with
  | some x =>
    if x.kind = .wGrp then grpWrite repTwin x.inst x.off v s
    else if x.kind = .wMask then maskWrite repTwin x.inst v s
    else s
  | none => s

/-- Apply one entry in its turn; `false` says that it stays unapplied (R370). -/
def applyEntry (e : TwinEntry) (s : State) : Bool × State :=
  let b := e.bytes
  let k := keyOfWord (leAt b 0 8)
  if e.kind = kDigest then (if twMode s = 1 then digestEntry k (leAt b 8 8) s else (true, s))
  else if e.kind = kAbort then (true, if twMode s = 1 then abortEntry k s else s)
  else if twMode s ≠ 3 then (true, s)
  else if e.kind = kCfg then (true, cfgEntry (leAt b 0 4 % 2 ^ 28) (BitVec.ofNat 64 (leAt b 8 8)) s)
  else if e.kind = kEpoch then
    let g := leAt b 0 2 % 4096
    let s1 := s.setFld (grpAt g) grpEpoch_curEpoch (leAt b 2 2)
    (true, setTwin (fun t => { t with epochs := t.epochs.filter (fun x => x.1 != g) ++ [(g, leAt b 2 2)] }) s1)
  else if e.kind = kOpen then (true, setTwin (fun t => { t with openLog := t.openLog ++ [k] }) s)
  else (true, setTwin (fun t => { t with doneLog := t.doneLog ++ [k] }) (clogWrite b s))

/-- Apply every held entry that is next in order; the fuel bounds the entries. -/
def drainTwin : Nat → State → State
  | 0, s => s
  | fuel + 1, s =>
    match s.twin.held.find? (fun e => e.tseq == s.twin.rxNext) with
    | none => s
    | some e =>
      match applyEntry e s with
      | (true, s1) =>
        drainTwin fuel (setTwin (fun t => { t with held := t.held.erase e, rxNext := (t.rxNext + 1) % 2 ^ 32 }) s1)
      | (false, s1) => s1

def drainAll (s : State) : State := drainTwin (s.twin.held.length + 1) s

/-- Whether a tseq lies before the next expected one. -/
def applied (s : State) (t : Nat) : Bool := decide (2 ^ 31 ≤ (t + 2 ^ 32 - s.twin.rxNext) % 2 ^ 32)

/-- Take an entry: one already applied or already held is discarded. -/
def takeEntry (e : TwinEntry) (s : State) : State :=
  if applied s e.tseq ∨ s.twin.held.any (fun x => x.tseq == e.tseq) then s
  else setTwin (fun t => { t with held := t.held ++ [e] }) s

/-- Whether entries are applied: not while OFF, and not after a takeover (R360, R373). -/
def takesEntries (s : State) : Bool := twState s == twPaired || twState s == twSolo || twState s == twLost

def entrySize (kind : Nat) : Nat := if kind = kDone then 32 else 16

/-- The entries of a packet. -/
def packetEntries (s : State) (p : Packet) : List TwinEntry :=
  let kind := p.addr % 256
  let z := entrySize kind
  (List.range (bitsOf p.addr 8 8)).map (fun i =>
    ⟨(bitsOf p.addr 16 32 + i) % 2 ^ 32, kind, (p.payload.drop (z * i)).take z, s.cyc⟩)

/-- A HEART (R362 to R364): acknowledgements, the echo, pairing. -/
def heartTake (p : Packet) (s : State) : State :=
  let next := leAt p.payload 0 4
  let far := leAt p.payload 8 8
  let echo := leAt p.payload 16 8
  let acked := fun (e : TwinEntry) => decide (0 < (next + 2 ^ 32 - e.tseq) % 2 ^ 32) &&
    decide ((next + 2 ^ 32 - e.tseq) % 2 ^ 32 ≤ 2 ^ 31)
  let s1 := setTwin (fun t => { t with unacked := t.unacked.filter (fun e => !acked e), farCount := far, heartSeen := true }) s
  let s2 := if echo = 0 then s1 else s1.setFld pgTwin twnStat_rtt (min (2 ^ 32 - 1) (s.aon - echo))
  if twState s2 = twOff then setTwin (fun t => { t with farCount := far }) (enterPaired s2) else s2

/-- A TWIN packet of this module's twin (R360, R362): an unpaired module applies none. -/
def twinTake (port : Nat) (p : Packet) (s : State) : State :=
  let kind := p.addr % 256
  let n := bitsOf p.addr 8 8
  if kind = 0 ∨ 7 < kind then protoErr port s
  else if twinPresent s.fuses = false ∨ twMode s = 0 then s
  else
    let s1 := setTwin (fun t => { t with lastRx := some s.cyc }) s
    if kind = kHeart then heartTake p s1
    else if p.plen ≠ n * entrySize kind ∨ n = 0 then protoErr port s1
    else if takesEntries s1 then drainAll (forAll takeEntry (packetEntries s1 p) s1)
    else s1

/-- A delivered TWIN packet is sunk (R79, R361). -/
def twinPacket (kinds : Nat → Bool) (port : Nat) (p : Packet) (s : State) : State :=
  let (x, s1) := takeInbox port p s
  if kinds (p.addr % 256) = false then s
  else if crcGood p = false then consumed x (e2eFail port p s1)
  else consumed x (twinTake port p s1)

/-- HEART (R364); a packet of an unknown kind is judged here too. -/
def execHeart (port : Nat) (p : Packet) (s : State) : Result :=
  .next (twinPacket (fun k => k == kHeart || k == 0 || decide (7 < k)) port p s)
/-- DIGEST (R367). -/
def execDigest (port : Nat) (p : Packet) (s : State) : Result := .next (twinPacket (fun k => k == kDigest) port p s)
/-- TWIN_CFG (R372). -/
def execTwinCfg (port : Nat) (p : Packet) (s : State) : Result := .next (twinPacket (fun k => k == kCfg) port p s)
/-- TWIN_EPOCH (R372). -/
def execTwinEpoch (port : Nat) (p : Packet) (s : State) : Result := .next (twinPacket (fun k => k == kEpoch) port p s)
/-- TWIN_OPEN (R372). -/
def execTwinOpen (port : Nat) (p : Packet) (s : State) : Result := .next (twinPacket (fun k => k == kOpen) port p s)
/-- TWIN_DONE (R372). -/
def execTwinDone (port : Nat) (p : Packet) (s : State) : Result := .next (twinPacket (fun k => k == kDone) port p s)
/-- TWIN_ABORT (R369). -/
def execTwinAbort (port : Nat) (p : Packet) (s : State) : Result := .next (twinPacket (fun k => k == kAbort) port p s)

/-! ### Timers -/

/-- HEART_TIMER (R364): every hb_us a HEART, while the module has a role. -/
def execHeartTimer (s : State) : Result :=
  .next (if twinPresent s.fuses ∧ twMode s ≠ 0 ∧ s.twin.heartAt ≤ s.cyc then
      let pay := leBytes 8 s.twin.rxNext ++ leBytes 8 s.aon ++ leBytes 8 s.twin.farCount
      let p := rawPacket s.ownFid ptTwin vcMgt (s.fld pgTwin twnCfg_twinFid) 0 (twinAddr kHeart 0 0) none pay
      setTwin (fun t => { t with heartAt := s.cyc + hbCycles s }) (originate repTwin p .none s)
    else s)

/-- Send an entry again under its own tseq (R363); the packet that carries it is a new one, with a seq of its own
(DESIGN CHOICE, assumption 107). -/
def resendEntry (e : TwinEntry) (s : State) : State :=
  let s1 := setTwin (fun t =>
    { t with unacked := t.unacked.map (fun x => if x = e then { x with sentAt := s.cyc } else x) }) s
  originate repTwin (rawPacket s.ownFid ptTwin vcMgt (s.fld pgTwin twnCfg_twinFid) 0 (twinAddr e.kind 1 e.tseq) none e.bytes)
    .none s1

/-- TWIN_RESEND (R363): entries unacknowledged for twice the mirror round trip. -/
def execTwinResend (s : State) : Result :=
  .next (if twinPresent s.fuses ∧ twMode s ≠ 0 then
      forAll resendEntry (s.twin.unacked.filter (fun e => decide (e.sentAt + 2 * mirrorRtt s ≤ s.cyc))) s
    else s)

/-- TWIN_LOST (R364): a dual-rail module goes on to SOLO in the same cycle, a standby with auto_take takes over. -/
def execTwinLost (s : State) : Result :=
  .next (match s.twin.lastRx with
    | none => s
    | some t =>
      if twinPresent s.fuses ∧ twState s = twPaired ∧ t + lostCycles s ≤ s.cyc then
        let s1 := leavePaired twLost s
        let s2 := reportOwnOpen clsTwinLost repTwin (raiseEv pgTwin 2 s1)
        if twMode s = 1 then setTwState twSolo s2
        else if twMode s = 3 ∧ s.flag pgTwin twnCfg_autoTake then takeOver s2
        else s2
      else s)

/-- DIG_WAIT_EXPIRE (R369). -/
def execDigWaitExpire (k : Key) (s : State) : Result :=
  .next (match s.slotOf k with
    | none => s
    | some x =>
      match x.twinAt with
      | none => s
      | some t => if t + s.fld pgTwin twnTime_digWait * 80 ≤ s.cyc then releaseUnverified x s else s)

end Sys2Proof.Machine
end

