-- ==== Sys2Proof/Machine/Bus.lean ====
section
/-!
DEFINITION. The register space as a whole: reads with the registers that show the state of a unit (R456, R459, R460, R468),
writes with the rule of each register (R9, R415, R450 to R452), and the commands that read or write any register: the plain
write, MGMT requests (R57, R61, R74, R453, R498), the I3C target and JTAG (R453, R468, R498).
-/
namespace Sys2Proof.Machine

/-! ### Identification and capability (R456, R457, R459) -/

/-- Block type of a page (R457). -/
def blkType : PKind → Nat
  | .lane => 0x01
  | .press => 0x02
  | .vat => 0x03
  | .cellar => 0x04
  | .hbm => 0x05
  | .swc => 0x06
  | .rind => 0x07
  | .grpctl => 0x10
  | .routectl => 0x11
  | .pwr => 0x20
  | .rennet => 0x21
  | .tally => 0x22
  | .twin => 0x23
  | .pcie => 0x30
  | .mgmt => 0x31
  | .i3c => 0x32
  | .xspi => 0x33
  | _ => 0

/-- BLK_ID. -/
def blkId (s : State) (x : Loc) : Nat :=
  blkType x.kind + x.inst * 2 ^ 8 + s.fuses.rev % 256 * 2 ^ 24 + 0xCA10 * 2 ^ 32

/-- The spec field of BLK_CAP, by its bit numbers in the register (R457). -/
def blkSpec (x : Loc) : Nat :=
  match x.kind with
  | .lane => 0xF * 2 ^ 16 + 2 ^ 20
  | .press => 512 * 2 ^ 16 + 32 * 2 ^ 26
  | .vat => 8 * 2 ^ 16 + 8192 * 2 ^ 20
  | .cellar => 96 * 2 ^ 16
  | .hbm => 36 * 2 ^ 16 + 32 * 2 ^ 24
  | .rind => x.inst / 4 * 2 ^ 16
  | _ => 0

def darkCapable : PKind → Bool
  | .press | .vat | .hbm | .rind => true
  | _ => false

/-- BLK_CAP. -/
def blkCap (x : Loc) : Nat :=
  1 + bit01 (darkCapable x.kind) * 2 + bit01 (drainOk x.kind) * 4 + 1 * 2 ^ 8 + blkSpec x

/-- Bit i of a value for each i below n for which `here i` holds. -/
def bitsFor (n : Nat) (here : Nat → Bool) : Nat := (List.range n).foldl (fun m i => m + bit01 (here i) * 2 ^ i) 0

def partNumber : Grade → Nat
  | .xgl9240 => 9240
  | .xgl9228 => 9228
  | .xgl9216 => 9216

/-- RNT_CAP_GRADE, RNT_CAP_LANE, RNT_CAP_UNIT and RNT_CAP_UNIT2 (R459). -/
def capReg (f : Fuses) (off : Nat) : Nat :=
  if off = 0x800 then partNumber f.grade + bitsFor 4 (quadPresent f) * 2 ^ 14 + bit01 (twinPresent f) * 2 ^ 18
  else if off < 0x848 then bitsFor 64 (fun i => lanePresent f (64 * ((off - 0x808) / 8) + i))
  else if off = 0x848 then bitsFor 32 (pressPresent f) + bitsFor 32 (vatPresent f) * 2 ^ 32
  else bitsFor 20 (stackPresent f) + bitsFor 16 (rindPresent f) * 2 ^ 20

/-! ### Registers that show the state of a unit -/

def linkCode : LinkState → Nat
  | .down => 0
  | .bringup => 1
  | .up => 2

/-- PRT_STAT (R460, R461): a member lane reads state 3, a lane of no port reads 0. -/
def prtStat (s : State) (l : Nat) : Nat :=
  let x := s.port l
  if isMember s l then 3
  else if x.formed = false then 0
  else linkCode x.st + x.step % 16 * 2 ^ 2 + bit01 x.longReach * 2 ^ 6 + reportedRtt s l % 2 ^ 28 * 2 ^ 8
    + (if x.st = .up then striping x else 0) % 16 * 2 ^ 36

def coreCode : CoreState → Nat
  | .idle => 0
  | .starting => 1
  | .running => 2
  | .ending => 3
  | .faulted => 4

/-- VAT_CORE_STAT (R224). -/
def coreStat (c : Core) : Nat :=
  coreCode c.st + bit01 c.cmode * 2 ^ 3 + c.sb.length % 2 ^ 6 * 2 ^ 4 + c.items.length % 2 ^ 16 * 2 ^ 10 + c.pc % 2 ^ 24 * 2 ^ 26

/-- The state codes of n units, two bits each (R423). -/
def stateCodes (n : Nat) (code : Nat → Nat) : Nat := (List.range n).foldl (fun m i => m + code i * 4 ^ i) 0

/-- 64 sources of an EVC from 64 x j. -/
def sourceWord (j : Nat) (p : Nat → Bool) : Nat := bitsFor 64 (fun i => p (64 * j + i))

/-- Stored value with a field replaced. -/
def shown (s : State) (x : Loc) (f : Fd) (v : Nat) : U64 := withField (s.rd (x.base + x.off)) f.l f.w v

/-- The parked lanes of a port whose ends are in SLATE: not those that wake or wait for the far side's reply (R424). -/
def lanesInSlate (s : State) (p : Nat) : Nat :=
  ((s.port p).parkedLanes.filter (fun l => (s.pu (puLane (p + l))).st == .slate)).length

/-- Registers of a lane page (R333, R424, R460, R461). -/
def laneView (s : State) (x : Loc) : U64 :=
  if x.off = 0x108 then BitVec.ofNat 64 (prtStat s x.inst)
  else if isMember s x.inst then 0
  else if x.off = 0x220 then shown s x prtGateSync_pending ((s.port x.inst).gatePend % 2 ^ 32).toNat
  else if x.off = 0x240 then shown s x prtPark_parked (lanesInSlate s x.inst)
  else s.rd (x.base + x.off)

def vatView (s : State) (x : Loc) : U64 :=
  if x.off = 0x118 then BitVec.ofNat 64 (s.vat x.inst).startQ.length
  else if 0x140 ≤ x.off ∧ x.off < 0x180 then BitVec.ofNat 64 (coreStat (s.core (x.inst * 8 + (x.off - 0x140) / 8)))
  else s.rd (x.base + x.off)

def rindView (s : State) (x : Loc) : U64 :=
  if 0x200 ≤ x.off ∧ x.off < 0x280 then BitVec.ofNat 64 (sourceWord ((x.off - 0x200) / 8) (evcLevel s x.inst))
  else if 0x280 ≤ x.off ∧ x.off < 0x300 then BitVec.ofNat 64 (sourceWord ((x.off - 0x280) / 8) (evcPending s x.inst))
  else if 0x800 ≤ x.off ∧ x.off < 0x880 ∧ x.off % 0x20 < 0x18 then
    BitVec.ofNat 64 (pendWord s ((x.off - 0x800) / 0x20) (x.off % 0x20 / 8))
  else s.rd (x.base + x.off)

/-- The state code of a unit, 0 where it is absent. -/
def codeOf (s : State) (here : Bool) (k : PKind) (i : Nat) : Nat := if here then pageState s ⟨k, i, 0, 0⟩ else 0

def pwrView (s : State) (x : Loc) : U64 :=
  if x.off = 0x128 then BitVec.ofNat 64 (stateCodes 32 (fun i => codeOf s (pressPresent s.fuses i) .press i))
  else if x.off = 0x130 then BitVec.ofNat 64 (stateCodes 32 (fun i => codeOf s (vatPresent s.fuses i) .vat i))
  else if x.off = 0x138 then BitVec.ofNat 64 (stateCodes 20 (fun i => codeOf s (stackPresent s.fuses i) .hbm i))
  else s.rd (x.base + x.off)

def rennetView (s : State) (x : Loc) : U64 :=
  if x.off = 0x100 then
    withField (shown s x rntBoot_svnFused s.fuses.svn) rntBoot_revoked.l rntBoot_revoked.w s.fuses.revoked
  else if x.off = 0x110 then BitVec.ofNat 64 s.fuses.serial
  else if 0x800 ≤ x.off ∧ x.off < 0x858 then BitVec.ofNat 64 (capReg s.fuses x.off)
  else s.rd (x.base + x.off)

def tallyView (s : State) (x : Loc) : U64 :=
  if x.off = 0x120 then
    BitVec.ofNat 64 (s.tally.entries.length + bit01 s.tally.storm.isSome * 2 ^ 13 + bit01 (tallyFull s) * 2 ^ 14
      + s.fld pgTally tlyStat_reports * 2 ^ 32)
  else s.rd (x.base + x.off)

def twinView (s : State) (x : Loc) : U64 :=
  if x.off = 0x128 then BitVec.ofNat 64 (s.twin.unacked.length % 2 ^ 32 + s.twin.held.length % 2 ^ 32 * 2 ^ 32)
  else s.rd (x.base + x.off)

/-- The common layout (R456). -/
def commonView (s : State) (x : Loc) : U64 :=
  if x.off = 0 then BitVec.ofNat 64 (blkId s x)
  else if x.off = 8 then BitVec.ofNat 64 (blkCap x)
  else if x.off = 0x18 then BitVec.ofNat 64 (blkStat s x)
  else s.rd (x.base + x.off)

/-- The power-managed unit of a page that is DARK: its block-specific registers are lost (R415). -/
def darkPage (s : State) (x : Loc) : Bool := darkCapable x.kind && pageState s x == 0

/-- The value of a register of a present page or window, apart from what a read changes. -/
def regView (s : State) (x : Loc) : U64 :=
  if x.kind.isWindow then (if x.kind = .wGrp ∧ x.off = 0x30 then shown s x grpEpoch_age (groupAge s x.inst) else s.rd (x.base + x.off))
  else if x.off < 0x100 then commonView s x
  else if darkPage s x then 0
  else
    match x.kind with
    | .lane => laneView s x
    | .vat => vatView s x
    | .cellar => if x.off = 0x100 then shown s x celArea_nBufs (nBufs s x.inst) else s.rd (x.base + x.off)
    | .rind => rindView s x
    | .pwr => pwrView s x
    | .rennet => rennetView s x
    | .tally => tallyView s x
    | .twin => twinView s x
    | _ => s.rd (x.base + x.off)

/-- HBM_STAT (R359): the pseudo-channels in self-refresh, and a temperature that is a free value. -/
def hbmStat (s : State) (st : Nat) : U64 × State :=
  let d := s.draw
  (BitVec.ofNat 64 (bitsFor 32 (fun k => (s.pu (puPc st k)).st == .slate) + d.1.toNat % 256 * 2 ^ 32), d.2)

/-- The state with a register as it stood before this cycle's first write to it: what a read of the write's cycle returns
(R454). -/
def beforeWrite (x : Loc) (s : State) : State := s.wr (x.base + x.off) (lookReg s (x.base + x.off))

/-- A read of the register space (R6, R12, R451, R452, R454). -/
def busRead (addr : Nat) (s : State) : U64 × State :=
  match presentLoc s addr with
  | none => (0, s)
  | some x =>
    if addr % 8 ≠ 0 then (0, errAt x 1 s)
    else if x.kind = .cellar ∧ x.off = 0x110 then indDataRead x.inst s
    else if x.kind = .hbm ∧ x.off = 0x128 ∧ darkPage s x = false then hbmStat s x.inst
    else (regView (beforeWrite x s) x, s)

/-! ### Writes -/

/-- A write under the access codes alone. -/
def plain (req : Nat) (x : Loc) (v : U64) (s : State) : State := plainWrite req x v (fun _ => false) s

/-- The common layout (R456). -/
def commonWrite (req : Nat) (x : Loc) (v : U64) (s : State) : State :=
  if x.off = 0x10 then blkCtrlWrite req x v s
  else if x.off = 0x30 then evTestWrite x v s
  else if x.off = 0x38 then errCntWrite x v s
  else plain req x v s

/-- Array windows (R449, R450). -/
def windowWrite (req : Nat) (x : Loc) (v : U64) (s : State) : State :=
  match x.kind with
  | .wGrp => grpWrite req x.inst x.off v s
  | .wMask => maskWrite req x.inst v s
  | .wMeter => meterWrite req x.inst x.off v s
  | .wRoute | .wCand | .wUdp => plain req x v (noteReg (x.base + x.off) s)
  | .wSync =>
    if x.off = 0 then
      let a := syncAt x.inst
      if lostRace s req a then s else noteWrite req a (syncMend x.inst (syncWrite x.inst v.toNat (noteReg a s)))
    else syncMend x.inst (plain req x v s)
  | _ => plain req x v s

/-- A reserved offset of a lane page: no register, or the hole behind the items of a VC (R462). -/
def laneReserved (x : Loc) : Bool := x.fields.isEmpty || (decide (0x400 ≤ x.off ∧ x.off < 0x5C0) && x.off % 0x40 == 0x38)

/-- Block-specific registers of a lane page. PRT_STAT and the reserved offsets of a member page are not held (R452, R460). -/
def laneRegWrite (req : Nat) (x : Loc) (v : U64) (s : State) : State :=
  let l := x.inst
  let o := x.off
  if laneReserved x then (if v = 0 then s else errAt x 4 s)
  else if o = 0x108 then plain req x v s
  else if o = 0x100 then prtCfgWrite req l v s
  else if o = 0x218 then gateCfgWrite req l v s
  else if o = 0x220 ∨ 0x800 ≤ o then gateDataWrite req l o v s
  else if o = 0x200 ∨ o = 0x208 ∨ o = 0x210 then schedWrite req l o v s
  else if o = 0x230 ∨ o = 0x238 then laneWrite l o (fun x s => fillHeadroom l (pfcCheckAll l (plain req x v s))) s
  else if 0x280 ≤ o ∧ o < 0x2C0 then shapeWrite req l ((o - 0x280) / 8) v s
  else if 0x400 ≤ o ∧ o ≤ 0x6E0 then teleWrite l o v s
  else if o = 0x240 then laneWrite l o (fun x s => unparkCheck l (plain req x v s)) s
  else laneWrite l o (fun x s => plain req x v s) s

def vatRegWrite (req : Nat) (x : Loc) (v : U64) (s : State) : State :=
  match x.off with
  | 0x100 => vatCfgWrite req x.inst v s
  | 0x108 => vatPstoreWrite req x.inst v s
  | 0x110 => vatStartWrite req x.inst v s
  | 0x120 => vatCtrlWrite req x.inst v s
  | _ => plain req x v s

def cellarRegWrite (req : Nat) (x : Loc) (v : U64) (s : State) : State :=
  let q := x.inst
  match x.off with
  | 0x100 => areaWrite req q v s
  | 0x108 => indAddrWrite req q v s
  | 0x110 => indDataWrite req q v s
  | 0x118 => wheyWrite req q v s
  | 0x120 => wheyStatWrite req q v s
  | 0x128 => linkAreaWrite req q v s
  | o => if 0x140 ≤ o ∧ o < 0x178 then poolWrite req q ((o - 0x140) / 8) v s else plain req x v s

def rindRegWrite (req : Nat) (x : Loc) (v : U64) (s : State) : State :=
  match x.off with
  | 0x100 => evcCtrlWrite req x.inst v s
  | 0x110 => evcDoneWrite req x.inst v s
  | 0x118 => evcSsetWrite req x.inst v s
  | 0x120 => evcSclrWrite req x.inst v s
  | 0x138 => evcCoreWrite req x.inst v s
  | _ => plain req x v s

/-- Chip-wide pages (R449). -/
def chipRegWrite (req : Nat) (x : Loc) (v : U64) (s : State) : State :=
  match x.kind, x.off with
  | .pwr, 0x100 => pwrCtrlWrite req v s
  | .pwr, 0x118 => darkWrite req 0x118 v s
  | .pwr, 0x120 => darkWrite req 0x120 v s
  | .pwr, 0x1C0 => pmbWrite req v s
  | .rennet, 0x118 => rntCmdWrite req v s
  | .rennet, 0x130 => recDataWrite req v s
  | .tally, 0x118 => tallyTail req v s
  | .tally, 0x130 => tlyTestWrite req v s
  | .tally, 0x138 => tallySnapWrite req v s
  | .twin, 0x100 => twnCfgWrite req v s
  | .twin, 0x118 => twnCmdWrite req v s
  | .twin, o => if 0x400 ≤ o ∧ o < 0x600 then gmodeWrite req ((o - 0x400) / 8) v s else plain req x v s
  | .grpctl, o => grpCtlWrite req o v s
  | .xspi, 0x108 => xspiCmdWrite req v s
  | _, _ => plain req x v s

/-- A write to a present page or window at an aligned offset. -/
def regWrite (req : Nat) (x : Loc) (v : U64) (s : State) : State :=
  if x.kind.isWindow then windowWrite req x v s
  else if x.off < 0x100 then commonWrite req x v s
  else if darkPage s x then (if x.fields.isEmpty then plain req x v s else discardWrite x s)
  else
    match x.kind with
    | .lane => laneRegWrite req x v s
    | .vat => vatRegWrite req x v s
    | .cellar => cellarRegWrite req x v s
    | .rind => rindRegWrite req x v s
    | _ => chipRegWrite req x v s

/-- A write to the register space (R6, R12, R451, R452). One to VAT_START of an absent Vat's page is a write to an absent page, which R6
ignores: only the VAT_START row counts it ABSENT (DESIGN CHOICE, assumption 133). -/
def busWrite (req addr : Nat) (v : U64) (s : State) : State :=
  match presentLoc s addr with
  | none => s
  | some x => if addr % 8 ≠ 0 then errAt x 1 s else regWrite req x v s

/-! ### Commands -/

/-- REGISTER_WRITE (R9). -/
def execRegisterWrite (req addr : Nat) (v : U64) (s : State) : Result := .next (onPath req (busWrite req addr v) s)

/-- A write that clears some counter of the register (R489). -/
def clearsCounter (s : State) (addr : Nat) (v : U64) : Bool :=
  match presentLoc s addr with
  | some x => x.fields.any (fun f => f.acc == .cnt && fieldOf v f.fd.l f.fd.w == 0)
  | none => false

/-- COUNTER_CLEAR (R489). -/
def execCounterClear (req addr : Nat) (v : U64) (s : State) : Result :=
  .next (if clearsCounter s addr v then onPath req (busWrite req addr v) s else s)

/-- In-band access through a port (R453, R461); a packet of a unit of the switch comes through no port. -/
def mgmtOpen (s : State) (port : Nat) : Bool := decide (port < 512) && pathOpen s port

/-- What an MGMT request that has not been applied does (R57, R498). -/
def mgmtApply (port : Nat) (p : Packet) (s : State) : State :=
  let a := p.addr % 2 ^ 28
  if mgmtOpen s port = false then mgmtReject port p s
  else if p.plen = 0 then
    let r := busRead a s
    mgmtReply port p (leBytes 8 r.1.toNat) r.2
  else if p.plen = 8 then mgmtReply port p [] (busWrite port a (BitVec.ofNat 64 (leAt p.payload 0 8)) s)
  else mgmtReject port p s

/-- An MGMT request of the switch's inbox (R60, R74). -/
def mgmtRequest (port : Nat) (p : Packet) (s : State) : State :=
  let (x, s1) := takeInbox port p s
  if crcGood p = false then consumed x (e2eFail port p s1)
  else
    match keptReply s1 p.src p.seq with
    | some q => consumed x (mgmtAgain port q s1)
    | none => consumed x (mgmtApply port p s1)

def isMgmtRequest (p : Packet) : Bool := p.ptype == ptMgmt && bitsOf p.addr 55 1 == 0 && !isLaneReq p

/-- MGMT_READ (R57): every request that is no write, the rejected lengths too. -/
def execMgmtRead (port : Nat) (p : Packet) (s : State) : Result :=
  .next (if isMgmtRequest p ∧ p.plen ≠ 8 then mgmtRequest port p s else s)

/-- MGMT_WRITE (R57, R74). -/
def execMgmtWrite (port : Nat) (p : Packet) (s : State) : Result :=
  .next (if isMgmtRequest p ∧ p.plen = 8 then mgmtRequest port p s else s)

/-- The address that the I3C target answers to (R468). -/
def i3cAddress (s : State) : Nat := s.ifc.i3cDyn.getD (s.fld pgI3c pwrI3cCfg_sa)

/-- A transfer of the I3C target completes (R458). -/
def i3cDone (s : State) : State := raiseEv pgI3c 1 s

/-- I3C_PRIVATE_WRITE (R468): the offset and the data. -/
def execI3cPrivateWrite (target addr : Nat) (v : U64) (s : State) : Result :=
  .next (onPath reqI3c (fun s =>
    if target = i3cAddress s then
      let s1 : State := { s with ifc := { s.ifc with i3cAddr := addr } }
      i3cDone (busWrite reqI3c addr v s1)
    else s) s)

/-- I3C_PRIVATE_READ (R468): eight bytes from the offset last written. -/
def execI3cPrivateRead (target : Nat) (s : State) : Result :=
  .next (onPath reqI3c (fun s =>
    if target = i3cAddress s then
      let r := busRead s.ifc.i3cAddr s
      i3cDone (r.2.emit (.readData reqI3c s.ifc.i3cAddr r.1))
    else s) s)

/-- I3C_DYNAMIC_ADDRESS (R468). -/
def execI3cDynamicAddress (da : Nat) (s : State) : Result :=
  .next { s with ifc := { s.ifc with i3cDyn := some (da % 128) } }

/-- JTAG_ACCESS (R453, R498): without debug level 1 it reads 0 and writes nothing. -/
def execJtagAccess (isWrite : Bool) (addr : Nat) (v : U64) (s : State) : Result :=
  .next (
    if isWrite then onPath reqJtag (busWrite reqJtag addr v) s
    else
      let r := if pathOpen s reqJtag then busRead addr s else (0, s)
      r.2.emit (.readData reqJtag addr r.1))

end Sys2Proof.Machine
end

