-- ==== Sys2Proof/Machine/Dispatch.lean ====
section
/-!
DEFINITION. The effect of a command on everything but the queue: one arm for each row of spec/opcode_table.json, each one
call of that command's meaning.
-/
namespace Sys2Proof.Machine

def exec (i : Instr) (s : State) : Host.Outcome State Fault Refusal :=
  match i with
  | .registerWrite req addr v => Sys2Proof.Machine.execRegisterWrite req addr v s
  | .unalignedAccess req addr size isWrite => Sys2Proof.Machine.execUnalignedAccess req addr size isWrite s
  | .counterClear req addr v => Sys2Proof.Machine.execCounterClear req addr v s
  | .errCntClear req page => Sys2Proof.Machine.execErrCntClear req page s
  | .eventTest req page v => Sys2Proof.Machine.execEventTest req page v s
  | .blockReset req page => Sys2Proof.Machine.execBlockReset req page s
  | .unitEnable req page => Sys2Proof.Machine.execUnitEnable req page s
  | .drainUnit req page => Sys2Proof.Machine.execDrainUnit req page s
  | .drainCancel req page => Sys2Proof.Machine.execDrainCancel req page s
  | .forcedDisable req page => Sys2Proof.Machine.execForcedDisable req page s
  | .portUpReq req lane v => Sys2Proof.Machine.execPortUpReq req lane v s
  | .portDownReq req lane v => Sys2Proof.Machine.execPortDownReq req lane v s
  | .pmdTrainingDone port ok => Sys2Proof.Machine.execPmdTrainingDone port ok s
  | .fecLock port => Sys2Proof.Machine.execFecLock port s
  | .helloTimer port => Sys2Proof.Machine.execHelloTimer port s
  | .helloFrame port f => Sys2Proof.Machine.execHelloFrame port f s
  | .echoReqFrame port f => Sys2Proof.Machine.execEchoReqFrame port f s
  | .echoRspFrame port f => Sys2Proof.Machine.execEchoRspFrame port f s
  | .bringupStepTimeout port => Sys2Proof.Machine.execBringupStepTimeout port s
  | .bringupRetry port => Sys2Proof.Machine.execBringupRetry port s
  | .stateFrame port f => Sys2Proof.Machine.execStateFrame port f s
  | .stateSend port => Sys2Proof.Machine.execStateSend port s
  | .packetArrive port cls fec p => Sys2Proof.Machine.execPacketArrive port cls fec p s
  | .nakTimerExpire port => Sys2Proof.Machine.execNakTimerExpire port s
  | .nakFrame port f => Sys2Proof.Machine.execNakFrame port f s
  | .replayDone port => Sys2Proof.Machine.execReplayDone port s
  | .ackTimerExpire port => Sys2Proof.Machine.execAckTimerExpire port s
  | .lctlSilenceTimeout port => Sys2Proof.Machine.execLctlSilenceTimeout port s
  | .downFrame port f => Sys2Proof.Machine.execDownFrame port f s
  | .lrefclkLoss clock => Sys2Proof.Machine.execLrefclkLoss clock s
  | .creditGrant port vc => Sys2Proof.Machine.execCreditGrant port vc s
  | .switchEntry unit vc n par => Sys2Proof.Machine.execSwitchEntry unit vc n par s
  | .packetSend port abort => Sys2Proof.Machine.execPacketSend port abort s
  | .replayCopyDone port => Sys2Proof.Machine.execReplayCopyDone port s
  | .mgmtRead port p => Sys2Proof.Machine.execMgmtRead port p s
  | .mgmtWrite port p => Sys2Proof.Machine.execMgmtWrite port p s
  | .responseDelivery port p => Sys2Proof.Machine.execResponseDelivery port p s
  | .portSnapshot req port => Sys2Proof.Machine.execPortSnapshot req port s
  | .telemetryClear req port => Sys2Proof.Machine.execTelemetryClear req port s
  | .highWaterReset req port vc => Sys2Proof.Machine.execHighWaterReset req port vc s
  | .ethernetFrame port f => Sys2Proof.Machine.execEthernetFrame port f s
  | .macAgeOut vid mac => Sys2Proof.Machine.execMacAgeOut vid mac s
  | .pfcFrame port prio quanta => Sys2Proof.Machine.execPfcFrame port prio quanta s
  | .pfcPauseExpire port prio => Sys2Proof.Machine.execPfcPauseExpire port prio s
  | .pfcRefresh port prio => Sys2Proof.Machine.execPfcRefresh port prio s
  | .cdnPauseLimit port => Sys2Proof.Machine.execCdnPauseLimit port s
  | .cwrite port p => Sys2Proof.Machine.execCwrite port p s
  | .cnode port p => Sys2Proof.Machine.execCnode port p s
  | .maskReadDone k ok => Sys2Proof.Machine.execMaskReadDone k ok s
  | .pressAdd array par => Sys2Proof.Machine.execPressAdd array par s
  | .accumAdd group block => Sys2Proof.Machine.execAccumAdd group block s
  | .cresult port p => Sys2Proof.Machine.execCresult port p s
  | .failureStatus port p => Sys2Proof.Machine.execFailureStatus port p s
  | .itemTimeout core n => Sys2Proof.Machine.execItemTimeout core n s
  | .groupEnable req group v => Sys2Proof.Machine.execGroupEnable req group v s
  | .scopeValidationDone group => Sys2Proof.Machine.execScopeValidationDone group s
  | .groupDisable req group v => Sys2Proof.Machine.execGroupDisable req group v s
  | .epochClose req group => Sys2Proof.Machine.execEpochClose req group s
  | .accumRelease req group => Sys2Proof.Machine.execAccumRelease req group s
  | .migrate req group qd => Sys2Proof.Machine.execMigrate req group qd s
  | .migrateCopyDone group => Sys2Proof.Machine.execMigrateCopyDone group s
  | .syncInEdge => Sys2Proof.Machine.execSyncInEdge s
  | .deferredBoundary group => Sys2Proof.Machine.execDeferredBoundary group s
  | .epochMaxTimeout group => Sys2Proof.Machine.execEpochMaxTimeout group s
  | .chainStart qd par => Sys2Proof.Machine.execChainStart qd par s
  | .chainSendDone chain => Sys2Proof.Machine.execChainSendDone chain s
  | .vatStart req vat desc => Sys2Proof.Machine.execVatStart req vat desc s
  | .programStart vat => Sys2Proof.Machine.execProgramStart vat s
  | .cacheFillDone core par => Sys2Proof.Machine.execCacheFillDone core par s
  | .cacheInvalidate req vat v => Sys2Proof.Machine.execCacheInvalidate req vat v s
  | .instructionStart core par => Sys2Proof.Machine.execInstructionStart core par s
  | .instructionComplete core => Sys2Proof.Machine.execInstructionComplete core s
  | .budgetExhausted core => Sys2Proof.Machine.execBudgetExhausted core s
  | .programEnd core => Sys2Proof.Machine.execProgramEnd core s
  | .coreStop req vat mask => Sys2Proof.Machine.execCoreStop req vat mask s
  | .coreClear req vat mask => Sys2Proof.Machine.execCoreClear req vat mask s
  | .inboundDelivery port p => Sys2Proof.Machine.execInboundDelivery port p s
  | .swaitWake core => Sys2Proof.Machine.execSwaitWake core s
  | .cAdd core w => Sys2Proof.Machine.execCAdd core w s
  | .cSub core w => Sys2Proof.Machine.execCSub core w s
  | .cMul core w => Sys2Proof.Machine.execCMul core w s
  | .cFma core w => Sys2Proof.Machine.execCFma core w s
  | .cMax core w => Sys2Proof.Machine.execCMax core w s
  | .cMin core w => Sys2Proof.Machine.execCMin core w s
  | .cCmp core w => Sys2Proof.Machine.execCCmp core w s
  | .cSel core w => Sys2Proof.Machine.execCSel core w s
  | .cCvt core w => Sys2Proof.Machine.execCCvt core w s
  | .cRsum core w => Sys2Proof.Machine.execCRsum core w s
  | .cRmax core w => Sys2Proof.Machine.execCRmax core w s
  | .cExp2 core w => Sys2Proof.Machine.execCExp2 core w s
  | .cLog2 core w => Sys2Proof.Machine.execCLog2 core w s
  | .cRcp core w => Sys2Proof.Machine.execCRcp core w s
  | .cRsq core w => Sys2Proof.Machine.execCRsq core w s
  | .cIadd core w => Sys2Proof.Machine.execCIadd core w s
  | .cIsub core w => Sys2Proof.Machine.execCIsub core w s
  | .cAnd core w => Sys2Proof.Machine.execCAnd core w s
  | .cOr core w => Sys2Proof.Machine.execCOr core w s
  | .cXor core w => Sys2Proof.Machine.execCXor core w s
  | .cShl core w => Sys2Proof.Machine.execCShl core w s
  | .cShr core w => Sys2Proof.Machine.execCShr core w s
  | .cIcmp core w => Sys2Proof.Machine.execCIcmp core w s
  | .cMov core w => Sys2Proof.Machine.execCMov core w s
  | .cCompact core w => Sys2Proof.Machine.execCCompact core w s
  | .cGath core w => Sys2Proof.Machine.execCGath core w s
  | .cScat core w => Sys2Proof.Machine.execCScat core w s
  | .cKeyx core w => Sys2Proof.Machine.execCKeyx core w s
  | .cSortv core w => Sys2Proof.Machine.execCSortv core w s
  | .cMerge core w => Sys2Proof.Machine.execCMerge core w s
  | .cNop core w => Sys2Proof.Machine.execCNop core w s
  | .cAsend core w => Sys2Proof.Machine.execCAsend core w s
  | .cCpop core w => Sys2Proof.Machine.execCCpop core w s
  | .cSinc core w => Sys2Proof.Machine.execCSinc core w s
  | .cSwait core w => Sys2Proof.Machine.execCSwait core w s
  | .cBarrier core w => Sys2Proof.Machine.execCBarrier core w s
  | .cOhdr core w => Sys2Proof.Machine.execCOhdr core w s
  | .cEnd core w => Sys2Proof.Machine.execCEnd core w s
  | .cSadd core w => Sys2Proof.Machine.execCSadd core w s
  | .cSsub core w => Sys2Proof.Machine.execCSsub core w s
  | .cSmul core w => Sys2Proof.Machine.execCSmul core w s
  | .cSand core w => Sys2Proof.Machine.execCSand core w s
  | .cSor core w => Sys2Proof.Machine.execCSor core w s
  | .cSxor core w => Sys2Proof.Machine.execCSxor core w s
  | .cSshl core w => Sys2Proof.Machine.execCSshl core w s
  | .cSshr core w => Sys2Proof.Machine.execCSshr core w s
  | .cSsra core w => Sys2Proof.Machine.execCSsra core w s
  | .cSceq core w => Sys2Proof.Machine.execCSceq core w s
  | .cScne core w => Sys2Proof.Machine.execCScne core w s
  | .cScltu core w => Sys2Proof.Machine.execCScltu core w s
  | .cSclts core w => Sys2Proof.Machine.execCSclts core w s
  | .cScgeu core w => Sys2Proof.Machine.execCScgeu core w s
  | .cScges core w => Sys2Proof.Machine.execCScges core w s
  | .cSld core w => Sys2Proof.Machine.execCSld core w s
  | .cSst core w => Sys2Proof.Machine.execCSst core w s
  | .cBr core w => Sys2Proof.Machine.execCBr core w s
  | .cLoop core w => Sys2Proof.Machine.execCLoop core w s
  | .cScyc core w => Sys2Proof.Machine.execCScyc core w s
  | .callAgather core => Sys2Proof.Machine.execCallAgather core s
  | .callSort core => Sys2Proof.Machine.execCallSort core s
  | .callFilter core => Sys2Proof.Machine.execCallFilter core s
  | .callTopk core => Sys2Proof.Machine.execCallTopk core s
  | .callDispatch core => Sys2Proof.Machine.execCallDispatch core s
  | .callCombine core => Sys2Proof.Machine.execCallCombine core s
  | .callLsemerge core => Sys2Proof.Machine.execCallLsemerge core s
  | .callPgather core => Sys2Proof.Machine.execCallPgather core s
  | .serverStop core => Sys2Proof.Machine.execServerStop core s
  | .libraryPacket core => Sys2Proof.Machine.execLibraryPacket core s
  | .callLimitExpire core => Sys2Proof.Machine.execCallLimitExpire core s
  | .pgatherReserve core => Sys2Proof.Machine.execPgatherReserve core s
  | .rowScale core rs => Sys2Proof.Machine.execRowScale core rs s
  | .rowSum core rs => Sys2Proof.Machine.execRowSum core rs s
  | .gateEnable req port v => Sys2Proof.Machine.execGateEnable req port v s
  | .gateDisable req port v => Sys2Proof.Machine.execGateDisable req port v s
  | .gateEntry port => Sys2Proof.Machine.execGateEntry port s
  | .bufferAllocate qd pool => Sys2Proof.Machine.execBufferAllocate qd pool s
  | .celIndDataRead req qd => Sys2Proof.Machine.execCelIndDataRead req qd s
  | .celIndDataWrite req qd v => Sys2Proof.Machine.execCelIndDataWrite req qd v s
  | .poolWrite req qd pool v => Sys2Proof.Machine.execPoolWrite req qd pool v s
  | .openPagesWrite req qd v => Sys2Proof.Machine.execOpenPagesWrite req qd v s
  | .hbmReadDone qd page line use outcome => Sys2Proof.Machine.execHbmReadDone qd page line use outcome s
  | .scrub stack pc outcome => Sys2Proof.Machine.execScrub stack pc outcome s
  | .twinModeSet req v => Sys2Proof.Machine.execTwinModeSet req v s
  | .twinUnpair req v => Sys2Proof.Machine.execTwinUnpair req v s
  | .takeover req => Sys2Proof.Machine.execTakeover req s
  | .solo req => Sys2Proof.Machine.execSolo req s
  | .rejoin req => Sys2Proof.Machine.execRejoin req s
  | .heartTimer => Sys2Proof.Machine.execHeartTimer s
  | .heart port p => Sys2Proof.Machine.execHeart port p s
  | .digest port p => Sys2Proof.Machine.execDigest port p s
  | .twinCfg port p => Sys2Proof.Machine.execTwinCfg port p s
  | .twinEpoch port p => Sys2Proof.Machine.execTwinEpoch port p s
  | .twinOpen port p => Sys2Proof.Machine.execTwinOpen port p s
  | .twinDone port p => Sys2Proof.Machine.execTwinDone port p s
  | .twinAbort port p => Sys2Proof.Machine.execTwinAbort port p s
  | .twinResend => Sys2Proof.Machine.execTwinResend s
  | .twinLost => Sys2Proof.Machine.execTwinLost s
  | .digWaitExpire k => Sys2Proof.Machine.execDigWaitExpire k s
  | .tallyEntryClose subject cls => Sys2Proof.Machine.execTallyEntryClose subject cls s
  | .tallyTailWrite req v => Sys2Proof.Machine.execTallyTailWrite req v s
  | .tallySnap req => Sys2Proof.Machine.execTallySnap req s
  | .vatBist req v => Sys2Proof.Machine.execVatBist req v s
  | .pressBist req v => Sys2Proof.Machine.execPressBist req v s
  | .laneRecal req v => Sys2Proof.Machine.execLaneRecal req v s
  | .bistDone pass => Sys2Proof.Machine.execBistDone pass s
  | .testWaitExpire => Sys2Proof.Machine.execTestWaitExpire s
  | .laneRequest port p => Sys2Proof.Machine.execLaneRequest port p s
  | .laneReqTimeout port => Sys2Proof.Machine.execLaneReqTimeout port s
  | .recalDone port lane => Sys2Proof.Machine.execRecalDone port lane s
  | .idleRecal port => Sys2Proof.Machine.execIdleRecal port s
  | .normalDelivery core => Sys2Proof.Machine.execNormalDelivery core s
  | .fastDelivery core => Sys2Proof.Machine.execFastDelivery core s
  | .evcDone req core src => Sys2Proof.Machine.execEvcDone req core src s
  | .evcSset req core src => Sys2Proof.Machine.execEvcSset req core src s
  | .evcSclr req core src => Sys2Proof.Machine.execEvcSclr req core src s
  | .unwind req core => Sys2Proof.Machine.execUnwind req core s
  | .mretFast core => Sys2Proof.Machine.execMretFast core s
  | .wfiWake core => Sys2Proof.Machine.execWfiWake core s
  | .coreRelease req core v => Sys2Proof.Machine.execCoreRelease req core v s
  | .rindHold req core v => Sys2Proof.Machine.execRindHold req core v s
  | .autoPark unit => Sys2Proof.Machine.execAutoPark unit s
  | .wakeComplete unit => Sys2Proof.Machine.execWakeComplete unit s
  | .darkRequest req unit => Sys2Proof.Machine.execDarkRequest req unit s
  | .darkExit req unit => Sys2Proof.Machine.execDarkExit req unit s
  | .lanePark port => Sys2Proof.Machine.execLanePark port s
  | .avsUpdate qd mv temp => Sys2Proof.Machine.execAvsUpdate qd mv temp s
  | .pmbusGo req v => Sys2Proof.Machine.execPmbusGo req v s
  | .pmbusDone ok data => Sys2Proof.Machine.execPmbusDone ok data s
  | .pmbAlert level => Sys2Proof.Machine.execPmbAlert level s
  | .poresetAssert => Sys2Proof.Machine.execPoresetAssert s
  | .pwrgoodFall => Sys2Proof.Machine.execPwrgoodFall s
  | .poresetRelease env => Sys2Proof.Machine.execPoresetRelease env s
  | .sysresetRelease env => Sys2Proof.Machine.execSysresetRelease env s
  | .pciePerstAssert => Sys2Proof.Machine.execPciePerstAssert s
  | .pciePerstRelease => Sys2Proof.Machine.execPciePerstRelease s
  | .pcieLink up speed width => Sys2Proof.Machine.execPcieLink up speed width s
  | .pcieFlr => Sys2Proof.Machine.execPcieFlr s
  | .thermTrip stack temp => Sys2Proof.Machine.execThermTrip stack temp s
  | .extend req v => Sys2Proof.Machine.execExtend req v s
  | .attest req v => Sys2Proof.Machine.execAttest req v s
  | .unlock req v => Sys2Proof.Machine.execUnlock req v s
  | .svnAdv req v => Sys2Proof.Machine.execSvnAdv req v s
  | .revoke req v => Sys2Proof.Machine.execRevoke req v s
  | .recGo req v => Sys2Proof.Machine.execRecGo req v s
  | .recData req v => Sys2Proof.Machine.execRecData req v s
  | .rennetCmdDone bodyOk => Sys2Proof.Machine.execRennetCmdDone bodyOk s
  | .xspiRead req v => Sys2Proof.Machine.execXspiRead req v s
  | .xspiProgram req v => Sys2Proof.Machine.execXspiProgram req v s
  | .xspiErase req v => Sys2Proof.Machine.execXspiErase req v s
  | .xspiDone => Sys2Proof.Machine.execXspiDone s
  | .i3cPrivateWrite target addr v => Sys2Proof.Machine.execI3cPrivateWrite target addr v s
  | .i3cPrivateRead target => Sys2Proof.Machine.execI3cPrivateRead target s
  | .i3cDynamicAddress da => Sys2Proof.Machine.execI3cDynamicAddress da s
  | .mgmtPortFrame received frame => Sys2Proof.Machine.execMgmtPortFrame received frame s
  | .jtagAccess isWrite addr v => Sys2Proof.Machine.execJtagAccess isWrite addr v s
  | .pwrgoodRise env => Sys2Proof.Machine.execPwrgoodRise env s
  | .sysresetAssert => Sys2Proof.Machine.execSysresetAssert s
  | .synchronousException core cause tval => Sys2Proof.Machine.execSynchronousException core cause tval s

end Sys2Proof.Machine
end

