-- ==== Sys2Proof/Machine/RvFloat.lean ====
section
/-!
DEFINITION. Single and double precision of the Rind cores (R394: the F and D parts of RV64GC): the five rounding modes, the
accrued exceptions, and the operations on codes. A number is an exact `Val` that is rounded once.
-/
namespace Sys2Proof.Machine

def fFp64 : FFmt := ⟨11, 52, 1023, .ieee⟩

/-- The layout of S (false) and D (true). -/
def rvFmt (d : Bool) : FFmt := if d then fFp64 else fFp32

/-- The bits of fflags. -/
def flNx : Nat := 1
def flUf : Nat := 2
def flOf : Nat := 4
def flDz : Nat := 8
def flNv : Nat := 16

/-- Whether a magnitude between two units goes to the upper one: modes 0 nearest even, 1 to zero, 2 down, 3 up, 4 nearest with ties
away. -/
def fpUp (rm : Nat) (neg : Bool) (lo rem sh : Nat) : Bool :=
  match rm with
  | 0 => roundsUp none lo rem sh
  | 1 => false
  | 2 => neg && rem != 0
  | 3 => !neg && rem != 0
  | _ => decide (2 ^ sh ≤ rem * 2)

/-- sig x 2^exp as a count of 2^u, rounded, and whether it is inexact. -/
def fpUnits (rm : Nat) (neg : Bool) (sig : Nat) (exp u : Int) : Nat × Bool :=
  if u ≤ exp then (sig * 2 ^ (exp - u).toNat, false)
  else
    let sh := (u - exp).toNat
    let lo := sig / 2 ^ sh
    let rem := sig % 2 ^ sh
    (if fpUp rm neg lo rem sh then lo + 1 else lo, rem != 0)

/-- Overflow: infinity, or the largest finite number, as the mode says. -/
def fpOverflow (f : FFmt) (rm : Nat) (neg : Bool) : Nat :=
  if rm = 1 ∨ (rm = 2 ∧ neg = false) ∨ (rm = 3 ∧ neg) then maxCode f else infCode f

/-- The code of a value and the flags that it raises; tininess is detected after rounding. -/
def fpEnc (f : FFmt) (rm : Nat) : Val → Nat × Nat
  | .nan => (nanCode f, 0)
  | .inf s => (signBit f s + infCode f, 0)
  | .zero s => (signBit f s, 0)
  | .fin s m e =>
    let top : Int := e + (Nat.log2 m : Int)
    let low : Int := 1 - (f.bias : Int)
    let u : Int := max top low - f.mBits
    let (q, nx) := fpUnits rm s m e u
    let c := (u + f.mBits + f.bias).toNat * 2 ^ f.mBits + q - 2 ^ f.mBits
    if maxCode f < c then (signBit f s + fpOverflow f rm s, flOf + flNx)
    else
      let tiny := decide (top < low - 1) || (top == low - 1 && decide ((fpUnits rm s m e (top - f.mBits)).1 < 2 ^ (f.mBits + 1)))
      (signBit f s + c, if nx then flNx + (if tiny then flUf else 0) else 0)

/-- A signaling NaN. -/
def fpSnan (f : FFmt) (c : Nat) : Bool := (decodeFloat f c).isNan && c / 2 ^ (f.mBits - 1) % 2 == 0

def fpNeg (f : FFmt) (c : Nat) : Bool := c / 2 ^ (f.eBits + f.mBits) % 2 == 1

def fpNv (b : Bool) : Nat := if b then flNv else 0

/-- The sign of an exact zero sum of two signs. -/
def zeroSign (rm : Nat) (a b : Bool) : Bool := if a = b then a else rm == 2

def fpSum (f : FFmt) (rm : Nat) (sa sb : Bool) (a b : Val) : Nat × Nat :=
  match Val.add a b with
  | .nan => (nanCode f, flNv)
  | .zero _ => (signBit f (zeroSign rm sa sb), 0)
  | v => fpEnc f rm v

def fpAdd (f : FFmt) (rm a b : Nat) : Nat × Nat :=
  let va := decodeFloat f a
  let vb := decodeFloat f b
  if va.isNan || vb.isNan then (nanCode f, fpNv (fpSnan f a || fpSnan f b))
  else fpSum f rm (fpNeg f a) (fpNeg f b) va vb

/-- The code with its sign turned. -/
def fpFlip (f : FFmt) (c : Nat) : Nat := if fpNeg f c then c - signBit f true else c + signBit f true

def fpMul (f : FFmt) (rm a b : Nat) : Nat × Nat :=
  let va := decodeFloat f a
  let vb := decodeFloat f b
  if va.isNan || vb.isNan then (nanCode f, fpNv (fpSnan f a || fpSnan f b))
  else
    match Val.mul va vb with
    | .nan => (nanCode f, flNv)
    | v => fpEnc f rm v

/-- a x b + c with one rounding. -/
def fpFma (f : FFmt) (rm a b c : Nat) : Nat × Nat :=
  let va := decodeFloat f a
  let vb := decodeFloat f b
  let vc := decodeFloat f c
  let p := Val.mul va vb
  let bad := p.isNan && !va.isNan && !vb.isNan
  if p.isNan || vc.isNan then (nanCode f, fpNv (bad || fpSnan f a || fpSnan f b || fpSnan f c))
  else fpSum f rm (fpNeg f a != fpNeg f b) (fpNeg f c) p vc

/-- The quotient of magnitudes with 70 bits and a sticky bit below them. -/
def fpQuot (m1 : Nat) (e1 : Int) (m2 : Nat) (e2 : Int) : Nat × Int :=
  let k := 70 + Nat.log2 m2
  let n := m1 * 2 ^ k
  (n / m2 * 2 + bit01 (n % m2 != 0), e1 - e2 - k - 1)

def fpDiv (f : FFmt) (rm a b : Nat) : Nat × Nat :=
  let va := decodeFloat f a
  let vb := decodeFloat f b
  let neg := fpNeg f a != fpNeg f b
  match va, vb with
  | .nan, _ => (nanCode f, fpNv (fpSnan f a || fpSnan f b))
  | _, .nan => (nanCode f, fpNv (fpSnan f b))
  | .inf _, .inf _ => (nanCode f, flNv)
  | .zero _, .zero _ => (nanCode f, flNv)
  | .inf _, _ => (signBit f neg + infCode f, 0)
  | _, .inf _ => (signBit f neg, 0)
  | .zero _, _ => (signBit f neg, 0)
  | _, .zero _ => (signBit f neg + infCode f, flDz)
  | .fin _ m1 e1, .fin _ m2 e2 =>
    let q := fpQuot m1 e1 m2 e2
    fpEnc f rm (.fin neg q.1 q.2)

/-- The root of a magnitude with 70 bits and a sticky bit below them. -/
def fpRoot (m : Nat) (e : Int) : Nat × Int :=
  let k : Nat := 140 + (e % 2).toNat
  let n := m * 2 ^ k
  let r := Nat.sqrt n
  (r * 2 + bit01 (r * r != n), (e - k) / 2 - 1)

def fpSqrt (f : FFmt) (rm a : Nat) : Nat × Nat :=
  match decodeFloat f a with
  | .nan => (nanCode f, fpNv (fpSnan f a))
  | .zero s => (signBit f s, 0)
  | .inf true => (nanCode f, flNv)
  | .inf false => (infCode f, 0)
  | .fin true _ _ => (nanCode f, flNv)
  | .fin false m e =>
    let q := fpRoot m e
    fpEnc f rm (.fin false q.1 q.2)

/-! ### Comparisons and moves -/

/-- -1, 0, 1 of two numbers that are no NaN. -/
def fpOrder (f : FFmt) (a b : Nat) : Int := Val.cmp (decodeFloat f a) (decodeFloat f b)

/-- FEQ (2), FLT (1), FLE (0): the result and the flags. -/
def fpCompare (f : FFmt) (op a b : Nat) : Nat × Nat :=
  if (decodeFloat f a).isNan || (decodeFloat f b).isNan then (0, fpNv (op != 2 || fpSnan f a || fpSnan f b))
  else
    let c := fpOrder f a b
    (bit01 (if op = 2 then c == 0 else if op = 1 then decide (c < 0) else decide (c ≤ 0)), 0)

/-- FMIN (false) and FMAX (true): a NaN loses, and -0 is below +0. -/
def fpMinMax (f : FFmt) (top : Bool) (a b : Nat) : Nat × Nat :=
  let fl := fpNv (fpSnan f a || fpSnan f b)
  let na := (decodeFloat f a).isNan
  let nb := (decodeFloat f b).isNan
  if na && nb then (nanCode f, fl)
  else if na then (b, fl)
  else if nb then (a, fl)
  else
    let c := fpOrder f a b
    let aLow := decide (c < 0) || (c == 0 && fpNeg f a)
    (if aLow = top then b else a, fl)

/-- FSGNJ (0), FSGNJN (1), FSGNJX (2). -/
def fpSgnj (f : FFmt) (op a b : Nat) : Nat :=
  let mag := a % signBit f true
  let s := if op = 0 then fpNeg f b else if op = 1 then !fpNeg f b else fpNeg f a != fpNeg f b
  mag + signBit f s

/-- FCLASS. -/
def fpClass (f : FFmt) (a : Nat) : Nat :=
  match decodeFloat f a with
  | .nan => if fpSnan f a then 2 ^ 8 else 2 ^ 9
  | .inf s => if s then 2 ^ 0 else 2 ^ 7
  | .zero s => if s then 2 ^ 3 else 2 ^ 4
  | .fin s _ _ =>
    let sub := a / 2 ^ f.mBits % 2 ^ f.eBits == 0
    if s then (if sub then 2 ^ 2 else 2 ^ 1) else (if sub then 2 ^ 5 else 2 ^ 6)

/-! ### Conversions -/

/-- A number as an integer in [lo, hi], and the flags. -/
def fpToInt (rm : Nat) (lo hi : Int) (v : Val) : Int × Nat :=
  match v with
  | .nan => (hi, flNv)
  | .inf s => (if s then lo else hi, flNv)
  | .zero _ => (0, 0)
  | .fin s m e =>
    let (q, nx) := fpUnits rm s m e 0
    let i : Int := if s then -(q : Int) else q
    if i < lo then (lo, flNv) else if hi < i then (hi, flNv) else (i, if nx then flNx else 0)

/-- From one layout to another. -/
def fpConvert (f g : FFmt) (rm a : Nat) : Nat × Nat :=
  match decodeFloat f a with
  | .nan => (nanCode g, fpNv (fpSnan f a))
  | v => fpEnc g rm v

end Sys2Proof.Machine
end

