-- ==== Sys2Proof/Machine/RvCsr.lean ====
section
/-!
DEFINITION. The control and status registers of a Rind core (R394: M, S and U modes, Zicsr; R403: the Calione CSRs), as
CSR instructions read and write them. Bits that RISC-V lets a core choose are fixed in assumption 125.
-/
namespace Sys2Proof.Machine

/-! ### Fields -/

/-- `old` with the bits of a mask taken from `v`. -/
def maskIn (old v : U64) (mask : Nat) : U64 := (old &&& ~~~(BitVec.ofNat 64 mask)) ||| (v &&& BitVec.ofNat 64 mask)

/-- SIE, MIE, SPIE, MPIE, SPP, MPP, FS, MPRV, SUM, MXR, TVM, TW, TSR. -/
def mstatusMask : Nat := 0x7E79AA
/-- SIE, SPIE, SPP, FS, SUM, MXR. -/
def sstatusMask : Nat := 0xC6122
/-- SSI, STI, SEI. -/
def sIrqMask : Nat := 0x222

def msFs (v : U64) : Nat := fieldOf v 13 2

/-- SD: the floating-point state is dirty. -/
def msSd (v : U64) : U64 := if msFs v = 3 then BitVec.ofNat 64 (2 ^ 63) else 0

def mstatusView (r : Rind) : U64 := r.mstatus ||| BitVec.ofNat 64 (2 * 2 ^ 32 + 2 * 2 ^ 34) ||| msSd r.mstatus
def sstatusView (r : Rind) : U64 :=
  (r.mstatus &&& BitVec.ofNat 64 sstatusMask) ||| BitVec.ofNat 64 (2 * 2 ^ 32) ||| msSd r.mstatus

/-- RV64 with A, C, D, F, I, M, S and U. -/
def misaValue : U64 := BitVec.ofNat 64 (2 * 2 ^ 62 + 0x14112D)

/-- fcsr: the accrued exceptions in bits 4 to 0, the rounding mode in bits 7 to 5. -/
def csrFcsr : Nat := 0x003
def csrSatp : Nat := 0x180
def csrMip : Nat := 0x344
def csrMcycle : Nat := 0xB00
def csrMinstret : Nat := 0xB02
def csrMcounteren : Nat := 0x306
def csrScounteren : Nat := 0x106

/-- Cycles of the 3.0 GHz clock (R394). -/
def rindCycles (s : State) : Nat := s.cyc * 3 / 2

/-- mip: the software bits, and MEI while the event controller has a normal source to deliver (R402). -/
def mipView (s : State) (k : Nat) : U64 :=
  (rindCsr (s.rindOf k) csrMip &&& BitVec.ofNat 64 sIrqMask) ||| BitVec.ofNat 64 (bit01 (evcSelect s k false).isSome * 2 ^ 11)

/-- mfstat (R403). -/
def mfstatView (r : Rind) : U64 := BitVec.ofNat 64 (bit01 r.fie + 2 * bit01 r.active + 4 * r.ppriv)

/-! ### Physical memory protection -/

def pmpCfgReg (i : Nat) : Nat := 0x3A0 + i / 8 * 2
def pmpCfg (r : Rind) (i : Nat) : Nat := fieldOf (rindCsr r (pmpCfgReg i)) (8 * (i % 8)) 8
def pmpAddr (r : Rind) (i : Nat) : Nat := (rindCsr r (0x3B0 + i)).toNat
def pmpLocked (r : Rind) (i : Nat) : Bool := bitsOf (pmpCfg r i) 7 1 == 1
def pmpMode (r : Rind) (i : Nat) : Nat := bitsOf (pmpCfg r i) 3 2

/-- A locked entry keeps its configuration; bits 6 and 5 read 0, and W without R is not taken. -/
def pmpByte (r : Rind) (i new : Nat) : Nat :=
  if pmpLocked r i ∨ new % 4 = 2 then pmpCfg r i else bitsOf new 0 5 + 128 * bitsOf new 7 1

def pmpCfgWrite (n : Nat) (v : U64) (r : Rind) : Rind :=
  let first := (n - 0x3A0) / 2 * 8
  setRindCsr n (BitVec.ofNat 64 (((List.range 8).map (fun j => pmpByte r (first + j) (fieldOf v (8 * j) 8) * 2 ^ (8 * j))).sum)) r

/-- A locked entry, and the base of a locked top-of-range entry, keep their address. -/
def pmpAddrWrite (i : Nat) (v : U64) (r : Rind) : Rind :=
  if pmpLocked r i || decide (i < 15) && pmpLocked r (i + 1) && pmpMode r (i + 1) == 1 then r
  else setRindCsr (0x3B0 + i) (BitVec.ofNat 64 (v.toNat % 2 ^ 54)) r

/-! ### Reads -/

/-- A counter is readable below M-mode where the enables of the modes above have its bit. -/
def counterOpen (r : Rind) (n : Nat) : Bool :=
  let bit (x : Nat) : Bool := fieldOf (rindCsr r x) (n % 32) 1 == 1
  r.priv == 3 || bit csrMcounteren && (r.priv == 1 || bit csrScounteren)

/-- Whether the mode may touch a CSR, whatever the access. -/
def csrOpen (r : Rind) (n : Nat) : Bool :=
  decide (n / 256 % 4 ≤ r.priv)
    && (decide (3 < n) || msFs r.mstatus != 0)
    && (n != csrSatp || r.priv == 3 || fieldOf r.mstatus 20 1 == 0)
    && (n / 32 != 0xC00 / 32 || counterOpen r n)

/-- CSRs that are held by number under a mask of the bits that software writes. -/
def csrPlain (n : Nat) : Option Nat :=
  match n with
  | 0x105 => some (2 ^ 64 - 3)
  | 0x106 => some 0x7
  | 0x10A => some 0x1
  | 0x140 => some (2 ^ 64 - 1)
  | 0x141 => some (2 ^ 64 - 2)
  | 0x142 => some (2 ^ 64 - 1)
  | 0x143 => some (2 ^ 64 - 1)
  | 0x302 => some 0xB3FF
  | 0x303 => some sIrqMask
  | 0x306 => some 0x7
  | 0x30A => some 0x1
  | 0x340 => some (2 ^ 64 - 1)
  | _ => none

/-- A register that reads 0 and keeps nothing: the count inhibit and the unused performance counters. -/
def csrZero (n : Nat) : Bool :=
  n == 0x320 || n == 0xF15 || decide (0x323 ≤ n ∧ n < 0x340) || decide (0xB03 ≤ n ∧ n < 0xB20) || decide (0xC03 ≤ n ∧ n < 0xC20)

def csrCounter (s : State) (k n : Nat) : Option U64 :=
  let r := s.rindOf k
  match n with
  | 0xB00 | 0xC00 => some (BitVec.ofNat 64 (rindCycles s) + rindCsr r csrMcycle)
  | 0xC01 => some (BitVec.ofNat 64 s.aon)
  | 0xB02 | 0xC02 => some (rindCsr r csrMinstret)
  | _ => if csrZero n then some 0 else none

/-- Machine-mode registers, and the Calione CSRs (R403). -/
def csrMachine (s : State) (k n : Nat) : Option U64 :=
  let r := s.rindOf k
  match n with
  | 0x300 => some (mstatusView r)
  | 0x301 => some misaValue
  | 0x304 => some r.mie
  | 0x305 => some r.mtvec
  | 0x341 => some r.mepc
  | 0x342 => some r.mcause
  | 0x343 => some r.mtval
  | 0x344 => some (mipView s k)
  | 0x7C0 => some r.mfepc
  | 0x7C1 => some r.mfcause
  | 0x7C2 => some (mfstatView r)
  | 0x7C3 => some r.mftvec
  | 0xF11 | 0xF12 | 0xF13 => some (Config.rindId n)
  | 0xF14 => some (BitVec.ofNat 64 k)
  | 0x3A0 | 0x3A2 => some (rindCsr r n)
  | _ => if 0x3B0 ≤ n ∧ n < 0x3C0 then some (rindCsr r n) else csrCounter s k n

/-- The value of a CSR; `none` where no such register exists. -/
def csrView (s : State) (k n : Nat) : Option U64 :=
  let r := s.rindOf k
  match n with
  | 0x001 => some (rindCsr r csrFcsr &&& 0x1F)
  | 0x002 => some (BitVec.ofNat 64 (fieldOf (rindCsr r csrFcsr) 5 3))
  | 0x003 => some (rindCsr r csrFcsr)
  | 0x100 => some (sstatusView r)
  | 0x104 => some (r.mie &&& rindCsr r csrMideleg)
  | 0x144 => some (mipView s k &&& rindCsr r csrMideleg)
  | 0x180 => some (rindCsr r csrSatp)
  | _ => if (csrPlain n).isSome then some (rindCsr r n) else csrMachine s k n

/-! ### Writes -/

/-- The floating-point state becomes dirty. -/
def fsDirty (r : Rind) : Rind := { r with mstatus := withField r.mstatus 13 2 3 }

/-- MPP takes a mode that exists. -/
def mstatusWrite (v : U64) (r : Rind) : Rind :=
  let m := maskIn r.mstatus v mstatusMask
  { r with mstatus := if msMpp m = 2 then withField m 11 2 (msMpp r.mstatus) else m }

/-- A translation mode that does not exist leaves satp unchanged. -/
def satpWrite (v : U64) (r : Rind) : Rind :=
  let m := fieldOf v 60 4
  if m = 0 ∨ m = 8 ∨ m = 9 then setRindCsr csrSatp v r else r

/-- mfstat: fie and ppriv are written, active is read-only (R403). -/
def mfstatWrite (v : U64) (r : Rind) : Rind :=
  { r with fie := fieldOf v 0 1 == 1, ppriv := if fieldOf v 2 2 = 2 then r.ppriv else fieldOf v 2 2 }

def csrWrite (cyc n : Nat) (v : U64) (r : Rind) : Rind :=
  match n with
  | 0x001 => fsDirty (setRindCsr csrFcsr (maskIn (rindCsr r csrFcsr) v 0x1F) r)
  | 0x002 => fsDirty (setRindCsr csrFcsr (withField (rindCsr r csrFcsr) 5 3 (fieldOf v 0 3)) r)
  | 0x003 => fsDirty (setRindCsr csrFcsr (v &&& 0xFF) r)
  | 0x100 => { r with mstatus := maskIn r.mstatus v sstatusMask }
  | 0x104 => { r with mie := maskIn r.mie v (rindCsr r csrMideleg).toNat }
  | 0x144 => setRindCsr csrMip (maskIn (rindCsr r csrMip) v ((rindCsr r csrMideleg).toNat % 4)) r
  | 0x180 => satpWrite v r
  | 0x300 => mstatusWrite v r
  | 0x304 => { r with mie := v &&& 0xAAA }
  | 0x305 => { r with mtvec := maskIn 0 v (2 ^ 64 - 3) }
  | 0x341 => { r with mepc := maskIn 0 v (2 ^ 64 - 2) }
  | 0x342 => { r with mcause := v }
  | 0x343 => { r with mtval := v }
  | 0x344 => setRindCsr csrMip (v &&& BitVec.ofNat 64 sIrqMask) r
  | 0x3A0 | 0x3A2 => pmpCfgWrite n v r
  | 0x7C0 => { r with mfepc := maskIn 0 v (2 ^ 64 - 2) }
  | 0x7C1 => { r with mfcause := v &&& 0x3FF }
  | 0x7C2 => mfstatWrite v r
  | 0x7C3 => { r with mftvec := maskIn 0 v (2 ^ 64 - 4) }
  | 0xB00 => setRindCsr csrMcycle (v - BitVec.ofNat 64 cyc) r
  | 0xB02 => setRindCsr csrMinstret v r
  | _ =>
    if 0x3B0 ≤ n ∧ n < 0x3C0 then pmpAddrWrite (n - 0x3B0) v r
    else
      match csrPlain n with
      | some m => setRindCsr n (maskIn 0 v m) r
      | none => r

end Sys2Proof.Machine
end

