-- ==== Sys2Proof/Machine/RvMem.lean ====
section
/-!
DEFINITION. The memory of a Rind core: the physical address map (R395), refusals and faults (R397), physical memory protection,
the Sv39 and Sv48 translation (R394), and what the caches make of a read and a write (R396). The translation buffers hold nothing
(assumption 126).
-/
namespace Sys2Proof.Machine

/-- How a part of an instruction ends: with a value, in a trap whose mtval is the value given or 0, or in a wait for a
pseudo-channel to wake. -/
inductive RvOut (α : Type) where
  | ok (a : α)
  | trap (cause : Nat) (tval : U64)
  | stall
deriving DecidableEq, Repr

/-- Go on with the value. -/
def rvThen {α β : Type} (r : RvOut α × State) (f : α → State → RvOut β × State) : RvOut β × State :=
  match r.1 with
  | .ok a => f a r.2
  | .trap c v => (.trap c v, r.2)
  | .stall => (.stall, r.2)

inductive RvAcc where
  | fetch
  | load
  | store
deriving DecidableEq, Repr

/-- mcause of an access fault. -/
def RvAcc.fault : RvAcc → Nat
  | .fetch => 1
  | .load => 5
  | .store => 7

/-- mcause of a misaligned address. -/
def RvAcc.misaligned : RvAcc → Nat
  | .fetch => 0
  | .load => 4
  | .store => 6

/-- mcause of a page fault. -/
def RvAcc.page : RvAcc → Nat
  | .fetch => 12
  | .load => 13
  | .store => 15

/-! ### Physical addresses (R395) -/

inductive RvPlace where
  | device
  | rom (off : Nat)
  | hbm (q off : Nat)
  | nowhere
deriving DecidableEq, Repr

/-- The HBM window of a quadrant: 180 GiB from (q + 1) x 2^38; the uncached alias is 2^43 above. -/
def rvWindow (a : Nat) : RvPlace :=
  if a / 2 ^ 38 = 0 ∨ 4 < a / 2 ^ 38 ∨ 180 * 2 ^ 30 ≤ a % 2 ^ 38 then .nowhere else .hbm (a / 2 ^ 38 - 1) (a % 2 ^ 38)

def rvPlace (pa : Nat) : RvPlace :=
  if pa < 2 ^ 28 then .device
  else if romBase ≤ pa ∧ pa < romBase + 0x20000 then .rom (pa - romBase)
  else rvWindow (if 2 ^ 43 ≤ pa then pa - 2 ^ 43 else pa)

/-- Read `n` bytes of memory: of the uncached alias as HBM holds them, else as the caches hold their line, which is read into them
where they do not (R396). A page beyond the stacks or of an absent quadrant faults (R395), a stack that is off answers as an
uncorrectable line does (R377, R397), a sleeping pseudo-channel is woken first (R355). -/
def rvPeek (k fault pa n : Nat) (va : U64) (s : State) : RvOut Nat × State :=
  match rvPlace pa with
  | .rom off => (.ok (rdLe s spRom off n), s)
  | .hbm q off =>
    let direct := decide (2 ^ 43 ≤ pa)
    let l := rvLine q off
    let at_ := off / 64 * 64
    let use := lineUsed (if fault = RvAcc.fetch.fault then icacheOf k else dcacheOf k) k l
    if direct = false ∧ (s.rline l).caches ≠ [] then (.ok (leAt (s.rline l).bytes (off % 64) n), use s)
    else
      match hbmAsk s q at_ 64 with
      | .ready =>
        let s1 := hbmMoved .lc q at_ 64 s
        (.ok (rdLe s (spHbm q) off n), if direct then s1 else use (s1.setRline l ⟨rdBytes s (spHbm q) at_ 64, []⟩))
      | .asleep => (.stall, hbmWake q at_ 64 s)
      | .refused => (.trap fault va, s)
      | .beyond => (.trap fault va, refusePage q (repRind k) s)
  | _ => (.trap fault va, s)

/-- A store of another core to the line ends a reservation. -/
def dropResv (k line : Nat) (s : State) : State :=
  forAll (fun (x : Nat × Rind) s =>
    if x.1 ≠ k ∧ x.2.resv = some line then s.updRind x.1 (fun r => { r with resv := none }) else s) s.rinds s

/-- A store of `bs` at byte `off` of a quadrant, which reaches HBM at once: a line that the caches hold is written whole out of the data
cache (R396, R397). One through the uncached alias leaves no copy of the line (assumption 134). -/
def rvWriteLine (k q off : Nat) (direct : Bool) (bs : List Byte) (s : State) : State :=
  let l := rvLine q off
  let x := s.rline l
  if direct ∨ x.caches = [] then hbmPut .bulk q off bs (repRind k) (s.setRline l RLine.none)
  else
    let line := x.bytes.take (off % 64) ++ bs ++ x.bytes.drop (off % 64 + bs.length)
    lineUsed (dcacheOf k) k l (hbmPut .bulk q (off / 64 * 64) line (repRind k) (s.setRline l { x with bytes := line }))

/-- Write `n` bytes of memory, in the bulk class (R395). -/
def rvPoke (k pa n : Nat) (v : Nat) (va : U64) (s : State) : RvOut Unit × State :=
  match rvPlace pa with
  | .hbm q off =>
    if hbmAsk s q off n = .beyond then (.trap 7 va, refusePage q (repRind k) s)
    else (.ok (), dropResv k (rvLine q off) (rvWriteLine k q off (decide (2 ^ 43 ≤ pa)) (leBytes n v) s))
  | _ => (.trap 7 va, s)

/-- A load of the register space (R12, R453). -/
def rvDeviceRead (k pa n : Nat) (s : State) : Nat × State :=
  if pathOpen s (repRind k) = false then (0, s)
  else if n = 8 ∧ pa % 8 = 0 then
    let r := busRead pa s
    (r.1.toNat, r.2)
  else (0, narrowAccess pa s)

def rvDeviceWrite (k pa n v : Nat) (s : State) : State :=
  onPath (repRind k) (if n = 8 ∧ pa % 8 = 0 then busWrite (repRind k) pa (BitVec.ofNat 64 v) else narrowAccess pa) s

/-! ### Protection and translation (R394) -/

/-- The bytes that an entry covers. -/
def pmpRange (r : Rind) (i : Nat) : Nat × Nat :=
  let a := pmpAddr r i
  match pmpMode r i with
  | 0 => (0, 0)
  | 1 => (if i = 0 then 0 else 4 * pmpAddr r (i - 1), 4 * a)
  | 2 => (4 * a, 4 * a + 4)
  | _ =>
    let ones := ((List.range 54).takeWhile (fun j => bitsOf a j 1 == 1)).length
    let base := 4 * (a / 2 ^ ones * 2 ^ ones)
    (base, base + 2 ^ (ones + 3))

def pmpAllows (cfg : Nat) (acc : RvAcc) : Bool :=
  match acc with
  | .load => bitsOf cfg 0 1 == 1
  | .store => bitsOf cfg 1 1 == 1
  | .fetch => bitsOf cfg 2 1 == 1

/-- The lowest entry that matches a byte decides, and must match every byte; none matches in M-mode alone. -/
def pmpOk (r : Rind) (mode : Nat) (acc : RvAcc) (pa n : Nat) : Bool :=
  match (List.range 16).find? (fun i => decide ((pmpRange r i).1 < pa + n) && decide (pa < (pmpRange r i).2)) with
  | none => mode == 3
  | some i =>
    decide ((pmpRange r i).1 ≤ pa) && decide (pa + n ≤ (pmpRange r i).2)
      && ((mode == 3 && !pmpLocked r i) || pmpAllows (pmpCfg r i) acc)

/-- The mode of an access: MPRV puts loads and stores into MPP. -/
def accMode (r : Rind) (acc : RvAcc) : Nat :=
  if acc ≠ .fetch ∧ fieldOf r.mstatus 17 1 = 1 then msMpp r.mstatus else r.priv

/-- Whether a leaf entry allows an access in a mode. -/
def pteAllows (r : Rind) (mode : Nat) (acc : RvAcc) (pte : Nat) : Bool :=
  let b (i : Nat) : Bool := bitsOf pte i 1 == 1
  let user := b 4
  match acc with
  | .fetch => b 3 && (mode == 0) == user
  | .load => (b 1 || fieldOf r.mstatus 19 1 == 1 && b 3) && (if mode = 0 then user else !user || fieldOf r.mstatus 18 1 == 1)
  | .store => b 2 && b 7 && (if mode = 0 then user else !user || fieldOf r.mstatus 18 1 == 1)

/-- An entry that is not valid, reserved, or a pointer with leaf bits. -/
def pteBad (pte : Nat) : Bool :=
  bitsOf pte 0 1 == 0 || bitsOf pte 1 2 == 2 || bitsOf pte 54 10 != 0 || (bitsOf pte 1 3 == 0 && (bitsOf pte 4 1 != 0 || bitsOf pte 6 2 != 0))

/-- What an entry of level `l` says: the physical address, or `none` for a page fault. -/
def pteLeaf (r : Rind) (mode : Nat) (acc : RvAcc) (va l pte : Nat) : Option Nat :=
  let ppn := bitsOf pte 10 44
  if pteAllows r mode acc pte && bitsOf pte 6 1 == 1 && ppn % 2 ^ (9 * l) == 0 then some (ppn * 4096 + va % 2 ^ (12 + 9 * l)) else none

/-- The walk from a table of level `l`, which counts down; an entry without A, or a store to a page without D, is a page fault. -/
def rvWalk (k mode : Nat) (acc : RvAcc) (va : U64) : Nat → Nat → State → RvOut Nat × State
  | 0, _, s => (.trap acc.page va, s)
  | l + 1, table, s =>
    let r := s.rindOf k
    let pa := table * 4096 + 8 * fieldOf va (12 + 9 * l) 9
    if pmpOk r 1 .load pa 8 = false then (.trap acc.fault va, s)
    else
      rvThen (rvPeek k acc.fault pa 8 va s) (fun pte s =>
        if pteBad pte then (.trap acc.page va, s)
        else if bitsOf pte 1 3 = 0 then rvWalk k mode acc va l (bitsOf pte 10 44) s
        else
          match pteLeaf r mode acc va.toNat l pte with
          | some a => (.ok a, s)
          | none => (.trap acc.page va, s))

/-- The bits of a virtual address above the highest of `n` are copies of it. -/
def rvCanonical (n : Nat) (va : U64) : Bool := (va.setWidth n).signExtend 64 == va

/-- The physical address of a virtual one. -/
def rvTranslate (k : Nat) (acc : RvAcc) (va : U64) (s : State) : RvOut Nat × State :=
  let r := s.rindOf k
  let mode := accMode r acc
  let satp := rindCsr r csrSatp
  let scheme := fieldOf satp 60 4
  if mode = 3 ∨ scheme = 0 then (.ok va.toNat, s)
  else
    let levels := if scheme = 8 then 3 else 4
    if rvCanonical (12 + 9 * levels) va then rvWalk k mode acc va levels (fieldOf satp 0 44) s else (.trap acc.page va, s)

/-- The physical address of `n` bytes that the protection allows. -/
def rvAddress (k : Nat) (acc : RvAcc) (va : U64) (n : Nat) (s : State) : RvOut Nat × State :=
  rvThen (rvTranslate k acc va s) (fun pa s =>
    let r := s.rindOf k
    if pmpOk r (accMode r acc) acc pa n then (.ok pa, s) else (.trap acc.fault va, s))

/-! ### Loads and stores -/

def rvLoad (k n : Nat) (va : U64) (s : State) : RvOut Nat × State :=
  rvThen (rvAddress k .load va n s) (fun pa s =>
    if rvPlace pa = .device then
      let r := rvDeviceRead k pa n s
      (.ok r.1, r.2)
    else if va.toNat % n ≠ 0 then (.trap (RvAcc.load).misaligned va, s)
    else rvPeek k (RvAcc.load).fault pa n va s)

def rvStore (k n v : Nat) (va : U64) (s : State) : RvOut Unit × State :=
  rvThen (rvAddress k .store va n s) (fun pa s =>
    if rvPlace pa = .device then (.ok (), rvDeviceWrite k pa n v s)
    else if va.toNat % n ≠ 0 then (.trap (RvAcc.store).misaligned va, s)
    else rvPoke k pa n v va s)

/-- Load and reserve the line; only HBM takes reservations and atomic operations. -/
def rvLoadReserve (k n : Nat) (va : U64) (s : State) : RvOut Nat × State :=
  if va.toNat % n ≠ 0 then (.trap (RvAcc.load).misaligned va, s)
  else
    rvThen (rvAddress k .load va n s) (fun pa s =>
      match rvPlace pa with
      | .hbm q off =>
        rvThen (rvPeek k (RvAcc.load).fault pa n va s) (fun v s =>
          (.ok v, s.updRind k (fun r => { r with resv := some (rvLine q off) })))
      | _ => (.trap (RvAcc.load).fault va, s))

/-- Store if the reservation holds: 0 where the store took place, 1 else; the reservation ends. -/
def rvStoreCond (k n v : Nat) (va : U64) (s : State) : RvOut Nat × State :=
  if va.toNat % n ≠ 0 then (.trap (RvAcc.store).misaligned va, s)
  else
    rvThen (rvAddress k .store va n s) (fun pa s =>
      match rvPlace pa with
      | .hbm q off =>
        let held := (s.rindOf k).resv == some (rvLine q off)
        let s1 := s.updRind k (fun r => { r with resv := none })
        if held then rvThen (rvPoke k pa n v va s1) (fun _ s => (.ok 0, s)) else (.ok 1, s1)
      | _ => (.trap (RvAcc.store).fault va, s))

/-- Replace the value `v` at an address by `f v`, and answer `v`. -/
def rvAmo (k n : Nat) (f : Nat → Nat) (va : U64) (s : State) : RvOut Nat × State :=
  if va.toNat % n ≠ 0 then (.trap (RvAcc.store).misaligned va, s)
  else
    rvThen (rvAddress k .store va n s) (fun pa s =>
      match rvPlace pa with
      | .hbm _ _ =>
        rvThen (rvPeek k (RvAcc.store).fault pa n va s) (fun v s =>
          rvThen (rvPoke k pa n (f v) va s) (fun _ s => (.ok v, s)))
      | _ => (.trap (RvAcc.store).fault va, s))

/-! ### Fetch -/

/-- The 16 bits at an address. -/
def rvFetchHalf (k : Nat) (va : U64) (s : State) : RvOut Nat × State :=
  rvThen (rvAddress k .fetch va 2 s) (fun pa s => rvPeek k (RvAcc.fetch).fault pa 2 va s)

/-- The instruction at the pc: its bits and its length. -/
def rvFetch (k : Nat) (pc : U64) (s : State) : RvOut (Nat × Nat) × State :=
  rvThen (rvFetchHalf k pc s) (fun lo s =>
    if lo % 4 = 3 then rvThen (rvFetchHalf k (pc + 2) s) (fun hi s => (.ok (lo + 65536 * hi, 4), s))
    else (.ok (lo, 2), s))

end Sys2Proof.Machine
end

