-- ==== Sys2Proof/Machine/Rvc.lean ====
section
/-!
DEFINITION. The compressed instructions of RV64GC (R394): each is another form of a 32-bit instruction. `none` is a reserved or
an undefined form.
-/
namespace Sys2Proof.Machine

/-! ### 32-bit forms -/

def encR (f7 rs2 rs1 f3 rd op : Nat) : Nat := f7 * 2 ^ 25 + rs2 * 2 ^ 20 + rs1 * 2 ^ 15 + f3 * 2 ^ 12 + rd * 2 ^ 7 + op
def encI (imm rs1 f3 rd op : Nat) : Nat := imm % 4096 * 2 ^ 20 + rs1 * 2 ^ 15 + f3 * 2 ^ 12 + rd * 2 ^ 7 + op
def encS (imm rs2 rs1 f3 op : Nat) : Nat := encR (bitsOf imm 5 7) rs2 rs1 f3 (bitsOf imm 0 5) op
def encB (imm rs1 f3 : Nat) : Nat :=
  encR (bitsOf imm 12 1 * 64 + bitsOf imm 5 6) 0 rs1 f3 (bitsOf imm 1 4 * 2 + bitsOf imm 11 1) 0x63
def encJ (imm rd : Nat) : Nat :=
  (bitsOf imm 20 1 * 2 ^ 19 + bitsOf imm 1 10 * 2 ^ 9 + bitsOf imm 11 1 * 2 ^ 8 + bitsOf imm 12 8) * 2 ^ 12 + rd * 2 ^ 7 + 0x6F

/-- The low `m` bits of a value of `n` bits, sign-extended. -/
def sextTo (n m x : Nat) : Nat := if bitsOf x (n - 1) 1 = 1 then x % 2 ^ n + 2 ^ m - 2 ^ n else x % 2 ^ n

/-! ### Fields -/

/-- The three-bit register fields name x8 to x15. -/
def cLow (w : Nat) : Nat := 8 + bitsOf w 2 3
def cHigh (w : Nat) : Nat := 8 + bitsOf w 7 3
def cRd (w : Nat) : Nat := bitsOf w 7 5
def cRs2 (w : Nat) : Nat := bitsOf w 2 5
def cImm6 (w : Nat) : Nat := bitsOf w 12 1 * 32 + bitsOf w 2 5
def cWord (w : Nat) : Nat := bitsOf w 10 3 * 8 + bitsOf w 6 1 * 4 + bitsOf w 5 1 * 64
def cDouble (w : Nat) : Nat := bitsOf w 10 3 * 8 + bitsOf w 5 2 * 64
def cWordSp (w : Nat) : Nat := bitsOf w 12 1 * 32 + bitsOf w 4 3 * 4 + bitsOf w 2 2 * 64
def cDoubleSp (w : Nat) : Nat := bitsOf w 12 1 * 32 + bitsOf w 5 2 * 8 + bitsOf w 2 3 * 64
def cStoreWordSp (w : Nat) : Nat := bitsOf w 9 4 * 4 + bitsOf w 7 2 * 64
def cStoreDoubleSp (w : Nat) : Nat := bitsOf w 10 3 * 8 + bitsOf w 7 3 * 64
def cBranch (w : Nat) : Nat :=
  sextTo 9 13 (bitsOf w 12 1 * 256 + bitsOf w 10 2 * 8 + bitsOf w 5 2 * 64 + bitsOf w 3 2 * 2 + bitsOf w 2 1 * 32)
def cJump (w : Nat) : Nat :=
  sextTo 12 21 (bitsOf w 12 1 * 2 ^ 11 + bitsOf w 11 1 * 16 + bitsOf w 9 2 * 256 + bitsOf w 8 1 * 1024 + bitsOf w 7 1 * 64
    + bitsOf w 6 1 * 128 + bitsOf w 3 3 * 2 + bitsOf w 2 1 * 32)

def cSet (b : Bool) (x : Nat) : Option Nat := if b then some x else none

/-! ### Quadrants -/

def rvcQ0 (w : Nat) : Option Nat :=
  let nz := bitsOf w 11 2 * 16 + bitsOf w 7 4 * 64 + bitsOf w 6 1 * 4 + bitsOf w 5 1 * 8
  match bitsOf w 13 3 with
  | 0 => cSet (nz != 0) (encI nz 2 0 (cLow w) 0x13)
  | 1 => some (encI (cDouble w) (cHigh w) 3 (cLow w) 0x07)
  | 2 => some (encI (cWord w) (cHigh w) 2 (cLow w) 0x03)
  | 3 => some (encI (cDouble w) (cHigh w) 3 (cLow w) 0x03)
  | 5 => some (encS (cDouble w) (cLow w) (cHigh w) 3 0x27)
  | 6 => some (encS (cWord w) (cLow w) (cHigh w) 2 0x23)
  | 7 => some (encS (cDouble w) (cLow w) (cHigh w) 3 0x23)
  | _ => none

/-- Shifts, AND and the register forms. -/
def rvcAlu (w : Nat) : Option Nat :=
  let rd := cHigh w
  match bitsOf w 10 2 with
  | 0 => some (encI (cImm6 w) rd 5 rd 0x13)
  | 1 => some (encI (0x400 + cImm6 w) rd 5 rd 0x13)
  | 2 => some (encI (sextTo 6 12 (cImm6 w)) rd 7 rd 0x13)
  | _ =>
    let rs2 := cLow w
    match bitsOf w 12 1 * 4 + bitsOf w 5 2 with
    | 0 => some (encR 0x20 rs2 rd 0 rd 0x33)
    | 1 => some (encR 0 rs2 rd 4 rd 0x33)
    | 2 => some (encR 0 rs2 rd 6 rd 0x33)
    | 3 => some (encR 0 rs2 rd 7 rd 0x33)
    | 4 => some (encR 0x20 rs2 rd 0 rd 0x3B)
    | 5 => some (encR 0 rs2 rd 0 rd 0x3B)
    | _ => none

def rvcQ1 (w : Nat) : Option Nat :=
  let rd := cRd w
  let imm := sextTo 6 12 (cImm6 w)
  let sp := sextTo 10 12 (bitsOf w 12 1 * 512 + bitsOf w 6 1 * 16 + bitsOf w 5 1 * 64 + bitsOf w 3 2 * 128 + bitsOf w 2 1 * 32)
  match bitsOf w 13 3 with
  | 0 => some (encI imm rd 0 rd 0x13)
  | 1 => cSet (rd != 0) (encI imm rd 0 rd 0x1B)
  | 2 => some (encI imm 0 0 rd 0x13)
  | 3 =>
    if cImm6 w = 0 then none
    else if rd = 2 then some (encI sp 2 0 2 0x13)
    else some (sextTo 6 20 (cImm6 w) * 4096 + rd * 128 + 0x37)
  | 4 => rvcAlu w
  | 5 => some (encJ (cJump w) 0)
  | 6 => some (encB (cBranch w) (cHigh w) 0)
  | _ => some (encB (cBranch w) (cHigh w) 1)

/-- Jumps through a register, moves, EBREAK and ADD. -/
def rvcJump (w : Nat) : Option Nat :=
  let rd := cRd w
  let rs2 := cRs2 w
  if bitsOf w 12 1 = 0 then
    if rs2 = 0 then cSet (rd != 0) (encI 0 rd 0 0 0x67) else some (encR 0 rs2 0 0 rd 0x33)
  else if rs2 = 0 then some (if rd = 0 then 0x00100073 else encI 0 rd 0 1 0x67)
  else some (encR 0 rs2 rd 0 rd 0x33)

def rvcQ2 (w : Nat) : Option Nat :=
  let rd := cRd w
  match bitsOf w 13 3 with
  | 0 => some (encI (cImm6 w) rd 1 rd 0x13)
  | 1 => some (encI (cDoubleSp w) 2 3 rd 0x07)
  | 2 => cSet (rd != 0) (encI (cWordSp w) 2 2 rd 0x03)
  | 3 => cSet (rd != 0) (encI (cDoubleSp w) 2 3 rd 0x03)
  | 4 => rvcJump w
  | 5 => some (encS (cStoreDoubleSp w) (cRs2 w) 2 3 0x27)
  | 6 => some (encS (cStoreWordSp w) (cRs2 w) 2 2 0x23)
  | _ => some (encS (cStoreDoubleSp w) (cRs2 w) 2 3 0x23)

/-- The 32-bit instruction of a compressed one. -/
def rvcExpand (w : Nat) : Option Nat :=
  match w % 4 with
  | 0 => rvcQ0 w
  | 1 => rvcQ1 w
  | _ => rvcQ2 w

end Sys2Proof.Machine
end

