-- ==== Sys2Proof/Machine/RvExec.lean ====
section
/-!
DEFINITION. The instructions of a Rind core (R394: RV64IMAFDC with Zicsr and Zifencei in M, S and U mode) and one cycle of the
cores (R398, R403 to R406): a core that runs executes one instruction in each 2.0 GHz cycle (assumption 125).
-/
namespace Sys2Proof.Machine

/-! ### Registers -/

/-- An integer register: x0 is 0, and in a fast handler x1 to x15 name the shadow bank (R403). -/
def rvX (r : Rind) (n : Nat) : U64 :=
  if n = 0 then 0 else if r.active && decide (n < 16) then tget 0 r.shadow n else tget 0 r.x n

def rvSetX (n : Nat) (v : U64) (r : Rind) : Rind :=
  if n = 0 then r else if r.active && decide (n < 16) then { r with shadow := tset 0 r.shadow n v } else { r with x := tset 0 r.x n v }

/-- A floating-point operand: a single that is not boxed reads as the canonical NaN. -/
def rvF (d : Bool) (r : Rind) (n : Nat) : Nat :=
  let v := (tget 0 r.fr n).toNat
  if d then v else if v / 2 ^ 32 = 2 ^ 32 - 1 then v % 2 ^ 32 else nanCode fFp32

def rvSetF (d : Bool) (n code : Nat) (r : Rind) : Rind :=
  fsDirty { r with fr := tset 0 r.fr n (BitVec.ofNat 64 (if d then code else code + (2 ^ 32 - 1) * 2 ^ 32)) }

/-- The accrued exceptions. -/
def rvFlags (fl : Nat) (r : Rind) : Rind :=
  if fl = 0 then r else fsDirty (setRindCsr csrFcsr (rindCsr r csrFcsr ||| BitVec.ofNat 64 fl) r)

/-! ### Fields of an instruction -/

def rvRd (w : Nat) : Nat := bitsOf w 7 5
def rvF3 (w : Nat) : Nat := bitsOf w 12 3
def rvRs1 (w : Nat) : Nat := bitsOf w 15 5
def rvRs2 (w : Nat) : Nat := bitsOf w 20 5
def rvF7 (w : Nat) : Nat := bitsOf w 25 7

def rvSext (n x : Nat) : U64 := (BitVec.ofNat n x).signExtend 64
def rvImmI (w : Nat) : U64 := rvSext 12 (bitsOf w 20 12)
def rvImmS (w : Nat) : U64 := rvSext 12 (bitsOf w 25 7 * 32 + bitsOf w 7 5)
def rvImmB (w : Nat) : U64 :=
  rvSext 13 (bitsOf w 31 1 * 2 ^ 12 + bitsOf w 7 1 * 2 ^ 11 + bitsOf w 25 6 * 32 + bitsOf w 8 4 * 2)
def rvImmU (w : Nat) : U64 := rvSext 32 (w / 4096 * 4096)
def rvImmJ (w : Nat) : U64 :=
  rvSext 21 (bitsOf w 31 1 * 2 ^ 20 + bitsOf w 12 8 * 2 ^ 12 + bitsOf w 20 1 * 2 ^ 11 + bitsOf w 21 10 * 2)

/-! ### Integer operations -/

/-- The low 32 bits, sign-extended. -/
def rvW (v : U64) : U64 := (v.setWidth 32).signExtend 64

/-- Signed quotient: -1 for a divisor of 0, the dividend on overflow. -/
def rvDivS (n : Nat) (a b : BitVec n) : BitVec n := if b = 0 then BitVec.allOnes n else a.sdiv b
def rvDivU (n : Nat) (a b : BitVec n) : BitVec n := if b = 0 then BitVec.allOnes n else a / b
def rvRemS (n : Nat) (a b : BitVec n) : BitVec n := if b = 0 then a else a.srem b
def rvRemU (n : Nat) (a b : BitVec n) : BitVec n := if b = 0 then a else a % b

/-- The M operations on 64 bits. -/
def rvMul (f3 : Nat) (a b : U64) : U64 :=
  match f3 with
  | 0 => a * b
  | 1 => BitVec.ofInt 64 (a.toInt * b.toInt / 2 ^ 64)
  | 2 => BitVec.ofInt 64 (a.toInt * b.toNat / 2 ^ 64)
  | 3 => BitVec.ofNat 64 (a.toNat * b.toNat / 2 ^ 64)
  | 4 => rvDivS 64 a b
  | 5 => rvDivU 64 a b
  | 6 => rvRemS 64 a b
  | _ => rvRemU 64 a b

/-- The base operations on 64 bits; `alt` is SUB and SRA. -/
def rvAlu (f3 : Nat) (alt : Bool) (a b : U64) : U64 :=
  match f3 with
  | 0 => if alt then a - b else a + b
  | 1 => a <<< (b.toNat % 64)
  | 2 => if a.slt b then 1 else 0
  | 3 => if a < b then 1 else 0
  | 4 => a ^^^ b
  | 5 => if alt then a.sshiftRight (b.toNat % 64) else a >>> (b.toNat % 64)
  | 6 => a ||| b
  | _ => a &&& b

/-- OP. -/
def rvOp (w : Nat) (a b : U64) : Option U64 :=
  match rvF7 w with
  | 0 => some (rvAlu (rvF3 w) false a b)
  | 1 => some (rvMul (rvF3 w) a b)
  | 0x20 => if rvF3 w = 0 ∨ rvF3 w = 5 then some (rvAlu (rvF3 w) true a b) else none
  | _ => none

/-- The 32-bit operations. -/
def rvAluW (f3 : Nat) (alt : Bool) (a b : U64) : Option U64 :=
  let x := a.setWidth 32
  let n := b.toNat % 32
  match f3 with
  | 0 => some (rvW (if alt then a - b else a + b))
  | 1 => if alt then none else some ((x <<< n).signExtend 64)
  | 5 => some ((if alt then x.sshiftRight n else x >>> n).signExtend 64)
  | _ => none

def rvMulW (f3 : Nat) (a b : U64) : Option U64 :=
  let x := a.setWidth 32
  let y := b.setWidth 32
  match f3 with
  | 0 => some (rvW (a * b))
  | 4 => some ((rvDivS 32 x y).signExtend 64)
  | 5 => some ((rvDivU 32 x y).signExtend 64)
  | 6 => some ((rvRemS 32 x y).signExtend 64)
  | 7 => some ((rvRemU 32 x y).signExtend 64)
  | _ => none

/-- OP-32. -/
def rvOpW (w : Nat) (a b : U64) : Option U64 :=
  match rvF7 w with
  | 0 => rvAluW (rvF3 w) false a b
  | 1 => rvMulW (rvF3 w) a b
  | 0x20 => rvAluW (rvF3 w) true a b
  | _ => none

/-- OP-IMM: the shifts take six bits and a fixed field above. -/
def rvOpImm (w : Nat) (a : U64) : Option U64 :=
  let sh := bitsOf w 26 6
  let f3 := rvF3 w
  if f3 = 1 then (if sh = 0 then some (rvAlu 1 false a (rvImmI w)) else none)
  else if f3 = 5 then (if sh = 0 ∨ sh = 0x10 then some (rvAlu 5 (sh == 0x10) a (rvImmI w)) else none)
  else some (rvAlu f3 false a (rvImmI w))

/-- OP-IMM-32. -/
def rvOpImmW (w : Nat) (a : U64) : Option U64 :=
  let f7 := rvF7 w
  let f3 := rvF3 w
  if f3 = 0 then rvAluW 0 false a (rvImmI w)
  else if f7 = 0 ∨ (f7 = 0x20 ∧ f3 = 5) then rvAluW f3 (f7 == 0x20) a (rvImmI w)
  else none

def rvBranch (f3 : Nat) (a b : U64) : Option Bool :=
  match f3 with
  | 0 => some (a == b)
  | 1 => some (a != b)
  | 4 => some (a.slt b)
  | 5 => some (!a.slt b)
  | 6 => some (decide (a < b))
  | 7 => some (!decide (a < b))
  | _ => none

/-- The new value of an atomic operation of `n` bytes; `none` for a reserved function. -/
def rvAmoOp (f5 n a b : Nat) : Option Nat :=
  let m := 2 ^ (8 * n)
  let less := decide ((BitVec.ofNat (8 * n) a).toInt < (BitVec.ofNat (8 * n) b).toInt)
  match f5 with
  | 0 => some ((a + b) % m)
  | 1 => some (b % m)
  | 4 => some (a ^^^ b % m)
  | 8 => some (a ||| b % m)
  | 12 => some (a &&& b % m)
  | 16 => some (if less then a else b % m)
  | 20 => some (if less then b % m else a)
  | 24 => some (min a (b % m))
  | 28 => some (max a (b % m))
  | _ => none

/-! ### Results -/

/-- What an instruction is executed with: the core, the pc, its length and the bits it was fetched as. -/
structure RvAt where
  k : Nat
  pc : U64
  len : Nat
  bits : Nat
deriving DecidableEq, Repr

/-- The pc of the next instruction. -/
def RvAt.next (x : RvAt) : U64 := x.pc + BitVec.ofNat 64 x.len

/-- An illegal instruction. -/
def rvIllegal (x : RvAt) (s : State) : RvOut U64 × State := (.trap 2 (BitVec.ofNat 64 x.bits), s)

/-- Write a register and go on. -/
def rvWrite (x : RvAt) (rd : Nat) (v : U64) (s : State) : RvOut U64 × State := (.ok x.next, s.updRind x.k (rvSetX rd v))

def rvResult (x : RvAt) (rd : Nat) (v : Option U64) (s : State) : RvOut U64 × State :=
  match v with
  | some v => rvWrite x rd v s
  | none => rvIllegal x s

/-! ### Loads, stores and atomic operations -/

/-- A loaded value as a register holds it. -/
def rvExtend (f3 v : Nat) : U64 := if f3 < 4 then rvSext (8 * 2 ^ f3) v else BitVec.ofNat 64 v

def rvExecLoad (x : RvAt) (w : Nat) (s : State) : RvOut U64 × State :=
  let f3 := rvF3 w
  if f3 = 7 then rvIllegal x s
  else rvThen (rvLoad x.k (2 ^ (f3 % 4)) (rvX (s.rindOf x.k) (rvRs1 w) + rvImmI w) s) (fun v s =>
    rvWrite x (rvRd w) (rvExtend f3 v) s)

/-- The low `n` bytes. -/
def lowBytes (n : Nat) (v : U64) : Nat := v.toNat % 2 ^ (8 * n)

def rvExecStore (x : RvAt) (w : Nat) (s : State) : RvOut U64 × State :=
  let f3 := rvF3 w
  let r := s.rindOf x.k
  if 3 < f3 then rvIllegal x s
  else rvThen (rvStore x.k (2 ^ f3) (lowBytes (2 ^ f3) (rvX r (rvRs2 w))) (rvX r (rvRs1 w) + rvImmS w) s) (fun _ s =>
    (.ok x.next, s))

/-- LR, SC and the AMOs; one core acts at a time, so aq and rl change nothing. -/
def rvExecAmo (x : RvAt) (w : Nat) (s : State) : RvOut U64 × State :=
  let r := s.rindOf x.k
  let n := 2 ^ rvF3 w
  let f5 := bitsOf w 27 5
  let va := rvX r (rvRs1 w)
  let b := lowBytes n (rvX r (rvRs2 w))
  if rvF3 w ≠ 2 ∧ rvF3 w ≠ 3 then rvIllegal x s
  else if f5 = 2 then
    if rvRs2 w ≠ 0 then rvIllegal x s
    else rvThen (rvLoadReserve x.k n va s) (fun v s => rvWrite x (rvRd w) (rvSext (8 * n) v) s)
  else if f5 = 3 then rvThen (rvStoreCond x.k n b va s) (fun v s => rvWrite x (rvRd w) (BitVec.ofNat 64 v) s)
  else if (rvAmoOp f5 n 0 0).isNone then rvIllegal x s
  else rvThen (rvAmo x.k n (fun a => (rvAmoOp f5 n a b).getD a) va s) (fun v s => rvWrite x (rvRd w) (rvSext (8 * n) v) s)

/-! ### Floating point -/

/-- The rounding mode of an instruction: 7 takes the one of fcsr; 5, 6 and a 7 there are reserved. -/
def rvRm (r : Rind) (w : Nat) : Option Nat :=
  let m := if rvF3 w = 7 then fieldOf (rindCsr r csrFcsr) 5 3 else rvF3 w
  if m < 5 then some m else none

/-- A result in a floating-point register with its flags. -/
def rvWriteF (x : RvAt) (d : Bool) (rd : Nat) (c : Nat × Nat) (s : State) : RvOut U64 × State :=
  (.ok x.next, s.updRind x.k (fun r => rvFlags c.2 (rvSetF d rd c.1 r)))

/-- A result in an integer register with its flags. -/
def rvWriteXF (x : RvAt) (rd : Nat) (v : U64) (fl : Nat) (s : State) : RvOut U64 × State :=
  (.ok x.next, s.updRind x.k (fun r => rvFlags fl (rvSetX rd v r)))

def rvFpLoad (x : RvAt) (w : Nat) (s : State) : RvOut U64 × State :=
  let f3 := rvF3 w
  if f3 ≠ 2 ∧ f3 ≠ 3 then rvIllegal x s
  else rvThen (rvLoad x.k (2 ^ f3) (rvX (s.rindOf x.k) (rvRs1 w) + rvImmI w) s) (fun v s =>
    rvWriteF x (f3 == 3) (rvRd w) (v, 0) s)

def rvFpStore (x : RvAt) (w : Nat) (s : State) : RvOut U64 × State :=
  let f3 := rvF3 w
  let r := s.rindOf x.k
  if f3 ≠ 2 ∧ f3 ≠ 3 then rvIllegal x s
  else rvThen (rvStore x.k (2 ^ f3) (lowBytes (2 ^ f3) (tget 0 r.fr (rvRs2 w))) (rvX r (rvRs1 w) + rvImmS w) s) (fun _ s =>
    (.ok x.next, s))

/-- FMADD, FMSUB, FNMSUB, FNMADD by bits 3 and 2 of the opcode. -/
def rvFused (x : RvAt) (w : Nat) (s : State) : RvOut U64 × State :=
  let r := s.rindOf x.k
  let d := bitsOf w 25 2 == 1
  let f := rvFmt d
  let a := rvF d r (rvRs1 w)
  let c := rvF d r (bitsOf w 27 5)
  let op := bitsOf w 2 2
  match rvRm r w with
  | some rm =>
    if 1 < bitsOf w 25 2 then rvIllegal x s
    else rvWriteF x d (rvRd w) (fpFma f rm (if 2 ≤ op then fpFlip f a else a) (rvF d r (rvRs2 w))
      (if op = 1 ∨ op = 3 then fpFlip f c else c)) s
  | none => rvIllegal x s

/-- An integer as a number. -/
def intVal (i : Int) : Val := if i = 0 then .zero false else .fin (decide (i < 0)) i.natAbs 0

/-- The integer types of the conversions: W, WU, L, LU. -/
def rvIntRange (t : Nat) : Int × Int :=
  match t with
  | 0 => (-(2 ^ 31), 2 ^ 31 - 1)
  | 1 => (0, 2 ^ 32 - 1)
  | 2 => (-(2 ^ 63), 2 ^ 63 - 1)
  | _ => (0, 2 ^ 64 - 1)

def rvIntOf (t : Nat) (v : U64) : Int :=
  match t with
  | 0 => (v.setWidth 32).toInt
  | 1 => ((v.setWidth 32).toNat : Int)
  | 2 => v.toInt
  | _ => (v.toNat : Int)

/-- An integer result in a register: the 32-bit ones are sign-extended. -/
def rvIntReg (t : Nat) (i : Int) : U64 := if t < 2 then rvW (BitVec.ofInt 64 i) else BitVec.ofInt 64 i

/-- The operations of OP-FP that round. -/
def rvFpRound (x : RvAt) (w rm : Nat) (d : Bool) (s : State) : RvOut U64 × State :=
  let r := s.rindOf x.k
  let f := rvFmt d
  let a := rvF d r (rvRs1 w)
  let b := rvF d r (rvRs2 w)
  let t := rvRs2 w
  match bitsOf w 27 5 with
  | 0x00 => rvWriteF x d (rvRd w) (fpAdd f rm a b) s
  | 0x01 => rvWriteF x d (rvRd w) (fpAdd f rm a (fpFlip f b)) s
  | 0x02 => rvWriteF x d (rvRd w) (fpMul f rm a b) s
  | 0x03 => rvWriteF x d (rvRd w) (fpDiv f rm a b) s
  | 0x0B => if t = 0 then rvWriteF x d (rvRd w) (fpSqrt f rm a) s else rvIllegal x s
  | 0x08 =>
    if t = bit01 (!d) then rvWriteF x d (rvRd w) (fpConvert (rvFmt (!d)) f rm (rvF (!d) r (rvRs1 w))) s else rvIllegal x s
  | 0x18 =>
    let c := fpToInt rm (rvIntRange t).1 (rvIntRange t).2 (decodeFloat f a)
    if t < 4 then rvWriteXF x (rvRd w) (rvIntReg t c.1) c.2 s else rvIllegal x s
  | 0x1A => if t < 4 then rvWriteF x d (rvRd w) (fpEnc f rm (intVal (rvIntOf t (rvX r (rvRs1 w))))) s else rvIllegal x s
  | _ => rvIllegal x s

/-- FMV between the register files, and FCLASS. -/
def rvFpMove (x : RvAt) (w : Nat) (d : Bool) (s : State) : RvOut U64 × State :=
  let r := s.rindOf x.k
  let raw := tget 0 r.fr (rvRs1 w)
  if rvRs2 w ≠ 0 then rvIllegal x s
  else if bitsOf w 27 5 = 0x1E then
    if rvF3 w = 0 then rvWriteF x d (rvRd w) (lowBytes (if d then 8 else 4) (rvX r (rvRs1 w)), 0) s else rvIllegal x s
  else if rvF3 w = 0 then rvWrite x (rvRd w) (if d then raw else rvW raw) s
  else if rvF3 w = 1 then rvWrite x (rvRd w) (BitVec.ofNat 64 (fpClass (rvFmt d) (rvF d r (rvRs1 w)))) s
  else rvIllegal x s

/-- OP-FP. -/
def rvExecFp (x : RvAt) (w : Nat) (s : State) : RvOut U64 × State :=
  let r := s.rindOf x.k
  let d := bitsOf w 25 2 == 1
  let f := rvFmt d
  let a := rvF d r (rvRs1 w)
  let b := rvF d r (rvRs2 w)
  let f3 := rvF3 w
  let f5 := bitsOf w 27 5
  if 1 < bitsOf w 25 2 then rvIllegal x s
  else if f5 = 0x04 then (if f3 < 3 then rvWriteF x d (rvRd w) (fpSgnj f f3 a b, 0) s else rvIllegal x s)
  else if f5 = 0x05 then (if f3 < 2 then rvWriteF x d (rvRd w) (fpMinMax f (f3 == 1) a b) s else rvIllegal x s)
  else if f5 = 0x14 then
    let c := fpCompare f f3 a b
    if f3 < 3 then rvWriteXF x (rvRd w) (BitVec.ofNat 64 c.1) c.2 s else rvIllegal x s
  else if f5 = 0x1C ∨ f5 = 0x1E then rvFpMove x w d s
  else
    match rvRm r w with
    | some rm => rvFpRound x w rm d s
    | none => rvIllegal x s

/-- While mstatus.FS is 0 every floating-point instruction is illegal. -/
def rvFpOn (x : RvAt) (f : RvAt → Nat → State → RvOut U64 × State) (w : Nat) (s : State) : RvOut U64 × State :=
  if msFs (s.rindOf x.k).mstatus = 0 then rvIllegal x s else f x w s

/-! ### System -/

/-- The value that a CSR instruction writes; `none` where it writes nothing. -/
def csrNew (w : Nat) (old src : U64) : Option U64 :=
  match rvF3 w % 4 with
  | 1 => some src
  | 2 => if rvRs1 w = 0 then none else some (old ||| src)
  | _ => if rvRs1 w = 0 then none else some (old &&& ~~~src)

/-- Whether an instruction writes minstret, which then does not count it. -/
def rvWritesInstret (w : Nat) : Bool :=
  bitsOf w 0 7 == 0x73 && rvF3 w != 0 && bitsOf w 20 12 == csrMinstret && (csrNew w 0 0).isSome

/-- CSRRW, CSRRS, CSRRC and their immediate forms. -/
def rvExecCsr (x : RvAt) (w : Nat) (s : State) : RvOut U64 × State :=
  let r := s.rindOf x.k
  let n := bitsOf w 20 12
  let src := if rvF3 w < 4 then rvX r (rvRs1 w) else BitVec.ofNat 64 (rvRs1 w)
  match csrView s x.k n with
  | none => rvIllegal x s
  | some old =>
    let new := csrNew w old src
    if csrOpen r n = false ∨ (n / 1024 = 3 ∧ new.isSome) then rvIllegal x s
    else
      let s1 := match new with
        | some v => s.updRind x.k (csrWrite (rindCycles s) n v)
        | none => s
      rvWrite x (rvRd w) old s1

/-- SRET: the status, the mode and the pc from sepc. -/
def rvSret (r : Rind) : Rind :=
  let p := fieldOf r.mstatus 8 1
  let ms := withField (withField (withField (withField r.mstatus 1 1 (fieldOf r.mstatus 5 1)) 5 1 1) 8 1 0) 17 1 0
  { r with pc := rindCsr r csrSepc, priv := p, mstatus := ms }

/-- A return: the pc stands in the state already. -/
def rvReturn (x : RvAt) (f : Rind → Rind) (s : State) : RvOut U64 × State :=
  let s1 := s.updRind x.k f
  (.ok (s1.rindOf x.k).pc, s1)

/-- A bit of mstatus that traps S-mode: TVM 20, TW 21, TSR 22. -/
def rvHeld (r : Rind) (bit : Nat) : Bool := r.priv == 0 || (r.priv == 1 && fieldOf r.mstatus bit 1 == 1)

/-- WFI: the core stands at it until it is woken (R406); TW holds it below M-mode. -/
def rvWfi (x : RvAt) (s : State) : RvOut U64 × State :=
  if rvHeld (s.rindOf x.k) 21 then rvIllegal x s else (.ok x.pc, s.setFld (pgRind x.k) evcCore_wfi 1)

def rvExecSystem (x : RvAt) (w : Nat) (s : State) : RvOut U64 × State :=
  let r := s.rindOf x.k
  if rvF3 w = 4 then rvIllegal x s
  else if rvF3 w ≠ 0 then rvExecCsr x w s
  else if rvF7 w = 0x09 ∧ rvRd w = 0 then (if rvHeld r 20 then rvIllegal x s else (.ok x.next, s))
  else if w = 0x00000073 then (.trap (8 + r.priv) 0, s)
  else if w = 0x00100073 then (.trap 3 x.pc, s)
  else if w = 0x10200073 ∧ rvHeld r 22 = false then rvReturn x rvSret s
  else if w = 0x30200073 ∧ (r.active || r.priv == 3) then rvReturn x rindMret s
  else if w = 0x10500073 then rvWfi x s
  else rvIllegal x s

/-! ### One instruction -/

/-- A jump that leaves the return address in rd. -/
def rvJump (x : RvAt) (rd : Nat) (target : U64) (s : State) : RvOut U64 × State :=
  (.ok target, s.updRind x.k (rvSetX rd x.next))

def rvExecBranch (x : RvAt) (w : Nat) (s : State) : RvOut U64 × State :=
  let r := s.rindOf x.k
  match rvBranch (rvF3 w) (rvX r (rvRs1 w)) (rvX r (rvRs2 w)) with
  | some true => (.ok (x.pc + rvImmB w), s)
  | some false => (.ok x.next, s)
  | none => rvIllegal x s

/-- A 32-bit instruction: its effect but for the pc, and the pc that follows. -/
def rvExec (x : RvAt) (w : Nat) (s : State) : RvOut U64 × State :=
  let r := s.rindOf x.k
  let a := rvX r (rvRs1 w)
  let b := rvX r (rvRs2 w)
  match bitsOf w 0 7 with
  | 0x03 => rvExecLoad x w s
  | 0x07 => rvFpOn x rvFpLoad w s
  | 0x0F => if rvF3 w < 2 then (.ok x.next, s) else rvIllegal x s
  | 0x13 => rvResult x (rvRd w) (rvOpImm w a) s
  | 0x17 => rvWrite x (rvRd w) (x.pc + rvImmU w) s
  | 0x1B => rvResult x (rvRd w) (rvOpImmW w a) s
  | 0x23 => rvExecStore x w s
  | 0x27 => rvFpOn x rvFpStore w s
  | 0x2F => rvExecAmo x w s
  | 0x33 => rvResult x (rvRd w) (rvOp w a b) s
  | 0x37 => rvWrite x (rvRd w) (rvImmU w) s
  | 0x3B => rvResult x (rvRd w) (rvOpW w a b) s
  | 0x43 | 0x47 | 0x4B | 0x4F => rvFpOn x rvFused w s
  | 0x53 => rvFpOn x rvExecFp w s
  | 0x63 => rvExecBranch x w s
  | 0x67 => if rvF3 w = 0 then rvJump x (rvRd w) ((a + rvImmI w) &&& ~~~1) s else rvIllegal x s
  | 0x6F => rvJump x (rvRd w) (x.pc + rvImmJ w) s
  | 0x73 => rvExecSystem x w s
  | _ => rvIllegal x s

/-- The instruction as it was fetched. -/
def rvDecoded (len bits : Nat) : Option Nat := if len = 4 then some bits else rvcExpand bits

/-- The handoff stub, all that the boot ROM holds (14_boot_and_security.md): it jumps to the HBM byte of QD0 that RNT_HANDOFF
names. -/
def romHandoff (s : State) : U64 := BitVec.ofNat 64 (2 ^ 38) + BitVec.ofNat 64 (s.fld pgRennet rntHandoff_entryAddr)

/-- The instruction at the pc: the pc that follows, and whether minstret counts it. -/
def rvInstr (k : Nat) (s : State) : RvOut (U64 × Bool) × State :=
  let pc := (s.rindOf k).pc
  rvThen (rvAddress k .fetch pc 2 s) (fun pa s =>
    match rvPlace pa with
    | .rom _ => (.ok (romHandoff s, false), s)
    | _ =>
      rvThen (rvFetch k pc s) (fun c s =>
        let x : RvAt := ⟨k, pc, c.2, c.1⟩
        match rvDecoded c.2 c.1 with
        | none => rvThen (rvIllegal x s) (fun next s => (.ok (next, false), s))
        | some w => rvThen (rvExec x w s) (fun next s => (.ok (next, !rvWritesInstret w), s))))

/-- mtval is the value given or 0, as RISC-V leaves open. -/
def rvTrap (k cause : Nat) (tval : U64) (s : State) : State :=
  rindTrap k cause (if s.draw.1.toNat % 2 = 1 then tval else 0) s.draw.2

/-- An instruction ends: the pc moves on and minstret counts, unless it stopped or restarted its own core. -/
def rvRetire (k : Nat) (pc : U64) (c : U64 × Bool) (s : State) : State :=
  if rindRuns s k ∧ ((s.rindOf k).pc = pc ∨ (s.rindOf k).pc = c.1) then
    s.updRind k (fun r =>
      { setRindCsr csrMinstret (rindCsr r csrMinstret + BitVec.ofNat 64 (bit01 c.2)) r with pc := c.1 })
  else s

/-- The software interrupt that is pending, enabled and taken now: those of M-mode first, then SEI 9, SSI 1, STI 5; none in a fast
handler. -/
def rvLocalIrq (r : Rind) : Option Nat :=
  let open_ (i : Nat) : Bool :=
    fieldOf (rindCsr r csrMip) i 1 == 1 && fieldOf r.mie i 1 == 1
      && (if fieldOf (rindCsr r csrMideleg) i 1 = 1 then r.priv == 0 || (r.priv == 1 && fieldOf r.mstatus 1 1 == 1)
        else decide (r.priv < 3) || msMie r.mstatus == 1)
  let mine (i : Nat) : Bool := fieldOf (rindCsr r csrMideleg) i 1 == 0
  if r.active then none else ([9, 1, 5].filter mine ++ [9, 1, 5].filter (fun i => !mine i)).find? open_

/-- An interrupt that is pending and enabled in mip and mie ends WFI, whatever the modes. -/
def rvIrqWakes (r : Rind) : Bool := (rindCsr r csrMip &&& r.mie) != 0

/-- One cycle of a core. -/
def rindStep (k : Nat) (s : State) : State :=
  if rindRuns s k = false then s
  else
    let s0 := if rvIrqWakes (s.rindOf k) then leaveWfi k s else s
    if s0.flag (pgRind k) evcCore_wfi then s0
    else
      match rvLocalIrq (s0.rindOf k) with
      | some i => s0.updRind k (trapTaken true i 0)
      | none =>
        let pc := (s0.rindOf k).pc
        let r := rvInstr k s0
        match r.1 with
        | .ok c => rvRetire k pc c r.2
        | .trap c v => rvTrap k c v r.2
        | .stall => r.2

/-- One cycle of the sixteen cores, in ascending order. -/
def rindCores (s : State) : State := forAll rindStep (List.range 16) s

end Sys2Proof.Machine
end

