-- ==== Sys2Proof/Machine/Tick.lean ====
section
/-!
DEFINITION. One 2.0 GHz cycle of the module, which a step makes while no command waits (assumption 1): the next cycle
(`nextCycle`), what units do at their own time (R160, R386, R415, R418, R421), and the instructions of the Rind cores (R394).
-/
namespace Sys2Proof.Machine

/-- A cycle in which no command arrives. -/
def tick (s : State) : State := rindCores (settleAll (tempCheck (darken (testStart (retryUnparks (nextCycle s))))))

end Sys2Proof.Machine
end

