-- ==== Sys2Proof/Safety.lean ====
section
/-!
DEFINITION. What counts as a safe run: the block answers every command with a next state, since no rule of the spec stops
the module. The canonical form of a state, which every step keeps: equal register files, and equal memories, are equal data.
-/
namespace Sys2Proof

/-- The next `k` steps from a state all answer a next state. -/
def SafeFor (k : Nat) (s : Machine.State) : Prop := ∃ t, core.run k s = .next t

/-- The register file lists rising addresses and no register that holds its Reset value (R455). -/
abbrev RegsOk (s : Machine.State) : Prop := Machine.tabOk (Machine.regReset s.fuses) none s.regs = true

/-- Registers and memory are in their canonical form. -/
abbrev Canon (s : Machine.State) : Prop := RegsOk s ∧ Machine.Memory.wf s.mem = true

/-- The state in which an input of key `k` is judged: it has left the inbox, and where the rules of one cycle order it before
what has happened in this cycle, the next cycle has begun (R130). -/
def inputSeen (s : Machine.State) (i : Machine.InPkt) (k : Key) : Machine.State :=
  Machine.orNext (Machine.actAbove s (.input k) i.port || Machine.acted s (.freed k)) { s with inbox := s.inbox.erase i }

/-- An input passes every check at the entry `y` of its scope, whose word is sound, and its key is not retained; the mask entry
that it may need can be read (R60, R150, R155, R170, R345, R355). -/
abbrev InputPasses (s : Machine.State) (cn : Bool) (p : Packet) (e : ExtHdr) (y : Machine.ScopeE × Nat) : Prop :=
  Machine.crcGood p = true ∧ Machine.entryAsk s e = .ready ∧ Machine.groupCheck s cn p e = true ∧ Machine.epochOk s e = true ∧
  Machine.inputEntry s e = some y ∧ Machine.findRetained s (Machine.extKey e) = none ∧
  Machine.upsetIn s (Machine.keyHome s (Machine.extKey e))
    (Machine.grpF s e.group Machine.grpScope_scopeBase + 8 * y.2) 8 = false

/-- The word at a core's pc, in its instruction cache, is the instruction `w` of opcode `op` (R211, R226). -/
abbrev CurdFetched (core op : Nat) (w : CurdWord) (s : Machine.State) : Prop :=
  (Machine.fetchedWord s core).map (fun x => (x % 256, curdFields x)) = some (op, w)

/-- Nothing keeps a core from issuing the instruction `w` of opcode `op`: it has fetched it, it runs, its scoreboard is
empty, its pc lies in the program store, the word is legal, the 2 cycles after a branch have passed, and nothing of the core has
been issued, has completed or has stored to local memory in this cycle (R201, R207, R210, R211, R212, R218, R228, R251). -/
abbrev CurdIssues (core op : Nat) (w : CurdWord) (s : Machine.State) : Prop :=
  CurdFetched core op w s ∧ (s.core core).st = .running ∧ (s.core core).sb = [] ∧ (s.core core).fetching = false ∧
  (s.core core).pc < Machine.storeWords s (Machine.vatOf core) ∧ Machine.legal (s.core core).cmode op w = true ∧
  (s.core core).issueFrom ≤ s.cyc ∧ Machine.acted s (.issued core) = false ∧ Machine.retiredNow s core = [] ∧
  Machine.storedBefore s core (s.core core).issued = false

/-- Beside it, the regions that the word declares are aligned and inside their spaces, or the core is in compatibility
mode (R205, R227). -/
abbrev CurdReady (core op : Nat) (w : CurdWord) (s : Machine.State) : Prop :=
  CurdIssues core op w s ∧ ((s.core core).cmode = true ∨
    (Machine.regionsNow (s.core core) w).all (Machine.regionGood s (Machine.vatOf core)) = true)

/-- The guard of a word is true on a core (R229). -/
abbrev CurdGuard (core : Nat) (w : CurdWord) (s : Machine.State) : Prop := ((s.core core).preg w.pr != (w.pn == 1)) = true

/-- The scoreboard entry of an instruction that has been issued on a core. -/
def curdFresh (core op : Nat) (w : CurdWord) (s : Machine.State) : Machine.Sb :=
  Machine.freshSb (s.core core).issued op (s.core core).pc w

/-- That entry once it has started: what it reads is captured (R204, R227). -/
def curdEntry (core op : Nat) (w : CurdWord) (s : Machine.State) : Machine.Sb :=
  { curdFresh core op w s with started := true, cap := Machine.capture (s.core core) w }

/-- The state in which a core has issued an instruction in this cycle (R201). -/
def curdSent (core : Nat) (s : Machine.State) : Machine.State := Machine.noteAct (.issued core) 0 s

/-- The state in which that instruction has also started in this cycle (R207). -/
def curdBegun (core : Nat) (s : Machine.State) : Machine.State :=
  Machine.noteAct (.begun core) (s.core core).issued (curdSent core s)

/-- The state in which the instruction of entry `e` has completed in this cycle (R207). -/
def curdRetired (core : Nat) (e : Machine.Sb) (s : Machine.State) : Machine.State := Machine.noteAct (.retired core e) 0 s

/-- A core that has issued the instruction at its pc (R225). -/
def curdMoved (core : Nat) (s : Machine.State) : Machine.Core :=
  { s.core core with pc := ((s.core core).pc + 1) % 2 ^ 24, issued := (s.core core).issued + 1 }

/-- A core on which a branch goes on at the next word; the next instruction issues 2 cycles later (R251). -/
def curdNext (core : Nat) (s : Machine.State) : Machine.State :=
  (curdSent core s).setCore core { s.core core with pc := ((s.core core).pc + 1) % 2 ^ 24, issueFrom := s.cyc + 2 }

/-- That core when it has issued an instruction that is in its scoreboard no longer. -/
def curdIssued (core : Nat) (s : Machine.State) : Machine.State := (curdBegun core s).setCore core (curdMoved core s)

/-- An instruction has been issued, has started and has completed, and leaves the core as `c`. -/
def curdDone (core op : Nat) (w : CurdWord) (c : Machine.Core) (s : Machine.State) : Machine.State :=
  curdRetired core (curdEntry core op w s) ((curdBegun core s).setCore core c)

/-- That core with one entry in its scoreboard. -/
def curdHeld (core op : Nat) (w : CurdWord) (s : Machine.State) : Machine.State :=
  (curdBegun core s).setCore core { curdMoved core s with sb := [curdEntry core op w s] }

/-- The one entry `e` of a core's scoreboard completes: the scoreboard is empty (R201). -/
def curdFreed (core : Nat) (e : Machine.Sb) (s : Machine.State) : Machine.State :=
  curdRetired core e (s.updCore core (fun c => { c with sb := [] }))

end Sys2Proof
end

