-- ==== Sys2Proof/Certificates/Slice0/Obligations.lean ====
section
/-!
DEFINITION. The statements for the provers, each a proposition about `Sys2Proof.Machine.exec`, `step` or a shared operation
for every state and every operand that meet its premises. A premise says only when a command applies; what it leaves
out, another clause covers. The queue is no part of a command's effect, so every equation gives the whole next state.
-/
open Sys2Proof Sys2Proof.Machine


/-- O1. A step runs the front command on the state with the queue's rest; with no command waiting a 2.0 GHz cycle passes,
which is the model's choice (assumption 1). The opcode table gives no row any bits, so no word spells a command
(assumption 17). Cites 01_architecture. -/
def Obligations.StepRunsFront : Prop :=
  (∀ (c : Instr) (cs : List Instr) (s : State),
      step { s with pending := c :: cs } = exec c { s with pending := cs }) ∧
    (∀ s : State, s.pending = [] → step s = .next (tick s)) ∧
    (∀ (n w : Nat) (s : State), decodeTableWord n w = none ∧ s.withFetchWord n w = s)

/-- O2. Reset: the Reset value of every register (R455), no port formed, every Curd core IDLE, every group disabled, and
nothing queued anywhere. That an unlisted byte of memory reads 0 is the model's choice (assumption 2). Cites
15_registers, 02_fabric_transport, 06_curd_execution, 04_canonical_reduction. -/
def Obligations.ResetState : Prop :=
  (∀ addr, State.reset.rd addr = regReset Fuses.reset addr) ∧
    State.reset.pending = [] ∧ State.reset.mem = [] ∧ Canon State.reset ∧
    (∀ p, (State.reset.port p).formed = false ∧ (State.reset.port p).st = .down) ∧
    (∀ c, (State.reset.core c).st = .idle ∧ (State.reset.core c).items = []) ∧
    (∀ g, g < 4096 → grpFlag State.reset g grpCfg_enable = false ∧ grpFlag State.reset g grpCfg_enabled = false) ∧
    State.reset.slots = [] ∧ State.reset.waiting = [] ∧ State.reset.inbox = [] ∧ State.reset.out = [] ∧
    State.reset.fld pgTwin twnStat_state = 0 ∧ State.reset.fld pgRennet rntBoot_codeA = 0x0A ∧
    State.reset.fld (pgVat 0) vatCfg_scaleHi = 0xFE ∧ State.reset.fld (pgLane 511) prtSched_sp = 0x80

/-- O3. a register reads back what was stored, and no other register changes. Cites 00_scope, 15_registers. -/
def Obligations.RegisterReadBack : Prop :=
  ∀ (s : State) (a : Nat) (v : U64), RegsOk s →
      (s.wr a v).rd a = v ∧ (∀ b, b ≠ a → (s.wr a v).rd b = s.rd b) ∧ RegsOk (s.wr a v) ∧
      s.wr a v = { s with regs := (s.wr a v).regs }

/-- O4. The three memory laws that later statements rest on; the second is R335's layout, the third R352's order. Cites
06_curd_execution, 11_cellar_and_memory, 01_architecture. -/
def Obligations.MemoryReadBack : Prop :=
  (∀ (s : State) (sp off : Nat) (bs : List Byte), Memory.wf s.mem = true → sp ≠ spRom →
      rdBytes (wrBytes s sp off bs) sp off bs.length = bs ∧
      (∀ sp' off', (∀ i, i < bs.length → memKey sp' off' ≠ memKey sp (off + i)) →
        rdByte (wrBytes s sp off bs) sp' off' = rdByte s sp' off') ∧
      Memory.wf (wrBytes s sp off bs).mem = true) ∧
  (∀ (s : State) (b req : Nat) (cell data : List Byte),
      Memory.wf s.mem = true →
      s.same.stores = [] →
      b < 4 * 65536 →
      handleOk s (bufHandle b) = true →
      cell.length ≤ 64 →
      data.length ≤ 4096 →
      let t := fillBuf b req cell data s
      let sp := spCellar (bufQuad b)
      let o := bufOff s b
      rdBytes t sp o cell.length = cell ∧ rdBytes t sp (o + 64) data.length = data ∧
      (∀ sp' a, a < 2 ^ 40 → (sp' ≠ sp ∨ a < o ∨ o + 64 + data.length ≤ a) → rdByte t sp' a = rdByte s sp' a)) ∧
  (∀ (s : State) (sp off r1 r2 : Nat) (o1 o2 xs ys : List Byte),
      Memory.wf s.mem = true →
      sp ≠ spRom →
      s.same.stores = [] →
      r2 < r1 →
      xs.length = ys.length →
      rdBytes (storeBytes sp off r2 o2 ys (storeBytes sp off r1 o1 xs s)) sp off xs.length = xs ∧
      rdBytes (storeBytes sp off r1 o1 xs (storeBytes sp off r2 o2 ys s)) sp off xs.length = xs)

/-- O5. the page of an absent instance reads 0 in every register and ignores every write. Cites R6. -/
def Obligations.AbsentPagesReadZero : Prop :=
  ∀ (s : State) (addr : Nat) (x : Loc), locate addr = some x → present s.fuses x.kind x.inst = false →
      busRead addr s = (0, s) ∧
      (∀ req v, exec (.registerWrite req addr v) s = .next s) ∧
      (∀ req size, exec (.unalignedAccess req addr size true) s = .next s) ∧
      (∀ req v, exec (.counterClear req addr v) s = .next s) ∧
      (∀ req page v, page + 0x30 = addr → exec (.eventTest req page v) s = .next s) ∧
      (∀ req page, page + 0x38 = addr → exec (.errCntClear req page) s = .next s) ∧
      (∀ req page, page + 0x10 = addr → exec (.unitEnable req page) s = .next s ∧
        exec (.drainUnit req page) s = .next s ∧ exec (.drainCancel req page) s = .next s ∧
        exec (.forcedDisable req page) s = .next s ∧ exec (.blockReset req page) s = .next s)

/-- O6. the units absent in an XGL-9216. Cites R4. -/
def Obligations.GradeXgl9216 : Prop :=
  ∀ f : Fuses, f.grade = .xgl9216 →
      (∀ l, 256 ≤ l → l < 512 → lanePresent f l = false) ∧ quadPresent f 2 = false ∧ quadPresent f 3 = false ∧
      twinPresent f = false

/-- O7. The access codes of R9, the same-clock rule of R11 and the counters of R489, for every field of every register.
Cites 00_scope, 15_registers. -/
def Obligations.AccessCodes : Prop :=
  ∀ (req : Nat) (x : Loc) (v : U64) (s : State), RegsOk s → lostRace s req (x.base + x.off) = false →
      rsvWritten x.fields v = false →
      let t := plainWrite req x v (fun _ => false) s
      (∀ f ∈ x.fields, match f.acc with
        | .rw => fieldOf (t.rd (x.base + x.off)) f.fd.l f.fd.w = fieldOf v f.fd.l f.fd.w
        | .ro | .wo => fieldOf (t.rd (x.base + x.off)) f.fd.l f.fd.w = fieldOf (s.rd (x.base + x.off)) f.fd.l f.fd.w
        | .cnt => fieldOf (t.rd (x.base + x.off)) f.fd.l f.fd.w =
            if fieldOf v f.fd.l f.fd.w = 0 then 0 else fieldOf (s.rd (x.base + x.off)) f.fd.l f.fd.w
        | .w1c => ∀ i, i < f.fd.w → (t.rd (x.base + x.off)).getLsbD (f.fd.l + i) =
            ((s.rd (x.base + x.off)).getLsbD (f.fd.l + i) &&
              !(v.getLsbD (f.fd.l + i) && !(setNow s x).testBit (f.fd.l + i)))) ∧
      (∀ b, b ≠ x.base + x.off → t.rd b = s.rd b) ∧ t.mem = s.mem ∧ t.ports = s.ports ∧ t.slots = s.slots

/-- O8. Completion of the plain register commands, with the whole next state. Cites 00_scope, 15_registers. -/
def Obligations.RegisterWrites : Prop :=
  (∀ (s : State) (req addr : Nat) (v : U64),
      pathOpen s req = false →
      exec (.registerWrite req addr v) s = .next s ∧ exec (.counterClear req addr v) s = .next s ∧
      exec (.errCntClear req addr) s = .next s ∧ exec (.eventTest req addr v) s = .next s) ∧
  (∀ (s : State) (req addr : Nat) (v : U64) (x : Loc),
      pathOpen s req = true →
      presentLoc s addr = some x →
      x.kind.isWindow = false →
      x.off = 0x28 →
      addr % 8 = 0 →
      lostRace s req addr = false →
      exec (.registerWrite req addr v) s = .next (noteWrite req addr ((noteReg addr s).wr addr v))) ∧
  (∀ (s : State) (req r : Nat) (v : U64),
      pathOpen s req = true →
      r < 262144 →
      lostRace s req (routeAt r) = false →
      v &&& 0x7000700070007000#64 = 0 →
      s.rd (routeAt r) &&& 0x7000700070007000#64 = 0 →
      s.same.oldReg = [] →
      let a := routeAt r
      exec (.registerWrite req a v) s = .next (noteWrite req a
        { s.wr a v with same := { s.same with oldReg := [(a, s.rd a)] } })) ∧
  (∀ (s : State) (req vat : Nat) (v : U64),
      pathOpen s req = true →
      vatPresent s.fuses vat = true →
      isDark s (puVat vat) = false →
      fieldOf v vatCnt_refused.l vatCnt_refused.w = 0 →
      fieldOf v vatCnt_inb.l vatCnt_inb.w ≠ 0 →
      fieldOf v vatCnt_rdisc.l vatCnt_rdisc.w ≠ 0 →
      fieldOf v vatCnt_partial.l vatCnt_partial.w ≠ 0 →
      exec (.counterClear req (pgVat vat + 0x128) v) s =
        .next (noteWrite req (pgVat vat + 0x128) ((noteReg (pgVat vat + 0x128) s).setFld (pgVat vat) vatCnt_refused 0))) ∧
  (∀ (s : State) (req page : Nat) (x : Loc),
      pathOpen s req = true →
      presentLoc s (page + 0x38) = some x →
      x.kind.isWindow = false →
      x.off = 0x38 →
      x.base = page →
      s.same.errs.all (fun e => e.1 != page) = true →
      exec (.errCntClear req page) s = .next ((noteReg (page + 0x38) s).wr (page + 0x38) 0)) ∧
  (∀ (s : State) (req page : Nat) (x : Loc),
      pathOpen s req = true →
      presentLoc s (page + 0x38) = some x →
      x.kind.isWindow = false →
      x.off = 0x38 →
      x.base = page →
      s.same.errs = [(page, 1)] →
      exec (.errCntClear req page) s =
        .next ((noteReg (page + 0x38) s).wr (page + 0x38) (withField (s.rd (page + 0x38)) blkErrCnt_count.l blkErrCnt_count.w 1))) ∧
  (∀ (s : State) (req page k : Nat) (x : Loc),
      pathOpen s req = true →
      presentLoc s (page + 0x30) = some x →
      x.kind.isWindow = false →
      x.base = page →
      k < 9 →
      eventMask x.kind / 2 ^ k % 2 = 1 →
      exec (.eventTest req page (BitVec.ofNat 64 (2 ^ k))) s = .next (raiseEv page k s))

/-- O9. a narrow or unaligned access is discarded, reads 0 and is counted. Cites R12. -/
def Obligations.UnalignedAccess : Prop :=
  (∀ (s : State) (req addr size : Nat) (x : Loc),
      pathOpen s req = true →
      presentLoc s addr = some x →
      (¬(size = 8 ∧ addr % 8 = 0)) →
      exec (.unalignedAccess req addr size true) s = .next (errCount x.owner x.lastOff 1 s) ∧
      exec (.unalignedAccess req addr size false) s =
        .next ((errCount x.owner x.lastOff 1 s).emit (.readData req addr 0)))

/-- O10. R456 (BLK_ERR_CNT) and R458 (event 0 of every page), for every page, offset and cause that the fields can hold.
Cites 15_registers. -/
def Obligations.CountedAccess : Prop :=
  (∀ (s : State) (page off cause : Nat), RegsOk s → off < 2 ^ blkErrCnt_lastOff.w → cause < 2 ^ blkErrCnt_cause.w →
      let t := errCount page off cause s
      t.fld page blkErrCnt_count = min (s.fld page blkErrCnt_count + 1) (2 ^ blkErrCnt_count.w - 1) ∧
      t.fld page blkErrCnt_lastOff = off ∧ t.fld page blkErrCnt_cause = cause ∧
      t.rd (page + 0x20) = s.rd (page + 0x20) ||| 1 ∧
      (∀ b, b ≠ page + 0x38 → b ≠ page + 0x20 → t.rd b = s.rd b) ∧ t.mem = s.mem) ∧
    (∀ (s : State) (page k : Nat), RegsOk s → k < 64 →
      let t := raiseEv page k s
      (∀ i, i < 64 → (t.rd (page + 0x20)).getLsbD i = ((s.rd (page + 0x20)).getLsbD i || decide (i = k))) ∧
      (∀ b, b ≠ page + 0x20 → t.rd b = s.rd b) ∧ t.mem = s.mem)

/-- O11. R377, R455 and R456 for ports, Press arrays, Vats and HBM stacks; `w` is the write of BLK_CTRL alone. Cites
12_twin_faults_determinism, 15_registers. -/
def Obligations.BlockControl : Prop :=
  ∀ (s : State) (req page : Nat) (x : Loc), RegsOk s → pathOpen s req = true →
      presentLoc s (page + 0x10) = some x → x.kind.isWindow = false → x.base = page → x.off = 0x10 →
      drainOk x.kind = true → lostRace s req (page + 0x10) = false →
      let w := fun (f : U64 → U64) => plainWrite req x (f (s.rd (page + 0x10))) (fun _ => false) s
      let en := fun v => withField v 0 1 1
      let dr := fun v => withField v 1 1 1
      let cancel := fun v => withField (withField v 1 1 0) 0 1 1
      let off := fun v => withField v 0 1 0
      let rst := fun v => withField v 2 1 1
      (isEnabled s page = false → isDrain s page = false →
        exec (.unitEnable req page) s = .next (returnToService x (w en)) ∧ isEnabled (w en) page = true) ∧
      (isEnabled s page = true → isDrain s page = false →
        exec (.drainUnit req page) s = .next (enterDraining x (w dr)) ∧ isDrain (w dr) page = true ∧
        takesWork (w dr) page 0 = false) ∧
      (isEnabled s page = true → isDrain s page = true →
        exec (.drainCancel req page) s = .next (returnToService x (w cancel)) ∧ isDrain (w cancel) page = false ∧
        isEnabled (w cancel) page = true) ∧
      (isEnabled s page = true →
        exec (.forcedDisable req page) s = .next (forceDisable x (w off)) ∧ isEnabled (w off) page = false) ∧
      (isEnabled s page = false → holdsNothing s x = true →
        exec (.blockReset req page) s = .next (blockReset x (w rst)) ∧
        ∀ a, page + 0x100 ≤ a → a < page + 0x1000 → (blockReset x (w rst)).rd a = regReset s.fuses a) ∧
      (isEnabled s page = true → isDrain s page = false →
        exec (.blockReset req page) s = .next (errCount page 0x10 2 (w rst)))

/-- O12. R38, R40, R82 and R490: each equation is the whole next state. Cites 02_fabric_transport. -/
def Obligations.LinkBringup : Prop :=
  (∀ (s : State) (p : Nat),
      inStep s p 1 = true →
      exec (.pmdTrainingDone p true) s = .next (s.setPort p { s.port p with
        step := 2, stepAt := s.cyc, stepEnd := some (s.cyc + 20000000) }) ∧
      exec (.pmdTrainingDone p false) s = .next (stepFail p 1 s)) ∧
  (∀ (s : State) (p : Nat),
      inStep s p 2 = true →
      (s.port p).eth = false →
      s.ownFid ≠ 0 →
      let y := { s.port p with step := 3, stepAt := s.cyc, stepEnd := some (s.cyc + 4000000) }
      exec (.fecLock p) s = .next (((s.setPort p y).emit (.lctl p (mkLctl y 2 (helloBody (s.setPort p y) p)))).setPort p
        { y with helloAt := some (s.cyc + 20000), acked := y.e })) ∧
  (∀ (s : State) (p : Nat),
      inStep s p 2 = true →
      (s.port p).eth = true →
      s.fld (pgLane p) prtEth_ethRtt ≤ 50 →
      exec (.fecLock p) s = .next (drainedDown p (raiseEv (pgLane p) 8 (fillHeadroom p (s.setPort p { s.port p with
        st := .up, step := 7, rtt := s.fld (pgLane p) prtEth_ethRtt, stepEnd := none, helloAt := none,
        lastLctl := s.cyc, idleSince := s.cyc }))))) ∧
  (∀ (s : State) (p : Nat),
      inStep s p 2 = true →
      (s.port p).eth = true →
      50 < s.fld (pgLane p) prtEth_ethRtt →
      exec (.fecLock p) s = .next (stepFail p 4 (s.setPort p { s.port p with step := 4 }))) ∧
  (∀ (s : State) (p t : Nat),
      (s.port p).helloAt = some t →
      t ≤ s.cyc →
      (inStep s p 3 = true ∨ inStep s p 4 = true) →
      exec (.helloTimer p) s = .next ((s.emit (.lctl p (mkLctl (s.port p) 2 (helloBody s p)))).setPort p
        { s.port p with helloAt := some (t + 20000), acked := (s.port p).e })) ∧
  (∀ (s : State) (p t : Nat),
      (s.port p).st = .bringup →
      (s.port p).stepEnd = some t →
      t ≤ s.cyc →
      ((s.port p).step = 2 ∨ (s.port p).step = 3 ∨ (s.port p).step = 4 ∨ (s.port p).step = 6) →
      exec (.bringupStepTimeout p) s =
        .next (stepFail p (if (s.port p).step = 2 then 2 else if (s.port p).step = 4 then 4 else 3) s)) ∧
  (∀ (s : State) (p t : Nat),
      (s.port p).st = .down →
      (s.port p).retryAt = some t →
      t ≤ s.cyc →
      wantsUp s p = true →
      lanesFree s p (cfgWidth s p) = true →
      exec (.bringupRetry p) s = .next (s.setPort p { s.port p with
        st := .bringup, retryAt := none, w := cfgWidth s p, eth := s.flag (pgLane p) prtCfg_mode, rtt := 0,
        echoDone := 0, longReach := false, step := 1, stepAt := s.cyc, stepEnd := none }))

/-- O13. R460, R461 and R454. That an overtaken write stores its fields and forms no port is the model's reading (assumption
78). `w` is the write of PRT_CFG alone. That landPg and landSteps of a dissolved port stay with the lane is the
model's choice (assumption 96). Cites 15_registers, 02_fabric_transport. -/
def Obligations.PortRequests : Prop :=
  (∀ (s : State) (req l : Nat) (v : U64),
      pathOpen s req = true →
      lanePresent s.fuses l = true →
      isMember s l = false →
      fieldOf v 5 1 = 1 →
      fieldOf v 6 2 = 0 →
      (s.port l).formed = false →
      lostRace s req (pgLane l + 0x100) = false →
      lanesFree s l (2 ^ fieldOf v 0 2) = true →
      let w := plainWrite req (pageLoc .lane l (pgLane l) 0x100) v (fun _ => false) s
      let t := w.setPort l { w.port l with formed := true, w := cfgWidth w l, eth := w.flag (pgLane l) prtCfg_mode }
      exec (.portUpReq req l v) s = .next (if wantsUp t l then startBringup l t else t)) ∧
  (∀ (s : State) (req l : Nat) (v : U64),
      pathOpen s req = true →
      lanePresent s.fuses l = true →
      isMember s l = false →
      fieldOf v 5 1 = 1 →
      lanesFree s l (2 ^ fieldOf v 0 2) = false →
      exec (.portUpReq req l v) s = .next (errCount (pgLane l) 0x100 2 s)) ∧
  (∀ (s : State) (req l : Nat) (v : U64),
      pathOpen s req = true →
      lanePresent s.fuses l = true →
      isMember s l = false →
      fieldOf v 5 3 = 1 →
      ((s.port l).formed = true ∨ lostRace s req (pgLane l + 0x100) = true) →
      lanesFree s l (2 ^ fieldOf v 0 2) = true →
      exec (.portUpReq req l v) s = .next (plainWrite req (pageLoc .lane l (pgLane l) 0x100) v (fun _ => false) s)) ∧
  (∀ (s : State) (req l : Nat) (v : U64),
      pathOpen s req = true →
      lanePresent s.fuses l = true →
      isMember s l = false →
      fieldOf v 5 3 = 0 →
      lostRace s req (pgLane l + 0x100) = false →
      (s.port l).formed = true →
      (s.port l).st = .down →
      let w := plainWrite req (pageLoc .lane l (pgLane l) 0x100) v (fun _ => false) s
      exec (.portDownReq req l v) s = .next (w.setPort l { Port.none with
        credBufs := (s.port l).credBufs, landSteps := (s.port l).landSteps, landPg := (s.port l).landPg,
        shaper := (s.port l).shaper, gateIdx := (s.port l).gateIdx, gateEnd := (s.port l).gateEnd,
        gateStart := (s.port l).gateStart, gateArmed := (s.port l).gateArmed, stepCur := (s.port l).stepCur,
        gatePend := (s.port l).gatePend })) ∧
  (∀ (s : State) (req l : Nat) (v : U64),
      pathOpen s req = true →
      lanePresent s.fuses l = true →
      isMember s l = false →
      fieldOf v 5 3 = 0 →
      lostRace s req (pgLane l + 0x100) = false →
      (s.port l).formed = true →
      (s.port l).st = .up →
      let w := plainWrite req (pageLoc .lane l (pgLane l) 0x100) v (fun _ => false) s
      exec (.portDownReq req l v) s = .next (dissolve l (linkDown l w)))

/-- O14. R40 to R42, R45, R46, R80, R490. `s0` is the state once the FEC counts are added, `y` is the port once the frame's
arrival is noted. Cites 02_fabric_transport. -/
def Obligations.LinkControlFrames : Prop :=
  (∀ (s : State) (p : Nat) (c : RxFec) (f : Lctl),
      isNative (s.port p) = true →
      (f.lcrc ≠ lctlCrc f ∨ f.ver ≠ 1 ∨ f.ptype ≠ ptLctl ∨ 5 < f.kind) →
      let s0 := fecSeen p c s
      exec (.helloFrame p ⟨c, f⟩) s = .next (teleAdd p telProto 1 s0) ∧
      exec (.echoReqFrame p ⟨c, f⟩) s = .next (teleAdd p telProto 1 s0) ∧
      exec (.echoRspFrame p ⟨c, f⟩) s = .next (teleAdd p telProto 1 s0) ∧
      exec (.stateFrame p ⟨c, f⟩) s = .next (teleAdd p telProto 1 s0) ∧
      exec (.nakFrame p ⟨c, f⟩) s = .next (teleAdd p telProto 1 s0) ∧
      exec (.downFrame p ⟨c, f⟩) s = .next (teleAdd p telProto 1 s0)) ∧
  (∀ (s : State) (p : Nat) (c : RxFec) (f : Lctl),
      inStep s p 3 = true →
      (s.port p).eth = false →
      f = withLcrc f →
      f.ver = 1 →
      f.ptype = ptLctl →
      f.kind = 2 →
      let s0 := fecSeen p c s
      let y := { s0.port p with lastLctl := s0.cyc }
      let z := { y with step := 4, stepAt := s0.cyc, stepEnd := some (s0.cyc + 2000000), echoDone := 0, rtt := 0 }
      (leAt f.body 4 1 = y.w → leAt f.body 5 1 = 0 → exec (.helloFrame p ⟨c, f⟩) s =
        .next (((s0.setPort p z).emit (.lctl p (mkLctl z 3 (leBytes 8 s0.aon)))).setPort p
          { z with echoAt := some s0.aon, stepEnd := some (s0.cyc + 2000000), acked := z.e })) ∧
      (¬(leAt f.body 4 1 = y.w ∧ leAt f.body 5 1 = 0) →
        exec (.helloFrame p ⟨c, f⟩) s = .next (stepFail p 3 (s0.setPort p y)))) ∧
  (∀ (s : State) (p : Nat) (c : RxFec) (f : Lctl),
      isNative (s.port p) = true →
      (s.port p).st ≠ .down →
      3 ≤ (s.port p).step →
      f = withLcrc f →
      f.ver = 1 →
      f.ptype = ptLctl →
      f.kind = 3 →
      let s0 := fecSeen p c s
      let y := { s0.port p with lastLctl := s0.cyc }
      exec (.echoReqFrame p ⟨c, f⟩) s = .next (((s0.setPort p y).emit (.lctl p (mkLctl y 4 (f.body.take 8)))).setPort p { y with acked := y.e })) ∧
  (∀ (s : State) (p : Nat) (c : RxFec) (f : Lctl),
      inStep s p 4 = true →
      (s.port p).eth = false →
      f = withLcrc f →
      f.ver = 1 →
      f.ptype = ptLctl →
      f.kind = 4 →
      (s.port p).echoAt = some (leAt f.body 0 8) →
      s.aon ≤ leAt f.body 0 8 + 25000 →
      let s0 := fecSeen p c s
      let r := s0.aon - leAt f.body 0 8
      let x := s0.port p
      let y := { x with lastLctl := s0.cyc, echoDone := x.echoDone + 1, rtt := max x.rtt r, echoAt := none }
      (y.echoDone < 8 → exec (.echoRspFrame p ⟨c, f⟩) s =
        .next (((s0.setPort p y).emit (.lctl p (mkLctl y 3 (leBytes 8 s0.aon)))).setPort p
          { y with echoAt := some s0.aon, stepEnd := some (s0.cyc + 2000000), acked := y.e })) ∧
      (8 ≤ y.echoDone → exec (.echoRspFrame p ⟨c, f⟩) s = .next (step5 p (s0.setPort p y)))) ∧
  (∀ (s : State) (p : Nat) (c : RxFec) (f : Lctl),
      inStep s p 6 = true →
      (s.port p).eth = false →
      isDrain s (pgLane p) = false →
      f = withLcrc f →
      f.ver = 1 →
      f.ptype = ptLctl →
      f.kind = 0 →
      let s0 := fecSeen p c s
      ∃ t, exec (.stateFrame p ⟨c, f⟩) s = .next t ∧
        t.port p = { s0.port p with
          st := .up, step := 7, stepEnd := none, helloAt := none, lastLctl := s0.cyc, idleSince := s0.cyc, gTx := f.credit } ∧
        t.rd (pgLane p + 0x20) = (raiseEv (pgLane p) 8 s0).rd (pgLane p + 0x20) ∧ t.out = s0.out ∧ t.mem = s0.mem) ∧
  (∀ (s : State) (p : Nat) (c : RxFec) (f : Lctl),
      isNative (s.port p) = true →
      (s.port p).st = .up →
      3 ≤ (s.port p).step →
      f = withLcrc f →
      f.ver = 1 →
      f.ptype = ptLctl →
      f.kind = 0 →
      unacked (s.port p) f.ackSeq = (s.port p).replay.length →
      let s0 := fecSeen p c s
      exec (.stateFrame p ⟨c, f⟩) s = .next (s0.setPort p { s0.port p with lastLctl := s0.cyc, gTx := f.credit })) ∧
  (∀ (s : State) (p : Nat) (c : RxFec) (f : Lctl),
      isNative (s.port p) = true →
      (s.port p).st = .up →
      3 ≤ (s.port p).step →
      f = withLcrc f →
      f.ver = 1 →
      f.ptype = ptLctl →
      f.kind = 0 →
      unacked (s.port p) f.ackSeq < (s.port p).replay.length →
      let s0 := fecSeen p c s
      let x := s0.port p
      let k := unacked x f.ackSeq
      exec (.stateFrame p ⟨c, f⟩) s = .next (drainedDown p (twinDones (s0.setPort p { x with
        lastLctl := s0.cyc, gTx := f.credit, replay := x.replay.drop (x.replay.length - k),
        resend := x.resend.map (fun r => if k < unacked x r then f.ackSeq else r),
        ackAt := if k = 0 then none else some (s0.cyc + retryTime x) })))) ∧
  (∀ (s : State) (p : Nat) (c : RxFec) (f : Lctl),
      isNative (s.port p) = true →
      (s.port p).st = .up →
      (s.port p).rxOn = true →
      3 ≤ (s.port p).step →
      f = withLcrc f →
      f.ver = 1 →
      f.ptype = ptLctl →
      f.kind = 1 →
      1 ≤ unacked (s.port p) f.ackSeq →
      unacked (s.port p) f.ackSeq = (s.port p).replay.length →
      ((s.port p).replayAt ≠ some f.ackSeq ∨ (s.port p).replayRuns < 15) →
      let s0 := fecSeen p c s
      let x := s0.port p
      exec (.nakFrame p ⟨c, f⟩) s = .next ((teleAdd p telNakRx 1 s0).setPort p { x with
        lastLctl := s0.cyc, gTx := f.credit, resend := some f.ackSeq, replayAt := some f.ackSeq,
        replayRuns := if x.replayAt = some f.ackSeq then x.replayRuns + 1 else 1 })) ∧
  (∀ (s : State) (p : Nat) (c : RxFec) (f : Lctl),
      isNative (s.port p) = true →
      (s.port p).st ≠ .down →
      3 ≤ (s.port p).step →
      f = withLcrc f →
      f.ver = 1 →
      f.ptype = ptLctl →
      f.kind = 5 →
      let s0 := fecSeen p c s
      exec (.downFrame p ⟨c, f⟩) s = .next (linkDown p (s0.setPort p { s0.port p with lastLctl := s0.cyc })))

/-- O15. R40, R46 and R166. That forwarded items are dropped and reported (assumption 35) and that a CNODE of a slot that has
gone is not (assumption 120) are the model's choices. Here the second clause is the whole next state, over that of a
port that holds no packet. Cites 02_fabric_transport. -/
def Obligations.LinkDownEffect : Prop :=
  (∀ (s : State) (p : Nat),
      (s.port p).eth = false →
      (s.port p).replay = [] →
      (s.port p).egress = [] →
      (s.port p).copying = [] →
      RegsOk s →
      let t := linkDown p s
      (t.port p).st = .down ∧ (t.port p).retryAt = some (s.cyc + 2000000) ∧ (t.port p).rxOn = false ∧
      (t.port p).gRx = List.replicate 7 0 ∧ (t.port p).gTx = List.replicate 7 0 ∧ (t.port p).ackAt = none ∧
      (t.port p).nakAt = none ∧ (t.port p).replayPg = none ∧ (t.port p).egress = [] ∧
      t.out = s.out ++ [.lctl p (mkLctl (s.port p) 5 [])] ∧
      (p < 512 → (t.rd (pgLane p + 0x20)).getLsbD 6 = true)) ∧
  (∀ (s : State) (p : Nat),
      let x := s.port p
      let lost := x.replay.map (fun e => (Load.jfp e.pkt, e.org)) ++ x.egress.map (fun e => (e.load, e.org)) ++
        (if x.eth = true ∧ s.cyc < x.sendEnd then x.copying.map (fun e => (e.load, e.org)) else [])
      linkDown p s = forAll (fun y t => lostPacket p y.1 y.2 t) lost
        (forAll (fun b t => releaseShared b p t) (x.copying.flatMap (fun e => e.bufs) ++ x.egress.flatMap (fun e => e.bufs))
          (linkDown p (s.setPort p { x with replay := [], egress := [], copying := [] })))) ∧
  (∀ (s : State) (p lo hi : Nat) (k : Key) (l : Load),
      lostPacket p l (.cnode k lo hi) s = abortKey k stFailedLink 0 s ∧
      lostPacket p l (.down k lo hi) s = sendStatus p (loadJfp l).dst k lo hi stFailedLink 0 s ∧
      (∀ o : Origin, o = .lane p ∨ o = .bridge p ∨ o = .stale → lostPacket p l o s = s) ∧
      (∀ o : Origin, o = .none ∨ o = .chain lo → lostPacket p l o s = (match (loadJfp l).ext with
        | none => s
        | some e => sendStatus p (if (loadJfp l).vc = vcCup then (loadJfp l).src else (loadJfp l).dst) (extKey e) e.lo e.hiIncl
            stFailedLink 0 s))) ∧
  (∀ (s : State) (p k : Nat),
      RegsOk s →
      p < 512 →
      k < 9 →
      let t := stepFail p k s
      (t.port p).st = .down ∧ (t.port p).retryAt = some (s.cyc + 2000000) ∧ (t.port p).rxOn = false ∧
      (t.rd (pgLane p + 0x20)).getLsbD k = true ∧ t.out = s.out)

/-- O16. R42 to R45. That an aborted packet leaves C_rx as it is (assumption 37), the buffer and the bytes of an arriving
packet (assumptions 95 and 13), that a NAK sent again by the nak timer is counted in nak_tx (assumption 97) and that
the ack timer starts again when it expires (assumption 39) are the model's choices. Cites 02_fabric_transport. -/
def Obligations.LinkRetry : Prop :=
  (∀ (s : State) (p n : Nat) (q : Packet),
      isNative (s.port p) = true →
      (s.port p).rxOn = true →
      q.linkSeq = (s.port p).e →
      headerOk q = true →
      (s.port p).longReach = false →
      (q.vc = vcCup ∨ q.vc = vcCdn ∨ meterOf s p q.tc = none) →
      (ingressBuf s p q.vc).all (fun b => handleOk s (bufHandle b)) = true →
      ∃ t, exec (.packetArrive p .clean ⟨n, 0⟩ q) s = .next t ∧ (t.port p).e = ((s.port p).e + 1) % 2 ^ 24 ∧
        (t.port p).nakSent = false ∧ (t.port p).nakAt = none ∧
        (t.port p).cRx = (s.port p).cRx.set q.vc ((at0 0 (s.port p).cRx q.vc + pktCredits q) % 2 ^ 32) ∧
        t.waiting = s.waiting ++
          [{ unit := p, vc := q.vc, load := .jfp q, landed := false, org := .none, credits := pktCredits q, bufs := [],
             frame := 0, tc := 0, spots := [], seq := s.arrivals, home := ingressBuf s p q.vc }] ∧
        t.arrivals = s.arrivals + 1 ∧
        t.inbox = s.inbox ∧ t.regs = s.regs ∧ t.out = s.out ∧ t.slots = s.slots ∧
        t.mem = (match ingressBuf s p q.vc with | some b => fillPacket b p q s | none => s).mem) ∧
  (∀ (s : State) (p n m : Nat) (q : Packet),
      isNative (s.port p) = true →
      (s.port p).rxOn = true →
      q.linkSeq = (s.port p).e →
      headerOk q = true →
      (s.port p).longReach = false →
      (q.vc ≠ vcCup ∧ q.vc ≠ vcCdn) →
      meterOf s p q.tc = some m →
      actAbove s (.meter m) p = false →
      (ingressBuf s p q.vc).all (fun b => handleOk s (bufHandle b)) = true →
      let red := (meterColour m (pktBytes q) s).1
      ∃ t, exec (.packetArrive p .clean ⟨n, 0⟩ q) s = .next t ∧
        t.waiting = s.waiting ++
          [{ unit := p, vc := q.vc, load := .jfp (if red = true then { q with tc := 0, dm := true } else q), landed := false,
             org := .none, credits := pktCredits q, bufs := [], frame := 0, tc := 0, spots := [], seq := s.arrivals,
             home := ingressBuf s p q.vc }] ∧
        t.meters = (meterColour m (pktBytes q) s).2.meters ∧ t.regs = (meterColour m (pktBytes q) s).2.regs) ∧
  (∀ (s : State) (p : Nat) (c : RxClass) (n : RxFec) (q : Packet),
      isNative (s.port p) = true →
      (s.port p).rxOn = true →
      (s.port p).nakSent = false →
      (c = .corrupted ∨ 0 < n.uncorrectable ∨ q.linkSeq ≠ (s.port p).e) →
      exec (.packetArrive p c n q) s = .next (teleAdd p telNakTx 1 (((fecSeen p n s).emit (.lctl p (mkLctl (s.port p) 1 []))).setPort p
        { s.port p with acked := (s.port p).e, nakSent := true, nakAt := some (s.cyc + retryTime (s.port p)) }))) ∧
  (∀ (s : State) (p : Nat) (c : RxClass) (n : RxFec) (q : Packet),
      isNative (s.port p) = true →
      (s.port p).rxOn = true →
      (s.port p).nakSent = true →
      (c = .corrupted ∨ 0 < n.uncorrectable ∨ q.linkSeq ≠ (s.port p).e) →
      exec (.packetArrive p c n q) s = .next (teleAdd p telRetry 1 (fecSeen p n s))) ∧
  (∀ (s : State) (p n : Nat) (q : Packet),
      isNative (s.port p) = true →
      (s.port p).rxOn = true →
      q.linkSeq = (s.port p).e →
      let x := s.port p
      exec (.packetArrive p .aborted ⟨n, 0⟩ q) s = .next ((teleAdd p telAbortRx 1 (fecSeen p ⟨n, 0⟩ s)).setPort p { x with
        e := (x.e + 1) % 2 ^ 24, nakSent := false, nakAt := none,
        stateAt := some (match x.stateAt with | some t => min t (s.cyc + 320) | none => s.cyc + 320) })) ∧
  (∀ (s : State) (p t : Nat),
      (s.port p).nakAt = some t →
      (s.port p).nakSent = true →
      t ≤ s.cyc →
      exec (.nakTimerExpire p) s = .next (teleAdd p telNakTx 1 ((s.emit (.lctl p (mkLctl (s.port p) 1 []))).setPort p
        { s.port p with acked := (s.port p).e, nakAt := some (s.cyc + retryTime (s.port p)) }))) ∧
  (∀ (s : State) (p : Nat),
      (s.port p).resend = some (s.port p).txSeq →
      exec (.replayDone p) s = .next (s.setPort p { s.port p with resend := none })) ∧
  (∀ (s : State) (p t : Nat) (e : Sent) (r : List Sent),
      (s.port p).formed = true →
      (s.port p).ackAt = some t →
      (s.port p).replay = e :: r →
      t ≤ s.cyc →
      ((s.port p).replayAt ≠ some e.linkSeq ∨ (s.port p).replayRuns < 15) →
      let x := s.port p
      exec (.ackTimerExpire p) s = .next ((teleAdd p telAckTo 1 s).setPort p { x with
        ackAt := some (s.cyc + retryTime x), resend := some e.linkSeq, replayAt := some e.linkSeq,
        replayRuns := if x.replayAt = some e.linkSeq then x.replayRuns + 1 else 1 }))

/-- O17. STATE_SEND, the 20 us silence limit, loss of a lane clock, and a step of credit. Cites 02_fabric_transport,
16_package_and_electrical. -/
def Obligations.LinkTimersAndCredit : Prop :=
  (∀ (s : State) (p : Nat),
      (s.port p).rxOn = true →
      exec (.stateSend p) s = .next ((s.emit (.lctl p (mkLctl (s.port p) 0 []))).setPort p
        { s.port p with stateAt := some (s.cyc + 2000), acked := (s.port p).e })) ∧
  (∀ (s : State) (p : Nat),
      isNative (s.port p) = true →
      (s.port p).st = .up →
      (s.port p).lastLctl + 40000 ≤ s.cyc →
      exec (.lctlSilenceTimeout p) s = .next (linkDown p s)) ∧
  (∀ (s : State) (c : Nat),
      exec (.lrefclkLoss c) s = .next (forAll (fun p t =>
        if (t.port p).formed = true ∧ (t.port p).st ≠ .down then linkDown p t else t)
        ((List.range 16).map (fun i => c * 16 + i)) s)) ∧
  (∀ (s : State) (p vc : Nat),
      stepIsDue s p vc = true →
      (s.port p).longReach = true →
      0 < landFree (s.port p) →
      (∀ v, v < vc → stepIsDue s p v = false) →
      let x := s.port p
      exec (.creditGrant p vc) s = .next (s.setPort p { x with
        landSteps := x.landSteps.set vc (at0 0 x.landSteps vc + 1),
        gRx := x.gRx.set vc ((at0 0 x.gRx vc + 65) % 2 ^ 32),
        stateAt := some (match x.stateAt with | some t => min t (s.cyc + 320) | none => s.cyc + 320) })) ∧
  (∀ (s : State) (p vc : Nat),
      stepIsDue s p vc = true →
      (s.port p).longReach = true →
      exec (.creditGrant p vc) s = .next (forAll (grantLanding p) (List.range (vc + 1)) s)) ∧
  (∀ (s : State) (p vc : Nat),
      stepIsDue s p vc = true →
      (s.port p).longReach = false →
      s.waiters.any (fun w => w.purpose == .credit p vc) = false →
      (∀ b u, takeBuf (p / 128) vc p s = some (b, u) → exec (.creditGrant p vc) s = .next (u.updPort p (fun x => { x with
        credBufs := x.credBufs ++ [(vc, b)], gRx := x.gRx.set vc ((at0 0 x.gRx vc + 65) % 2 ^ 32),
        stateAt := some (match x.stateAt with | some t => min t (u.cyc + 320) | none => u.cyc + 320) }))) ∧
      (takeBuf (p / 128) vc p s = none → exec (.creditGrant p vc) s = .next (waitBuf (p / 128) vc p (.credit p vc) s))) ∧
  (∀ (s : State) (p vc : Nat),
      (s.port p).longReach = false →
      s.waiters.any (fun w => w.purpose == .credit p vc) = true →
      exec (.creditGrant p vc) s = .next s)

/-- O18. R24, R62 to R67, R106, R110 to R112; parity good, no packet landed before it. Cites 02_fabric_transport,
10_traffic_control, 12_twin_faults_determinism. -/
def Obligations.SwitchEntry : Prop :=
  (∀ (s : State) (w : Waiting) (h : Packet) (u vc c p : Nat),
      s.waiting.filter (fun x => x.unit == u && x.vc == vc) = [w] →
      needsBuf s w = false →
      needsMgmt s w = false →
      w.landed = false →
      refusedRef s w = none →
      w.org = .none →
      w.load = .jfp h →
      arrived w = true →
      addressedHere s h.dst = false →
      headerOk h = true →
      0 < h.ttl →
      (h.ptype ≠ ptCresult ∧ h.ptype ≠ ptStatus) →
      routeSet s h.dst = some c →
      choosePort s c h.vc = some p →
      s.flag (pgLane p) prtCfg_dateline = false →
      crcGood h = true →
      let e : EPkt := ⟨.jfp (hopHdr s w p h.vc h), h.vc, h.tc, .none, w.bufs, u⟩
      (hopHdr s w p h.vc h).ttl = h.ttl - 1 ∧
      (hasRoom s.cyc (s.port p) h.vc h.tc (egressBytes e) = true → exec (.switchEntry u vc 0 .good) s = .next (joinEgress p e
        (takeOut w { s with candPos := tset 0 s.candPos c ((tget 0 s.candPos c + 1) % 16) }))) ∧
      (hasRoom s.cyc (s.port p) h.vc h.tc (egressBytes e) = false → exec (.switchEntry u vc 0 .good) s = .next s)) ∧
  (∀ (s : State) (w : Waiting) (h : Packet) (u vc : Nat),
      s.waiting.filter (fun x => x.unit == u && x.vc == vc) = [w] →
      needsBuf s w = false →
      needsMgmt s w = false →
      w.landed = false →
      refusedRef s w = none →
      w.org = .none →
      w.load = .jfp h →
      arrived w = true →
      addressedHere s h.dst = true →
      headerOk h = true →
      w.vc ≠ vcMgt →
      exec (.switchEntry u vc 0 .good) s = .next (deliverIn w h { s with waiting := s.waiting.erase w })) ∧
  (∀ (s : State) (w : Waiting) (h : Packet) (u vc b : Nat),
      s.waiting.filter (fun x => x.unit == u && x.vc == vc) = [w] →
      needsBuf s w = false →
      w.landed = false →
      refusedRef s w = none →
      w.org = .none →
      w.load = .jfp h →
      arrived w = true →
      addressedHere s h.dst = true →
      headerOk h = true →
      w.vc = vcMgt →
      w.bufs = [b] →
      exec (.switchEntry u vc 0 .good) s = .next (takeOut w { s with
        inbox := insertIn { arrivedPkt w h with buf := none, pool := some b, home := none } s.inbox })) ∧
  (∀ (s : State) (w : Waiting) (h : Packet) (u vc : Nat),
      s.waiting.filter (fun x => x.unit == u && x.vc == vc) = [w] →
      needsBuf s w = false →
      needsMgmt s w = false →
      w.landed = false →
      refusedRef s w = none →
      w.org = .none →
      w.load = .jfp h →
      arrived w = true →
      addressedHere s h.dst = false →
      headerOk h = true →
      isReqVc h.vc = true →
      (h.ptype ≠ ptCresult ∧ h.ptype ≠ ptStatus) →
      (h.ttl = 0 → exec (.switchEntry u vc 0 .good) s = .next (sendTransport u h.src vcRsp h.tag tsTtlExpired
        (teleAdd u telTtl 1 (discardW w s)))) ∧
      (0 < h.ttl → routeSet s h.dst = none → exec (.switchEntry u vc 0 .good) s = .next (sendTransport u h.src vcRsp h.tag
        tsUnreachable (reportOpen h.src clsUnreach u (teleAdd u telUnreach 1 (discardW w s)))))) ∧
  (∀ (x : InPkt) (l : List InPkt),
      l.Pairwise (fun a b => a.seq ≤ b.seq) →
      (insertIn x l).Pairwise (fun a b => a.seq ≤ b.seq) ∧ (insertIn x l).Perm (x :: l)) ∧
  (∀ (s : State) (w : Waiting) (h : Packet) (r : ResultBlk) (q : Option MemberReq) (u vc c p : Nat),
      s.waiting.filter (fun x => x.unit == u && x.vc == vc) = [w] →
      needsBuf s w = false →
      needsMgmt s w = false →
      w.landed = false →
      refusedRef s w = none →
      (match w.org with | .down _ _ _ | .none => true | _ => false) = true →
      w.load = .result h r q →
      w.credits = 0 →
      r.form ≠ .masked →
      addressedHere s h.dst = false →
      h.dst ≠ 0xFFFFF →
      headerOk h = true →
      h.ptype = ptCresult →
      udpEntry s h.dst = none →
      routeSet s h.dst = some c →
      choosePort s c h.vc = some p →
      s.flag (pgLane p) prtCfg_dateline = false →
      let k := encodeResult s h r q
      let e : EPkt := ⟨.jfp (hopHdr s w p h.vc k), h.vc, (hopHdr s w p h.vc k).tc, w.org, w.bufs, u⟩
      (hasRoom s.cyc (s.port p) h.vc e.tc (egressBytes e) = true → exec (.switchEntry u vc 0 .good) s = .next (joinEgress p e
        (takeOut w { s with candPos := tset 0 s.candPos c ((tget 0 s.candPos c + 1) % 16) }))) ∧
      (hasRoom s.cyc (s.port p) h.vc e.tc (egressBytes e) = false → exec (.switchEntry u vc 0 .good) s = .next s)) ∧
  (∀ (s : State) (h : Packet) (e : ExtHdr) (r : ResultBlk) (q : Option MemberReq),
      r.form ≠ .masked →
      h.ext = some e →
      let k := encodeResult s h r q
      let f := sendForm r q []
      k.payload = f.bytes ∧ k.plen = f.bytes.length ∧ k.crc = e2eCrc k ∧ k.dst = h.dst ∧ k.vc = h.vc ∧ k.tag = h.tag ∧
      k.ext = some { e with wfmt := f.fmt, esc := f.esc, cSat := f.csat, status := if f.esc = true then stEscaped else r.status }) ∧
  (∀ (r : ResultBlk) (m : MemberReq),
      r.form = .dense →
      (sendForm r none []) = ⟨r.accFmt, false, 0, patBytes r.form r.accFmt r.nelem r.k.block r.pat⟩ ∧
      (let e := egressEncode r.accFmt m.rfmt m.srnd r.latch r.k (densify r.nelem r.pat)
       sendForm r (some m) [] = ⟨e.fmt, e.esc, e.csat, e.bytes⟩))

/-- O19. PACKET_SEND, REPLAY_COPY_DONE and the shapers. That the abort operand acts only while the packet still arrives is
the model's reading (assumption 99); the place of a replay copy and its bytes are the model's choice (assumptions 95
and 13). Cites 10_traffic_control, 02_fabric_transport. -/
def Obligations.PacketSend : Prop :=
  (∀ (s0 s : State) (p t q : Nat) (r : List (Nat × Nat)),
      maySend s0 (s0.port p) = true →
      s = gateView s0 p →
      (s.port p).pfcDue = (t, q) :: r →
      ∃ u, exec (.packetSend p false) s0 = .next u ∧ u.out = s.out ++ [.pfc p t q] ∧ (u.port p).pfcDue = r ∧
        (u.port p).egress = (s.port p).egress ∧ (u.port p).replay = (s.port p).replay ∧ u.regs = s.regs ∧ u.mem = s.mem) ∧
  (∀ (s0 s : State) (p r : Nat) (e : Sent),
      maySend s0 (s0.port p) = true →
      s = gateView s0 p →
      (s.port p).pfcDue = [] →
      (s.port p).resend = some r →
      (s.port p).replay.find? (fun x => x.linkSeq == r) = some e →
      (s.port p).longReach = false →
      ∃ u, exec (.packetSend p false) s0 = .next u ∧ u.out = s.out ++ [.packet p e.pkt e.aborted] ∧
        (u.port p).resend = some ((r + 1) % 2 ^ 24) ∧ (u.port p).replay = (s.port p).replay ∧
        (u.port p).txSeq = (s.port p).txSeq ∧ (u.port p).egress = (s.port p).egress ∧ u.regs = s.regs ∧ u.mem = s.mem) ∧
  (∀ (s0 s : State) (p : Nat) (y : Port) (e : EPkt) (h : Packet),
      maySend s0 (s0.port p) = true →
      s = gateView s0 p →
      (s.port p).eth = false →
      (s.port p).pfcDue = [] →
      (s.port p).resend = none →
      pickNew s p = (y, some e) →
      e.load = .jfp h →
      replayRoom (s.port p) (egressBytes e) = true →
      (s.port p).longReach = false →
      let x := s.port p
      ∃ u, exec (.packetSend p false) s0 = .next u ∧
        u.out = s.out ++ [.packet p { h with linkSeq := x.txSeq } false] ∧
        (u.port p).txSeq = (x.txSeq + 1) % 2 ^ 24 ∧
        (u.port p).replay = x.replay ++ [⟨x.txSeq, { h with linkSeq := x.txSeq }, e.org, false, replayPos x⟩] ∧
        (u.port p).egress = x.egress.erase e ∧ (u.port p).copying = x.copying ++ [e] ∧
        (u.port p).cTx = x.cTx.set e.vc ((at0 0 x.cTx e.vc + pktCredits h) % 2 ^ 32) ∧
        (u.port p).sendEnd = s.cyc + sendTime (pktBytes h + ovhOf s p) x.w ∧ (u.port p).sending = some e ∧
        u.regs = s.regs ∧ u.mem = s.mem ∧ u.waiting = s.waiting ∧ u.inbox = s.inbox) ∧
  (∀ (s : State) (p : Nat) (e : EPkt) (r : List EPkt),
      (s.port p).copying = e :: r →
      (s.port p).eth = false →
      let s1 := dropRefs e.bufs p (s.updPort p (fun x => { x with copying := r }))
      ((∀ k lo hi, e.org ≠ .cnode k lo hi) → exec (.replayCopyDone p) s = .next (drainedDown p (noteIdle p s1))) ∧
      (∀ k lo hi, e.org = .cnode k lo hi →
        exec (.replayCopyDone p) s = .next (drainedDown p (noteIdle p (cnodeCopied k s1))))) ∧
  (∀ (s0 s : State) (p : Nat) (y : Port) (e : EPkt) (h : Packet),
      maySend s0 (s0.port p) = true →
      s = gateView s0 p →
      (s.port p).eth = false →
      (s.port p).pfcDue = [] →
      (s.port p).resend = none →
      pickNew s p = (y, some e) →
      e.load = .jfp h →
      replayRoom (s.port p) (egressBytes e) = true →
      (s.port p).longReach = true →
      askPieces s (p / 128) (replayBase (s.port p)) (replaySpans (s.port p) (replayPos (s.port p)) (egressBytes e)) = .ready →
      let x := s.port p
      ∃ u, exec (.packetSend p false) s0 = .next u ∧
        u.out = s.out ++ [.packet p { h with linkSeq := x.txSeq } false] ∧
        (u.port p).txSeq = (x.txSeq + 1) % 2 ^ 24 ∧
        (u.port p).replay = x.replay ++ [⟨x.txSeq, { h with linkSeq := x.txSeq }, e.org, false, replayPos x⟩] ∧
        (u.port p).egress = x.egress.erase e ∧ (u.port p).copying = x.copying ++ [e] ∧
        (u.port p).cTx = x.cTx.set e.vc ((at0 0 x.cTx e.vc + pktCredits h) % 2 ^ 32) ∧
        u.mem = (forAll (fun r s => hbmPut .bulk (p / 128) (replayBase x + r.1) r.2 p s)
          (pieceBytes (replaySpans x (replayPos x) (pktBytes h)) (pktImage { h with linkSeq := x.txSeq })) s).mem ∧
        u.waiting = s.waiting ∧ u.inbox = s.inbox) ∧
  (∀ (s0 s : State) (p : Nat) (y : Port) (e : EPkt) (h : Packet),
      maySend s0 (s0.port p) = true →
      s = gateView s0 p →
      (s.port p).eth = false →
      (s.port p).pfcDue = [] →
      (s.port p).resend = none →
      pickNew s p = (y, some e) →
      e.load = .jfp h →
      let x := s.port p
      let rs := replaySpans x (replayPos x) (egressBytes e)
      let ans := askPieces s (p / 128) (replayBase x) rs
      (replayRoom x (egressBytes e) = false → exec (.packetSend p false) s0 = .next s) ∧
      (replayRoom x (egressBytes e) = true → x.longReach = true → ans = .asleep →
        exec (.packetSend p false) s0 = .next (wakePieces (p / 128) (replayBase x) rs s)) ∧
      (x.longReach = true → ans = .refused ∨ ans = .beyond →
        exec (.packetSend p false) s0 = .next s)) ∧
  (∀ (s0 s : State) (p r : Nat) (e : Sent),
      maySend s0 (s0.port p) = true →
      s = gateView s0 p →
      (s.port p).pfcDue = [] →
      (s.port p).resend = some r →
      (s.port p).replay.find? (fun x => x.linkSeq == r) = some e →
      (s.port p).longReach = true →
      let x := s.port p
      let rs := replaySpans x e.pos (pktBytes e.pkt)
      let ans := askPieces s (p / 128) (replayBase x) rs
      (ans = .ready → ∃ u, exec (.packetSend p false) s0 = .next u ∧
        u.out = s.out ++ [.packet p e.pkt e.aborted] ∧ (u.port p).resend = some ((r + 1) % 2 ^ 24) ∧
        (u.port p).replay = (s.port p).replay ∧ (u.port p).egress = (s.port p).egress ∧ u.mem = s.mem) ∧
      (ans = .asleep → exec (.packetSend p false) s0 = .next (wakePieces (p / 128) (replayBase x) rs s)) ∧
      (ans = .refused → exec (.packetSend p false) s0 = .next (linkDown p s)) ∧
      (ans = .beyond → exec (.packetSend p false) s0 = .next (linkDown p (refusePage (p / 128) p s)))) ∧
  (∀ (s0 s : State) (p : Nat) (y : Port) (e : EPkt) (f : EthFrame),
      maySend s0 (s0.port p) = true →
      s = gateView s0 p →
      (s.port p).eth = true →
      (s.port p).pfcDue = [] →
      (s.port p).resend = none →
      pickNew s p = (y, some e) →
      e.load = .eth f →
      (s.port p).copying = [] →
      let x := s.port p
      ∃ u, exec (.packetSend p false) s0 = .next u ∧ u.out = s.out ++ [.eth p f] ∧ (u.port p).egress = x.egress.erase e ∧
        (u.port p).copying = [e] ∧ (u.port p).sending = some e ∧
        (u.port p).sendEnd = s.cyc + sendTime (frameLen f + ovhOf s p) x.w ∧ (u.port p).replay = x.replay ∧
        u.regs = s.regs ∧ u.mem = s.mem ∧ u.waiting = s.waiting ∧ u.inbox = s.inbox ∧ u.tele = s.tele) ∧
  (∀ (s0 s : State) (p : Nat) (y : Port) (e : EPkt) (f : EthFrame),
      maySend s0 (s0.port p) = true →
      s = gateView s0 p →
      (s.port p).eth = true →
      (s.port p).pfcDue = [] →
      (s.port p).resend = none →
      pickNew s p = (y, some e) →
      e.load = .eth f →
      (s.port p).copying ≠ [] →
      let t := s.setPort p y
      exec (.packetSend p false) s0 = .next (sendFrame p e t) ∧
      (y.copying = (s.port p).copying → y.eth = true → y.sendEnd ≤ s.cyc → frameDone p t =
        noteIdle p (forAll (fun x t => dropRefs x.bufs p t) (s.port p).copying (t.setPort p { y with copying := [] })))) ∧
  (∀ (s0 s : State) (p : Nat) (y : Port) (e : EPkt) (h : Packet),
      maySend s0 (s0.port p) = true →
      s = gateView s0 p →
      (s.port p).eth = false →
      (s.port p).pfcDue = [] →
      (s.port p).resend = none →
      pickNew s p = (y, some e) →
      e.load = .jfp h →
      replayRoom (s.port p) (egressBytes e) = true →
      (s.port p).longReach = false →
      let t := s.setPort p y
      (stillArriving t e h = false → exec (.packetSend p true) s0 = exec (.packetSend p false) s) ∧
      (stillArriving t e h = true → exec (.packetSend p true) s0 = .next (sendAborted p e h t))) ∧
  (∀ (s : State) (p t n : Nat),
      let x := at0 ⟨0, 0⟩ (s.port p).shaper t
      let r := shaperRate s p t
      let now := shaperNow s p t
      (r = 0 → now = ⟨0, s.cyc⟩) ∧ (0 < r → s.cyc ≤ x.at_ → now = x) ∧
      (0 < r → x.at_ < s.cyc → now = ⟨min (x.t + (r * (s.cyc - x.at_) : Nat)) (shaperBurst s p t * 2000 : Nat), s.cyc⟩) ∧
      (now.t < 0 → classHead s p t = none) ∧
      (let z := { now with t := if r = 0 then 0 else now.t - (n * 2000 : Nat) }
       shaperSend p t n s = s.setPort p { s.port p with shaper := (s.port p).shaper.set t z }))

/-- O20. R57, R60, R61, R74, R492, R498. Cites 02_fabric_transport, 15_registers. -/
def Obligations.ManagementRequests : Prop :=
  (∀ (s : State) (port : Nat) (p : Packet) (i : InPkt),
      isMgmtRequest p = true →
      s.inbox.find? (fun x => x.port == port && x.pkt == p) = some i →
      crcGood p = true →
      port < 512 →
      s.flag (pgLane port) prtCfg_mgmtEn = true →
      (s.pins.poresetN = true ∧ s.pins.pwrgood = true) →
      keptReply s p.src p.seq = none →
      let s1 := { s with inbox := s.inbox.erase i }
      let r := busRead (p.addr % 2 ^ 28) s1
      (p.plen = 0 → exec (.mgmtRead port p) s = .next (consumed i (mgmtReply port p (leBytes 8 r.1.toNat) r.2))) ∧
      (p.plen = 8 → exec (.mgmtWrite port p) s = .next (consumed i (mgmtReply port p []
        (busWrite port (p.addr % 2 ^ 28) (BitVec.ofNat 64 (leAt p.payload 0 8)) s1))))) ∧
  (∀ (s : State) (port : Nat) (p q : Packet) (i : InPkt),
      isMgmtRequest p = true →
      p.plen = 8 →
      s.inbox.find? (fun x => x.port == port && x.pkt == p) = some i →
      crcGood p = true →
      keptReply s p.src p.seq = some q →
      exec (.mgmtWrite port p) s = .next (consumed i (mgmtAgain port q { s with inbox := s.inbox.erase i }))) ∧
  (∀ (s : State) (port : Nat) (p : Packet) (i : InPkt),
      isMgmtRequest p = true →
      s.inbox.find? (fun x => x.port == port && x.pkt == p) = some i →
      crcGood p = true →
      port < 512 →
      s.flag (pgLane port) prtCfg_mgmtEn = false →
      keptReply s p.src p.seq = none →
      let t := consumed i (sendTransport port p.src vcMgt p.tag tsRejected { s with inbox := s.inbox.erase i })
      (p.plen ≠ 8 → exec (.mgmtRead port p) s = .next t) ∧ (p.plen = 8 → exec (.mgmtWrite port p) s = .next t)) ∧
  (∀ (s : State) (port : Nat) (p : Packet) (i : InPkt),
      isReply p = true →
      s.inbox.find? (fun x => x.port == port && x.pkt == p) = some i →
      let s1 := { s with inbox := s.inbox.erase i }
      (crcGood p = false → exec (.responseDelivery port p) s = .next (consumed i (e2eFail port p s1))) ∧
      (crcGood p = true → p.tag / 4096 = 0xF → exec (.responseDelivery port p) s = .next (laneReply i s1)) ∧
      (crcGood p = true → p.tag / 4096 ≠ 0xF → exec (.responseDelivery port p) s = .next (inbDeliver i s1)))

/-- O21. R80, R461, R462. Cites 02_fabric_transport, 15_registers. -/
def Obligations.Telemetry : Prop :=
  (∀ (s : State) (req p : Nat),
      pathOpen s req = true →
      lanePresent s.fuses p = true →
      isMember s p = false →
      exec (.portSnapshot req p) s = .next (forAll (fun o t =>
        t.wr (pgLane p + o) (BitVec.ofNat 64 (liveTele s p o))) teleOffsets s)) ∧
  (∀ (s : State) (req p : Nat),
      pathOpen s req = true →
      lanePresent s.fuses p = true →
      isMember s p = false →
      ∃ t, exec (.telemetryClear req p) s = .next t ∧ t = { s with tele := t.tele } ∧
        (tabOk (fun _ => (0 : U64)) none s.tele = true → ∀ o ∈ teleOffsets,
          ¬(o < 0x5C0 ∧ (o - 0x400) % 0x40 = 0x28) → teleOf t p o = 0)) ∧
  (∀ (s : State) (req p vc : Nat),
      pathOpen s req = true →
      lanePresent s.fuses p = true →
      isMember s p = false →
      vc < 7 →
      exec (.highWaterReset req p vc) s = .next (teleSet p (telVc vc 5) 0 s))

/-- O22. R81, R84, R325, R326, R328 to R330. That a Neighbour Solicitation is taken whatever its destination MAC, and is not
bridged (assumptions 128 and 41), and that a discarded CDN frame is counted in PRT_PFC.taildrop (assumption 27), are
the model's choices. Cites 02_fabric_transport, 10_traffic_control. -/
def Obligations.EthernetPorts : Prop :=
  (∀ (s : State) (p : Nat) (c : RxFec) (f : EthFrame),
      ethUp s p = true →
      let s0 := fecSeen p c s
      (frameLen f < 64 → exec (.ethernetFrame p ⟨c, f⟩) s = .next (teleAdd p telRunt 1 s0)) ∧
      (9216 < frameLen f → exec (.ethernetFrame p ⟨c, f⟩) s = .next (teleAdd p telOver 1 s0)) ∧
      (64 ≤ frameLen f → frameLen f ≤ 9216 → f.fcsOk = false ∨ 0 < c.uncorrectable →
        exec (.ethernetFrame p ⟨c, f⟩) s = .next (teleAdd p telFcs 1 s0))) ∧
  (∀ (s : State) (p vid n : Nat) (f : EthFrame),
      ethUp s p = true →
      (64 ≤ frameLen f ∧ frameLen f ≤ 9216) →
      f.fcsOk = true →
      f.etype ≠ etMacControl →
      frameVid s p f = some vid →
      isSolicit (macLearn vid f.smac p s) f = false →
      f.dmac ≠ portMac (macLearn vid f.smac p s) p →
      exec (.ethernetFrame p ⟨⟨n, 0⟩, f⟩) s = .next (bridgeFrame p vid f (macLearn vid f.smac p (fecSeen p ⟨n, 0⟩ s)))) ∧
  (∀ (s : State) (vid mac : Nat),
      exec (.macAgeOut vid mac) s = .next { s with macs := s.macs.filter (fun m => !decide (m.vid = vid ∧ m.mac = mac ∧
        s.fld pgRoute prtUdpCfg_macAge ≠ 0 ∧ m.at_ + s.fld pgRoute prtUdpCfg_macAge * 2000000000 ≤ s.cyc)) }) ∧
  (∀ (s : State) (p t q n : Nat),
      ethUp s p = true →
      t ≠ s.fld (pgLane p) prtPfc_cdnPcp →
      exec (.pfcFrame p t ⟨⟨n, 0⟩, q⟩) s = .next (teleAdd p (telPfcRx t) 1 ((fecSeen p ⟨n, 0⟩ s).setPort p { s.port p with
        pausedTo := (s.port p).pausedTo.set t (if q = 0 then none else some (s.cyc + pauseCycles (s.port p) q)) }))) ∧
  (∀ (s : State) (p t c : Nat),
      at0 none (s.port p).pausedTo t = some c →
      c ≤ s.cyc →
      t ≠ s.fld (pgLane p) prtPfc_cdnPcp →
      exec (.pfcPauseExpire p t) s = .next (s.setPort p { s.port p with pausedTo := (s.port p).pausedTo.set t none })) ∧
  (∀ (s : State) (p t c : Nat),
      at0 none (s.port p).refreshAt t = some c →
      c ≤ s.cyc →
      pfcOn s p t = true →
      s.fld (pgLane p) prtPfcTh_xon < heldBytes s p t →
      exec (.pfcRefresh p t) s = .next (s.setPort p { s.port p with
        pfcDue := (s.port p).pfcDue ++ [(t, 0xFFFF)], refreshAt := (s.port p).refreshAt.set t (some (c + refreshCycles (s.port p))) })) ∧
  (∀ (s : State) (p c : Nat),
      (s.port p).cdnSince = some c →
      c + s.fld (pgLane p) prtPfc_cdnPauseLimit * 80 < s.cyc →
      paused s (s.port p) (s.fld (pgLane p) prtPfc_cdnPcp) = true →
      exec (.cdnPauseLimit p) s = .next (forAll (fun (e : EPkt) t => lostPacket p e.load e.org (dropRefs e.bufs p
        ((t.updPort p (fun x => { x with egress := x.egress.erase e })).addFld (pgLane p) prtPfc_taildrop 1)))
        ((s.port p).egress.filter (fun e => match e.org with | .bridge _ => false | _ => true)) s)) ∧
  (∀ (s : State) (p vid n : Nat) (f : EthFrame),
      ethUp s p = true →
      (64 ≤ frameLen f ∧ frameLen f ≤ 9216) →
      f.fcsOk = true →
      f.etype ≠ etMacControl →
      frameVid s p f = some vid →
      let t := macLearn vid f.smac p (fecSeen p ⟨n, 0⟩ s)
      (isSolicit t f = true → meterOf t p (frameTc f) = none → exec (.ethernetFrame p ⟨⟨n, 0⟩, f⟩) s = .next (t.emit (.ns p f))) ∧
      (isSolicit t f = false → f.dmac = portMac t p → udpAccept t p f = none →
        exec (.ethernetFrame p ⟨⟨n, 0⟩, f⟩) s = .next (teleAdd p telUdp 1 t)) ∧
      (∀ q, isSolicit t f = false → f.dmac = portMac t p → udpAccept t p f = some q →
        exec (.ethernetFrame p ⟨⟨n, 0⟩, f⟩) s = .next (placeFrame p ⟨.jfp q, vcCup, frameTc f, pktCredits q, [.none], frameLen f⟩ t))) ∧
  (∀ (s : State) (m len : Nat),
      let x := tget (⟨0, 0, 0⟩ : Meter) s.meters m
      let now := meterNow s m
      let b := len * 2000
      let dt := s.cyc - x.at_
      (dt = 0 → now = x) ∧
      (0 < dt → now = ⟨min (x.tc + meterCir s m * dt) (lookFld s (meterAt m) prtMtrBurst_cbs * 2000),
        min (x.tp + meterPir s m * dt) (lookFld s (meterAt m) prtMtrBurst_pbs * 2000), s.cyc⟩) ∧
      meterColour m len s = (if now.tp < b then (true, (setMeter m now s).addFld (meterAt m) prtMtrCnt_red 1)
        else if now.tc < b then (false, (setMeter m { now with tp := now.tp - b } s).addFld (meterAt m) prtMtrCnt_yellow 1)
        else (false, (setMeter m { now with tp := now.tp - b, tc := now.tc - b } s).addFld (meterAt m) prtMtrCnt_green 1))) ∧
  (∀ (s : State) (p vid m : Nat) (f : EthFrame),
      meterOf s p (frameTc f) = some m →
      actAbove s (.meter m) p = false →
      (meterColour m (frameLen f) s).1 = true →
      bridgeFrame p vid f s = (meterColour m (frameLen f) (noteAct (.meter m) p s)).2)

/-- O23. an input whose bit is set already is discarded and counted, and the slot stays as it is. Cites R128. -/
def Obligations.DuplicateInput : Prop :=
  (∀ (s : State) (cn : Bool) (port : Nat) (p : Packet) (i : InPkt) (e : ExtHdr) (y : ScopeE × Nat) (x : Slot),
      s.inbox.find? (fun z => z.port == port && z.pkt == p) = some i →
      p.ext = some e →
      InputPasses (inputSeen s i (extKey e)) cn p e y →
      (inputSeen s i (extKey e)).slotOf (extKey e) = some x →
      x.maskWait = none →
      x.accepted.contains y.2 = true →
      let s1 := inputSeen s i (extKey e)
      let t := s1.addFld (pgPress x.array) prsDupCnt_dup 1
      (if cn then exec (.cnode port p) s else exec (.cwrite port p) s) =
        .next (consumed i (noteAct (.input (extKey e)) i.port t)) ∧ t.slots = s.slots)

/-- O24. R60, R150, R151, R155, R133, R135, R350, R355, R378 for CWRITE and, as a kind-1 input, for CNODE (R127). That the
group table, as reporter 1,684, reports COLL_CHECK is the model's choice (assumption 49). Cites
04_canonical_reduction, 05_collective_operation. -/
def Obligations.Contributions : Prop :=
  (∀ (s : State) (cn : Bool) (port : Nat) (p : Packet) (i : InPkt) (e : ExtHdr),
      s.inbox.find? (fun z => z.port == port && z.pkt == p) = some i →
      p.ext = some e →
      let s1 := inputSeen s i (extKey e)
      let t := if cn then exec (.cnode port p) s else exec (.cwrite port p) s
      (crcGood p = false →
        t = .next (consumed i (sendStatus repGrp p.src (extKey e) e.lo e.hiIncl stFailedLink 0 (e2eFail i.port p s1)))) ∧
      (crcGood p = true → headCheck s1 cn p e = false →
        t = .next (consumed i (sendStatus repGrp p.src (extKey e) e.lo e.hiIncl stRefused 0
          (reportOpen p.src clsCollCheck repGrp (s1.addFld pgGrp grpCnt_chk 1))))) ∧
      (crcGood p = true → headCheck s1 cn p e = true → entryAsk s1 e = .ready → groupCheck s1 cn p e = false →
        t = .next (consumed i (sendStatus repGrp p.src (extKey e) e.lo e.hiIncl stRefused 0
          (reportOpen p.src clsCollCheck repGrp ((entryMoved e s1).addFld pgGrp grpCnt_chk 1))))) ∧
      (crcGood p = true → headCheck s1 cn p e = true → entryAsk s1 e = .asleep → t = .next (holdInbox i (entryWake e s1))) ∧
      (crcGood p = true → headCheck s1 cn p e = true → entryAsk s1 e = .refused →
        t = .next (consumed i (sendStatus repGrp p.src (extKey e) e.lo e.hiIncl stFailedLink 0 s1))) ∧
      (crcGood p = true → entryAsk s1 e = .ready → groupCheck s1 cn p e = true → epochOk s1 e = false →
        t = .next (consumed i (noteAct (.input (extKey e)) i.port (sendStatus repGrp p.src (extKey e) e.lo e.hiIncl
          stEpochRange 0 (s1.addFld pgGrp grpCnt_range 1)))))) ∧
  (∀ (s : State) (cn : Bool) (port : Nat) (p : Packet) (i : InPkt) (e : ExtHdr) (y : ScopeE × Nat),
      s.inbox.find? (fun z => z.port == port && z.pkt == p) = some i →
      p.ext = some e →
      InputPasses (inputSeen s i (extKey e)) cn p e y →
      let s1 := inputSeen s i (extKey e)
      let home := grpF s1 e.group grpCfg_homeQd
      let room := quotaFree s1 e.group (scopeInputs (scopeTable s1 e.group home)).length
      let t := if cn then exec (.cnode port p) s else exec (.cwrite port p) s
      (∀ x, s1.slotOf (extKey e) = some x → x.maskWait.isSome = true → t = .next (holdInbox i s1)) ∧
      (∀ x, s1.slotOf (extKey e) = some x → x.maskWait = none → x.accepted.contains y.2 = false → x.st = .opened →
        spillSleeps x s1 = false →
        t = .next (consumed i (noteAct (.input (extKey e)) i.port (placeInput (some i) cn p e y.2 s1)))) ∧
      (∀ x, s1.slotOf (extKey e) = some x → x.maskWait = none → x.accepted.contains y.2 = false → x.st = .opened →
        spillSleeps x s1 = true → t = .next (holdInbox i (spillWake x s1))) ∧
      (∀ a, s1.slotOf (extKey e) = none → room = true → pickArray s1 home = some a →
        (resident s1 e.group = true ∨ spillSleeps (freshSlot s1 e a) s1 = false) →
        let u := openSlot (some i) cn p e y.2 a s1
        t = .next (consumed i (noteAct (.input (extKey e)) i.port
          (if (u.slotOf (extKey e)).isNone = true then entryMoved e u else u)))) ∧
      (∀ a, s1.slotOf (extKey e) = none → room = true → pickArray s1 home = some a → resident s1 e.group = false →
        spillSleeps (freshSlot s1 e a) s1 = true → t = .next (holdFull i (spillWake (freshSlot s1 e a) s1))) ∧
      (s1.slotOf (extKey e) = none → room = true → pickArray s1 home = none → arraysOut s1 home = false →
        t = .next (consumed i (noteAct (.input (extKey e)) i.port (entryMoved e
          (sendStatus repGrp p.src (extKey e) e.lo e.hiIncl stAbortedDisabled 0 s1))))) ∧
      (s1.slotOf (extKey e) = none → room = false → t = .next (holdFull i s1)))

/-- O25. R97, R104, R128, R131 and R135; `pt` is the partial that R131 holds in exactly one buffer. Cites
04_canonical_reduction. -/
def Obligations.SlotPlacement : Prop :=
  (∀ (s u : State) (src : Option InPkt) (cn : Bool) (p : Packet) (e : ExtHdr) (i b : Nat) (sram : Bool) (x : Slot),
      s.slotOf (extKey e) = some x →
      x.k = extKey e →
      claimBuf src x s = (some (sram, b), u) →
      (sram = true → bufRefused u b = false) →
      (scopeEmits (slotScope s x)).any (fun z => z.lo == e.lo && z.hi == e.hiIncl) = false →
      let v := inputValue s cn x.latch p e
      let pt : Partial := ⟨e.lo, e.hiIncl, v.1, v.2.1, v.2.2, sram, some b, s.cyc⟩
      let y := { x with accepted := x.accepted ++ [i], parts := x.parts ++ [pt], cen := x.cen.plus v.2.2,
                        reqs := if cn then x.reqs else x.reqs ++ [⟨i, e.rfmt, e.srnd, e.denseRx⟩] }
      let t := placeInput src cn p e i s
      let at_ := if sram then memKey (spCellar (bufQuad b)) (bufOff s b) else memKey (spHbm x.qd) (spillOff s x.k.group b)
      t.slots = s.slots.map (fun z => if z.k = x.k then y else z) ∧ t.waiting = s.waiting ∧ t.out = s.out ∧
      t.inbox = s.inbox ∧ t.ports = u.ports ∧
      (sram = true → (u.pu (puPress x.array)).st = .slate → (u.pu (darkOwner (puPress x.array))).darkAt = none →
        (t.pu (puPress x.array)).st = .amber) ∧
      (Memory.wf s.mem = true →
        (patBytes v.1 x.accFmt x.nelem x.k.block v.2.1).length ≤ 4096 →
        ∀ z, z < at_ ∨ at_ + bufBytes ≤ z → tget memDefault t.mem z = tget memDefault s.mem z))

/-- O26. That a failed mask read frees the slot with a FAILED_LINK record is the model's choice (assumption 34). R126, R138,
R159, R161, R162, R302, R345, R350, R355. Cites 04_canonical_reduction, 05_collective_operation, 09_sparsity. -/
def Obligations.PressAndAccumulator : Prop :=
  (∀ (s : State) (k : Key) (x : Slot) (i : Nat) (p : Packet) (e : ExtHdr),
      s.slotOf k = some x →
      x.maskWait = some (i, p) →
      p.ext = some e →
      let off := maskEntryAt s k.group x.accFmt k.block
      let n := fullCount x.accFmt / 8
      let s1 := hbmMoved .bulk x.qd off n s
      let y := { x with values := some (maskPositions s1 k.group x.qd x.accFmt k.block x.nelem).length }
      (hbmAsk s x.qd off n = .ready → spillSleeps y s1 = false → exec (.maskReadDone k true) s =
        .next (placeInput none (p.ptype == ptCnode) p e i (s1.setSlot { y with maskWait := none }))) ∧
      (hbmAsk s x.qd off n = .ready → spillSleeps y s1 = true → exec (.maskReadDone k true) s =
        .next (spillWake y (s1.setSlot y))) ∧
      (hbmAsk s x.qd off n = .ready → exec (.maskReadDone k false) s =
        .next (sendStatus repGrp p.src k e.lo e.hiIncl stFailedLink 0
          (freeSlot { x with maskWait := none } stFailedLink 0 s1))) ∧
      (∀ ok, hbmAsk s x.qd off n = .refused → exec (.maskReadDone k ok) s =
        .next (sendStatus repGrp p.src k e.lo e.hiIncl stFailedLink 0
          (freeSlot { x with maskWait := none } stFailedLink 0 s))) ∧
      (∀ ok, hbmAsk s x.qd off n = .asleep → exec (.maskReadDone k ok) s = .next (hbmWake x.qd off n s))) ∧
  (∀ (s : State) (a : Nat) (x : Slot) (l r : Partial),
      readyAdd s a = some (x, l, r) →
      (isGold s (puPress a) = true → operandRefused s [l, r] = none →
        (spilled s x [l, r]).all (fun o => hbmAsk s x.qd o 4096 == .ready) = true →
        exec (.pressAdd a .good) s = .next (formNode x l r
          (forAll (fun o u => hbmMoved .bulk x.qd o 4096 u) (spilled s x [l, r]) s))) ∧
      (isGold s (puPress a) = true → exec (.pressAdd a .hard) s = .next (abortSlot x stFailedLink 0
        (s.addFld (pgCellar x.qd) celPar_hard 1))) ∧
      (isGold s (puPress a) = false → exec (.pressAdd a .good) s = .next (wakeUnit (puPress a) s))) ∧
  (∀ (s : State) (x : Slot) (l r : Partial),
      (scopeEmits (slotScope s x)).any (fun z => z.lo == l.lo && z.hi == r.hi) = false →
      s.slotOf x.k = some x →
      operandRefused s [l, r] = none →
      let v := addParts x l r
      let kept := if l.sram || !r.sram then l else r
      let pt : Partial := ⟨l.lo, r.hi, v.1, v.2, l.cen.plus r.cen, kept.sram, kept.buf, s.cyc⟩
      let t := formNode x l r s
      t.slots = s.slots.map (fun z => if z.k = x.k then
        { x with parts := (x.parts.filter (fun p => p != l && p != r)) ++ [pt] } else z) ∧
      t.waiting = s.waiting ∧ t.out = s.out ∧
      (Memory.wf s.mem = true → (patBytes v.1 x.accFmt x.nelem x.k.block v.2).length ≤ 4096 →
        ∀ b, kept.buf = some b →
          (kept.sram = false → spillOff s x.k.group b + 4096 ≤ quadPages s x.qd * 4096) →
          let at_ := if kept.sram then memKey (spCellar (bufQuad b)) (bufOff s b)
            else memKey (spHbm x.qd) (spillOff s x.k.group b)
          ∀ z, z < at_ ∨ at_ + bufBytes ≤ z → tget memDefault t.mem z = tget memDefault s.mem z)) ∧
  (∀ (s : State) (g b : Nat) (x : Slot) (pt : Partial),
      waitingSum s g b = some x →
      x.parts.find? (fun p => p.lo == 0 && p.hi + 1 == groupN s g) = some pt →
      (x.k.epoch + 65536 - tagSettled s g b) % 65536 = 1 →
      accumAsk s g b = [.ready, .ready] →
      let r := rootBlock x pt
      let h := grpF s g grpCfg_homeQd
      let s1 := hbmMoved .bulk h (tagOff s g b) 4 (hbmMoved .bulk h (accOff s g b) 4096 s)
      let a := accSum s1 x pt.pat
      (isRelEpoch s g x.k.epoch = false → exec (.accumAdd g b) s = .next (resultBuffer x (emptyBlock r)
        (setTag g b x.k.epoch (tagMissing s g b) (auxWrite g (accOff s g b) (accCodes x.accFmt a) s1)))) ∧
      (isRelEpoch s g x.k.epoch = true → tagMissing s g b = 0 → exec (.accumAdd g b) s =
        .next (resultBuffer x { r with form := .dense, pat := a } (setTag g b x.k.epoch 0 (clearAcc g b s1)))) ∧
      (isRelEpoch s g x.k.epoch = true → tagMissing s g b ≠ 0 → exec (.accumAdd g b) s =
        .next (abortSlot x stMissing (tagMissing s g b) s1))) ∧
  (∀ (s : State) (g b : Nat) (x : Slot),
      (x.k.epoch + 65536 - grpF s x.k.group grpEpoch_curEpoch) % 65536 = 1 →
      waitingSum s g b ≠ some x)

/-- O27. a CRESULT or STATUS whose source is not the parent is discarded and counted in chk. Cites R152. -/
def Obligations.ParentOnly : Prop :=
  (∀ (s : State) (port : Nat) (p : Packet) (i : InPkt) (e : ExtHdr),
      s.inbox.find? (fun z => z.port == port && z.pkt == p) = some i →
      i.org = .none →
      p.ext = some e →
      crcGood p = true →
      p.src ≠ grpF s e.group grpLink_parentFid →
      let t := consumed i ({ s with inbox := s.inbox.erase i }.addFld pgGrp grpCnt_chk 1)
      exec (.cresult port p) s = .next t ∧ exec (.failureStatus port p) s = .next t)

/-- O28. Derived from R163 (a reserved status counts as FAILED_LINK), R165, R223 and R374. Cites 05_collective_operation,
12_twin_faults_determinism. -/
def Obligations.FailureFromParent : Prop :=
  (∀ (s : State) (port : Nat) (p : Packet) (i : InPkt) (e : ExtHdr),
      s.inbox.find? (fun z => z.port == port && z.pkt == p) = some i →
      i.org = .none →
      p.ext = some e →
      crcGood p = true →
      p.src = grpF s e.group grpLink_parentFid →
      reservedExt { e with status := 0 } = false →
      statusSuccess e.status = false →
      isSweep e = false →
      let s1 := { s with inbox := s.inbox.erase i }
      let n := p.addr % 2 ^ 24
      let st := if statusKnown e.status then e.status else stFailedLink
      let a := match s.slotOf (extKey e) with
        | some x => abortQuiet x st n s1
        | none => s1
      let t := consumed i (forAll
        (fun (z : ScopeE) t => sendStatus repGrp z.fid (extKey e) z.lo z.hi st n t)
        (scopeInputs (scopeTable a e.group (keyHome a (extKey e)))) a)
      exec (.failureStatus port p) s = .next t ∧ exec (.cresult port p) s = .next t) ∧
  (∀ (s : State) (port : Nat) (p : Packet) (i : InPkt) (e : ExtHdr),
      s.inbox.find? (fun z => z.port == port && z.pkt == p) = some i →
      i.org = .none →
      p.ext = some e →
      crcGood p = true →
      p.src = grpF s e.group grpLink_parentFid →
      reservedExt { e with status := 0 } = false →
      (e.window = 0x3FF ∧ e.block = 0xFFFFFF ∧ e.status = 0x11) →
      let s1 := { s with inbox := s.inbox.erase i }
      let n := p.addr % 2 ^ 24
      let a := forAll (fun x t => abortQuiet x 0x11 n t) (s1.slots.filter (fun x => x.k.group == e.group)) s1
      exec (.failureStatus port p) s = .next (consumed i (forAll
        (fun (z : ScopeE) t => sendStatus repGrp z.fid (extKey e) z.lo z.hi 0x11 n t)
        (scopeInputs (scopeTable a e.group (keyHome a (extKey e)))) a))) ∧
  (∀ (s : State) (port lo hi : Nat) (k : Key) (p : Packet) (i : InPkt) (e : ExtHdr),
      s.inbox.find? (fun z => z.port == port && z.pkt == p) = some i →
      i.org = .down k lo hi →
      p.ext = some e →
      crcGood p = true →
      (e.window = 0x3FF ∧ e.block = 0xFFFFFF ∧ e.status = 0x11) →
      let s1 := { s with inbox := s.inbox.erase i }
      let vats := (List.range 32).filter (fun v =>
        s1.members.any (fun m => m.1 == e.group && decide (lo ≤ m.2.1) && decide (m.2.1 ≤ hi) && m.2.2 == v))
      let counted := forAll (fun v t => if isEnabled t (pgVat v) then t else t.addFld (pgVat v) vatCnt_rdisc 1) vats s1
      let again : Nat → Item → State → State := fun c y t => enqueue (repCore c) vcCup (.jfp y.pkt) .none none (t.updCore c
        (fun c => { c with items := c.items.map (fun z => if z.n = y.n then { z with deadline := t.cyc + itemTo t } else z) }))
      exec (.failureStatus port p) s = .next (consumed i (forAll (fun c t => forAll (fun y t =>
        if y.k.group = e.group ∧ lo ≤ y.rank ∧ y.rank ≤ hi then again c y t else t) (t.core c).items t) (List.range 256) counted)))

/-- O29. CRESULT for a HELD slot, and ITEM_TIMEOUT. Cites 05_collective_operation, 06_curd_execution. -/
def Obligations.ResultFromParent : Prop :=
  (∀ (s : State) (port : Nat) (p : Packet) (i : InPkt) (e : ExtHdr),
      s.inbox.find? (fun z => z.port == port && z.pkt == p) = some i →
      i.org = .none →
      p.ext = some e →
      crcGood p = true →
      p.src = grpF s e.group grpLink_parentFid →
      statusSuccess e.status = true →
      resultOk s p e = true →
      let s1 := { s with inbox := s.inbox.erase i }
      (∀ x, s.slotOf (extKey e) = some x → x.st = .held → x.result = none →
        exec (.cresult port p) s = .next (consumed i (downBuffer x (cresultBlock s1 x p e) s1))) ∧
      (∀ x, s.slotOf (extKey e) = some x → ¬(x.st = .held ∧ x.result = none) →
        exec (.cresult port p) s = .next (consumed i (s1.addFld (pgPress x.array) prsDupCnt_dup 1))) ∧
      (s.slotOf (extKey e) = none → exec (.cresult port p) s =
        .next (consumed i (s1.addFld (pgPress (homePress s e.group)) prsDupCnt_dup 1)))) ∧
  (∀ (s : State) (x : Slot) (r : ResultBlk) (b : Nat) (u : State),
      takeBuf x.qd vcCdn (repPress x.array) s = some (b, u) →
      bufRefused u b = false →
      let u1 := fillBuf b (repPress x.array) [] (patBytes r.form r.accFmt r.nelem x.k.block r.pat) u
      downBuffer x r s = noteAct (.freed x.k) 0 (freeSlot { x with result := some r } stOk 0
        (retain r (r.nelem != 0) (multicast x r b u1)))) ∧
  (∀ (s : State) (x : Slot) (r : ResultBlk),
      takeBuf x.qd vcCdn (repPress x.array) s = none →
      downBuffer x r s = waitBuf x.qd vcCdn (repPress x.array) (.result x.k) (s.setSlot { x with result := some r })) ∧
  (∀ (s : State) (c n : Nat) (i : Item),
      (s.core c).items.find? (fun z => z.n == n) = some i →
      i.deadline ≤ s.cyc →
      exec (.itemTimeout c n) s = .next (enqueue (repCore c) vcCup (.jfp i.pkt) .none none (s.setCore c { s.core c with
        items := (s.core c).items.map (fun z => if z.n = i.n then { z with deadline := s.cyc + itemTo s } else z) })))

/-- O30. R123, R147, R158, R160. That a write of enable 0 abandons a validation is the model's choice (assumption 93), and so
is that a validation keeps the fields it began with (assumption 112). `w` is the write of GRP_CFG alone. Cites
05_collective_operation, 04_canonical_reduction. -/
def Obligations.GroupControl : Prop :=
  (∀ (s : State) (req g : Nat) (v : U64),
      pathOpen s req = true →
      fieldOf v 0 1 = 1 →
      warmPrimary s g = false →
      let w := plainWrite req (pageLoc .wGrp g (grpAt g) 0) v (grpHeld s g) (noteLatch g s)
      grpFlag w g grpCfg_enable = true → grpFlag w g grpCfg_enabled = false →
      quadPresent w.fuses (grpF w g grpCfg_homeQd) = true → warmPrimary w g = false →
      let r : Scan := ⟨grpF w g grpCfg_homeQd, grpF w g grpScope_scopeBase, grpF w g grpScope_scopeLen, groupN w g, isRoot w g, s.cyc, []⟩
      exec (.groupEnable req g v) s = .next (w.updGrp g (fun x => { x with
        validAt := some (s.cyc + grpF w g grpScope_scopeLen), cfgBad := configBad w g, scan := some r }))) ∧
  (∀ (s : State) (g t : Nat),
      (s.grp g).validAt = some t →
      t ≤ s.cyc →
      groupFailure s g = none →
      let s1 := (scanParity g s).updGrp g (fun x => { x with validAt := none, scan := none })
      let u := (s1.updGrp g (fun x => { x with ageStart := s1.aon })).setFld (grpAt g) grpCfg_enabled 1
      exec (.scopeValidationDone g) s = .next (if grpFlag s1 g grpCfg_accum = true then
        forAll (fun b t => clearAcc g b (setTag g b ((grpF t g grpEpoch_curEpoch + 65535) % 65536) 0 t))
          (List.range (grpF u g grpSync_accBlocks)) u
        else u)) ∧
  (∀ (s : State) (g t i c : Nat),
      (s.grp g).validAt = some t →
      groupFailure s g = some (i, c) →
      (t ≤ s.cyc → exec (.scopeValidationDone g) s =
        .next (scopeFailed g i c ((scanParity g s).updGrp g (fun x => { x with validAt := none, scan := none })))) ∧
      (s.cyc < t → exec (.scopeValidationDone g) s = .next s)) ∧
  (∀ (s : State) (req g : Nat) (v : U64),
      pathOpen s req = true →
      fieldOf v 0 1 = 0 →
      let w := plainWrite req (pageLoc .wGrp g (grpAt g) 0) v (grpHeld s g) (noteLatch g s)
      grpFlag w g grpCfg_enable = false → warmPrimary w g = false →
      (groupSlots w g).isEmpty = true → grpFlag w g grpCfg_enabled = true →
      let w1 := w.updGrp g (fun x => { x with validAt := none, scan := none })
      ∃ t, exec (.groupDisable req g v) s = .next t ∧
        t = (w1.updGrp g (fun x => { x with ageHeld := groupAge w1 g })).setFld (grpAt g) grpCfg_enabled 0)

/-- O31. R149, R156, R161, R178, R379. The cycle of the timeout within its always-on count (assumption 52), a copy of the
rank map that its stack refuses (assumption 94) and a MIGRATE for a disabled group that names an absent quadrant
(assumption 101) are the model's choices. Cites 05_collective_operation. -/
def Obligations.EpochControl : Prop :=
  (∀ (s w : State) (req g : Nat),
      pathOpen s req = true →
      g < 4096 →
      w = plainWrite req locGrpCmd (grpWord g 1 0) (fun _ => false) (woTurn req (pgGrp + 0x100) s) →
      grpFlag w g grpCfg_enabled = true →
      (w.grp g).lastBoundary ≠ some w.aon →
      (epochMin w ≤ groupAge w g → exec (.epochClose req g) s = .next (boundary g w)) ∧
      (groupAge w g < epochMin w → exec (.epochClose req g) s =
        .next ((w.addFld pgGrp grpCnt_early 1).setFld (grpAt g) grpEpoch_earlyPending 1))) ∧
  (∀ (s w : State) (req g n : Nat),
      pathOpen s req = true →
      g < 4096 →
      w = plainWrite req locGrpCmd (grpWord g 1 0) (fun _ => false) (woTurn req (pgGrp + 0x100) s) →
      grpFlag w g grpCfg_enabled = true →
      (w.grp g).lastBoundary = some w.aon →
      expiredNow w g = some n →
      ∃ t, exec (.epochClose req g) s = .next t ∧ t.same.acts = w.same.acts.filter (fun a => a.1 != .expired g) ∧
        t = { w.setFld pgGrp grpCnt_timeout (w.fld pgGrp grpCnt_timeout - n) with same := t.same }) ∧
  (∀ (s w : State) (req g : Nat),
      pathOpen s req = true →
      g < 4096 →
      w = plainWrite req locGrpCmd (grpWord g 2 0) (fun _ => false) (woTurn req (pgGrp + 0x100) s) →
      grpFlag w g grpCfg_enabled = true →
      exec (.accumRelease req g) s = .next (w.setFld (grpAt g) grpEpoch_relNext 1)) ∧
  (∀ (s w : State) (req g qd : Nat),
      pathOpen s req = true →
      g < 4096 →
      qd < 4 →
      w = plainWrite req locGrpCmd (grpWord g 3 qd) (fun _ => false) (woTurn req (pgGrp + 0x100) s) →
      grpFlag w g grpCfg_enabled = true →
      (quadPresent w.fuses qd = true → grpFlag w g grpCfg_migBusy = false → qd ≠ grpF w g grpCfg_homeQd →
        exec (.migrate req g qd) s = .next (w.updGrp g (fun x => { x with mig := .copying qd }))) ∧
      (quadPresent w.fuses qd = true → (qd = grpF w g grpCfg_homeQd ∨ grpFlag w g grpCfg_migBusy = true) →
        exec (.migrate req g qd) s = .next (errCount pgGrp 0x100 3 w)) ∧
      (quadPresent w.fuses qd = false → exec (.migrate req g qd) s = .next (absentCmd req w))) ∧
  (∀ (s : State) (req g qd : Nat),
      pathOpen s req = true →
      g < 4096 →
      qd < 4 →
      let w := fun n q => plainWrite req locGrpCmd (grpWord g n q) (fun _ => false) (woTurn req (pgGrp + 0x100) s)
      (grpFlag (w 1 0) g grpCfg_enabled = false → exec (.epochClose req g) s = .next (errCount pgGrp 0x100 3 (w 1 0))) ∧
      (grpFlag (w 2 0) g grpCfg_enabled = false → exec (.accumRelease req g) s = .next (errCount pgGrp 0x100 3 (w 2 0))) ∧
      (grpFlag (w 3 qd) g grpCfg_enabled = false → exec (.migrate req g qd) s = .next (errCount pgGrp 0x100 3 (w 3 qd)))) ∧
  (∀ (s : State) (g : Nat),
      grpFlag s g grpCfg_enabled = true →
      (grpFlag s g grpEpoch_earlyPending = true → epochMin s ≤ groupAge s g →
        exec (.deferredBoundary g) s = .next (boundary g s)) ∧
      ((epochMax s < groupAge s g ∨ (epochMax s = groupAge s g ∧ s.cyc % 80 = 79)) →
        exec (.epochMaxTimeout g) s = .next (boundary g (noteAct (.expired g)
          ((s.addFld pgGrp grpCnt_timeout 1).fld pgGrp grpCnt_timeout - s.fld pgGrp grpCnt_timeout)
          (s.addFld pgGrp grpCnt_timeout 1)))) ∧
      ((groupAge s g < epochMax s ∨ (epochMax s = groupAge s g ∧ s.cyc % 80 ≠ 79)) → exec (.epochMaxTimeout g) s = .next s)) ∧
  (∀ (s : State) (g q : Nat),
      (s.grp g).mig = .copying q →
      let h := grpF s g grpCfg_homeQd
      let rank := pageAddr (auxRankPg s g)
      let c := copyRanks g q (copyScope g q s)
      (hbmAsk s h rank (4 * groupN s g) = .asleep →
        exec (.migrateCopyDone g) s = .next (hbmWake h rank (4 * groupN s g) s)) ∧
      (hbmAsk s h rank (4 * groupN s g) ≠ .asleep → grpFlag s g grpCfg_accum = false →
        exec (.migrateCopyDone g) s = .next (moveHome g q c)) ∧
      (hbmAsk s h rank (4 * groupN s g) ≠ .asleep → grpFlag s g grpCfg_accum = true →
        exec (.migrateCopyDone g) s = .next (c.updGrp g (fun x => { x with mig := .awaitRelease q }))))

/-- O32. R157 and R161, for a group that is no ACCUM group. The order of the boundary's effects is the model's choice
(assumption 36). Cites 05_collective_operation. -/
def Obligations.BoundaryEffect : Prop :=
  (∀ (s : State) (g : Nat),
      RegsOk s →
      g < 4096 →
      grpFlag s g grpCfg_accum = false →
      groupSlots s g = [] →
      (s.grp g).mig = .idle →
      warmPrimary s g = false →
      s.twin.digests = [] →
      let s1 := orNext (inputsNow s g) s
      let t := boundary g s
      let pc := if grpFlag s g grpEpoch_relCur then 0 else min (grpF s g grpEpoch_periodCount + 1) 65535
      grpF t g grpEpoch_curEpoch = (grpF s g grpEpoch_curEpoch + 1) % 65536 ∧
      grpF t g grpEpoch_earlyPending = 0 ∧ grpF t g grpEpoch_relNext = 0 ∧
      grpF t g grpEpoch_periodCount = pc ∧
      (grpFlag t g grpEpoch_relCur = true ↔ grpFlag s g grpEpoch_relNext = true ∨
        (0 < grpF s g grpLink_accPeriod ∧ grpF s g grpLink_accPeriod ≤ pc + 1)) ∧
      (t.grp g).rels = (if grpFlag s g grpEpoch_relCur then [grpF s g grpEpoch_curEpoch] else []) ∧
      (t.grp g).ageStart = s1.aon ∧ (∀ b, b ≠ grpAt g + 0x30 → t.rd b = s1.rd b) ∧ t.mem = s.mem ∧
      t.slots = s.slots ∧ t.waiting = s.waiting) ∧
  (∀ (s : State) (g : Nat),
      grpFlag s g grpCfg_accum = false →
      (s.grp g).mig = .idle →
      warmPrimary s g = false →
      s.twin.digests = [] →
      let s1 := orNext (inputsNow s g) s
      let short := (groupSlots s1 g).filter (fun x => x.k.epoch == grpF s1 g grpEpoch_curEpoch && decide (0 < clearBits s1 x))
      boundary g s = forAll (fun x t => abortSlot x stMissing (clearBits s1 x) t) short (epochAdvance g s1) ∧
      (boundary g s).slots = s1.slots.filter (fun y => !short.any (fun x => x.k == y.k)))

/-- O33. The bound of 4,096 descriptors in one command, chainRun's first argument, is the model's choice (assumption 22).
R32, R156, R172, R173, R176, R320, R486. Cites 05_collective_operation, 01_architecture. -/
def Obligations.ChainsAndSync : Prop :=
  (∀ (s : State) (q d : Nat),
      s.chainQ.find? (fun x => x.1 == q) = some (q, d) →
      (s.chains.filter (fun c => c.qd == q)).length < 256 →
      let c : Chain := ⟨s.nextChain, q, d, false⟩
      let s1 := { s with chainQ := s.chainQ.erase (q, d), chains := s.chains ++ [c], nextChain := s.nextChain + 1 }
      exec (.chainStart q .good) s = .next (chainRun 4096 c (retryFires s.fires s1)) ∧
      exec (.chainStart q .hard) s = .next (parHardEvent q (descOff d) (dropChain c.id (retryFires s.fires (s1.addFld (pgCellar q) celPar_hard 1))))) ∧
  (∀ (s : State) (c : Chain),
      s.chains.find? (fun x => x.id == c.id) = some c →
      c.sending = true →
      chainPending s c.id = false →
      exec (.chainSendDone c.id) s = .next (chainDone c s)) ∧
  (∀ (s : State),
      let s2 := forAll (fun (p : Nat × Port) t => gateEdge p.1 t) (forAll boundaryRequest (esrcGroups s) s).ports
        (forAll boundaryRequest (esrcGroups s) s)
      (s2.pins.poresetN = true → s2.pins.pwrgood = true → exec .syncInEdge s = .next (({ s2 with pins := { s2.pins with
        syncOut := s2.pins.syncOut + 1, syncIn := some s2.cyc } }).emit .syncOut)) ∧
      (s2.pins.poresetN = false ∨ s2.pins.pwrgood = false → exec .syncInEdge s = .next s2)) ∧
  (∀ (s : State) (k d u : Nat),
      RegsOk s →
      k < 65536 →
      s.fld (syncAt k) synCfg_armed = 0 →
      quadPresent s.fuses (k / 16384) = true →
      upsetIn s (syncQuad k) (syncOff k) 32 = false →
      (syncIncr k d u s).fld (syncAt k) synCnt_cnt = (s.fld (syncAt k) synCnt_cnt + d) % 2 ^ 64 ∧
      (∀ b, b ≠ syncAt k → (syncIncr k d u s).rd b = s.rd b) ∧ (syncIncr k d u s).fires = s.fires ∧
      ∀ v, s.same.incr = [] → s.same.oldSync = [] →
        (syncWrite k v (syncIncr k d u s)).fld (syncAt k) synCnt_cnt = (v + d) % 2 ^ 64) ∧
  (∀ (s : State) (k d u : Nat),
      RegsOk s →
      k < 65536 →
      quadPresent s.fuses (k / 16384) = true →
      upsetIn s (syncQuad k) (syncOff k) 32 = false →
      s.fires = [] →
      let t := syncIncr k d u s
      let thr := s.fld (syncAt k) synThr_thr
      let armed := s.fld (syncAt k) synCfg_armed
      let step := s.fld (syncAt k) synCfg_step
      let gap := (thr + 2 ^ 64 - s.fld (syncAt k) synCnt_cnt + 2 ^ 64 - 1) % 2 ^ 64
      let arg := s.fld (syncAt k) synArg_arg
      let r := judgeIncr step d (d + 1) (s.fld (syncAt k) synCnt_cnt) thr armed 0
      t.fld (syncAt k) synCnt_cnt = (s.fld (syncAt k) synCnt_cnt + d) % 2 ^ 64 ∧
      t.fld (syncAt k) synThr_thr = r.2.1 ∧ t.fld (syncAt k) synCfg_armed = r.2.2 ∧
      (armed ≠ 1 ∨ d ≤ gap → r = (0, thr, armed)) ∧
      (armed = 1 → gap < d → step = 0 → r = (1, thr, 0)) ∧
      (armed = 1 → gap < d → 0 < step → 0 < r.1 ∧ r.2.1 = (thr + r.1 * step) % 2 ^ 64 ∧ r.2.2 = 1) ∧
      (s.fld (syncAt k) synCfg_action = 1 → chainQLen s (syncQuad k) + r.1 ≤ 1024 →
        t.chainQ = s.chainQ ++ List.replicate r.1 (syncQuad k, arg % 4096) ∧ t.fires = []) ∧
      (s.fld (syncAt k) synCfg_action = 2 → r.1 = 1 → vatPresent s.fuses (arg % 32) = true →
        isEnabled s (pgVat (arg % 32)) = true → isDark s (puVat (arg % 32)) = false → isDrain s (pgVat (arg % 32)) = false →
        (s.vat (arg % 32)).startQ.length < 64 →
        (t.vat (arg % 32)).startQ = (s.vat (arg % 32)).startQ ++ [⟨arg / 256 % 2 ^ 24, true⟩] ∧ t.fires = []) ∧
      (s.fld (syncAt k) synCfg_action = 3 → 0 < r.1 → rindPresent s.fuses (arg % 16) = true → 512 ≤ arg / 16 % 1024 →
        (arg % 16 * 1024 + arg / 16 % 1024) ∈ t.soft ∧ t.fires = []))

/-- O34. R319 to R321, R454. bad_idx as a free value where no single entry fails is the model's reading (assumption 23), and
so is what an overtaken write does to the list (assumption 78). `w` is the write of PRT_GATE_CFG alone. Cites
10_traffic_control. -/
def Obligations.TimeGates : Prop :=
  (∀ (s0 s : State) (req p : Nat) (v : U64),
      pathOpen s0 req = true →
      lanePresent s0.fuses p = true →
      isMember s0 p = false →
      fieldOf v 0 1 = 1 →
      s = orNext (gateLingers s0 p) s0 →
      lostRace s req (pgLane p + 0x218) = false →
      let w := plainWrite req (pageLoc .lane p (pgLane p) 0x218) v (fun _ => false) s
      (s.flag (pgLane p) prtGateCfg_gateEn = false → ∀ i, gateCheck w p = some (some i) →
        exec (.gateEnable req p v) s0 = .next (raiseEv (pgLane p) 7 (w.setFld (pgLane p) prtGateCfg_badIdx i))) ∧
      (s.flag (pgLane p) prtGateCfg_gateEn = false → gateCheck w p = some none → exec (.gateEnable req p v) s0 =
        .next (raiseEv (pgLane p) 7 (w.draw.2.setFld (pgLane p) prtGateCfg_badIdx (w.draw.1.toNat % 256)))) ∧
      (s.flag (pgLane p) prtGateCfg_gateEn = false → gateCheck w p = none →
        w.flag (pgLane p) prtGateCfg_syncEn = true →
        exec (.gateEnable req p v) s0 = .next (w.updPort p (fun x => { x with gateArmed := true }))) ∧
      (s.flag (pgLane p) prtGateCfg_gateEn = false → gateCheck w p = none →
        w.flag (pgLane p) prtGateCfg_syncEn = false →
        exec (.gateEnable req p v) s0 = .next (gateStartAt p 0 (w.cyc + 1) w)) ∧
      (s.flag (pgLane p) prtGateCfg_gateEn = true →
        exec (.gateEnable req p v) s0 = .next (errCount (pgLane p) 0x218 2 s))) ∧
  (∀ (s0 s : State) (req p : Nat) (v : U64),
      pathOpen s0 req = true →
      lanePresent s0.fuses p = true →
      isMember s0 p = false →
      fieldOf v 0 1 = 0 →
      lostRace s0 req (pgLane p + 0x218) = false →
      s = orNext (gateOn s0 p && gatesApply s0 p && s0.same.oldReg.any (fun r => r.1 == pgLane p + 0x218)) s0 →
      s.flag (pgLane p) prtGateCfg_gateEn = true →
      let w := plainWrite req (pageLoc .lane p (pgLane p) 0x218) v (fun _ => false) (gateView s p)
      exec (.gateDisable req p v) s0 = .next ((w.setFld (pgLane p) prtGateCfg_gateOn 0).updPort p (fun x =>
        if gatesApply w p then { x with gateArmed := false, gateStart := w.cyc + 1 + gateBias }
        else { x with gateArmed := false, gateEnd := none }))) ∧
  (∀ (s : State) (req p : Nat) (v : U64),
      pathOpen s req = true →
      lanePresent s.fuses p = true →
      isMember s p = false →
      lostRace s req (pgLane p + 0x218) = true →
      (fieldOf v 0 1 = 0 ∨ gateLingers s p = false) →
      let w := plainWrite req (pageLoc .lane p (pgLane p) 0x218) v (fun _ => false) s
      let t := if lookFld s (pgLane p) prtGateCfg_gateEn = 1 ∧ fieldOf v 0 1 = 1 then errCount (pgLane p) 0x218 2 s else w
      (fieldOf v 0 1 = 1 → exec (.gateEnable req p v) s = .next t) ∧ (fieldOf v 0 1 = 0 → exec (.gateDisable req p v) s = .next t)) ∧
  (∀ (s : State) (p e : Nat),
      (s.port p).gateEnd = some e →
      gateOn s p = true →
      e ≤ s.cyc →
      (s.port p).gateIdx + 1 < gclLen s p →
      (s.port p).sendTc = none →
      let x := s.port p
      exec (.gateEntry p) s = .next (s.setPort p { x with
        gateIdx := x.gateIdx + 1, gateEnd := some (e + entryLen s p (x.gateIdx + 1) x.stepCur) }))

/-- O35. R211, R218 to R221, R224, R345. How the caches are organised, and that a program cache whose size changes is
emptied, are the model's choices (assumption 9), and so is the end of a start request whose descriptor cannot be
read (assumptions 45, 123). Cites 06_curd_execution. -/
def Obligations.ProgramLife : Prop :=
  (∀ (s w : State) (req vat d : Nat),
      pathOpen s req = true →
      vatPresent s.fuses vat = true →
      isDark s (puVat vat) = false →
      d < 2 ^ 24 →
      w = plainWrite req (locVat vat 0x110) (BitVec.ofNat 64 d) (fun _ => false) (woTurn req (pgVat vat + 0x110) s) →
      vatPresent w.fuses vat = true →
      isDark w (puVat vat) = false →
      isEnabled w (pgVat vat) = true →
      isDrain w (pgVat vat) = false →
      ((w.vat vat).startQ.length < 64 → exec (.vatStart req vat d) s = .next (noteStart vat (wakeUnit (puVat vat)
        (w.setVat vat { w.vat vat with startQ := (w.vat vat).startQ ++ [⟨d, false⟩] })))) ∧
      (64 ≤ (w.vat vat).startQ.length →
        exec (.vatStart req vat d) s = .next (w.addFld (pgVat vat) vatCnt_refused 1))) ∧
  (∀ (s : State) (vat : Nat) (r : StartReq) (rest : List StartReq),
      (s.vat vat).startQ = r :: rest →
      isGold s (puVat vat) = true →
      r.desc < storeWords s vat →
      ((List.range 8).filter (fun k => (startDesc s vat r.desc).mask / 2 ^ k % 2 == 1)).all
    (fun k => (s.core (vat * 8 + k)).st == .idle) = true →
      let d := startDesc s vat r.desc
      let off := storeAt s vat r.desc
      let u := hbmMoved (if r.bySync then .lc else .bulk) (vatQuad vat) off 32 (startTaken vat rest s)
      let t := forAll (fun k s => startCore (vat * 8 + k) d r.bySync s)
        ((List.range 8).filter (fun k => d.mask / 2 ^ k % 2 == 1)) u
      (hbmAsk s (vatQuad vat) off 32 = .ready → exec (.programStart vat) s = .next (retryFires t.fires t)) ∧
      (hbmAsk s (vatQuad vat) off 32 = .asleep → exec (.programStart vat) s = .next (hbmWake (vatQuad vat) off 32 s)) ∧
      (hbmAsk s (vatQuad vat) off 32 = .refused → exec (.programStart vat) s = .next (startLost vat rest s)) ∧
      (hbmAsk s (vatQuad vat) off 32 = .beyond →
        exec (.programStart vat) s = .next (startLost vat rest (refusePage (vatQuad vat) (repCore (8 * vat)) s)))) ∧
  (∀ (s : State) (core : Nat) (d : StartDesc) (bySync : Bool),
      bindExc s core d = none →
      d.qcount = 0 →
      startCore core d bySync s = (s.wr (pgVat (vatOf core) + 0x1C0 + 8 * (core % 8)) 0).setCore core { Core.idle with
        mask := d.mask, st := .starting, cmode := d.cmode, pc := d.entry, crg := crgBase d core, crgLog2 := d.crgLog2, startAt := s.cyc,
        s := tset 0 (tset 0 (tset 0 [] 1 (BitVec.ofNat 64 core)) 2 (BitVec.ofNat 64 d.w1)) 3 (BitVec.ofNat 64 d.w2),
        doneSync := d.doneSync, doneEn := d.doneEn, fetching := true, bySync := bySync,
        budgetAt := if d.budget = 0 then none else some (s.cyc + d.budget * 1024) }) ∧
  (∀ (s : State) (core : Nat) (par : Parity),
      let c := s.core core
      let v := vatOf core
      let line := c.pc / 8
      let place := placeAt s v ((s.vat v).pcache.idxOf line)
      let inPc := (s.vat v).pcache.contains line
      let upset := upsetIn s (upLocal v) place 256
      let drop := countParity (vatQuad v) .replayed (s.setVat v { s.vat v with
        icache := (s.vat v).icache.filter (fun x => !(x.core == core % 8 && x.line == line)),
        pcache := (s.vat v).pcache.map (fun x => if x = line then noLine else x) })
      let fill : State → State := fun t =>
        let off := storeAt t v (8 * line)
        let b := rdBytes t (spHbm (vatQuad v)) off 256
        let cls := if (t.core core).bySync ∧ (t.core core).st = .starting then HbmClass.lc else .bulk
        match hbmAsk t (vatQuad v) off 256 with
        | .ready => fetchEnd core (icacheFill core line b (pcacheFill v line b (hbmMoved cls (vatQuad v) off 256 t)))
        | .asleep => hbmWake (vatQuad v) off 256 t
        | .refused => curdExc core 5 (t.core core).pc 0 t
        | .beyond => curdExc core 5 (t.core core).pc 0 (refusePage (vatQuad v) (repCore core) t)
      (c.fetching = true → storeWords s v ≤ c.pc → exec (.cacheFillDone core par) s = .next (curdExc core 5 c.pc 0 s)) ∧
      (c.fetching = true → c.pc < storeWords s v →
        (par = .good → (cachedLine s core line).isSome = true → exec (.cacheFillDone core par) s = .next (fetchEnd core s)) ∧
        (par = .good → cachedLine s core line = none → inPc = true → upset = false →
          exec (.cacheFillDone core par) s =
            .next (fetchEnd core (icacheFill core line (rdBytes s (spLocal v) place 256) s))) ∧
        (par = .good → cachedLine s core line = none → inPc = true → upset = true →
          exec (.cacheFillDone core par) s = .next (fill drop)) ∧
        (par = .good → cachedLine s core line = none → inPc = false → exec (.cacheFillDone core par) s = .next (fill s)) ∧
        (par ≠ .good → exec (.cacheFillDone core par) s = .next (fill drop))) ∧
      (c.fetching = false → c.st = .running → par ≠ .good → (cachedLine s core line).isSome = true →
        exec (.cacheFillDone core par) s = .next (fill (drop.updCore core (fun c => { c with fetching := true }))))) ∧
  (∀ (s : State) (req vat : Nat) (v : U64),
      pathOpen s req = true →
      vatPresent s.fuses vat = true →
      isDark s (puVat vat) = false →
      let old := s.fld (pgVat vat) vatCfg_pcSize
      let w := plainWrite req (locVat vat 0x100) v (fun _ => false) s
      (coresIdle s vat = true → fieldOf v 3 1 = 1 → exec (.cacheInvalidate req vat v) s = .next (dropCaches vat w)) ∧
      (coresIdle s vat = true → fieldOf v 3 1 = 0 → w.fld (pgVat vat) vatCfg_pcSize = old →
        exec (.cacheInvalidate req vat v) s = .next w) ∧
      (coresIdle s vat = true → fieldOf v 3 1 = 0 → w.fld (pgVat vat) vatCfg_pcSize ≠ old →
        exec (.cacheInvalidate req vat v) s = .next (w.setVat vat { w.vat vat with pcache := [] })) ∧
      (coresIdle s vat = false → exec (.cacheInvalidate req vat v) s =
        .next (plainWrite req (locVat vat 0x100) (withField v vatCfg_pcSize.l vatCfg_pcSize.w old) (fun _ => false)
          (discardWrite (locVat vat 0x100) s)))) ∧
  (∀ (s : State) (core : Nat),
      (s.core core).st = .ending →
      (s.core core).sb = [] →
      (s.core core).items = [] →
      let r := releaseQueues core s
      let t := touchUnit (puVat (vatOf core)) ((r.setCore core Core.idle).wr
        (pgVat (vatOf core) + 0x180 + 8 * (core % 8)) 0)
      exec (.programEnd core) s = .next
        (if (s.core core).doneEn then syncIncr (s.core core).doneSync 1 (repCore core) t else t)) ∧
  (∀ (s : State) (core t : Nat),
      (s.core core).budgetAt = some t →
      t ≤ s.cyc →
      coreActive (s.core core) = true →
      exec (.budgetExhausted core) s = .next (curdExc core 7
        (match (s.core core).sb with | e :: _ => e.pc | [] => (s.core core).pc)
        (match (s.core core).sb with | e :: _ => e.steps | [] => 0) s)) ∧
  (∀ (s : State) (req vat m : Nat),
      pathOpen s req = true →
      vatPresent s.fuses vat = true →
      isDark s (puVat vat) = false →
      m < 256 →
      exec (.coreStop req vat m) s =
        .next (coreCtrl vat m 0 (plainWrite req (locVat vat 0x120) (BitVec.ofNat 64 m) (fun _ => false)
          (woTurn req (pgVat vat + 0x120) s))) ∧
      exec (.coreClear req vat m) s =
        .next (coreCtrl vat 0 m (plainWrite req (locVat vat 0x120) (BitVec.ofNat 64 (m * 256)) (fun _ => false)
          (woTurn req (pgVat vat + 0x120) s)))) ∧
  (∀ (s : State) (req vat k : Nat),
      pathOpen s req = true →
      vatPresent s.fuses vat = true →
      isDark s (puVat vat) = false →
      k < 8 →
      (s.core (vat * 8 + k)).st = .running →
      lostRace s req (pgVat vat + 0x120) = false →
      let w := plainWrite req (locVat vat 0x120) (BitVec.ofNat 64 (2 ^ k)) (fun _ => false) s
      exec (.coreStop req vat (2 ^ k)) s = .next (curdExc (vat * 8 + k) 8
        (match (s.core (vat * 8 + k)).sb with | e :: _ => e.pc | [] => (s.core (vat * 8 + k)).pc)
        (match (s.core (vat * 8 + k)).sb with | e :: _ => e.steps | [] => 0) w)) ∧
  (∀ (s : State) (req vat k : Nat),
      pathOpen s req = true →
      vatPresent s.fuses vat = true →
      isDark s (puVat vat) = false →
      k < 8 →
      (s.core (vat * 8 + k)).st = .faulted →
      lostRace s req (pgVat vat + 0x120) = false →
      (s.core (vat * 8 + k)).items = [] →
      let w := plainWrite req (locVat vat 0x120) (BitVec.ofNat 64 (2 ^ k * 256)) (fun _ => false) s
      exec (.coreClear req vat (2 ^ k)) s = .next (touchUnit (puVat vat)
        ((w.setCore (vat * 8 + k) Core.idle).wr (pgVat vat + 0x180 + 8 * k) 0))) ∧
  (∀ (s : State) (core code pc vec : Nat),
      (s.core core).queues = [] →
      s.setServer core Server.none = s →
      s.waiters.all (fun w => w.purpose != .pgather core) = true →
      let c := { s.core core with st := .faulted, sb := [], fetching := false, budgetAt := none }
      let a := pgVat (vatOf core) + 8 * (core % 8)
      curdExc core code pc vec s = (reportOwnOpen clsCurdExc (repCore core) (raiseEv (pgVat (vatOf core)) 1
        ((((s.setCore core c).setFld a vatExc_code code).setFld a vatExc_pc pc).setFld a vatExc_vec vec))))

/-- O36. R201, R212, R218, R225, R227 to R229, R220, R241. A row acts only on the word that the core has fetched (assumption
18). That the region check comes before the guard, and QBIND only under a true guard, is the model's choice
(assumption 55). `curdInstr` maps an opcode to its constructor, all 58 of them. Cites 06_curd_execution,
07_curd_instructions. -/
def Obligations.CurdIssue : Prop :=
  (∀ (s : State) (core op : Nat) (w : CurdWord) (i : Instr),
      curdInstr core op w = some i →
      ((s.core core).st ≠ .running ∨ 32 ≤ (s.core core).sb.length ∨ (s.core core).fetching = true ∨
      issueBlocked (s.core core) = true) →
      exec i s = .next s) ∧
  (∀ (s : State) (core op : Nat) (w : CurdWord) (i : Instr),
      curdInstr core op w = some i →
      (s.core core).st = .running →
      (s.core core).sb = [] →
      (s.core core).fetching = false →
      let pc := (s.core core).pc
      (storeWords s (vatOf core) ≤ pc → exec i s = .next (curdExc core 5 pc 0 s)) ∧
      (pc < storeWords s (vatOf core) → fetchedWord s core = none →
        exec i s = .next (s.setCore core { s.core core with fetching := true })) ∧
      (∀ x, pc < storeWords s (vatOf core) → fetchedWord s core = some x → opKnown (x % 256) = false →
        exec i s = .next (curdExc core 1 pc 0 s)) ∧
      (∀ x, pc < storeWords s (vatOf core) → fetchedWord s core = some x → opKnown (x % 256) = true →
        x % 256 ≠ op ∨ curdFields x ≠ w → exec i s = .next s) ∧
      (pc < storeWords s (vatOf core) → CurdFetched core op w s → legal (s.core core).cmode op w = false →
        exec i s = .next (curdExc core 1 pc 0 s))) ∧
  (∀ (s : State) (core op : Nat) (w : CurdWord) (i : Instr),
      curdInstr core op w = some i →
      isBranch op = false →
      CurdIssues core op w s →
      (s.core core).cmode = false →
      (regionsNow (s.core core) w).all (regionGood s (vatOf core)) = false →
      exec i s = .next (curdExc core 3 (s.core core).pc 0 ((curdSent core s).setCore core (curdMoved core s)))) ∧
  (∀ (s : State) (core op : Nat) (w : CurdWord) (i : Instr),
      curdInstr core op w = some i →
      isBranch op = true →
      CurdIssues core op w s →
      (s.core core).cmode = false →
      (regionsNow (s.core core) w).all (regionGood s (vatOf core)) = false →
      exec i s = .next (curdExc core 3 (s.core core).pc 0 (curdSent core s))) ∧
  (∀ (s : State) (core op : Nat) (w : CurdWord) (i : Instr),
      curdInstr core op w = some i →
      isBranch op = false →
      CurdReady core op w s →
      ¬ CurdGuard core w s →
      exec i s = .next (curdRetired core (curdFresh core op w s) (curdIssued core s))) ∧
  (∀ (s : State) (core op : Nat) (w : CurdWord) (i : Instr),
      curdInstr core op w = some i →
      isBranch op = false →
      CurdReady core op w s →
      CurdGuard core w s →
      bindingOk (s.core core) (curdEntry core op w s) = false →
      exec i s = .next (curdExc core 2 (s.core core).pc 0 (curdIssued core s))) ∧
  (∀ (s : State) (core op : Nat) (w : CurdWord) (i : Instr),
      curdInstr core op w = some i →
      CurdFetched core op w s →
      ((s.core core).st = .running ∧ (s.core core).sb = [] ∧ (s.core core).fetching = false) →
      (s.core core).pc < storeWords s (vatOf core) →
      legal (s.core core).cmode op w = true →
      (((s.core core).issueFrom ≤ s.cyc ∧ (acted s (.issued core) = true ∨ issueHeldNow s core = true)) ∨
      (s.core core).issueFrom = s.cyc + 1 ∨ (s.core core).issueFrom = s.cyc + 2) →
      (s.core core).pc < storeWords (nextCycle s) (vatOf core) →
      exec i s = exec i (nextCycle s))

/-- O37. R241, R209, R218, R206 and R220; each equation is the whole next state. First clause: cSadd, cSsub, cSmul, cSand,
cSor, cSxor, cSshl, cSshr, cSsra; second: cSceq, cScne, cScltu, cSclts, cScgeu, cScges. Cites 07_curd_instructions. -/
def Obligations.CurdScalar : Prop :=
  (∀ (s : State) (core op : Nat) (w : CurdWord) (i : Instr),
      curdInstr core op w = some i →
      isAlu op = true →
      isCompare op = false →
      CurdReady core op w s →
      CurdGuard core w s →
      let c := s.core core
      let v := aluOp op (c.sreg w.rs1) (c.sreg w.rs2 + BitVec.ofNat 64 w.imm)
      exec i s = .next (curdDone core op w { curdMoved core s with s := if w.rd = 0 then c.s else tset 0 c.s w.rd v } s)) ∧
  (∀ (s : State) (core op : Nat) (w : CurdWord) (i : Instr),
      curdInstr core op w = some i →
      isCompare op = true →
      CurdReady core op w s →
      CurdGuard core w s →
      let c := s.core core
      let b := cmpOp op (c.sreg w.rs1) (c.sreg w.rs2 + BitVec.ofNat 64 w.imm)
      exec i s = .next (curdDone core op w { curdMoved core s with
        p := if w.rd = 0 then c.p else c.p - c.p / 2 ^ w.rd % 2 * 2 ^ w.rd + bit01 b * 2 ^ w.rd } s)) ∧
  (∀ (s : State) (core : Nat) (w : CurdWord),
      CurdReady core 0x60 w s →
      CurdGuard core w s →
      let c := s.core core
      let a := (c.sreg w.rs1 + BitVec.ofNat 64 w.imm).toNat
      let declared := (regionsNow c w).any (fun x => x.1.w == false && x.1.space == 1 &&
        decide (x.2 ≤ a) && decide (a + 8 ≤ x.2 + x.1.pages * 4096))
      (a % 8 = 0 → a + 8 ≤ localEnd s (vatOf core) → c.cmode = true ∨ declared = true →
        (upsetIn s (upLocal (vatOf core)) a 8 = false → exec (.cSld core w) s = .next (curdDone core 0x60 w { curdMoved core s with
          s := if w.rd = 0 then c.s else tset 0 c.s w.rd (BitVec.ofNat 64 (localLe s (vatOf core) a 8)) } s)) ∧
        (upsetIn s (upLocal (vatOf core)) a 8 = true → exec (.cSld core w) s =
          .next (curdExc core 6 c.pc 0 (countParity (vatQuad (vatOf core)) .hard (curdIssued core s))))) ∧
      (a % 8 = 0 → a + 8 ≤ localEnd s (vatOf core) → c.cmode = false → declared = false →
        exec (.cSld core w) s = .next (curdExc core 3 c.pc 0 (curdIssued core s))) ∧
      (a % 8 ≠ 0 ∨ localEnd s (vatOf core) < a + 8 →
        exec (.cSld core w) s = .next (curdExc core 4 c.pc 0 (curdIssued core s)))) ∧
  (∀ (s : State) (core : Nat) (w : CurdWord),
      CurdReady core 0x61 w s →
      CurdGuard core w s →
      let c := s.core core
      let a := (c.sreg w.rs1 + BitVec.ofNat 64 w.imm).toNat
      let declared := (regionsNow c w).any (fun x => x.1.w == true && x.1.space == 1 &&
        decide (x.2 ≤ a) && decide (a + 8 ≤ x.2 + x.1.pages * 4096))
      (a % 8 = 0 → a + 8 ≤ localEnd s (vatOf core) → c.cmode = true ∨ declared = true →
        exec (.cSst core w) s = .next (localWrite (vatOf core) a (writeOrd core c.issued)
          (leBytes 8 (c.sreg w.rs2).toNat) (curdDone core 0x61 w (curdMoved core s) s))) ∧
      (a % 8 = 0 → a + 8 ≤ localEnd s (vatOf core) → c.cmode = false → declared = false →
        exec (.cSst core w) s = .next (curdExc core 3 c.pc 0 (curdIssued core s))) ∧
      (a % 8 ≠ 0 ∨ localEnd s (vatOf core) < a + 8 →
        exec (.cSst core w) s = .next (curdExc core 4 c.pc 0 (curdIssued core s)))) ∧
  (∀ (s : State) (core : Nat) (w : CurdWord),
      CurdReady core 0x6A w s →
      CurdGuard core w s →
      let c := s.core core
      exec (.cScyc core w) s = .next (curdDone core 0x6A w { curdMoved core s with
        s := if w.rd = 0 then c.s else tset 0 c.s w.rd (BitVec.ofNat 64 (s.cyc - c.startAt)) } s)) ∧
  (∀ (s : State) (core : Nat) (w : CurdWord),
      CurdReady core 0x00 w s →
      exec (.cNop core w) s = .next (curdRetired core (if CurdGuard core w s then curdEntry core 0x00 w s else curdFresh core 0x00 w s)
        (curdIssued core s))) ∧
  (∀ (s : State) (core : Nat) (w : CurdWord),
      CurdReady core 0x44 w s →
      exec (.cBarrier core w) s = .next (curdRetired core
        (if CurdGuard core w s then curdEntry core 0x44 w s else curdFresh core 0x44 w s) (curdIssued core s))) ∧
  (∀ (s : State) (core : Nat) (w : CurdWord),
      CurdReady core 0x46 w s →
      CurdGuard core w s →
      exec (.cEnd core w) s = .next (curdDone core 0x46 w { curdMoved core s with st := .ending } s))

/-- O38. R214, R215, R249 to R251, R345. That a LOOP on s0 falls through is the model's choice (assumption 59). Cites
07_curd_instructions, 06_curd_execution. -/
def Obligations.CurdSync : Prop :=
  (∀ (s : State) (core : Nat) (w : CurdWord),
      CurdReady core 0x42 w s →
      CurdGuard core w s →
      let k := ((s.core core).sreg w.rs1 + BitVec.ofNat 64 (w.imm % 65536)).toNat % 65536
      let d := ((s.core core).sreg w.rs2 + BitVec.ofNat 64 (w.imm / 2 ^ 32 % 2 ^ 32)).toNat
      (quadPresent s.fuses (k / 16384) = true → exec (.cSinc core w) s =
        .next (curdFreed core (curdEntry core 0x42 w s) (syncIncr k d (repCore core) (curdHeld core 0x42 w s)))) ∧
      (quadPresent s.fuses (k / 16384) = false →
        exec (.cSinc core w) s = .next (curdExc core 4 (s.core core).pc 0 (curdIssued core s)))) ∧
  (∀ (s : State) (core : Nat) (w : CurdWord),
      CurdReady core 0x43 w s →
      CurdGuard core w s →
      let k := ((s.core core).sreg w.rs1 + BitVec.ofNat 64 (w.imm % 65536)).toNat % 65536
      let met := decide ((BitVec.ofNat 64 (s.fld (syncAt k) synCnt_cnt) - (s.core core).sreg w.rs2).toNat < 2 ^ 63)
      (quadPresent s.fuses (k / 16384) = true → met = true →
        exec (.cSwait core w) s = .next (curdDone core 0x43 w (curdMoved core s) s)) ∧
      (quadPresent s.fuses (k / 16384) = true → met = false → exec (.cSwait core w) s = .next (curdHeld core 0x43 w s)) ∧
      (quadPresent s.fuses (k / 16384) = false →
        exec (.cSwait core w) s = .next (curdExc core 4 (s.core core).pc 0 (curdIssued core s)))) ∧
  (∀ (s : State) (core : Nat) (e : Sb),
      (s.core core).sb = [e] →
      e.op = 0x43 →
      e.started = true →
      quadPresent s.fuses (syncQuad (syncObj e)) = true →
      storedBefore s core e.ord = false →
      exec (.swaitWake core) s = .next (if swaitMet s (syncObj e) e.rs2 then curdFreed core e s else s)) ∧
  (∀ (s : State) (core : Nat) (w : CurdWord),
      CurdReady core 0x41 w s →
      CurdGuard core w s →
      let c := s.core core
      let at_ := c.crg + c.crgHead % 2 ^ c.crgLog2 * 32
      let word := fun j => BitVec.ofNat 64 (localLe s (vatOf core) (at_ + 8 * j) 8)
      let now := actSum s (.pushed (vatOf core) (64 + core % 8))
      (c.crgHead + now < c.crgTail → upsetIn s (upLocal (vatOf core)) at_ 32 = false →
        exec (.cCpop core w) s = .next (curdDone core 0x41 w { curdMoved core s with
          crgHead := c.crgHead + 1
          s := tset 0 (tset 0 (tset 0 (tset 0 c.s w.rd (word 0)) (w.rd + 1) (word 1)) (w.rd + 2) (word 2)) (w.rd + 3) (word 3) } s)) ∧
      (c.crgHead + now < c.crgTail → upsetIn s (upLocal (vatOf core)) at_ 32 = true →
        exec (.cCpop core w) s =
          .next (curdExc core 6 c.pc 0 (countParity (vatQuad (vatOf core)) .hard (curdIssued core s)))) ∧
      (c.crgTail ≤ c.crgHead + now → exec (.cCpop core w) s = .next (curdHeld core 0x41 w s))) ∧
  (∀ (s : State) (core : Nat) (w : CurdWord),
      CurdReady core 0x45 w s →
      CurdGuard core w s →
      ((s.core core).queue (w.dd % 64)).bound = true →
      ((s.core core).queue (w.dd % 64)).kind = 4 →
      ((s.core core).queue (w.dd % 64)).hdr = false →
      let c := s.core core
      let a := (c.sreg w.rs1 + BitVec.ofNat 64 (w.imm % 65536)).toNat
      (a % 64 = 0 → a + 64 ≤ localEnd s (vatOf core) → upsetIn s (upLocal (vatOf core)) a 64 = false →
        exec (.cOhdr core w) s = .next (curdDone core 0x45 w ((curdMoved core s).setQueue (w.dd % 64)
          { c.queue (w.dd % 64) with template := localRead s (vatOf core) a 64 }) s)) ∧
      (a % 64 = 0 → a + 64 ≤ localEnd s (vatOf core) → upsetIn s (upLocal (vatOf core)) a 64 = true →
        exec (.cOhdr core w) s =
          .next (curdExc core 6 c.pc 0 (countParity (vatQuad (vatOf core)) .hard (curdIssued core s)))) ∧
      (a % 64 ≠ 0 ∨ localEnd s (vatOf core) < a + 64 →
        exec (.cOhdr core w) s = .next (curdExc core 4 c.pc 0 (curdIssued core s)))) ∧
  (∀ (s : State) (core : Nat) (w : CurdWord),
      CurdReady core 0x68 w s →
      let n := w.imm % 2 ^ 24
      (CurdGuard core w s → n < storeWords s (vatOf core) →
        exec (.cBr core w) s = .next ((curdSent core s).setCore core { s.core core with pc := n, issueFrom := s.cyc + 2 })) ∧
      (CurdGuard core w s → storeWords s (vatOf core) ≤ n →
        exec (.cBr core w) s = .next (curdExc core 5 n 0 ((curdSent core s).setCore core { s.core core with pc := n, issueFrom := s.cyc + 2 }))) ∧
      (¬ CurdGuard core w s → exec (.cBr core w) s = .next (curdNext core s))) ∧
  (∀ (s : State) (core : Nat) (w : CurdWord),
      CurdReady core 0x69 w s →
      CurdGuard core w s →
      w.rd ≠ 0 →
      let c := s.core core
      let n := c.sreg w.rd - 1
      let tgt := w.imm % 2 ^ 24
      (n = 0 → exec (.cLoop core w) s =
        .next ((curdSent core s).setCore core { c with pc := (c.pc + 1) % 2 ^ 24, issueFrom := s.cyc + 2, s := tset 0 c.s w.rd 0 })) ∧
      (n ≠ 0 → tgt < storeWords s (vatOf core) → exec (.cLoop core w) s =
        .next ((curdSent core s).setCore core { c with pc := tgt, issueFrom := s.cyc + 2, s := tset 0 c.s w.rd n })) ∧
      (n ≠ 0 → storeWords s (vatOf core) ≤ tgt → exec (.cLoop core w) s =
        .next (curdExc core 5 tgt 0 ((curdSent core s).setCore core { c with pc := tgt, issueFrom := s.cyc + 2, s := tset 0 c.s w.rd n })))) ∧
  (∀ (s : State) (core : Nat) (w : CurdWord),
      CurdReady core 0x69 w s →
      (w.rd = 0 ∨ ¬ CurdGuard core w s) →
      exec (.cLoop core w) s = .next (curdNext core s))

/-- O39. R201 to R204, R230, R233, R234, R238, R239, R247. That only the floating-point rows and COMPACT write rd is the
model's choice (assumption 53). First clause: cAdd, cSub, cMul, cFma, cMax, cMin, cSel, cCvt, cRsum, cRmax, cExp2,
cLog2, cRcp, cRsq, cCmp, cIadd, cIsub, cAnd, cOr, cXor, cShl, cShr, cIcmp, cMov, cKeyx, cSortv, cCompact, cGath,
cScat, cMerge, cAsend. Cites 06_curd_execution, 07_curd_instructions. -/
def Obligations.CurdVectorRun : Prop :=
  (∀ (s : State) (core op : Nat) (w : CurdWord) (i : Instr),
      curdInstr core op w = some i →
      (isVector op = true ∨ op = 0x32) →
      CurdReady core op w s →
      CurdGuard core w s →
      bindingOk (s.core core) (curdEntry core op w s) = true →
      let e := curdEntry core op w s
      (op ≠ 0x32 ∨ (e.rs1 ≤ 2 ^ 28 ∧ e.rs2 ≤ 2 ^ 28) →
        exec i s = .next (settle core e.ord (runSteps core (fuelOf e) e (curdHeld core op w s)))) ∧
      (op = 0x32 → 2 ^ 28 < e.rs1 ∨ 2 ^ 28 < e.rs2 →
        exec i s = .next (curdExc core 4 (s.core core).pc 0 (curdIssued core s)))) ∧
  (∀ (s : State) (core : Nat) (e : Sb) (xs : List (Src × Nat × List (List Byte))),
      isFloat e.op = true →
      e.acc.length < unitSize e →
      e.steps < e.w.rep →
      seeSrcs s core e = .got xs →
      readsOk (s.core core) e xs = true →
      roomNext s core (floatRead e xs) = true →
      microStep core e s =
        .more { floatRead e xs with steps := e.steps + 1 } (popSrcs core xs (floatCensus core e xs s))) ∧
  (∀ (s : State) (core : Nat) (e : Sb),
      isVector e.op = true →
      e.op ≠ 0x40 →
      e.acc.length < unitSize e →
      e.steps < e.w.rep →
      (seeSrcs s core e = .dry → microStep core e s = .wait e s) ∧
      (∀ q off n, seeSrcs s core e = .sleep q off n → microStep core e s = .wait e (hbmWake q off n s)) ∧
      (∀ l, seeSrcs s core e = .lost l → microStep core e s = .exc 6 e (lostMark core l s))) ∧
  (∀ (s : State) (core : Nat) (e : Sb) (xs : List (Src × Nat × List (List Byte))),
      (isLane e.op = true ∨ e.op = 0x28 ∨ e.op = 0x30 ∨ e.op = 0x31) →
      e.acc.length < 512 →
      e.steps < e.w.rep →
      seeSrcs s core e = .got xs →
      readsOk (s.core core) e xs = true →
      roomNext s core { e with acc := e.acc ++ (rawRead e [] xs).1.map (fun b => b.toNat) } = true →
      microStep core e s =
        .more { e with acc := e.acc ++ (rawRead e [] xs).1.map (fun b => b.toNat), steps := e.steps + 1 }
          (popSrcs core xs s)) ∧
  (∀ (s : State) (core : Nat) (e : Sb),
      isVector e.op = true →
      e.op ≠ 0x40 →
      e.acc = [] →
      e.w.rep ≤ e.steps →
      microStep core e s = .done
        (if isFloat e.op ∨ e.op = 0x29 then writeS core e.w.rd (BitVec.ofNat 64 e.flag) s else s))

/-- O40. R235, R236, R238 to R243, R254. The flag count of an RSUM result, the flag of a saturated output, the rounding of
RMAX's result and the 0 that CMP writes to rd are the model's choices (assumption 53). `t` is the state in which the
instruction stands in the scoreboard. First clause: cAdd, cSub, cMul, cFma, cMax, cMin, cSel, cCvt, cRsum, cRmax,
cExp2, cLog2, cRcp, cRsq; second: cCmp. Cites 07_curd_instructions, 03_number_formats. -/
def Obligations.CurdFloatRows : Prop :=
  (∀ (s s3 : State) (core op : Nat) (w : CurdWord) (i : Instr) (xs : List (Src × Nat × List (List Byte))),
      curdInstr core op w = some i →
      isFloat op = true →
      op ≠ 0x16 →
      w.rep = 1 →
      unitVecs (dstOf w.dd).fmt = 1 →
      CurdReady core op w s →
      CurdGuard core w s →
      bindingOk (s.core core) (curdEntry core op w s) = true →
      seeSrcs (curdHeld core op w s) core (curdEntry core op w s) = .got xs →
      readsOk ((curdHeld core op w s).core core) (curdEntry core op w s) xs = true →
      roomNext (curdHeld core op w s) core (floatRead (curdEntry core op w s) xs) = true →
      (floatRead (curdEntry core op w s) xs).acc.length ≤ unitElems (dstOf w.dd).fmt →
      (let e := curdEntry core op w s
    let s2 := popSrcs core xs (floatCensus core e xs (curdHeld core op w s))
    let out := (unitOut (dstOf w.dd).fmt (floatRnd e) (floatRead e xs).acc).1
    windowOk (s2.core core) e (dstOf w.dd).q true 1 = true ∧ hasRoomFor s2 core (dstOf w.dd).q 1 out = true ∧
    pushVec core e.ord (dstOf w.dd).q out s2 = some (true, s3)) →
      let e := curdEntry core op w s
      exec i s = .next (curdFreed core e (writeS core w.rd
        (BitVec.ofNat 64 (unitOut (dstOf w.dd).fmt (floatRnd e) (floatRead e xs).acc).2) s3))) ∧
  (∀ (s s3 : State) (core : Nat) (w : CurdWord) (xs : List (Src × Nat × List (List Byte))),
      w.rep = 1 →
      CurdReady core 0x16 w s →
      CurdGuard core w s →
      bindingOk (s.core core) (curdEntry core 0x16 w s) = true →
      seeSrcs (curdHeld core 0x16 w s) core (curdEntry core 0x16 w s) = .got xs →
      readsOk ((curdHeld core 0x16 w s).core core) (curdEntry core 0x16 w s) xs = true →
      roomNext (curdHeld core 0x16 w s) core (floatRead (curdEntry core 0x16 w s) xs) = true →
      (let e := curdEntry core 0x16 w s
    let s2 := popSrcs core xs (floatCensus core e xs (curdHeld core 0x16 w s))
    let out := (floatRead e xs).acc.map (fun b => (BitVec.ofNat 8 b : Byte))
    windowOk (s2.core core) e (dstOf w.dd).q true 1 = true ∧ hasRoomFor s2 core (dstOf w.dd).q 1 out = true ∧
    pushVec core e.ord (dstOf w.dd).q out s2 = some (true, s3)) →
      exec (.cCmp core w) s = .next (curdFreed core (curdEntry core 0x16 w s) (writeS core w.rd 0 s3))) ∧
  (∀ (e : Sb) (xs : List (Src × Nat × List (List Byte))),
      isFloat e.op = true →
      (e.op ≠ 0x16 ∧ e.op ≠ 0x17 ∧ e.op ≠ 0x19 ∧ e.op ≠ 0x1A) →
      let a := operand e e.w.sa xs
      let b := if usesBroadcast e then List.replicate (stepElems e.w.afmt) (broadcast e) else operand e e.w.sb xs
      let c := if e.op = 0x13 then operand e e.w.sc xs else []
      (floatRead e xs).acc = e.acc ++ (List.range (stepElems e.w.afmt)).map (fun n =>
        packVal (floatElem e.op e.w.afmt (a.getD n (.zero false)) (b.getD n (.zero false)) (c.getD n (.zero false))))) ∧
  (∀ (e : Sb) (xs : List (Src × Nat × List (List Byte))),
      (e.op = 0x19 ∨ e.op = 0x1A) →
      (floatRead e xs).acc = e.acc ++ [packVal (reduceStep (e.op == 0x1A) e.w.afmt (operand e e.w.sa xs))]) ∧
  (∀ (x : Val) (f : Bool),
      ((match x with | .fin _ _ e => -2048 ≤ e ∧ e < 2048 | _ => True)) →
      unpackVal (packVal (x, f)) = (x, f)) ∧
  (∀ (m : Bool) (a b : Val),
      (pickVal m a b).isNan = (a.isNan || b.isNan) ∧ pickVal true (.zero true) (.zero false) = .zero false ∧
      pickVal false (.zero false) (.zero true) = .zero true)

/-- O41. R241, R244, R246, R247. Each equation is the whole next state. First clause: cIadd, cIsub, cAnd, cOr, cXor, cShl,
cShr, cIcmp, cMov, cKeyx, cSortv. Cites 07_curd_instructions. -/
def Obligations.CurdRawRows : Prop :=
  (∀ (s s3 : State) (core op : Nat) (w : CurdWord) (i : Instr) (xs : List (Src × Nat × List (List Byte))),
      curdInstr core op w = some i →
      (isLane op = true ∨ op = 0x30 ∨ op = 0x31 ∨ (op = 0x28 ∧ w.imm / 256 % 2 = 0)) →
      w.rep = 1 →
      CurdReady core op w s →
      CurdGuard core w s →
      bindingOk (s.core core) (curdEntry core op w s) = true →
      seeSrcs (curdHeld core op w s) core (curdEntry core op w s) = .got xs →
      ((rawOf xs 0).length = 512 ∧ (isLane op = true → (rawOf xs 1).length = 512)) →
      readsOk ((curdHeld core op w s).core core) (curdEntry core op w s) xs = true →
      (let e := curdEntry core op w s
    let t := curdHeld core op w s
    let s2 := popSrcs core xs t
    let out := (rawRead e [] xs).1
    hasRoomFor t core (dstOf w.dd).q 1 out = true ∧ hasRoomFor s2 core (dstOf w.dd).q 1 out = true ∧
    windowOk (s2.core core) e (dstOf w.dd).q true 1 = true ∧ pushVec core e.ord (dstOf w.dd).q out s2 = some (true, s3)) →
      exec i s = .next (curdFreed core (curdEntry core op w s) s3)) ∧
  (∀ (w : CurdWord) (a b : List Byte) (op n : Nat),
      (op = 0x20 ∨ op = 0x21 ∨ op = 0x25 ∨ op = 0x26) →
      a.length = 512 →
      b.length = 512 →
      n < 512 / laneBytes w →
      leAt (laneStep op w a b) (n * laneBytes w) (laneBytes w) =
        laneOp op (8 * laneBytes w) (w.imm / 4 % 2 == 1) (leAt a (n * laneBytes w) (laneBytes w))
          (leAt b (n * laneBytes w) (laneBytes w))) ∧
  (∀ (w : CurdWord) (a b : List Byte) (op n : Nat),
      (op = 0x22 ∨ op = 0x23 ∨ op = 0x24) →
      a.length = 512 →
      b.length = 512 →
      n < 512 →
      (laneStep op w a b).getD n 0 = (if op = 0x22 then a.getD n 0 &&& b.getD n 0
        else if op = 0x23 then a.getD n 0 ||| b.getD n 0 else a.getD n 0 ^^^ b.getD n 0)) ∧
  (∀ (w : CurdWord) (rs : List (List Byte)),
      (sortRecs w rs).Perm rs ∧ (sortRecs w rs).Pairwise (fun x y => recKey w x ≤ recKey w y)) ∧
  (∀ (s s3 s4 : State) (core : Nat) (w : CurdWord) (xs : List (Src × Nat × List (List Byte))),
      w.imm / 256 % 2 = 1 →
      w.rep = 1 →
      CurdReady core 0x28 w s →
      CurdGuard core w s →
      bindingOk (s.core core) (curdEntry core 0x28 w s) = true →
      seeSrcs (curdHeld core 0x28 w s) core (curdEntry core 0x28 w s) = .got xs →
      (rawOf xs 0).length = 512 →
      readsOk ((curdHeld core 0x28 w s).core core) (curdEntry core 0x28 w s) xs = true →
      (let t := curdHeld core 0x28 w s
    let s2 := popSrcs core xs t
    let e := curdEntry core 0x28 w s
    let d := (dstOf w.dd).q
    let d2 := (dstOf w.de).q
    hasRoomFor t core d 1 (rawOf xs 0) = true ∧ hasRoomFor t core d2 1 (rawOf xs 0) = true ∧
    hasRoomFor s2 core d 1 (rawOf xs 0) = true ∧ hasRoomFor s2 core d2 1 (rawOf xs 0) = true ∧
    windowOk (s2.core core) e d true 1 = true ∧ windowOk (s2.core core) e d2 true 1 = true ∧
    pushVec core e.ord d (rawOf xs 0) s2 = some (true, s3) ∧ pushVec core e.ord d2 (rawOf xs 0) s3 = some (true, s4)) →
      exec (.cMov core w) s = .next (curdFreed core (curdEntry core 0x28 w s) s4)) ∧
  (∀ (s s3 : State) (core : Nat) (w : CurdWord) (xs : List (Src × Nat × List (List Byte))),
      w.rep = 1 →
      CurdReady core 0x29 w s →
      CurdGuard core w s →
      bindingOk (s.core core) (curdEntry core 0x29 w s) = true →
      seeSrcs (curdHeld core 0x29 w s) core (curdEntry core 0x29 w s) = .got xs →
      (rawOf xs 0).length = 512 →
      readsOk ((curdHeld core 0x29 w s).core core) (curdEntry core 0x29 w s) xs = true →
      (let e := curdEntry core 0x29 w s
    let t := curdHeld core 0x29 w s
    let s2 := popSrcs core xs t
    let l := (compactStep w (rawOf xs 0) (rawOf xs 1)).flatMap id
    let out := l ++ List.replicate (512 - l.length) 0
    if l = [] then s3 = s2
    else hasRoomFor t core (dstOf w.dd).q 1 out = true ∧ hasRoomFor s2 core (dstOf w.dd).q 1 out = true ∧
      windowOk (s2.core core) e (dstOf w.dd).q true 1 = true ∧ pushVec core e.ord (dstOf w.dd).q out s2 = some (true, s3)) →
      exec (.cCompact core w) s = .next (curdFreed core (curdEntry core 0x29 w s) (writeS core w.rd
        (BitVec.ofNat 64 (compactStep w (rawOf xs 0) (rawOf xs 1)).length) s3))) ∧
  (∀ (s : State) (core : Nat) (w : CurdWord) (xs : List (Src × Nat × List (List Byte))),
      w.rep = 1 →
      CurdReady core 0x2B w s →
      CurdGuard core w s →
      bindingOk (s.core core) (curdEntry core 0x2B w s) = true →
      seeSrcs (curdHeld core 0x2B w s) core (curdEntry core 0x2B w s) = .got xs →
      readsOk ((curdHeld core 0x2B w s).core core) (curdEntry core 0x2B w s) xs = true →
      let e := curdEntry core 0x2B w s
      let t := curdHeld core 0x2B w s
      let ix := indicesOf (rawOf xs 0)
      (recExc t core e true ix = none → exec (.cScat core w) s = .next (curdFreed core e (popSrcs core xs
        (scatWrite core e (ix.zip (pieces (2 ^ recordLog w) (rawOf xs 1))) t)))) ∧
      (∀ code, recExc t core e true ix = some code →
        exec (.cScat core w) s = .next (curdExc core code (s.core core).pc 0 (curdIssued core s)))) ∧
  (∀ (s : State) (core : Nat) (e : Sb) (xs : List (Src × Nat × List (List Byte))),
      e.op = 0x2A →
      e.acc.length < 512 →
      e.steps < e.w.rep →
      seeSrcs s core e = .got xs →
      readsOk (s.core core) e xs = true →
      let ix := indicesOf (rawOf xs 0)
      let at_ := fun n => e.rs1 + n * 2 ^ recordLog e.w
      let v := vatOf core
      (∀ code, recExc s core e false ix = some code → microStep core e s = .exc code e s) ∧
      (recExc s core e false ix = none → ∀ g, gathLook s core e ix = .got g →
        let e1 := { e with acc := e.acc ++ g.map (fun b => b.toNat) }
        roomNext s core e1 = true → microStep core e s = .more { e1 with steps := e.steps + 1 } (popSrcs core xs s)) ∧
      (recSpace e.w = 0 → gathLook s core e ix = .got (ix.flatMap (fun n => localRead s v (at_ n) (2 ^ recordLog e.w)))) ∧
      (recSpace e.w = 1 → s.upset = [] → gathLook s core e ix =
        .got (ix.flatMap (fun n => rdBytes s (spCellar (vatQuad v)) (at_ n) (2 ^ recordLog e.w)))))

/-- O42. R198 to R200, R247, R248. That ASEND waits at the hand-off, after its operands are read, is the model's choice
(assumption 57). Cites 07_curd_instructions, 06_curd_execution. -/
def Obligations.CurdMergeAsend : Prop :=
  (∀ (s : State) (core : Nat) (e : Sb) (va vb : List (List Byte)),
      e.op = 0x32 →
      e.acc.length < 512 →
      e.sent < e.rs1 →
      e.steps - e.sent < e.rs2 →
      peekVecs s core (srcOf e.w.sa).q 1 = .got va →
      peekVecs s core (srcOf e.w.sb).q 1 = .got vb →
      windowOk (s.core core) e (srcOf e.w.sa).q false 1 = true →
      windowOk (s.core core) e (srcOf e.w.sb).q false 1 = true →
      let n := 2 ^ sortLog e.w
      let per := 512 / n
      let ra := ((va.flatMap id).drop (n * (e.sent % per))).take n
      let rb := ((vb.flatMap id).drop (n * ((e.steps - e.sent) % per))).take n
      let ea := { e with acc := e.acc ++ ra.map (fun x => x.toNat), steps := e.steps + 1, sent := e.sent + 1 }
      let eb := { e with acc := e.acc ++ rb.map (fun x => x.toNat), steps := e.steps + 1 }
      (recKey e.w ra ≤ recKey e.w rb → roomNext s core ea = true → microStep core e s =
        .more ea (if (e.sent + 1) % per = 0 then popVecs core (srcOf e.w.sa).q 1 s else s)) ∧
      (recKey e.w rb < recKey e.w ra → roomNext s core eb = true → microStep core e s =
        .more eb (if (e.steps - e.sent + 1) % per = 0 then popVecs core (srcOf e.w.sb).q 1 s else s))) ∧
  (∀ (s : State) (core : Nat) (e : Sb),
      e.op = 0x40 →
      e.acc ≠ [] →
      (e.steps % 8 = 0 ∨ e.steps = e.w.rep) →
      let k := asendKey e
      let pos := tget 0 (s.core core).order k.group
      let p := (sealPacket (asendPacket s e) s).1
      let s1 := (sealPacket (asendPacket s e) s).2
      (asendOlder (s.core core) e = true ∨ asendWaits s core e pos = true → microStep core e s = .wait e s) ∧
      (asendOlder (s.core core) e = false → asendWaits s core e pos = false →
       microStep core e s = .more { e with acc := [], sent := e.sent + 1 }
        (enqueue (repCore core) vcCup (.jfp p) .none none ((noteMember k.group (asendRank e) (vatOf core) s1).updCore core (fun c =>
         { c with items := c.items ++ [⟨c.nextItem, pos, k, asendRank e, p, (dstOf e.w.de).q, s.cyc + itemTo s⟩],
                  nextItem := c.nextItem + 1, order := tset 0 c.order k.group (pos + 1) }))))) ∧
  (∀ (s : State) (core : Nat) (e : Sb) (xs : List (Src × Nat × List (List Byte))),
      e.op = 0x40 →
      (e.acc = [] ∨ (e.steps % 8 ≠ 0 ∧ e.steps ≠ e.w.rep)) →
      e.steps < e.w.rep →
      seeSrcs s core e = .got xs →
      readsOk (s.core core) e xs = true →
      let a := operand e e.w.sa xs
      let b := if e.w.imm % 2 = 1 then operand e e.w.sb xs else []
      let vs := (List.range (stepElems e.w.afmt)).map (fun n => rndTo e.w.afmt
        (if e.w.imm % 2 = 1 then Val.add (a.getD n (.zero false)) (b.getD n (.zero false)) else a.getD n (.zero false)))
      microStep core e s = .more { e with acc := e.acc ++ vs.map packVal, steps := e.steps + 1 }
        (popSrcs core xs (forAll (fun (x : Src × Nat × List (List Byte)) s =>
          censusSrc core e.w.afmt e.steps x.1 x.2.2 s) xs s))) ∧
  (∀ (s : State) (core : Nat) (e : Sb),
      e.op = 0x40 →
      e.acc = [] →
      e.w.rep ≤ e.steps →
      microStep core e s = .done s)

/-- O43. R73, R74, R191 to R194, R201 to R204, R207, R345. Which packets this command takes, and that it discards those of a
kind that R191 does not list, is the model's reading (assumption 46). Cites 06_curd_execution. -/
def Obligations.CurdStartComplete : Prop :=
  (∀ (s : State) (core : Nat) (par : Parity) (e : Sb),
      coreActive (s.core core) = true →
      (s.core core).sb.find? (canStart s core) = some e →
      exec (.instructionStart core par) s = .next (startEntry core e.ord par s)) ∧
  (∀ (s : State) (core : Nat) (w : CurdWord) (n op pc : Nat),
      coreActive (s.core core) = true →
      (s.core core).sb = [freshSb n op pc w] →
      retiredNow s core = [] →
      (s.core core).cmode = true →
      CurdGuard core w s →
      bindingOk (s.core core) (freshSb n op pc w) = true →
      op ≠ 0x32 →
      exec (.instructionStart core .hard) s =
        .next (curdExc core 6 pc 0 (noteAct (.begun core) n (s.addFld (pgCellar (vatQuad (vatOf core))) celPar_hard 1)))) ∧
  (∀ (s : State) (core : Nat) (e : Sb),
      coreActive (s.core core) = true →
      (s.core core).sb = [e] →
      e.started = true →
      storedBefore s core e.ord = false →
      exec (.instructionComplete core) s = .next (settle core e.ord (runSteps core (fuelOf e) e s))) ∧
  (∀ (s : State) (port : Nat) (p : Packet),
      (otherUnits p = true → exec (.inboundDelivery port p) s = .next s) ∧
      (otherUnits p = false → crcGood p = true →
        exec (.inboundDelivery port p) s = .next (inbDeliver (takeInbox port p s).1 (takeInbox port p s).2)) ∧
      (otherUnits p = false → crcGood p = false → exec (.inboundDelivery port p) s =
        .next (consumed (takeInbox port p s).1 (e2eFail port p (takeInbox port p s).2)))) ∧
  (∀ (s : State) (x : InPkt) (b : Nat) (s1 : State),
      inbKind x.pkt = true →
      (inbEntry s (x.pkt.tag % 4096)).valid = true →
      x.pkt.tag < 4096 →
      (let core := (inbEntry s x.pkt.tag).core
    let q := (s.core core).queue (inbEntry s x.pkt.tag).queue
    vatPresent s.fuses (vatOf core) = true ∧ isGold s (puVat (vatOf core)) = true ∧ coreActive (s.core core) = true ∧
    q.bound = true ∧ q.kind = 3 ∧ q.bufs.length < q.len) →
      isDup s x.pkt = false →
      earlierIn s x = false →
      x.pool = none →
      takeBuf (unitQuad x.port) (x.pkt.vc % 7) x.port s = some (b, s1) →
      let core := (inbEntry s x.pkt.tag).core
      let n := (inbEntry s x.pkt.tag).queue
      let u := repCore core
      let lost := fun s => consumed x (countParity (bufQuad b) .hard s)
      let done := fun h s => consumed x (if x.pkt.ptype = ptWrite then
        writeAck x.pkt (noteSeq x.pkt (appendBuf core n x.pkt (some h) s)) else noteSeq x.pkt (appendBuf core n x.pkt (some h) s))
      let own := freeBuf b u none (shareBuf b 1 u none (fillPacket b u x.pkt s1))
      (x.home = none → bufRefused s1 b = false → inbDeliver x s = done b own) ∧
      (x.home = none → bufRefused s1 b = true → inbDeliver x s = lost own) ∧
      (∀ h, x.home = some h → h ≠ b → bufQuad h = bufQuad b → (s1.port x.port).credBufs.contains (x.pkt.vc, h) = true →
        s1.waiting.all (fun y => y.home != some h) = true → s1.inbox.all (fun y => y.home != some h) = true →
        bufRefused s1 h = false → inbDeliver x s = done h (freeBuf h u none (shareBuf h 1 u none (s1.updPort x.port (fun y =>
          { y with credBufs := y.credBufs.map (fun c => if c = (x.pkt.vc, h) then (x.pkt.vc, b) else c) })))))) ∧
  (∀ (s : State) (x : InPkt),
      inbKind x.pkt = true →
      (inbEntry s (x.pkt.tag % 4096)).valid = true →
      x.pkt.tag < 4096 →
      (let core := (inbEntry s x.pkt.tag).core
    let q := (s.core core).queue (inbEntry s x.pkt.tag).queue
    vatPresent s.fuses (vatOf core) = true ∧ isGold s (puVat (vatOf core)) = true ∧ coreActive (s.core core) = true ∧
    q.bound = true ∧ q.kind = 3) →
      let q := (s.core (inbEntry s x.pkt.tag).core).queue (inbEntry s x.pkt.tag).queue
      (isDup s x.pkt = true → inbDeliver x s = consumed x (writeAck x.pkt s)) ∧
      (isDup s x.pkt = false → q.len ≤ q.bufs.length → inbDeliver x s = holdFull x s) ∧
      (isDup s x.pkt = false → q.bufs.length < q.len → earlierIn s x = true → inbDeliver x s = holdInbox x s) ∧
      (isDup s x.pkt = false → q.bufs.length < q.len → earlierIn s x = false → x.pool = none →
        takeBuf (unitQuad x.port) (x.pkt.vc % 7) x.port s = none → inbDeliver x s = holdFull x (waitInbound x s))) ∧
  (∀ (s : State) (x : InPkt),
      (inbKind x.pkt = false ∨ 4096 ≤ x.pkt.tag ∨ (inbEntry s (x.pkt.tag % 4096)).valid = false) →
      isEnabled s (pgVat (vatOf (inbEntry s (x.pkt.tag % 4096)).core)) = true →
      isDark s (puVat (vatOf (inbEntry s (x.pkt.tag % 4096)).core)) = false →
      isDrain s (pgVat (vatOf (inbEntry s (x.pkt.tag % 4096)).core)) = false →
      let v := vatOf (inbEntry s (x.pkt.tag % 4096)).core
      (vatPresent s.fuses v = true → inbDeliver x s =
        consumed x (reportOpen x.pkt.src clsInbound x.port (s.addFld (pgVat v) vatCnt_inb 1))) ∧
      (vatPresent s.fuses v = false → inbDeliver x s = consumed x (reportOpen x.pkt.src clsInbound x.port s)))

/-- O44. R258, R262, R263, R265, R282. The judging of packets and streams rests on the model's readings of assumptions 60, 61
and 62. Cites 08_stream_programs. -/
def Obligations.LibraryCalls : Prop :=
  (∀ (s : State) (core p : Nat) (i : Instr),
      (p, i) ∈ [(1, Instr.callAgather core), (2, .callSort core), (3, .callFilter core), (4, .callTopk core),
      (5, .callDispatch core), (6, .callCombine core), (7, .callLsemerge core), (8, .callPgather core)] →
      serving s core = true →
      (serverOf s core).call = none →
      swaitMet s (serverOf s core).obj (((serverOf s core).next + 1) % 2 ^ 64) = true →
      (readBlk s core (nextOff (serverOf s core))).prog = p →
      (callData core s).all (fun y => upsetIn s (upLocal (vatOf core)) y.1 y.2 = false) = true →
      let sv := serverOf s core
      let b := readBlk s core (nextOff sv)
      let n := callN s b
      let fids := (List.range n).map (fun r => rdLe s (spHbm b.rmapQd) (pageAddr b.rmapPg + 4 * r) 4 % 2 ^ 20)
      let c : Call := { off := nextOff sv, prog := p, num := b.num, failed := !callOk s core b, refused := !callOk s core b, fids := fids, streams := []
                        rej := 0, dup := 0, late := 0
                        deadline := if b.limit = 0 then none else some (s.cyc + b.limit * 1024)
                        reserved := false, wheyHeld := [], poolHeld := [], overflow := 0, fetched := [] }
      let keep := if p = 5 then sv.disps.filter (fun d => d.num != b.num) else sv.disps
      let t := hbmMoved .bulk b.rmapQd (pageAddr b.rmapPg) (4 * n) (s.setServer core { sv with call := some c, disps := keep })
      let ask := hbmAsk s b.rmapQd (pageAddr b.rmapPg) (4 * n)
      (ask = .ready → p ≠ 8 ∨ callOk s core b = false → exec i s = .next t) ∧
      (ask = .ready → p = 8 → callOk s core b = true → exec i s = .next (pgReserve core b c true t)) ∧
      (ask = .asleep → exec i s = .next (hbmWake b.rmapQd (pageAddr b.rmapPg) (4 * n) s)) ∧
      (ask = .refused → exec i s = .next (libData core s)) ∧
      (ask = .beyond → exec i s = .next (libData core (refusePage b.rmapQd (repCore core) s)))) ∧
  (∀ (s : State) (core : Nat) (c : Call) (p : Packet) (s1 : State),
      (serverOf s core).call = some c →
      serving s core = true →
      c.waits = false →
      intakeRefused s core (intakeQs s core (readBlk s core c.off) c.num) = none →
      popIntake core (intakeQs s core (readBlk s core c.off) c.num) s = some (p, s1) →
      let b := readBlk s core c.off
      (∀ d u, judge core b c p s1 = .took d u → exec (.libraryPacket core) s =
        .next (if allDone u b d then closeCall core b d (putCall core d u) else putCall core d u)) ∧
      (∀ q off n, judge core b c p s1 = .wake q off n → exec (.libraryPacket core) s = .next (hbmWake q off n s)) ∧
      (∀ l, judge core b c p s1 = .data l → exec (.libraryPacket core) s = .next (libData core (lostMark core l s)))) ∧
  (∀ (s : State) (core x : Nat) (c : Call),
      (serverOf s core).call = some c →
      serving s core = true →
      c.waits = false →
      intakeRefused s core (intakeQs s core (readBlk s core c.off) c.num) = some x →
      exec (.libraryPacket core) s = .next (libData core (lostMark core (.buf x) s))) ∧
  (∀ (s : State) (core t : Nat) (c : Call),
      (serverOf s core).call = some c →
      serving s core = true →
      c.deadline = some t →
      let b := readBlk s core c.off
      (s.cyc < t → exec (.callLimitExpire core) s = .next s) ∧
      (t ≤ s.cyc → callBad s core b c = true →
        exec (.callLimitExpire core) s = .next (endCall core b c stRefused 0 (fun _ => 0) s)) ∧
      (t ≤ s.cyc → callBad s core b c = false → c.prog ≠ 8 → exec (.callLimitExpire core) s =
        .next (endCall core b c stMissing (incomplete s b c) (fun _ => if c.prog = 1 then callN s b * b.p 0 else 0) s)) ∧
      (t ≤ s.cyc → callBad s core b c = false → c.prog = 8 →
        exec (.callLimitExpire core) s = .next (closePgather core b c true s))) ∧
  (∀ (s : State) (core : Nat) (c : Call),
      (serverOf s core).call = some c →
      serving s core = true →
      c.waits = true →
      exec (.pgatherReserve core) s = .next (pgReserve core (readBlk s core c.off) c false s)) ∧
  (∀ (s : State) (core : Nat),
      serving s core = true →
      (serverOf s core).call = none →
      swaitMet s (serverOf s core).obj (((serverOf s core).next + 1) % 2 ^ 64) = true →
      (readBlk s core (nextOff (serverOf s core))).prog = 0 →
      exec (.serverStop core) s = .next (forAll (fun k s => s.updCore k (fun c => { c with st := .ending }))
        (serverCores s core) s))

/-- O45. R265, R270 to R274, R278, R280. Cites 08_stream_programs. -/
def Obligations.LibraryResults : Prop :=
  (∀ (s : State) (core : Nat) (b : CallBlk) (c : Call) (st n : Nat) (len : Nat → Nat),
      c.poolHeld = [] →
      c.wheyHeld = [] →
      b.doneEn = false →
      s.same.stores.all (fun x => x.sp != spLocal (vatOf core)) = true →
      Memory.wf (forAll (fun r s => endRecord core b c r (len r) st n s) (receivers s b) s).mem = true →
      let s1 := forAll (fun r s => endRecord core b c r (len r) st n s) (receivers s b) s
      let t := endCall core b c st n len s
      (t.server core).call = none ∧ (t.server core).next = (serverOf s1 core).next + 1 ∧
      rdLe t (spLocal (vatOf core)) (c.off + 40) 8 = (st + n % 2 ^ 32 * 2 ^ 32) % 2 ^ 64 ∧
      rdLe t (spLocal (vatOf core)) (c.off + 48) 8 =
        min c.rej 65535 + min c.dup 65535 * 2 ^ 16 + min c.late 65535 * 2 ^ 32) ∧
  (∀ (d : KeyDesc) (rs : List (List Byte)),
      (sortAll d rs).Perm rs ∧ (sortAll d rs).Pairwise (fun x y => sortKey d x ≤ sortKey d y)) ∧
  (∀ (s : State) (b : CallBlk) (c : Call) (q : Nat),
      (b.prog = 3 → recordsFor s b c q =
        (allRecords s b c (filterP (b.p 0)).recLog).filter (passes (filterP (b.p 0)) (b.p 1) (b.p 2))) ∧
      (b.prog = 4 → recordsFor s b c q =
        (sortAll (keyDesc (b.p 0)) (allRecords s b c (keyDesc (b.p 0)).recLog)).take (b.p 1 + 1)) ∧
      (b.prog = 2 → b.outMode = 0 → recordsFor s b c q =
        sortAll (keyDesc (b.p 0)) (allRecords s b c (keyDesc (b.p 0)).recLog))) ∧
  (∀ (s : State) (b : CallBlk) (c : Call),
      b.prog = 2 →
      b.outMode = 2 →
      0 < callN s b →
      (List.range (callN s b)).flatMap (recordsFor s b c) =
        sortAll (keyDesc (b.p 0)) (allRecords s b c (keyDesc (b.p 0)).recLog)) ∧
  (∀ (g x : Nat),
      combineElem [(g, x)] = toCode 1 (Val.mul (ofCode 1 g) (ofCode 1 x)) ∧ combineElem [] = 0) ∧
  (∀ (fmt : Nat) (x y : LseV),
      x.m = .inf true →
      y.m = .inf true →
      lseMerge fmt x y = ⟨.inf true, .zero false, x.a.map (fun _ => .zero false)⟩)

/-- O46. R306, R307. How a routine takes its stream and its cores is the model's choice (assumptions 60, 64). The stream is
read as `rowLook` says; the last clause is for the local data area. Cites 09_sparsity. -/
def Obligations.RowRoutines : Prop :=
  (∀ (s : State) (core : Nat) (x : RowStream),
      (s.core core).st = .running →
      let v := vatOf core
      (∀ d, rowLook s v x true = .got d → exec (.rowScale core x) s = .next (rowWrites x
        ((List.range x.rows).flatMap (fun r => (d.row r).map (fun e => (chunkCore s core (e / 4096), e,
          toCode x.fmt (Val.mul (ofCode x.fmt (d.val x.fmt e)) (ofCode x.fmt (d.fac x.fmt r))))))) (rowMoved x d s))) ∧
      (∀ d, rowLook s v x false = .got d → exec (.rowSum core x) s = .next (rowWrites x
        ((List.range x.rows).map (fun r => (chunkCore s core ((d.entry (r + 1) - 1) / 4096), r,
          canonSum x.fmt ((rowPieces (d.row r)).map (fun p => canonSum x.fmt (p.map (d.val x.fmt))))))) (rowMoved x d s))) ∧
      (∀ sc i, i = (if sc then Instr.rowScale core x else .rowSum core x) →
        (rowLook s v x sc = .range → exec i s =
          .next (curdExc core 4 (oldestAt (s.core core)).1 (oldestAt (s.core core)).2 s)) ∧
        (∀ q a n, rowLook s v x sc = .sleep q a n → exec i s = .next (hbmWake q a n s)) ∧
        (∀ l, rowLook s v x sc = .lost l → exec i s = .next (libData core (lostMark core l s))))) ∧
  (∀ (s : State) (core r : Nat) (x : RowStream) (d : RowData),
      Canon s →
      (s.core core).st = .running →
      x.space = 0 →
      s.same.stores.all (fun y => y.sp != spLocal (vatOf core)) = true →
      rowLook s (vatOf core) x false = .got d →
      r < x.rows →
      let v := vatOf core
      let w := accBytes x.fmt
      d.dir = rdBytes s (spLocal v) x.dirOff (8 * (x.rows + 1)) ∧
      d.vals = rdBytes s (spLocal v) x.valOff (w * d.entry x.rows) ∧
      ∃ t, exec (.rowSum core x) s = .next t ∧ t.regs = s.regs ∧ Canon t ∧
        (∀ sp a, sp < 40 → a < 2 ^ 40 → ¬ (sp = spLocal v ∧ x.outOff ≤ a ∧ a < x.outOff + w * x.rows) →
          rdByte t sp a = rdByte s sp a) ∧
        rdLe t (spLocal v) (x.outOff + w * r) w =
          canonSum x.fmt ((rowPieces (d.row r)).map (fun p => canonSum x.fmt (p.map (d.val x.fmt)))) % 2 ^ (8 * w))

/-- O47. R125, R337, R339, R341, R342. Which command queues a read's bursts, and that a stack's refusal is a failed use, are
the model's choices (assumptions 47, 71). R348 to R351, R353, R359, R397. Cites 11_cellar_and_memory. -/
def Obligations.MemoryCommands : Prop :=
  (∀ (s : State) (qd pool : Nat) (w : Waiter),
      poolHead s qd pool = some w →
      canAllocate s qd pool = true →
      headTurn s w = true →
      exec (.bufferAllocate qd pool) s = .next (serveWaiter w s)) ∧
  (∀ (s : State) (q p : Nat) (hs : List Waiter) (w : Waiter),
      let a := afterHeads s q hs (nBufs s q - takenBufs s q, nBufs s q - poolsAside s q)
      (heedsHeads s q p hs = true ↔ 0 < a.1 ∧ (poolUsed s q p < poolRes s q p ∨ 0 < a.2)) ∧
      (∀ f r, afterHeads s q [] (f, r) = (f, r)) ∧
      (∀ f r, poolUsed s q w.pool < poolRes s q w.pool → afterHeads s q (w :: hs) (f, r) = afterHeads s q hs (f - 1, r)) ∧
      (∀ f r, poolRes s q w.pool ≤ poolUsed s q w.pool → 0 < f → 0 < r →
        afterHeads s q (w :: hs) (f, r) = afterHeads s q hs (f - 1, r - 1)) ∧
      (s.waiters.all (fun x => !(x.qd == q && x.pool == p)) = true → heedsHeads s q p (readyHeads s q) = false →
        takeBuf q p 0 s = none)) ∧
  (∀ (s : State) (req q : Nat),
      pathOpen s req = true →
      quadPresent s.fuses q = true →
      s.same.oldReg.find? (fun r => r.1 == pgCellar q + 0x110) = none →
      let o := 8 * s.fld (pgCellar q) celIndAddr_off
      let u := indParity q o s
      let t := fun (v : U64) => (indStep q u).emit (.readData req (pgCellar q + 0x110) v)
      (o < 0x80000 → exec (.celIndDataRead req q) s = .next (t (lookReg u (syncAt (q * 16384 + o / 32) + o % 32)))) ∧
      (0x80000 ≤ o → o < sliceBytes → exec (.celIndDataRead req q) s =
        .next (t (BitVec.ofNat 64 (rdLe u (spCellar q) o 8)))) ∧
      (sliceBytes ≤ o → exec (.celIndDataRead req q) s =
        .next ((indStep q s).emit (.readData req (pgCellar q + 0x110) 0)))) ∧
  (∀ (s : State) (req q : Nat) (r : Nat × U64),
      pathOpen s req = true →
      quadPresent s.fuses q = true →
      s.same.oldReg.find? (fun r => r.1 == pgCellar q + 0x110) = some r →
      exec (.celIndDataRead req q) s = .next ((indStep q s).emit (.readData req (pgCellar q + 0x110) r.2))) ∧
  (∀ (s : State) (req q : Nat) (v : U64),
      pathOpen s req = true →
      quadPresent s.fuses q = true →
      s.flag (pgCellar q) celIndAddr_inc = false →
      let o := 8 * s.fld (pgCellar q) celIndAddr_off
      let a := pgCellar q + 0x110
      let w := if s.same.oldReg.any (fun r => r.1 == a) then s
        else { s with same := { s.same with oldReg := (a, (indRead q s).1) :: s.same.oldReg } }
      (o < 0x80000 ∨ openEnd w q ≤ o →
        exec (.celIndDataWrite req q v) s = .next (errCount (pgCellar q) 0x110 2 w)) ∧
      (0x80000 ≤ o → o < openEnd w q → tablesIn w q o 8 = [] →
        exec (.celIndDataWrite req q v) s = .next (cellWrite q o req (leBytes 8 v.toNat) w)) ∧
      (∀ g, 0x80000 ≤ o → o < openEnd w q → tablesIn w q o 8 = [g] → (∀ j, j < 8 → tablesIn w q (o + j) 1 ≠ []) →
        exec (.celIndDataWrite req q v) s = .next (errCount (pgPress (homePress w g)) 0x110 2 w))) ∧
  (∀ (s : State) (req q p : Nat) (v : U64),
      pathOpen s req = true →
      quadPresent s.fuses q = true →
      p < 7 →
      let others := ((List.range 7).map (fun j => if j = p then 0 else poolRes s q j)).sum
      let bad := decide (fieldOf v 16 16 < fieldOf v 0 16) || decide (nBufs s q < others + fieldOf v 0 16)
      (bad = true → exec (.poolWrite req q p v) s = .next (errCount (pgCellar q) (0x140 + 8 * p) 2 s)) ∧
      (bad = false → exec (.poolWrite req q p v) s =
        .next (holdPool q p (poolRes s q p)
          (plainWrite req (pageLoc .cellar q (pgCellar q) (0x140 + 8 * p)) v (fun _ => false) s)))) ∧
  (∀ (s : State) (req q : Nat) (v : U64),
      pathOpen s req = true →
      quadPresent s.fuses q = true →
      let ok := sliceQuiet s q && decide (4096 ≤ (sliceBytes - (openBase + fieldOf v 0 16 * 4096)) / bufBytes)
      (ok = false → exec (.openPagesWrite req q v) s = .next (errCount (pgCellar q) 0x100 2 s)) ∧
      (ok = true → exec (.openPagesWrite req q v) s =
        .next (plainWrite req (pageLoc .cellar q (pgCellar q) 0x100) v (fun _ => false) s))) ∧
  (∀ (s : State) (q pg line : Nat) (u : HbmUse),
      (useQuad s u).all (fun z => z == q) = true →
      pg < quadPages s q →
      stackOn s (hbmPlace s q pg (line % 64)).1 = true →
      isGold s (puPc (hbmPlace s q pg (line % 64)).1 (hbmPlace s q pg (line % 64)).2) = true →
      let st := (hbmPlace s q pg (line % 64)).1
      let t := match useLc u with
        | some lc => queueBursts (if lc then .lc else .bulk) (puPc st (hbmPlace s q pg (line % 64)).2) 1 s
        | none => s
      let l := fun lost (t : State) => useLine u lost q (pg * 4096 + line % 64 * 64) t
      let fails := fun (t : State) => useFailed u (l true (reportOwnOpen clsHbmUncorr (repHbm st)
        (raiseEv (pgHbm st) 1 (noteUncorr st pg (line % 64) (t.addFld (pgHbm st) hbmEcc_uncorr 1)))))
      exec (.hbmReadDone q pg line u .clean) s = .next (l false t) ∧
      exec (.hbmReadDone q pg line u .corrected) s = .next (l false (t.addFld (pgHbm st) hbmEcc_corr 1)) ∧
      exec (.hbmReadDone q pg line u .rereadOk) s = .next (l false (t.addFld (pgHbm st) hbmEcc_rereadOk 1)) ∧
      exec (.hbmReadDone q pg line u .pathReread) s = .next (l false (t.addFld (pgCellar (st / 5)) celPar_replay 1)) ∧
      exec (.hbmReadDone q pg line u .uncorrectable) s = .next (fails t) ∧
      exec (.hbmReadDone q pg line u .pathHard) s = .next (fails (t.addFld (pgCellar (st / 5)) celPar_hard 1))) ∧
  (∀ (s : State) (q pg line : Nat) (u : HbmUse) (o : EccOutcome),
      quadPresent s.fuses q = true →
      ((useQuad s u).any (fun z => z != q) = true → exec (.hbmReadDone q pg line u o) s = .next s) ∧
      ((useQuad s u).all (fun z => z == q) = true → quadPages s q ≤ pg →
        exec (.hbmReadDone q pg line u o) s = .next (useFailed u (refusePage q (useReq s u) s))) ∧
      ((useQuad s u).all (fun z => z == q) = true → pg < quadPages s q →
        stackOn s (hbmPlace s q pg (line % 64)).1 = false →
        exec (.hbmReadDone q pg line u o) s = .next (useFailed u s))) ∧
  (∀ (s : State) (k q off : Nat),
      let n := rvLine q off
      let use := fun lost => useLine (.rindPrefetch k) lost q off s
      ((s.rline n).caches = [] → use false = lineUsed (dcacheOf k) k n (s.setRline n ⟨rdBytes s (spHbm q) off 64, []⟩)) ∧
      ((s.rline n).caches ≠ [] → use false = lineUsed (dcacheOf k) k n s) ∧ use true = s.setRline n RLine.none ∧
      useLine (.rindLoad k) true q off s = s.setRline n RLine.none ∧ useLine (.rindFetch k) true q off s = s.setRline n RLine.none ∧
      useLine (.rindLoad k) false q off s = s ∧ useLine .completionLog true q off s = s) ∧
  (∀ (f : Nat) (q r : HbmQ) (lc : Bool),
      q.next f = some (lc, r) →
      r.land + r.lc + r.bulk + 1 = q.land + q.lc + q.bulk ∧
      (lc = true → r.bulk = q.bulk ∧ (0 < q.land → r.lc = q.lc)) ∧
      (lc = false → 0 < q.land + q.lc → 2 ^ (f + 1) ≤ q.run + 1) ∧
      (lc = true → 0 < q.bulk → r.run = q.run + 1 ∧ q.run + 1 < 2 ^ (f + 1)) ∧
      (q.run + 1 ≤ 2 ^ (f + 1) → r.run + 1 ≤ 2 ^ (f + 1))) ∧
  (∀ (s : State) (p core : Nat) (k : Key),
      ((s.port p).formed = true → (s.port p).st ≠ .down → useFailed (.replay p) s = linkDown p s) ∧
      useFailed (.spill k 0 0) s = abortKey k stFailedLink 0 s ∧ useFailed .completionLog s = s ∧
      useFailed (.rindPrefetch core) s = s ∧ useFailed (.retention k) s = dropRetained k s ∧
      (coreActive (s.core core) = true → useFailed (.programStore core) s = curdExc core 5 (s.core core).pc 0 s)) ∧
  (∀ (s : State) (st pc : Nat) (o : EccOutcome),
      pc < 32 →
      stackOn s st = true →
      isGold s (puPc st pc) = true →
      s.flag (pgHbm st) hbmCfg_scrubEn = true →
      (scrubOf s (32 * st + pc)).at_ + usCycles (max 1 (s.fld (pgHbm st) hbmCfg_scrubUs)) ≤ s.cyc →
      let x := scrubOf s (32 * st + pc)
      let a := scrubAddr s st pc x.line
      exec (.scrub st pc o) s = .next (hbmCheck st a.1 a.2 o (queueBursts .bulk (puPc st pc) (if o = .corrected then 2 else 1)
        { s with scrubs := tset ⟨0, 0⟩ s.scrubs (32 * st + pc) ⟨(x.line + 1) % 18874368, s.cyc⟩ }))) ∧
  (∀ (s : State) (st pc : Nat) (lc : Bool) (q : HbmQ),
      (st < 20 ∧ pc < 32) →
      isGold s (puPc st pc) = true →
      stackOn s st = true →
      (hbmQueue s (puPc st pc)).next (s.fld (pgHbm st) hbmCfg_floor) = some (lc, q) →
      serveBurst (puPc st pc) s =
        addLines st pc 1 lc { s with hbmQ := tset HbmQ.empty s.hbmQ (puPc st pc) q })

/-- O48. R360, R363, R364, R369, R373. That a write of another mode stores the fields beside mode and the twin's FID is the
model's reading (assumption 65). That a TAKEOVER or REJOIN whose condition fails is a refused command with cause 3,
and that mode 0 clears the FID alias, are the model's choices (assumption 66). Cites 12_twin_faults_determinism. -/
def Obligations.TwinCommands : Prop :=
  (∀ (s : State) (req : Nat) (v : U64),
      pathOpen s req = true →
      twinPresent s.fuses = true →
      fieldOf v 0 2 ≠ 0 →
      RegsOk s →
      lostRace s req (pgTwin + 0x100) = false →
      let w := fun (k : FieldRow → Bool) => plainWrite req (pageLoc .twin 0 pgTwin 0x100) v k s
      (twState s = 0 → twMode s = 0 → exec (.twinModeSet req v) s =
        .next { w (fun _ => false) with twin := { (w (fun _ => false)).twin with heartAt := s.cyc } }) ∧
      (twState s ≠ 0 → twMode s ≠ 0 →
        let t := w (fun f => f.fd == twnCfg_mode || f.fd == twnCfg_twinFid)
        exec (.twinModeSet req v) s =
          .next (if twMode s = 3 ∧ twState s = 3 ∧ t.flag pgTwin twnCfg_autoTake then takeOver t else t))) ∧
  (∀ (s : State) (req : Nat) (v : U64),
      pathOpen s req = true →
      twinPresent s.fuses = true →
      fieldOf v 0 2 = 0 →
      RegsOk s →
      lostRace s req (pgTwin + 0x100) = false →
      let w := plainWrite req (pageLoc .twin 0 pgTwin 0x100) v (fun f => f.fd == twnCfg_twinFid && twState s != 0) s
      let u := { w.setFld pgTwin twnStat_state 0 with twin := { w.twin with heartSeen := false } }
      let held := (u.slots.filter (fun x => x.twinAt.isSome)).map (fun x => x.k)
      let release : Key → State → State := fun k t => match t.slotOf k with
        | some x => if x.twinAt.isSome then releaseUnverified x t else t
        | none => t
      (twState s = 0 → twMode s = 0 → exec (.twinUnpair req v) s = .next w) ∧
      (twState s = 1 → exec (.twinUnpair req v) s = .next { forAll release held u with twin := Twin.reset }) ∧
      (twState s ≠ 1 → (twState s ≠ 0 ∨ twMode s ≠ 0) → exec (.twinUnpair req v) s = .next { u with twin := Twin.reset }) ∧
      Twin.reset.aliasOn = false ∧ Twin.reset.held = [] ∧ Twin.reset.unacked = [] ∧ twMode w = 0) ∧
  (∀ (s : State) (req : Nat),
      pathOpen s req = true →
      twinPresent s.fuses = true →
      let w := fun (n : U64) =>
        plainWrite req (pageLoc .twin 0 pgTwin 0x118) n (fun _ => false) (woTurn req (pgTwin + 0x118) s)
      (twState (w 2) = 1 → exec (.solo req) s = .next (leavePaired 2 (w 2))) ∧
      (twState (w 2) ≠ 1 → exec (.solo req) s = .next (errCount pgTwin 0x118 3 (w 2))) ∧
      (twState (w 1) = 1 → exec (.takeover req) s = .next (errCount pgTwin 0x118 3 (w 1))) ∧
      (twMode (w 1) = 3 → twState (w 1) = 2 ∨ twState (w 1) = 3 → exec (.takeover req) s = .next (takeOver (w 1))) ∧
      (twState (w 3) = 2 ∨ twState (w 3) = 3 → (w 3).twin.heartSeen = true →
        exec (.rejoin req) s = .next (enterPaired (w 3))) ∧
      (twState (w 3) = 1 → exec (.rejoin req) s = .next (errCount pgTwin 0x118 3 (w 3)))) ∧
  (∀ (s : State),
      twinPresent s.fuses = true →
      twMode s ≠ 0 →
      s.twin.heartAt ≤ s.cyc →
      let t := originate repTwin (rawPacket s.ownFid ptTwin vcMgt (s.fld pgTwin twnCfg_twinFid) 0 (twinAddr 1 0 0) none
        (leBytes 8 s.twin.rxNext ++ leBytes 8 s.aon ++ leBytes 8 s.twin.farCount)) .none s
      exec .heartTimer s = .next { t with twin := { t.twin with
        heartAt := s.cyc + usCycles (max 1 (s.fld pgTwin twnTime_hbUs)) } }) ∧
  (∀ (s : State) (n : Nat),
      s.twin.lastRx = some n →
      twinPresent s.fuses = true →
      twState s = 1 →
      n + usCycles (s.fld pgTwin twnTime_lostUs) ≤ s.cyc →
      (twMode s = 1 ∨ twMode s = 2) →
      let u := leavePaired 3 s
      let r := reportOwnOpen clsTwinLost repTwin (raiseEv pgTwin 2 u)
      exec .twinLost s = .next (if twMode s = 1 then r.setFld pgTwin twnStat_state 2 else r)) ∧
  (∀ (s : State),
      twinPresent s.fuses = true →
      twMode s ≠ 0 →
      exec .twinResend s = .next (forAll resendEntry (s.twin.unacked.filter (fun e =>
        decide (e.sentAt + 2 * (s.fld pgTwin twnStat_rtt * 80) ≤ s.cyc))) s)) ∧
  (∀ (s : State) (k : Key) (x : Slot) (n : Nat),
      s.slotOf k = some x →
      x.twinAt = some n →
      n + s.fld pgTwin twnTime_digWait * 80 ≤ s.cyc →
      exec (.digWaitExpire k) s = .next (releaseUnverified x s))

/-- O49. R360, R362 to R364, R367 to R370, R372. Entries that arrive in SOLO and LOST are applied (the model's choice,
assumption 65), and an early ABORT is kept until its slot opens (assumption 67). Cites 12_twin_faults_determinism. -/
def Obligations.TwinEntries : Prop :=
  (∀ (s : State) (port : Nat) (p : Packet),
      crcGood p = true →
      twinPresent s.fuses = true →
      twMode s ≠ 0 →
      s.inbox = [] →
      let u : State := { s with arrivals := s.arrivals + 1, twin := { s.twin with lastRx := some s.cyc } }
      let x : InPkt := { port := port, pkt := p, buf := none, org := .none, held := false, seq := s.arrivals, pool := none, frame := 0, tc := 0 }
      let next := leAt p.payload 0 4
      let kept := u.twin.unacked.filter (fun y => !(decide (0 < (next + 2 ^ 32 - y.tseq) % 2 ^ 32) &&
        decide ((next + 2 ^ 32 - y.tseq) % 2 ^ 32 ≤ 2 ^ 31)))
      let h1 := { u with twin := { u.twin with unacked := kept, farCount := leAt p.payload 8 8, heartSeen := true } }
      let h2 := if leAt p.payload 16 8 = 0 then h1
        else h1.setFld pgTwin twnStat_rtt (min (2 ^ 32 - 1) (u.aon - leAt p.payload 16 8))
      let h := if twState h2 = 0 then { h2.setFld pgTwin twnStat_state 1 with twin := { h2.twin with
          txSeq := 0, unacked := [], rxNext := 0, held := [], lastRx := some s.cyc, heartSeen := false } }
        else h2
      let z := if p.addr % 256 = 6 then 32 else 16
      let whole := p.plen == p.addr / 256 % 256 * z && p.addr / 256 % 256 != 0
      let e := if takesEntries u then drainAll (forAll takeEntry (packetEntries u p) u) else u
      (p.addr % 256 = 1 → exec (.heart port p) s = .next (consumed x h)) ∧
      (p.addr % 256 = 2 → whole = true → exec (.digest port p) s = .next (consumed x e)) ∧
      (p.addr % 256 = 3 → whole = true → exec (.twinCfg port p) s = .next (consumed x e)) ∧
      (p.addr % 256 = 4 → whole = true → exec (.twinEpoch port p) s = .next (consumed x e)) ∧
      (p.addr % 256 = 5 → whole = true → exec (.twinOpen port p) s = .next (consumed x e)) ∧
      (p.addr % 256 = 6 → whole = true → exec (.twinDone port p) s = .next (consumed x e)) ∧
      (p.addr % 256 = 7 → whole = true → exec (.twinAbort port p) s = .next (consumed x e)) ∧
      (whole = false → (p.addr % 256 = 2 → exec (.digest port p) s = .next (consumed x (protoErr port u))) ∧
        (p.addr % 256 = 3 → exec (.twinCfg port p) s = .next (consumed x (protoErr port u))) ∧
        (p.addr % 256 = 4 → exec (.twinEpoch port p) s = .next (consumed x (protoErr port u))) ∧
        (p.addr % 256 = 5 → exec (.twinOpen port p) s = .next (consumed x (protoErr port u))) ∧
        (p.addr % 256 = 6 → exec (.twinDone port p) s = .next (consumed x (protoErr port u))) ∧
        (p.addr % 256 = 7 → exec (.twinAbort port p) s = .next (consumed x (protoErr port u))))) ∧
  (∀ (s : State) (e : TwinEntry),
      twMode s = 3 →
      let k := keyOfWord (leAt e.bytes 0 8)
      (e.kind = 4 → applyEntry e s = (true, { s.setFld (grpAt (leAt e.bytes 0 2 % 4096)) grpEpoch_curEpoch (leAt e.bytes 2 2)
        with
        twin := { s.twin with epochs := s.twin.epochs.filter (fun x => x.1 != leAt e.bytes 0 2 % 4096) ++
          [(leAt e.bytes 0 2 % 4096, leAt e.bytes 2 2)] } })) ∧
      (e.kind = 5 → applyEntry e s = (true, { s with twin := { s.twin with openLog := s.twin.openLog ++ [k] } })) ∧
      (e.kind = 6 → applyEntry e s = (true, { clogWrite e.bytes s with
        twin := { (clogWrite e.bytes s).twin with doneLog := (clogWrite e.bytes s).twin.doneLog ++ [k] } })) ∧
      (∀ x, e.kind = 3 → locate (leAt e.bytes 0 4 % 2 ^ 28) = some x → x.kind = .wGrp → applyEntry e s =
        (true, grpWrite repTwin x.inst x.off (BitVec.ofNat 64 (leAt e.bytes 8 8)) s)) ∧
      (∀ x, e.kind = 3 → locate (leAt e.bytes 0 4 % 2 ^ 28) = some x → x.kind = .wMask → applyEntry e s =
        (true, maskWrite repTwin x.inst (BitVec.ofNat 64 (leAt e.bytes 8 8)) s)) ∧
      (e.kind = 2 ∨ e.kind = 7 → applyEntry e s = (true, s))) ∧
  (∀ (s : State) (e : TwinEntry),
      twMode s = 1 →
      let k := keyOfWord (leAt e.bytes 0 8)
      let d := leAt e.bytes 8 8
      let late := { s with twin := { s.twin with unverified := s.twin.unverified.erase (k, d) } }
      let keepD := { s with twin := { s.twin with digests := s.twin.digests ++ [(k, d)] } }
      let keepA := { s with twin := { s.twin with aborted := s.twin.aborted ++ [k] } }
      (∀ x, e.kind = 2 → s.twin.digests.length < 65536 → s.slotOf k = some x → x.twinAt.isSome = true →
        (∀ r, x.result = some r → r.digest = d → applyEntry e s = (true, twinPass x s)) ∧
        (∀ r, x.result = some r → r.digest ≠ d → applyEntry e s = (true, twinMismatch x s))) ∧
      (e.kind = 2 → s.twin.digests.length < 65536 → (s.slotOf k).all (fun x => x.twinAt.isNone) = true →
        (s.twin.unverified.find? (fun u => u.1 == k) = none → applyEntry e s = (true, keepD)) ∧
        (s.twin.unverified.find? (fun u => u.1 == k) = some (k, d) → applyEntry e s = (true, late)) ∧
        (∀ u, s.twin.unverified.find? (fun u => u.1 == k) = some u → u.2 ≠ d → applyEntry e s =
          (true, reportOwnOpen clsTwinMismatch repTwin (raiseEv pgTwin 1
            (State.addFld { s with twin := { s.twin with unverified := s.twin.unverified.erase u } } pgTwin twnCnt_mismatch 1))))) ∧
      (e.kind = 2 → 65536 ≤ s.twin.digests.length → applyEntry e s = (false, s)) ∧
      (∀ x, e.kind = 7 → s.slotOf k = some x → x.twinAt.isSome = true → applyEntry e s = (true, releaseUnverified x s)) ∧
      (e.kind = 7 → (s.slotOf k).all (fun x => x.twinAt.isNone) = true → applyEntry e s = (true, keepA)) ∧
      (3 ≤ e.kind → e.kind ≤ 6 → applyEntry e s = (true, s))) ∧
  (∀ (s : State) (e : TwinEntry),
      s.twin.held = [e] →
      e.tseq = s.twin.rxNext →
      (applyEntry e s).1 = true →
      (applyEntry e s).2.twin.held = [e] →
      (applyEntry e s).2.twin.rxNext = s.twin.rxNext →
      let t := (applyEntry e s).2
      drainAll s = { t with twin := { t.twin with held := [], rxNext := (s.twin.rxNext + 1) % 2 ^ 32 } })

/-- O50. R381 to R384, R393. What a stack that is off does with a record is the model's choice (assumption 89). Cites
12_twin_faults_determinism. -/
def Obligations.TallyCommands : Prop :=
  (∀ (s : State) (e : TEntry),
      s.tally.entries.find? (fun x => x.subj == e.subj && x.cls == e.cls) = some e →
      e.cls ≠ clsStorm →
      e.closeAt < s.aon →
      s.fld pgTally tlyRing_ringPg * 4096 + s.fld pgTally tlyHead_head % 2 ^ tallyLog2 s * 32 + 32 ≤ quadPages s 0 * 4096 →
      let h := s.fld pgTally tlyHead_head
      let at_ := s.fld pgTally tlyRing_ringPg * 4096 + h % 2 ^ tallyLog2 s * 32
      let t := raiseEv pgTally 1 ((hbmWrite .bulk 0 at_ (tallyRecord e) repTally s).setFld pgTally tlyHead_head (h + 1))
      (tallyFull s = false → exec (.tallyEntryClose e.subj e.cls) s = .next (tallyDrop e t)) ∧
      (tallyDrop e t).tally = { t.tally with entries := t.tally.entries.filter (fun x => !(x.subj == e.subj && x.cls == e.cls)) } ∧
      (tallyFull s = true → exec (.tallyEntryClose e.subj e.cls) s = .next (raiseEv pgTally 2 s))) ∧
  (∀ (s : State) (req : Nat) (v : U64),
      pathOpen s req = true →
      (s.fld pgTally tlyHead_head < v.toNat →
        exec (.tallyTailWrite req v) s = .next (errCount pgTally 0x118 2 s)) ∧
      (v.toNat ≤ s.fld pgTally tlyHead_head → exec (.tallyTailWrite req v) s =
        .next (tallySpace (plainWrite req (pageLoc .tally 0 pgTally 0x118) v (fun _ => false) s)))) ∧
  (∀ (s : State) (subj cls rep det : Nat),
      s.fld pgTally tlyCfg_en = 1 →
      clsValid cls = true →
      s.tally.entries = [] →
      s.tally.storm = none →
      s.same.reports = [] →
      s.same.tally0 = none →
      RegsOk s →
      let close := s.aon + max 1 (s.fld pgTally tlyCfg_holdUs) * 25
      report subj cls rep det s = { s.addWrap pgTally tlyStat_reports 1 with
        tally := { s.tally with entries := [⟨subj, cls, rep, rep, det % 2 ^ 32, 1, s.aon, s.aon, close⟩] }
        same := { s.same with reports := [⟨rep, subj, cls, det % 2 ^ 32, close⟩], tally0 := some s.tally } }) ∧
  (∀ (s : State) (rep det : Nat) (e : TEntry),
      s.fld pgTally tlyCfg_en = 1 →
      clsValid e.cls = true →
      s.tally.entries = [e] →
      s.aon ≤ e.closeAt →
      s.tally.storm = none →
      s.same.reports = [] →
      s.same.tally0 = none →
      RegsOk s →
      (report e.subj e.cls rep det s).tally =
        { s.tally with entries := [{ e with count := min (e.count + 1) (2 ^ 32 - 1), last := rep, t1 := s.aon }] }) ∧
  (∀ (s : State) (r q : Report) (e : TEntry) (now : Nat),
      s.tally.storm = none →
      s.same.reports = [] →
      s.same.tally0 = none →
      s.tally.entries = [e] →
      (r.subj = e.subj ∧ q.subj = e.subj) →
      (r.cls = e.cls ∧ q.cls = e.cls) →
      r.rep < q.rep →
      (tallyTake r now (tallyTake q now s)).tally = { s.tally with entries :=
        [{ e with count := min (e.count + 2) (2 ^ 32 - 1), last := q.rep, t1 := now }] })

/-- O51. TALLY_SNAP copies the telemetry of every present port and records one timestamp. Cites R385. -/
def Obligations.TelemetrySnapshot : Prop :=
  (∀ (s : State) (req : Nat),
      pathOpen s req = true →
      let w := plainWrite req (pageLoc .tally 0 pgTally 0x138) 1 (fun _ => false) s
      let lanes := (List.range 512).filter (fun l => lanePresent w.fuses l && !isMember w l)
      exec (.tallySnap req) s = .next ((forAll (fun p t => forAll (fun o t =>
        t.wr (pgLane p + o) (BitVec.ofNat 64 (liveTele t p o))) teleOffsets t) lanes w).setFld pgTally tlySnapTime_time w.aon))

/-- O52. R386 to R388. `w` is the write of TLY_TEST alone. The other fields of the write are kept (the model's choice,
assumption 68). R74, R387, R416 to R418, R451. Cites 12_twin_faults_determinism, 13_control_and_power. -/
def Obligations.TestsAndLanes : Prop :=
  (∀ (s0 s : State) (req kind : Nat) (v : U64) (i : Instr),
      (kind, i) ∈ [(1, Instr.vatBist req v), (2, .pressBist req v), (3, .laneRecal req v)] →
      fieldOf v 0 4 = kind →
      fieldOf v 13 1 = 1 →
      pathOpen s0 req = true →
      s = woTurn req (pgTally + 0x130) s0 →
      let w := plainWrite req (pageLoc .tally 0 pgTally 0x130) v (fun _ => false) s
      (s.flag pgTally tlyTest_busy = true → exec i s0 = .next (errCount pgTally 0x130 2 w)) ∧
      (s.flag pgTally tlyTest_busy = false →
        exec i s0 = .next (testGo kind (fieldOf v 4 9) (fieldOf v 20 28) w))) ∧
  (∀ (s : State) (kind inst wait : Nat),
      let b := (s.setFld pgTally tlyTest_result 0).setFld pgTally tlyTest_busy 1
      let run : TestRun := ⟨kind, inst, none, false, s.cyc + wait * 80⟩
      (testable s kind inst = false →
        testGo kind inst wait s = finishTest 2 (errCount pgTally 0x130 3 b)) ∧
      (kind = 2 → pressPresent s.fuses inst = true → testGo kind inst wait s =
        testStart ({ b with test := some run }.setFld (pgPress inst) blkCtrl_drain 1)) ∧
      (kind = 3 → (s.port inst).formed = true → testGo kind inst wait s = recalBegin inst { b with test := some run })) ∧
  (∀ (s : State) (x : TestRun) (pass : Bool),
      s.test = some x →
      (x.kind = 1 ∨ x.kind = 2) →
      x.running = true →
      x.deadline ≤ s.cyc →
      let c := if x.kind = 1 then { s with mem := s.mem.filter (fun c => c.1 / 2 ^ 40 != spLocal x.inst) } else s
      let d := c.setFld (if x.kind = 1 then pgVat x.inst else pgPress x.inst) blkCtrl_drain 0
      exec (.bistDone pass) s = .next (finishTest (if pass then 1 else 2) d)) ∧
  (∀ (s : State) (x : TestRun),
      s.test = some x →
      x.running = false →
      x.deadline ≤ s.cyc →
      (x.kind = 3 → recalBusy s x.inst = false → exec .testWaitExpire s = .next (finishTest 3 s)) ∧
      (x.kind = 1 ∨ x.kind = 2 → exec .testWaitExpire s = .next (finishTest 3
        (s.setFld (if x.kind = 1 then pgVat x.inst else pgPress x.inst) blkCtrl_drain 0)))) ∧
  (∀ (s : State) (r : Nat),
      finishTest r s = reportOwn clsTest repTally r { (s.setFld pgTally tlyTest_result r).setFld pgTally tlyTest_busy 0 with
        test := none }) ∧
  (∀ (s : State) (p : Nat),
      testsPort s p = true →
      recalBusy s p = false →
      (s.port p).st = .up →
      (s.port p).egress = [] →
      (s.port p).copying = [] →
      (s.port p).replay = [] →
      (s.port p).idleSince + 200000 ≤ s.cyc →
      farIdle s (s.port p) = true →
      exec (.idleRecal p) s = .next (s.setPort p { s.port p with recalTo := some (s.cyc + 80000) })) ∧
  (∀ (s : State) (p l : Nat),
      (s.port p).recalTo.isSome = true →
      testsPort s p = true →
      exec (.recalDone p l) s = .next (finishTest 1 (s.setPort p { s.port p with recalTo := none }))) ∧
  (∀ (s : State) (port : Nat) (p : Packet),
      isLaneReq p = true →
      (s.port port).formed = true →
      s.inbox = [] →
      crcGood p = true →
      let x : InPkt := { port := port, pkt := p, buf := none, org := .none, held := false, seq := s.arrivals, pool := none, frame := 0, tc := 0 }
      let u : State := { s with arrivals := s.arrivals + 1 }
      (∀ q, keptReply s p.src p.seq = some q →
        exec (.laneRequest port p) s = .next (consumed x (mgmtAgain port q u))) ∧
      (keptReply s p.src p.seq = none → exec (.laneRequest port p) s = .next (consumed x (laneRequestIn port p u)))) ∧
  (∀ (s : State) (port : Nat) (p : Packet),
      let v := leAt p.payload 0 8
      let x := s.port port
      let bad := decide (x.w ≤ v % 8) || decide (32 ≤ v) || (v / 8 % 2 == 1 && (stripesWithout x (v % 8)).isEmpty)
      let go := fun (t : State) => laneApply port p (v % 8) (v / 8 % 2 == 1) (v / 16 % 2 == 1) t
      (bad = true → laneRequestIn port p s = mgmtReject port p s) ∧
      (bad = false → ownLaneReq s port (v % 8) = none → laneRequestIn port p s = go s) ∧
      (∀ q, bad = false → ownLaneReq s port (v % 8) = some q → laneRequestIn port p s =
        (if s.ownFid < p.src then mgmtReject port p s else go (dropLaneReq port q s)))) ∧
  (∀ (s : State) (port l : Nat) (p : Packet),
      let u := mgmtReply port p [] (lanePark port l s)
      (unparkDue u port = false → laneApply port p l true true s = u) ∧
      (unparkDue u port = true → laneApply port p l true true s = unparkLanes port u) ∧
      laneApply port p l true false s = mgmtReply port p [] (laneDrop port l s)) ∧
  (∀ (s : State) (port : Nat) (q : LaneReq),
      (s.port port).laneReqs = [q] →
      q.answered = false →
      q.deadline ≤ s.cyc →
      exec (.laneReqTimeout port) s = .next (laneRefused port q s)) ∧
  (∀ (s : State) (port l : Nat),
      isNative (s.port port) = true →
      (s.port port).st = .up →
      2 ≤ (s.port port).w →
      s.flag (pgLane port) prtPark_parkEn = true →
      (s.port port).egress = [] →
      (s.port port).copying = [] →
      (s.port port).laneReqs = [] →
      (s.port port).idleSince + usCycles (s.fld (pgLane port) prtPark_parkUs) ≤ s.cyc →
      nextPark (s.port port) = some l →
      (s.port port).dropped.contains l = false →
      exec (.lanePark port) s = .next (sendLaneReq port l true true s))

/-- O53. R395 to R398, R400 to R409, R435. EVC_SSET of an absent core answered ABSENT (assumption 133), hold kept while the
boot stands halted (assumption 116), the cycle of a running core (assumptions 125 and 126) and what its caches hold
(assumption 134) are the model's choices. The trap's registers beyond those that the spec names, and the reset
values of a core, are the family's (assumptions 70 and 7). Cites 13_control_and_power. -/
def Obligations.EventControllers : Prop :=
  (∀ (s : State) (k i : Nat),
      normalDue s k = some i →
      let t := ((noteAct (.delivered k) i (leaveWfi k s)).setFld (pgRind k) evcCur_nSrc i).setFld (pgRind k) evcCur_nValid 1
      exec (.normalDelivery k) s = .next (t.setRind k (trapTo true 11 0 (t.rindOf k)))) ∧
  (∀ (s : State) (k i : Nat),
      fastDue s k = some i →
      let t := ((noteAct (.delivered k) i (leaveWfi k s)).setFld (pgRind k) evcCur_fSrc i).setFld (pgRind k) evcCur_fValid 1
      let r := t.rindOf k
      exec (.fastDelivery k) s = .next (t.setRind k { r with
        mfepc := r.pc, mfcause := BitVec.ofNat 64 i, ppriv := r.priv, active := true, fie := false, priv := 3, pc := r.mftvec })) ∧
  (∀ (r : Rind) (code : Nat) (tval : U64),
      let n := trapTo false code tval r
      n.mepc = r.pc ∧ n.mtval = tval ∧ n.priv = 3 ∧ msMie n.mstatus = 0 ∧ msMpie n.mstatus = msMie r.mstatus ∧
      msMpp n.mstatus = r.priv % 4 ∧ n.pc = BitVec.ofNat 64 (r.mtvec.toNat / 4 * 4) ∧ n.x = r.x ∧ n.shadow = r.shadow ∧
      n.active = r.active ∧ n.mfepc = r.mfepc) ∧
  (∀ (r : Rind) (n : Nat) (v : U64),
      (1 ≤ n ∧ n < 32) →
      (r.active = true → n < 16 → rvX r n = tget 0 r.shadow n ∧ (rvSetX n v r).x = r.x ∧ tget 0 (rvSetX n v r).shadow n = v) ∧
      (r.active = false ∨ 16 ≤ n → rvX r n = tget 0 r.x n ∧ (rvSetX n v r).shadow = r.shadow ∧ tget 0 (rvSetX n v r).x n = v) ∧
      rvX r 0 = 0 ∧ rvSetX 0 v r = r) ∧
  (∀ (a : Nat),
      (a < 2 ^ 28 → rvPlace a = .device) ∧
      (0x10000000 ≤ a → a < 0x10020000 → rvPlace a = .rom (a - 0x10000000)) ∧
      (∀ q, q < 4 → a < 180 * 2 ^ 30 → rvPlace ((q + 1) * 2 ^ 38 + a) = .hbm q a ∧
        rvPlace (2 ^ 43 + (q + 1) * 2 ^ 38 + a) = .hbm q a) ∧
      (0x10020000 ≤ a → a < 2 ^ 38 → rvPlace a = .nowhere) ∧
      (∀ q, q < 4 → 180 * 2 ^ 30 ≤ a → a < 2 ^ 38 → rvPlace ((q + 1) * 2 ^ 38 + a) = .nowhere)) ∧
  (∀ (s : State) (k : Nat),
      (rindRuns s k = false → rindStep k s = s) ∧
      (rindRuns s k = true → s.flag (pgRind k) evcCore_wfi = true → rvIrqWakes (s.rindOf k) = false → rindStep k s = s) ∧
      (rindRuns s k = true → s.flag (pgRind k) evcCore_wfi = false → rvLocalIrq (s.rindOf k) = none →
        (∀ c, (rvInstr k s).1 = .ok c → rindStep k s = rvRetire k (s.rindOf k).pc c (rvInstr k s).2) ∧
        (∀ code v, (rvInstr k s).1 = .trap code v → rindStep k s = rvTrap k code v (rvInstr k s).2) ∧
        ((rvInstr k s).1 = .stall → rindStep k s = (rvInstr k s).2))) ∧
  (∀ (s w : State) (req k src : Nat),
      pathOpen s req = true →
      rindPresent s.fuses k = true →
      isDark s (puRind k) = false →
      src < 1024 →
      w = plainWrite req (pageLoc .rind k (pgRind k) 0x110) (BitVec.ofNat 64 src) (fun _ => false)
      (woTurn req (pgRind k + 0x110) s) →
      acted w (.delivered k) = false →
      exec (.evcDone req k src) s = .next (
        if fValid w k = true ∧ src = fSrc w k then noteDone k (w.setFld (pgRind k) evcCur_fValid 0)
        else if nValid w k = true ∧ src = nSrc w k then
          (if fValid w k then noteAct (.orderFault k) src (orderFault k src w)
          else noteDone k (w.setFld (pgRind k) evcCur_nValid 0))
        else w.addFld (pgRind k) evcErr_stray 1)) ∧
  (∀ (s : State) (k src : Nat),
      orderFault k src s = reportOwn clsEvcOrder (repRind k) src (raiseEv (pgRind k) 1
        ((s.setFld (pgRind k) evcCur_order 1).addFld (pgRind k) evcErr_order 1))) ∧
  (∀ (s : State) (req k src : Nat),
      pathOpen s req = true →
      rindPresent s.fuses k = true →
      isDark s (puRind k) = false →
      src < 1024 →
      let a := plainWrite req (pageLoc .rind k (pgRind k) 0x118) (BitVec.ofNat 64 src) (fun _ => false) s
      let c := plainWrite req (pageLoc .rind k (pgRind k) 0x120) (BitVec.ofNat 64 src) (fun _ => false) s
      (src < 512 → exec (.evcSset req k src) s = .next (a.addFld (pgRind k) evcErr_softBad 1)) ∧
      (512 ≤ src → exec (.evcSset req k src) s = .next { a with
        same := { a.same with evSet := (pgRind k + 0x118, src) :: a.same.evSet }
        soft := if a.soft.contains (k * 1024 + src) then a.soft else a.soft ++ [k * 1024 + src] }) ∧
      (c.same.evSet.contains (pgRind k + 0x118, src) = false → exec (.evcSclr req k src) s =
        .next { c with soft := c.soft.filter (fun x => x != k * 1024 + src) })) ∧
  (∀ (s : State) (req k src : Nat),
      pathOpen s req = true →
      rindPresent s.fuses k = false →
      exec (.evcSset req k src) s = .next (reportOwnOpen clsAbsent req (s.addFld pgTally tlyAbsent_absent 1))) ∧
  (∀ (s : State) (req k : Nat),
      pathOpen s req = true →
      rindPresent s.fuses k = true →
      isDark s (puRind k) = false →
      acted s (.orderFault k) = false →
      let n := (s.same.dones.filter (fun x => x == k)).length
      let t : State := { s with same := { s.same with dones := s.same.dones.filter (fun x => x != k) } }
      exec (.unwind req k) s = .next ((((t.setFld (pgRind k) evcCur_nValid 0).setFld (pgRind k) evcCur_fValid 0).setFld
        (pgRind k) evcCur_order 0).addFld (pgRind k) evcErr_stray n)) ∧
  (∀ (s : State) (req k : Nat) (v : U64),
      pathOpen s req = true →
      rindPresent s.fuses k = true →
      isDark s (puRind k) = false →
      s.flag (pgRind k) evcCore_hold = true →
      fieldOf v 0 1 = 0 →
      let w := plainWrite req (pageLoc .rind k (pgRind k) 0x138) v (fun _ => false) s
      let y := dropCoreLines k w
      let z := (y.setRind k { Rind.reset with shadow := (y.rindOf k).shadow }).setFld (pgRind k) evcCore_wfi 0
      let t := z.setRind k { z.rindOf k with pc := BitVec.ofNat 64 (4 * w.fld (pgRind k) evcCore_rvec) }
      let z1 := plainWrite req (pageLoc .rind k (pgRind k) 0x138) v (fun f => f.fd == evcCore_hold) s
      (s.flag pgRennet rntBoot_halted = false → w.flag (pgRind k) evcCore_hold = false →
        exec (.coreRelease req k v) s = .next { t with pins := { t.pins with faultN := true } }) ∧
      (s.flag pgRennet rntBoot_halted = true → z1.flag (pgRind k) evcCore_hold = true →
        exec (.coreRelease req k v) s = .next z1)) ∧
  (∀ (s : State) (req k : Nat) (v : U64),
      pathOpen s req = true →
      rindPresent s.fuses k = true →
      isDark s (puRind k) = false →
      s.flag (pgRind k) evcCore_hold = false →
      fieldOf v 0 1 = 1 →
      s.flag pgRennet rntBoot_halted = false →
      let w := plainWrite req (pageLoc .rind k (pgRind k) 0x138) v (fun f => f.fd == evcCore_rvec) s
      w.flag (pgRind k) evcCore_hold = true → exec (.rindHold req k v) s =
        .next (((dropCoreLines k w).setRind k { Rind.reset with shadow := ((dropCoreLines k w).rindOf k).shadow }).setFld
          (pgRind k) evcCore_wfi 0)) ∧
  (∀ (s : State) (k : Nat),
      rindRuns s k = true →
      let r := s.rindOf k
      (r.active = true → exec (.mretFast k) s =
        .next (s.setRind k { r with pc := r.mfepc, priv := r.ppriv, active := false, fie := true })) ∧
      (r.active = false → r.priv = 3 → exec (.mretFast k) s = .next (s.setRind k (mretStd r)))) ∧
  (∀ (s : State) (k cause : Nat) (tval : U64),
      rindRuns s k = true →
      s.flag (pgRind k) evcCore_wfi = false →
      let r := s.rindOf k
      let c := cause % 2 ^ 63
      let toS := decide (r.priv < 3) && fieldOf (tget 0 r.csrs 0x302) c 1 == 1
      let ms := withField (withField (withField r.mstatus 5 1 (fieldOf r.mstatus 1 1)) 1 1 0) 8 1 r.priv
      (toS = false → exec (.synchronousException k cause tval) s = .next (s.setRind k (trapTo false c tval r))) ∧
      (toS = true → exec (.synchronousException k cause tval) s = .next (s.setRind k { r with
        csrs := tset 0 (tset 0 (tset 0 r.csrs 0x143 tval) 0x142 (BitVec.ofNat 64 c)) 0x141 r.pc
        mstatus := ms, priv := 1, pc := BitVec.ofNat 64 ((tget 0 (tset 0 r.csrs 0x143 tval) 0x105).toNat / 4 * 4) }))) ∧
  (∀ (s : State) (k i : Nat),
      rindRuns s k = true →
      i < 1024 →
      evcEn s k i = true →
      evcLevel s k i = true →
      s.flag (pgRind k) evcCore_wfi = true →
      exec (.wfiWake k) s = .next ((s.setRind k { s.rindOf k with pc := (s.rindOf k).pc + 4 }).setFld (pgRind k) evcCore_wfi 0)) ∧
  (∀ (s : State) (k fault pa n q off : Nat) (va : U64),
      rvPlace pa = .hbm q off →
      let line := (s.rlines.find? (fun x => x.1 == (q * 2 ^ 38 + off) / 64)).map (fun x => x.2)
      (∀ x, line = some x → x.caches ≠ [] → pa < 2 ^ 43 →
        (rvPeek k fault pa n va s).1 = .ok (leAt x.bytes (off % 64) n)) ∧
      (line = none ∨ 2 ^ 43 ≤ pa → hbmAsk s q (off / 64 * 64) 64 = .ready →
        (rvPeek k fault pa n va s).1 = .ok (rdLe s (spHbm q) off n)) ∧
      (line = none ∨ 2 ^ 43 ≤ pa → hbmAsk s q (off / 64 * 64) 64 = .refused →
        rvPeek k fault pa n va s = (.trap fault va, s))) ∧
  (∀ (s : State) (k q off : Nat) (bs : List Byte),
      s.rlines = [] →
      rvWriteLine k q off false bs s = hbmPut .bulk q off bs (repRind k) s ∧
      rvWriteLine k q off true bs s = hbmPut .bulk q off bs (repRind k) s) ∧
  (∀ (s : State) (k q off : Nat) (bs : List Byte) (x : RLine),
      s.rline (rvLine q off) = x →
      x.caches = [dcacheOf k, l2Of k] →
      let line := x.bytes.take (off % 64) ++ bs ++ x.bytes.drop (off % 64 + bs.length)
      rvWriteLine k q off false bs s = lineUsed (dcacheOf k) k (rvLine q off)
        (hbmPut .bulk q (off / 64 * 64) line (repRind k) (s.setRline (rvLine q off) { x with bytes := line })) ∧
      rvWriteLine k q off true bs s =
        hbmPut .bulk q off bs (repRind k) (s.setRline (rvLine q off) RLine.none))

/-- O54. R401, R402, R408, R409. Cites 13_control_and_power. -/
def Obligations.EventSelection : Prop :=
  (∀ (s : State) (k i : Nat) (fast : Bool),
      evcSelect s k fast = some i →
      i < 1024 ∧ evcPending s k i = true ∧ evcFast s k i = fast ∧
      ∀ j, j < 1024 → evcPending s k j = true → evcFast s k j = fast →
        evcPrio s k j < evcPrio s k i ∨ (evcPrio s k j = evcPrio s k i ∧ i ≤ j)) ∧
  (∀ (s : State) (k j : Nat) (fast : Bool),
      evcSelect s k fast = none →
      j < 1024 →
      evcFast s k j = fast →
      evcPending s k j = false) ∧
  (∀ (s : State) (k i : Nat),
      normalDue s k = some i →
      rindRuns s k = true ∧ s.flag (pgRind k) evcCtrl_normEn = true ∧ nValid s k = false ∧ fValid s k = false ∧
      s.flag (pgRind k) evcCur_order = false ∧ fastDue s k = none ∧ evcSelect s k false = some i ∧
      ((msMie (s.rindOf k).mstatus = 1 ∧ fieldOf (s.rindOf k).mie 11 1 = 1) ∨ (s.rindOf k).priv < 3)) ∧
  (∀ (s : State) (k i : Nat),
      fastDue s k = some i →
      rindRuns s k = true ∧ s.flag (pgRind k) evcCtrl_fastEn = true ∧ fValid s k = false ∧ (s.rindOf k).fie = true ∧
      evcSelect s k true = some i)

/-- O55. R399, R410 to R415, R419, R421, R423, R488. When a transition ends, and a DARK write of a Vat that still runs, are
the model's choices (assumptions 72 and 104). Cites 13_control_and_power, 16_package_and_electrical. -/
def Obligations.PowerControl : Prop :=
  (∀ (s : State) (u : Nat),
      s.flag pgPwr pwrCtrl_autoPark = true →
      unitHere s u = true →
      (s.pu u).st = .gold →
      (s.pu u).until_ = none →
      held s u = false →
      unitIdle s u = true →
      classIdle s u ≠ 0 →
      (s.pu u).idleSince + classIdle s u ≤ s.cyc →
      exec (.autoPark u) s = .next (s.setPu u { s.pu u with until_ := some (s.cyc + 80) })) ∧
  (∀ (s : State) (u n : Nat),
      (s.pu u).until_ = some n →
      ((s.pu u).st = .gold → n ≤ s.cyc → unitIdle s u = true → exec (.wakeComplete u) s =
        .next (loseLocal u (s.setPu u ⟨.slate, none, s.cyc, none⟩))) ∧
      ((s.pu u).st = .gold → n ≤ s.cyc → unitIdle s u = false → exec (.wakeComplete u) s =
        .next (s.setPu u { s.pu u with until_ := none })) ∧
      ((s.pu u).st = .amber → u < 1024 →
        exec (.wakeComplete u) s = .next (settleAll (s.setPu u ⟨.gold, none, s.cyc, none⟩))) ∧
      ((s.pu u).st = .amber → u < 1024 → s.grps.all (fun x => x.2.settles.isEmpty) = true →
        exec (.wakeComplete u) s = .next (s.setPu u ⟨.gold, none, s.cyc, none⟩)) ∧
      ((s.pu u).st = .amber → 1024 ≤ u → exec (.wakeComplete u) s =
        .next (laneGold (u - 1024) (s.setPu u ⟨.gold, none, s.cyc, none⟩))) ∧
      (let t := loseLocal u (resetPage (unitPage u) s)
       let r := dropCoreLines (u - 96) (t.setRind (u - 96) Rind.reset)
       let r1 := { r with soft := r.soft.filter (fun i => i / 1024 != u - 96) }
       let v := forAll (fun k s => s.setCore ((u - 32) * 8 + k) Core.idle) (List.range 8) (t.setVat (u - 32) Vat.reset)
       (s.pu u).st = .dark →
         (u < 32 → exec (.wakeComplete u) s = .next (t.setPu u ⟨.slate, none, t.cyc, none⟩)) ∧
         (32 ≤ u → u < 64 → exec (.wakeComplete u) s = .next (v.setPu u ⟨.slate, none, v.cyc, none⟩)) ∧
         (64 ≤ u → u < 96 → exec (.wakeComplete u) s = .next (stackToSlate (u - 64) (clearStack (u - 64) t))) ∧
         (96 ≤ u → exec (.wakeComplete u) s = .next (r1.setPu u ⟨.gold, none, r1.cyc, none⟩)))) ∧
  (∀ (s : State) (req u : Nat),
      isDarkUnit u = true →
      pathOpen s req = true →
      s.fld pgPwr (darkFd u) ≠ 1 →
      lostRace s req (pgPwr + (darkFd u).off) = false →
      let w := noteReg (pgPwr + (darkFd u).off) s
      let out := fun t => exec (.darkRequest req u) s = .next t
      let b := { w with back := (darkCover u).map (fun i => (i, w.pu i)) ++ w.back.filter (fun x => darkOwner x.1 != u) }
      let done := fun t => noteWrite req (pgPwr + (darkFd u).off) (State.setFld t pgPwr (darkFd u) 1)
      (unitHere w u = true → darkOk w u = true → wokeNow w u = false → (w.pu u).st ≠ .dark →
        (96 ≤ u ∨ slateOk b u = false → out (done (b.setPu u { w.pu u with darkAt := some s.aon }))) ∧
        (64 ≤ u → u < 96 → out (done ((stackToSlate (u - 64) b).setPu u ⟨.gold, none, s.cyc, some s.aon⟩))) ∧
        (u < 64 → slateOk b u = true → out (done (loseLocal u (b.setPu u ⟨.slate, none, s.cyc, some s.aon⟩))))) ∧
      (unitHere w u = true → darkOk w u = true → wokeNow w u = false → (w.pu u).st = .dark →
        out (done (w.setPu u { w.pu u with until_ := none }))) ∧
      (unitHere w u = false ∨ darkOk w u = false ∨ wokeNow w u = true →
        out (noteWrite req (pgPwr + (darkFd u).off) (w.addFld pgPwr pwrCnt_darkRefused 1)))) ∧
  (∀ (s : State) (req u : Nat),
      isDarkUnit u = true →
      pathOpen s req = true →
      (s.pu u).st = .dark →
      (s.pu u).until_ = none →
      lostRace s req (pgPwr + (darkFd u).off) = false →
      let a := pgPwr + (darkFd u).off
      exec (.darkExit req u) s = .next (noteWrite req a (((noteReg a s).setFld pgPwr (darkFd u) 0).setPu u { s.pu u with
        until_ := some (s.cyc + exitMax u) }))) ∧
  (∀ (s : State) (qd mv temp : Nat),
      quadPresent s.fuses qd = true →
      exec (.avsUpdate qd mv temp) s =
        .next (tempCheck ((s.setFld (pgPwr + 8 * qd) pwrAvs_recMv mv).setFld (pgPwr + 8 * qd) pwrAvs_temp temp))) ∧
  (∀ (s0 s : State) (req : Nat) (v : U64),
      pathOpen s0 req = true →
      fieldOf v 19 1 = 1 →
      s = woTurn req (pgPwr + 0x1C0) s0 →
      let w := plainWrite req (pageLoc .pwr 0 pgPwr 0x1C0) v (fun _ => false) s
      (s.flag pgPwr pwrPmbCmd_busy = true → exec (.pmbusGo req v) s0 = .next (errCount pgPwr 0x1C0 2 w)) ∧
      (s.flag pgPwr pwrPmbCmd_busy = false → w.fld pgPwr pwrPmbCmd_len ≠ 3 → exec (.pmbusGo req v) s0 =
        .next (let t := (w.setFld pgPwr pwrPmbCmd_busy 1).emit (.pmbus (w.fld pgPwr pwrPmbCmd_addr)
                 (w.fld pgPwr pwrPmbCmd_code) (w.fld pgPwr pwrPmbCmd_len) (w.fld pgPwr pwrPmbCmd_read == 1)
                 (w.fld pgPwr pwrPmbCmd_pec == 1) (w.fld pgPwr pwrPmbData_data))
               { t with ifc := { t.ifc with pmb := some (w.fld pgPwr pwrPmbCmd_read == 1, w.fld pgPwr pwrPmbCmd_len) } })) ∧
      (s.flag pgPwr pwrPmbCmd_busy = false → w.fld pgPwr pwrPmbCmd_len = 3 →
        exec (.pmbusGo req v) s0 = .next (pmbEnd false w))) ∧
  (∀ (s : State) (rd : Bool) (len data : Nat),
      s.ifc.pmb = some (rd, len) →
      exec (.pmbusDone true data) s = .next (pmbEnd true (if rd = true ∧ len ≠ 0 then
        s.setFld pgPwr pwrPmbData_data (if len = 1 then data % 256 else data) else s)) ∧
      exec (.pmbusDone false data) s = .next (pmbEnd false s)) ∧
  (∀ (s : State) (level stack : Bool) (temp : Nat),
      exec (.pmbAlert level) s = .next { s with pins := { s.pins with pmbAlert := level } } ∧
      ((if stack then 105 else 115) ≤ temp → exec (.thermTrip stack temp) s =
        .next { s with pins := { s.pins with thermTripN := false } }) ∧
      (temp < (if stack then 105 else 115) → exec (.thermTrip stack temp) s = .next s))

/-- O56. R391, R426, R434, R435, R444, R455, R458, R479, R481, R482, R488. Model's choices: the boot in one command
(assumption 74), the halt (75), the memories that a reset clears (76), the registers that PCIE_PERST_N resets (80).
Cites 14_boot_and_security, 16_package_and_electrical, 15_registers. -/
def Obligations.ResetsAndBoot : Prop :=
  (∀ (s : State),
      exec .poresetAssert s = .next (resetModule true { s with pins := { s.pins with poresetN := false, thermTripN := true } }) ∧
      exec .pwrgoodFall s = .next (resetModule true { s with pins := { s.pins with pwrgood := false, thermTripN := true } }) ∧
      exec .sysresetAssert s = .next { s with pins := { s.pins with sysresetN := false } }) ∧
  (∀ (s : State),
      let t := resetModule true s
      t.regs = [] ∧ t.mem = s.mem.filter (fun c => c.1 / 2 ^ 40 == spFlash) ∧ t.ports = [] ∧ t.slots = [] ∧ t.cores = [] ∧
      t.bufs = [] ∧ t.inbox = [] ∧ t.chains = [] ∧ t.tally = Tally.reset ∧ t.twin = Twin.reset ∧
      (s.rennet.cmd.all (fun c => c.cmd != 4 && c.cmd != 5) = true → t.fuses = s.fuses) ∧
      (∀ c, s.rennet.cmd = some c → c.cmd = 4 → s.fuses.svn ≤ c.arg → s.fuses.svn ≤ t.fuses.svn ∧ t.fuses.svn ≤ c.arg) ∧
      t.cyc = s.cyc ∧ t.pins.thermTripN = s.pins.thermTripN ∧ t.pins.faultN = true ∧ t.pins.poresetN = s.pins.poresetN ∧
      t.rennet.cmd = none ∧ t.rennet.halt = 0) ∧
  (∀ (s : State) (env : BootEnv),
      (s.pins.pwrgood = true → exec (.poresetRelease env) s =
        .next (coldBoot env { s with pins := { s.pins with poresetN := true } })) ∧
      (s.pins.pwrgood = false → exec (.poresetRelease env) s =
        .next { s with pins := { s.pins with poresetN := true } }) ∧
      (s.pins.poresetN = true → exec (.pwrgoodRise env) s =
        .next (coldBoot env { s with pins := { s.pins with pwrgood := true } })) ∧
      (s.pins.poresetN = true → s.pins.pwrgood = true →
        (drawNonce (resetModule false { s with pins := { s.pins with sysresetN := true } })).rennet.halt = 0 →
        exec (.sysresetRelease env) s =
          .next (runSlots env (drawNonce (resetModule false { s with pins := { s.pins with sysresetN := true } })))) ∧
      (s.pins.poresetN = false → exec (.sysresetRelease env) s =
        .next { s with pins := { s.pins with sysresetN := true } })) ∧
  (∀ (s : State) (env : BootEnv),
      let a := trySlot 0 (env.sfdpOk && env.readOkA) env.bodyOkA env.copyOkA s
      let s1 := a.2.setFld pgRennet rntBoot_codeA a.1
      let b := trySlot 0x2000000 (env.sfdpOk && env.readOkB) env.bodyOkB env.copyOkB s1
      let s2 := b.2.setFld pgRennet rntBoot_codeB b.1
      (a.1 = 0 → runSlots env s = finishBoot 0 (rdBytes s1 spFlash 0 1024) s1) ∧
      (a.1 ≠ 0 → b.1 = 0 → runSlots env s = finishBoot 1 (rdBytes s2 spFlash 0x2000000 1024) s2) ∧
      (a.1 ≠ 0 → b.1 ≠ 0 → runSlots env s = (let u := s2.setFld pgRennet rntBoot_halted 1
        { u with pins := { u.pins with faultN := false } }))) ∧
  (∀ (s : State),
      exec .pciePerstRelease s = .next { s with
        pins := { s.pins with perstN := true }, ifc := { s.ifc with pcieReady := true } } ∧
      exec .pciePerstAssert s = .next { s with
        regs := s.regs.filter (fun r => !(decide (pgPcie ≤ r.1) && decide (r.1 < pgPcie + 0x1000)))
        pins := { s.pins with perstN := false }, ifc := { s.ifc with pcieReady := false } } ∧
      (s.pins.perstN = true → exec .pcieFlr s = .next (raiseEv pgPcie 2 s))) ∧
  (∀ (s : State) (speed width : Nat),
      s.pins.perstN = true →
      exec (.pcieLink true speed width) s = .next (raiseEv pgPcie 1 (((s.setFld pgPcie prtPcieStat_up 1).setFld pgPcie
        prtPcieStat_speed speed).setFld pgPcie prtPcieStat_width width)) ∧
      exec (.pcieLink false speed width) s = .next (raiseEv pgPcie 1 (((s.setFld pgPcie prtPcieStat_up 0).setFld pgPcie
        prtPcieStat_speed 0).setFld pgPcie prtPcieStat_width 0)))

/-- O57. R430, R431, R435, R438, R440, R441, R444, R447, R458, R468. Flash commands: PRESUMED (assumption 16); the inputs of
the commands and their failures, and two writes of one cycle: the model's choices (assumptions 77 and 78). Cites
14_boot_and_security, 15_registers. -/
def Obligations.RennetAndInterfaces : Prop :=
  (∀ (s0 s : State) (req n : Nat) (v : U64) (i : Instr),
      (n, i) ∈ [(1, Instr.extend req v), (2, .attest req v), (3, .unlock req v), (4, .svnAdv req v), (5, .revoke req v),
      (6, .recGo req v)] →
      fieldOf v 0 3 = n →
      pathOpen s0 req = true →
      s = woTurn req (pgRennet + 0x118) s0 →
      s.rennet.cmd = none →
      lowerCame s req (pgRennet + 0x118) = false →
      let w := plainWrite req (pageLoc .rennet 0 pgRennet 0x118) v (fun _ => false) s
      let c : RCmd := { cmd := n, slot := fieldOf v 3 3, pg := fieldOf v 6 26, arg := fieldOf v 32 7, input := rntInput w v
                        meas := measBytes w (fieldOf v 3 3) }
      let t := rntMoved v (checkPages v (w.setFld pgRennet rntStat_busy 1))
      (rntAllowed w v = true → exec i s0 = .next { t with rennet := { t.rennet with cmd := some c } }) ∧
      (rntAllowed w v = false → exec i s0 = .next (w.addFld pgRennet rntStat_refused 1))) ∧
  (∀ (s : State) (req : Nat) (v : U64),
      pathOpen s req = true →
      (s.rennet.cmd.isSome = true ∨ lowerCame s req (pgRennet + 0x118) = true) →
      lostRace s req (pgRennet + 0x118) = false →
      fieldOf v 0 3 = 1 →
      exec (.extend req v) s = .next ((plainWrite req (pageLoc .rennet 0 pgRennet 0x118) v (fun _ => false) s).addFld pgRennet
        rntStat_refused 1)) ∧
  (∀ (s : State) (c : RCmd) (ok : Bool),
      s.rennet.cmd = some c →
      (c.cmd ≠ 6 ∨ s.pins.sysresetN = true) →
      let u := ({ s with rennet := { s.rennet with cmd := none } }).setFld pgRennet rntStat_busy 0
      (c.cmd = 1 → exec (.rennetCmdDone ok) s = .next (setMeas c.slot (sha384 (c.meas ++ c.input)) u)) ∧
      (c.cmd = 4 → exec (.rennetCmdDone ok) s = .next { u with fuses := { u.fuses with svn := c.arg } }) ∧
      (c.cmd = 5 → exec (.rennetCmdDone ok) s =
        .next { u with fuses := { u.fuses with revoked := u.fuses.revoked ||| 2 ^ (c.arg % 4) } }) ∧
      (c.cmd = 2 → exec (.rennetCmdDone ok) s = .next (attestDone c u)) ∧
      (c.cmd = 3 → exec (.rennetCmdDone ok) s = .next (unlockDone c u)) ∧
      (c.cmd = 6 → exec (.rennetCmdDone ok) s = .next (recoverDone c ok u))) ∧
  (∀ (s : State) (req : Nat) (v : U64),
      pathOpen s req = true →
      let n := s.fld pgRennet rntRecLen_len
      (s.fld pgRennet rntBoot_halted = 1 → n < 33554432 → recHigher s req = 0 → exec (.recData req v) s =
        .next (noteWrite req (pgRennet + 0x130)
          ((hbmPut .bulk 0 n (leBytes 8 v.toNat) repRennet s).setFld pgRennet rntRecLen_len (n + 8)))) ∧
      (s.fld pgRennet rntBoot_halted ≠ 1 ∨ 33554432 ≤ n →
        exec (.recData req v) s = .next (errCount pgRennet 0x130 2 s))) ∧
  (∀ (s : State) (req op : Nat) (v : U64) (i : Instr),
      (op, i) ∈ [(1, Instr.xspiRead req v), (2, .xspiProgram req v), (3, .xspiErase req v)] →
      fieldOf v 0 2 = op →
      pathOpen s req = true →
      let w := plainWrite req (pageLoc .xspi 0 pgXspi 0x108) v (fun _ => false) (woTurn req (pgXspi + 0x108) s)
      let a := w.fld pgXspi rntXspiAddr_addr
      let n := fieldOf v 2 12
      let t := w.setFld pgXspi rntXspiCmd_busy 1
      (xspiOk w op a n = true → exec i s = .next { t with ifc := { t.ifc with xspi := some ⟨op, a, n⟩ } }) ∧
      (xspiOk w op a n = false → exec i s = .next (errCount pgXspi 0x108 3 w))) ∧
  (∀ (s : State) (c : XCmd),
      s.ifc.xspi = some c →
      let u : State := { s with ifc := { s.ifc with xspi := none } }
      let done := fun (t : State) => raiseEv pgXspi 1 (t.setFld pgXspi rntXspiCmd_busy 0)
      (c.op = 1 → exec .xspiDone s = .next (done (forAll (xspiLoad c.addr) (List.range (c.len / 8)) u))) ∧
      (c.op = 2 → exec .xspiDone s = .next (done (wrBytes u spFlash c.addr
        (List.zipWith (fun a b => a &&& b) (rdBytes u spFlash c.addr c.len) (xspiBuffer u c.len))))) ∧
      (c.op = 3 → exec .xspiDone s =
        .next (done (wrBytes u spFlash (c.addr / 4096 * 4096) (List.replicate 4096 0xFF))))) ∧
  (∀ (s : State) (target addr : Nat) (v : U64),
      pathOpen s reqI3c = true →
      target = i3cAddress s →
      let u : State := { s with ifc := { s.ifc with i3cAddr := addr } }
      let r := busRead s.ifc.i3cAddr s
      exec (.i3cPrivateWrite target addr v) s = .next (raiseEv pgI3c 1 (busWrite reqI3c addr v u)) ∧
      exec (.i3cPrivateRead target) s = .next (raiseEv pgI3c 1 (r.2.emit (.readData reqI3c s.ifc.i3cAddr r.1)))) ∧
  (∀ (s : State) (da : Nat) (frame : List Byte),
      da < 128 →
      exec (.i3cDynamicAddress da) s = .next { s with ifc := { s.ifc with i3cDyn := some da } } ∧
      exec (.mgmtPortFrame true frame) s =
        .next (raiseEv pgMgmt 1 { s with ifc := { s.ifc with mgmtRx := s.ifc.mgmtRx ++ [frame] } }) ∧
      exec (.mgmtPortFrame false frame) s = .next (raiseEv pgMgmt 1 (s.emit (.mgmtFrame frame)))) ∧
  (∀ (s : State) (addr : Nat) (v : U64),
      pathOpen s reqJtag = true →
      exec (.jtagAccess true addr v) s = .next (busWrite reqJtag addr v s) ∧
      exec (.jtagAccess false addr v) s = .next ((busRead addr s).2.emit (.readData reqJtag addr (busRead addr s).1)))

/-- O58. Decode of encode and encode of decode for the 256-bit instruction word of R225 and the opcodes of R241: every
operand at every value its field admits. Cites 07_curd_instructions. -/
def Obligations.CurdRoundTrip : Prop :=
  (∀ (core op : Nat) (w : CurdWord) (i : Instr), curdOk w = true → curdInstr core op w = some i →
      encodeCurd i = some (curdBits op w) ∧ curdBits op w < 2 ^ 256 ∧ decodeCurd core (curdBits op w) = some i) ∧
    (∀ (core x : Nat) (i : Instr), x < 2 ^ 256 → decodeCurd core x = some i → encodeCurd i = some x)

/-- O59. Parse of print for the common header, the collective extension header and the payload, every field at every value;
and the fields that e2e_crc takes as 0. Cites 02_fabric_transport. -/
def Obligations.PacketRoundTrip : Prop :=
  (∀ p : Packet, packetOk p = true → parsePacket (pktImage p) = p ∧ (pktImage p).length = pktBytes p) ∧
    (∀ (p : Packet) (vc tc ttl lseq crc : Nat) (ce dm : Bool),
      e2eCrc { p with vc := vc, tc := tc, ce := ce, dm := dm, ttl := ttl, linkSeq := lseq, crc := crc } = e2eCrc p)

/-- O60. The canonical form is an invariant of step: for every command of the table and for the passing of a cycle. What
RegsOk and Memory.wf rule out in the premises of other statements is a state that no step reaches. It holds at
reset: ResetState. Cites 15_registers, 01_architecture, 11_cellar_and_memory. -/
def Obligations.StepKeepsCanon : Prop :=
  ∀ s t : State, Canon s → step s = .next t → Canon t
end

