-- ==== Sys2Proof/Laws/Tab.lean ====
section
/-!
SUPPORT. Laws of sparse tables and of the byte memory: read after write, and that a write keeps the canonical form.
-/
namespace Sys2Proof.Machine

variable {α : Type} [DecidableEq α]

/-- Reading back a value that differs from the unlisted one, in any table. -/
theorem tget_tset_self (d : α) (t : Tab α) (k : Nat) (v : α) (h : v ≠ d) : tget d (tset d t k v) k = v := by
  induction t with
  | nil => simp [tset, tget, h]
  | cons e r ih =>
    obtain ⟨a, x⟩ := e
    unfold tset
    split
    · simp [tget]
    · split
      · simp [tget]
      · simp_all [tget]

/-- Writing a value that differs from the unlisted one leaves every other key alone, in any table. -/
theorem tget_tset_other (d : α) (t : Tab α) (k j : Nat) (v : α) (h : v ≠ d) (hj : j ≠ k) :
    tget d (tset d t k v) j = tget d t j := by
  induction t with
  | nil => simp [tset, tget, h, hj]
  | cons e r ih =>
    obtain ⟨a, x⟩ := e
    unfold tset
    split
    · simp only [if_false, tget, hj]
      split
      · have h1 : j < a := by omega
        have h2 : j ≠ a := by omega
        simp [h1, h2]
      · rfl
    · split
      · subst_vars; simp [tget, hj]
      · simp [tget, ih]

/-- The later of two writes to one key stands, when the earlier one is listed. -/
theorem tset_tset (d : α) (t : Tab α) (k : Nat) (v w : α) (h : v ≠ d) :
    tset d (tset d t k v) k w = tset d t k w := by
  induction t with
  | nil => simp [tset, h]
  | cons e r ih =>
    obtain ⟨a, x⟩ := e
    by_cases h1 : k < a
    · by_cases hw : w = d <;> simp [tset, h, h1, hw]
    · by_cases h2 : k = a
      · subst h2; simp [tset, h]
      · simp [tset, h1, h2, ih]

/-! ### Canonical tables -/

/-- A key below every listed one reads as the unlisted value. -/
theorem tget_below (f : Nat → α) (d : α) (lo : Option Nat) (t : Tab α) (k : Nat)
    (h : tabOk f lo t = true) (hk : ∀ l, lo = some l → k ≤ l) (hs : lo.isSome) : tget d t k = d := by
  cases t with
  | nil => rfl
  | cons e r =>
    obtain ⟨a, x⟩ := e
    cases lo with
    | none => simp at hs
    | some l =>
      simp [tabOk] at h
      have := hk l rfl
      have h1 : k < a := by omega
      simp [tget, h1, Nat.ne_of_lt h1]

theorem tabOk_weaken (f : Nat → α) (a b : Nat) (t : Tab α) (hab : a ≤ b) (h : tabOk f (some b) t = true) :
    tabOk f (some a) t = true := by
  cases t with
  | nil => rfl
  | cons e r => obtain ⟨c, x⟩ := e; simp_all [tabOk]; omega

theorem tabOk_none (f : Nat → α) (a : Nat) (t : Tab α) (h : tabOk f (some a) t = true) : tabOk f none t = true := by
  cases t with
  | nil => rfl
  | cons e r => obtain ⟨c, x⟩ := e; simp_all [tabOk]

/-- Every write keeps the canonical form. -/
theorem tabOk_tset (f : Nat → α) (lo : Option Nat) (t : Tab α) (k : Nat) (v : α) (h : tabOk f lo t = true)
    (hk : ∀ l, lo = some l → l < k) : tabOk f lo (tset (f k) t k v) = true := by
  induction t generalizing lo with
  | nil =>
    by_cases hv : v = f k
    · simp [tset, hv, tabOk]
    · cases lo with
      | none => simp [tset, hv, tabOk]
      | some l => simpa [tset, hv, tabOk] using hk l rfl
  | cons e r ih =>
    obtain ⟨a, x⟩ := e
    simp only [tabOk, Bool.and_eq_true, decide_eq_true_eq] at h
    obtain ⟨⟨h1, h2⟩, h3⟩ := h
    unfold tset
    split
    · rename_i hka
      split
      · cases lo <;> simp_all [tabOk]
      · cases lo <;> simp_all [tabOk]
    · split
      · rename_i hka; subst hka
        split
        · cases lo with
          | none => exact tabOk_none f k r h3
          | some l => exact tabOk_weaken f l k r (Nat.le_of_lt (hk l rfl)) h3
        · cases lo <;> simp_all [tabOk]
      · rename_i h4 h5
        have h6 : a < k := by omega
        have h7 := ih (some a) h3 (by intro l hl; cases hl; exact h6)
        cases lo <;> simp_all [tabOk]

/-- Reading back in a canonical table, whatever was written. -/
theorem tget_tset_ok (f : Nat → α) (lo : Option Nat) (t : Tab α) (k : Nat) (v : α) (h : tabOk f lo t = true) :
    tget (f k) (tset (f k) t k v) k = v := by
  by_cases hv : v = f k
  · subst hv
    induction t generalizing lo with
    | nil => simp [tset, tget]
    | cons e r ih =>
      obtain ⟨a, x⟩ := e
      simp only [tabOk, Bool.and_eq_true, decide_eq_true_eq] at h
      unfold tset
      split
      · rename_i h1; simp [tget, h1, Nat.ne_of_lt h1]
      · split
        · rename_i h1; subst h1
          simp only [if_true]
          exact tget_below f _ (some k) r k h.2 (by intro l hl; cases hl; exact Nat.le_refl _) rfl
        · rename_i h1 h2
          simp [tget, h1, h2, ih (some a) h.2]
  · exact tget_tset_self _ _ _ _ hv

/-- Every other key reads as before in a canonical table. -/
theorem tget_tset_other_ok (f : Nat → α) (lo : Option Nat) (t : Tab α) (k j : Nat) (v : α) (h : tabOk f lo t = true)
    (hj : j ≠ k) : tget (f j) (tset (f k) t k v) j = tget (f j) t j := by
  induction t generalizing lo with
  | nil =>
    by_cases hv : v = f k
    · simp [tset, hv]
    · simp [tset, hv, tget, hj]
  | cons e r ih =>
    obtain ⟨a, x⟩ := e
    simp only [tabOk, Bool.and_eq_true, decide_eq_true_eq] at h
    unfold tset
    split
    · rename_i h1
      split
      · rfl
      · simp only [tget, hj, if_false]
        split
        · have h2 : j < a := by omega
          simp [h2, Nat.ne_of_lt h2]
        · rfl
    · split
      · rename_i h1 h2; subst h2
        split
        · simp only [tget, hj, if_false]
          split
          · rename_i h3
            exact tget_below f _ (some k) r j h.2 (by intro l hl; cases hl; omega) rfl
          · rfl
        · simp [tget, hj]
      · simp [tget, ih (some a) h.2]

/-! ### Memory -/

/-- A byte write keeps the memory canonical. -/
theorem wrByte_wf (s : State) (sp off : Nat) (b : Byte) (h : Memory.wf s.mem = true) :
    Memory.wf (wrByte s sp off b).mem = true :=
  tabOk_tset (fun _ => memDefault) none s.mem (memKey sp off) b h (by intro l hl; cases hl)

/-- Writing bytes keeps the memory canonical. -/
theorem wrBytes_wf (s : State) (sp off : Nat) (bs : List Byte) (h : Memory.wf s.mem = true) :
    Memory.wf (wrBytes s sp off bs).mem = true := by
  induction bs generalizing s off with
  | nil => exact h
  | cons b r ih => exact ih _ _ (wrByte_wf s sp off b h)

/-- The memory of the reset state is canonical. -/
theorem reset_mem_wf : Memory.wf State.reset.mem = true := rfl

end Sys2Proof.Machine
end

