-- ==== Sys2Proof/Laws/Canon.lean ====
section
/-!
SUPPORT. What it takes to keep registers and memory in canonical form: the writes to a table, a pair or an optional state
that holds a canonical one, and a state that differs in something else only.
-/
namespace Sys2Proof.Machine

/-- `Canon` as a property that the kernel compares by its argument. -/
def Kept (s : State) : Prop := Canon s

/-- An optional state, a pair and an optional pair hold a canonical state. -/
def OptCanon (r : Option State) : Prop := ∀ t, r = some t → Kept t
def PairCanon {α : Type} (r : α × State) : Prop := Kept r.2
def OptPairCanon {α : Type} (r : Option (α × State)) : Prop := ∀ x, r = some x → Kept x.2
def ResCanon (r : Result) : Prop := ∀ t, r = .next t → Kept t
def TripleCanon {α β : Type} (r : α × β × State) : Prop := Kept r.2.2
def StepCanon : StepRes → Prop
  | .wait _ s => Kept s
  | .more _ s => Kept s
  | .done s => Kept s
  | .exc _ _ s => Kept s

def JudgedCanon : Judged → Prop
  | .took _ s => Kept s
  | _ => True

theorem canon_via (x : State) {q : Prop} (hx : Kept x) (h : Kept x → q) : q := h hx
theorem pairCanon_via {α : Type} (x : α × State) {q : Prop} (hx : PairCanon x) (h : PairCanon x → q) : q := h hx
theorem resCanon_next {t : State} (h : Kept t) : ResCanon (.next t) := by intro u hu; cases hu; exact h
theorem pairCanon_mk {α : Type} {a : α} {t : State} (h : Kept t) : PairCanon (a, t) := h
theorem tripleCanon_mk {α β : Type} {a : α} {b : β} {t : State} (h : Kept t) : TripleCanon (a, b, t) := h
theorem canon_snd {α : Type} {p : α × State} (h : PairCanon p) : Kept p.2 := h
theorem canon_of_pair {α : Type} {p : α × State} {a : α} {t : State} (e : p = (a, t)) (h : PairCanon p) : Kept t := by
  rw [e] at h; exact h
theorem canon_of_triple {α β : Type} {p : α × β × State} {a : α} {b : β} {t : State} (e : p = (a, b, t)) (h : TripleCanon p) : Kept t := by
  rw [e] at h; exact h
theorem optCanon_none : OptCanon none := fun _ h => nomatch h
theorem optCanon_some {t : State} (h : Kept t) : OptCanon (some t) := by intro u hu; cases hu; exact h
theorem optPairCanon_none {α : Type} : OptPairCanon (none : Option (α × State)) := fun _ h => nomatch h
theorem optPairCanon_some {α : Type} {a : α} {t : State} (h : Kept t) : OptPairCanon (some (a, t)) := by
  intro u hu; cases hu; exact h
theorem canon_of_opt {r : Option State} {t : State} (e : r = some t) (h : OptCanon r) : Kept t := h t e
theorem canon_of_optPair {α : Type} {r : Option (α × State)} {a : α} {t : State} (e : r = some (a, t)) (h : OptPairCanon r) :
    Kept t := h _ e
theorem canon_of_optPair' {α : Type} {r : Option (α × State)} {x : α × State} (e : r = some x) (h : OptPairCanon r) :
    Kept x.2 := h _ e
theorem canon_of_wait {r : StepRes} {e : Sb} {s : State} (h : r = .wait e s) (c : StepCanon r) : Kept s := by rw [h] at c; exact c
theorem canon_of_more {r : StepRes} {e : Sb} {s : State} (h : r = .more e s) (c : StepCanon r) : Kept s := by rw [h] at c; exact c
theorem canon_of_done {r : StepRes} {s : State} (h : r = .done s) (c : StepCanon r) : Kept s := by rw [h] at c; exact c
theorem canon_of_exc {r : StepRes} {n : Nat} {e : Sb} {s : State} (h : r = .exc n e s) (c : StepCanon r) : Kept s := by
  rw [h] at c; exact c
theorem stepCanon_wait {e : Sb} {s : State} (h : Kept s) : StepCanon (.wait e s) := h
theorem stepCanon_more {e : Sb} {s : State} (h : Kept s) : StepCanon (.more e s) := h
theorem stepCanon_done {s : State} (h : Kept s) : StepCanon (.done s) := h
theorem stepCanon_exc {n : Nat} {e : Sb} {s : State} (h : Kept s) : StepCanon (.exc n e s) := h

theorem judgedCanon_took {c : Call} {s : State} (h : Kept s) : JudgedCanon (.took c s) := h
theorem judgedCanon_wake {q off n : Nat} : JudgedCanon (.wake q off n) := trivial
theorem judgedCanon_data {l : Lost} : JudgedCanon (.data l) := trivial
theorem canon_of_took {r : Judged} {c : Call} {s : State} (h : r = .took c s) (k : JudgedCanon r) : Kept s := by
  rw [h] at k; exact k

/-- A state that differs in neither registers, memory nor fuses is as canonical. -/
theorem canon_mk {s : State} {v0 v1 v2 v4 v7 v8 v9 v10 v11 v12 v13 v14 v15 v16 v17 v18 v19 v20 v21 v22 v23 v24
      v25 v26 v27 v28 v29 v30 v31 v32 v33 v34 v35 v36 v37 v38 v39 v40 v41 v42 v43 v44 v45 v46 v47 v48} :
    Kept ⟨v0, v1, v2, s.fuses, v4, s.regs, s.mem, v7, v8, v9, v10, v11, v12, v13, v14, v15, v16, v17,
      v18, v19, v20, v21, v22, v23, v24, v25, v26, v27, v28, v29, v30, v31, v32, v33, v34, v35,
      v36, v37, v38, v39, v40, v41, v42, v43, v44, v45, v46, v47, v48⟩ ↔ Kept s := ⟨fun h => h, fun h => h⟩
theorem forAll_canon {α : Type} {f : α → State → State} (hf : ∀ x s, Kept s → Kept (f x s)) {l : List α} {s : State}
    (h : Kept s) : Kept (forAll f l s) := by
  induction l generalizing s with
  | nil => exact h
  | cons x xs ih => exact ih (hf x s h)
theorem State.wr_canon {s : State} {a : Nat} {v : U64} (h : Kept s) : Kept (s.wr a v) :=
  ⟨tabOk_tset _ none _ _ _ h.1 (by intro l hl; cases hl), h.2⟩
theorem wrByte_canon {s : State} {sp off : Nat} {b : Byte} (h : Kept s) : Kept (wrByte s sp off b) :=
  ⟨h.1, wrByte_wf _ _ _ _ h.2⟩
theorem wrBytes_regs (s : State) (sp off : Nat) (bs : List Byte) : (wrBytes s sp off bs).regs = s.regs ∧
    (wrBytes s sp off bs).fuses = s.fuses := by
  induction bs generalizing s off with
  | nil => exact ⟨rfl, rfl⟩
  | cons b bs ih => exact ih (wrByte s sp off b) (off + 1)
theorem wrBytes_canon {s : State} {sp off : Nat} {bs : List Byte} (h : Kept s) : Kept (wrBytes s sp off bs) := by
  refine ⟨?_, wrBytes_wf _ _ _ _ h.2⟩
  have e := wrBytes_regs s sp off bs
  show tabOk (regReset (wrBytes s sp off bs).fuses) none (wrBytes s sp off bs).regs = true
  rw [e.1, e.2]; exact h.1

/-- Dropping entries of a table keeps its form. -/
theorem tabOk_filter {α : Type} [DecidableEq α] (d : Nat → α) (q : Nat × α → Bool) (lo : Option Nat) (t : Tab α)
    (h : tabOk d lo t = true) : tabOk d lo (t.filter q) = true := by
  induction t generalizing lo with
  | nil => rfl
  | cons x xs ih =>
    obtain ⟨a, v⟩ := x
    simp only [tabOk, Bool.and_eq_true] at h
    simp only [List.filter]
    split
    · simp only [tabOk, Bool.and_eq_true]
      exact ⟨h.1, ih _ h.2⟩
    · refine ih _ ?_
      cases lo with
      | none => exact tabOk_none d a xs h.2
      | some b =>
        have hb : b < a := by simpa using h.1.1
        exact tabOk_weaken d b a xs (Nat.le_of_lt hb) h.2

theorem regReset_mac (f g : Fuses) (h : g.macBase = f.macBase) : regReset g = regReset f := by
  funext a; simp only [regReset, h]

/-- New fuses with the same MAC addresses leave every Reset value, and so the form. -/
theorem kept_fuses {s : State} {f : Fuses} (e : f.macBase = s.fuses.macBase) (h : Kept s) : Kept { s with fuses := f } := by
  refine ⟨?_, h.2⟩
  show tabOk (regReset f) none s.regs = true
  rw [regReset_mac s.fuses f e]
  exact h.1

/-- A floating-point instruction that is illegal while the unit is off. -/
theorem rvFpOn_canon {x : RvAt} {f : RvAt → Nat → State → RvOut U64 × State} {w : Nat} {s : State} (h : Kept s)
    (hf : ∀ x w s, Kept s → PairCanon (f x w s)) : PairCanon (rvFpOn x f w s) := by
  unfold rvFpOn rvIllegal
  split
  · exact h
  · exact hf _ _ _ h

/-- A part of an instruction of a Rind core goes on from a canonical state. -/
theorem rvThen_canon {α β : Type} {r : RvOut α × State} {f : α → State → RvOut β × State} (h : PairCanon r)
    (hf : ∀ a s, Kept s → PairCanon (f a s)) : PairCanon (rvThen r f) := by
  unfold rvThen
  split
  · exact hf _ _ h
  · exact h
  · exact h
end Sys2Proof.Machine
end

