-- ==== Sys2Proof/Laws/CanonOps.lean ====
section
/-!
SUPPORT. One lemma for each operation of the machine that answers a state, in the order in which they use one another: it keeps
registers and memory in canonical form. This file holds the first half of them.
-/
namespace Sys2Proof.Machine

theorem wrLe_canon (s : State) (sp off n x : Nat) (h0 : Kept s) : Kept (wrLe s sp off n x) := by
  rw [wrLe]
  with_reducible repeat' first
    | apply wrBytes_canon | assumption

theorem State.setPort_canon (s : State) (p : Nat) (x : Port) (h0 : Kept s) : Kept (State.setPort s p x) := by
  rw [State.setPort]
  with_reducible repeat' first
    | simp -zeta only [canon_mk] | assumption

theorem State.updPort_canon (s : State) (p : Nat) (f : Port → Port) (h0 : Kept s) : Kept (State.updPort s p f) := by
  rw [State.updPort]
  with_reducible repeat' first
    | apply State.setPort_canon | assumption

theorem State.setCore_canon (s : State) (c : Nat) (x : Core) (h0 : Kept s) : Kept (State.setCore s c x) := by
  rw [State.setCore]
  with_reducible repeat' first
    | simp -zeta only [canon_mk] | assumption

theorem State.updCore_canon (s : State) (c : Nat) (f : Core → Core) (h0 : Kept s) : Kept (State.updCore s c f) := by
  rw [State.updCore]
  with_reducible repeat' first
    | apply State.setCore_canon | assumption

theorem State.setVat_canon (s : State) (v : Nat) (x : Vat) (h0 : Kept s) : Kept (State.setVat s v x) := by
  rw [State.setVat]
  with_reducible repeat' first
    | simp -zeta only [canon_mk] | assumption

theorem State.setGrp_canon (s : State) (g : Nat) (x : Grp) (h0 : Kept s) : Kept (State.setGrp s g x) := by
  rw [State.setGrp]
  with_reducible repeat' first
    | simp -zeta only [canon_mk] | assumption

theorem State.updGrp_canon (s : State) (g : Nat) (f : Grp → Grp) (h0 : Kept s) : Kept (State.updGrp s g f) := by
  rw [State.updGrp]
  with_reducible repeat' first
    | apply State.setGrp_canon | assumption

theorem State.setBuf_canon (s : State) (b : Nat) (x : Buf) (h0 : Kept s) : Kept (State.setBuf s b x) := by
  rw [State.setBuf]
  with_reducible repeat' first
    | simp -zeta only [canon_mk] | assumption

theorem State.setServer_canon (s : State) (c : Nat) (x : Server) (h0 : Kept s) : Kept (State.setServer s c x) := by
  rw [State.setServer]
  with_reducible repeat' first
    | simp -zeta only [canon_mk] | assumption

theorem State.setRind_canon (s : State) (k : Nat) (x : Rind) (h0 : Kept s) : Kept (State.setRind s k x) := by
  rw [State.setRind]
  with_reducible repeat' first
    | simp -zeta only [canon_mk] | assumption

theorem State.draw_canon (s : State) (h0 : Kept s) : PairCanon (State.draw s) := by
  rw [State.draw]
  with_reducible repeat' first
    | simp -zeta only [canon_mk] | assumption | apply pairCanon_mk | apply canon_snd

theorem State.emit_canon (s : State) (o : Out) (h0 : Kept s) : Kept (State.emit s o) := by
  rw [State.emit]
  with_reducible repeat' first
    | simp -zeta only [canon_mk] | assumption

theorem State.setFld_canon (s : State) (base : Nat) (f : Fd) (x : Nat) (h0 : Kept s) :
    Kept (State.setFld s base f x) := by
  rw [State.setFld]
  with_reducible repeat' first
    | apply State.wr_canon | assumption

theorem State.addFld_canon (s : State) (base : Nat) (f : Fd) (n : Nat) (h0 : Kept s) :
    Kept (State.addFld s base f n) := by
  rw [State.addFld]
  with_reducible repeat' first
    | apply State.setFld_canon | assumption

theorem State.addWrap_canon (s : State) (base : Nat) (f : Fd) (n : Nat) (h0 : Kept s) :
    Kept (State.addWrap s base f n) := by
  rw [State.addWrap]
  with_reducible repeat' first
    | apply State.setFld_canon | assumption

theorem State.setPu_canon (s : State) (u : Nat) (x : PwrUnit) (h0 : Kept s) : Kept (State.setPu s u x) := by
  rw [State.setPu]
  with_reducible repeat' first
    | simp -zeta only [canon_mk] | assumption

theorem raiseEv_canon (page bit : Nat) (s : State) (h0 : Kept s) : Kept (raiseEv page bit s) := by
  rw [raiseEv]
  with_reducible repeat' first
    | ((try lift_lets); intro x; clear_value x) | apply State.wr_canon | simp -zeta only [canon_mk] | assumption

theorem errCount_canon (page off cause : Nat) (s : State) (h0 : Kept s) : Kept (errCount page off cause s) := by
  rw [errCount]
  with_reducible repeat' first
    | ((try lift_lets); intro x; clear_value x) | apply State.addFld_canon | apply State.setFld_canon
    | apply raiseEv_canon | simp -zeta only [canon_mk] | assumption

theorem errAt_canon (x : Loc) (cause : Nat) (s : State) (h0 : Kept s) : Kept (errAt x cause s) := by
  rw [errAt]
  with_reducible repeat' first
    | apply errCount_canon | assumption

theorem errAddr_canon (addr cause : Nat) (s : State) (h0 : Kept s) : Kept (errAddr addr cause s) := by
  rw [errAddr]
  with_reducible repeat' first
    | apply errAt_canon | assumption | split

theorem noteAct_canon (a : Act) (n : Nat) (s : State) (h0 : Kept s) : Kept (noteAct a n s) := by
  rw [noteAct]
  with_reducible repeat' first
    | ((try lift_lets); intro x; clear_value x) | simp -zeta only [canon_mk] | assumption

theorem storeBytes_canon (sp off req : Nat) (old bs : List Byte) (s : State) (h0 : Kept s) :
    Kept (storeBytes sp off req old bs s) := by
  rw [storeBytes]
  with_reducible repeat' first
    | ((try lift_lets); intro x; clear_value x) | apply wrBytes_canon | apply wrByte_canon
    | refine forAll_canon (fun _ _ _ => ?_) ?_ | simp -zeta only [canon_mk] | assumption | split

theorem goodParity_canon (q off n : Nat) (s : State) (h0 : Kept s) : Kept (goodParity q off n s) := by
  rw [goodParity]
  with_reducible repeat' first
    | simp -zeta only [canon_mk] | assumption

theorem localWrite_canon (v off ord : Nat) (bs : List Byte) (s : State) (h0 : Kept s) :
    Kept (localWrite v off ord bs s) := by
  rw [localWrite]
  with_reducible repeat' first
    | apply goodParity_canon | apply storeBytes_canon | assumption

theorem askWake_canon (u : Nat) (s : State) (h0 : Kept s) : Kept (askWake u s) := by
  rw [askWake]
  with_reducible repeat' first
    | simp -zeta only [canon_mk] | assumption

theorem cancelDark_canon (u : Nat) (s : State) (h0 : Kept s) : Kept (cancelDark u s) := by
  rw [cancelDark]
  with_reducible repeat' first
    | ((try lift_lets); intro x; first | (refine canon_via x ?_ ?_; (on_goal 2 => (intro _; try clear_value x)); (on_goal 1 => unfold x)) | clear_value x)
    | apply State.setPu_canon | apply State.addFld_canon | apply State.setFld_canon
    | refine forAll_canon (fun _ _ _ => ?_) ?_ | simp -zeta only [canon_mk] | assumption | split

theorem startWake_canon (u : Nat) (s : State) (h0 : Kept s) : Kept (startWake u s) := by
  rw [startWake]
  with_reducible repeat' first
    | ((try lift_lets); intro x; clear_value x) | apply State.addFld_canon | apply State.setPu_canon | assumption
    | split

theorem wakeUnit_canon (u : Nat) (s : State) (h0 : Kept s) : Kept (wakeUnit u s) := by
  rw [wakeUnit]
  with_reducible repeat' first
    | ((try lift_lets); intro x; clear_value x) | apply startWake_canon | apply cancelDark_canon | apply askWake_canon
    | apply State.setPu_canon | assumption | split

theorem touchUnit_canon (u : Nat) (s : State) (h0 : Kept s) : Kept (touchUnit u s) := by
  rw [touchUnit]
  with_reducible repeat' first
    | apply State.setPu_canon | assumption

theorem addLines_canon (st pc n : Nat) (lc : Bool) (s : State) (h0 : Kept s) : Kept (addLines st pc n lc s) := by
  rw [addLines]
  with_reducible repeat' first
    | apply touchUnit_canon | apply State.addWrap_canon | assumption

theorem serveBurst_canon (u : Nat) (s : State) (h0 : Kept s) : Kept (serveBurst u s) := by
  rw [serveBurst]
  with_reducible repeat' first
    | apply addLines_canon | simp -zeta only [canon_mk] | assumption | split

theorem serveHbm_canon (s : State) (h0 : Kept s) : Kept (serveHbm s) := by
  rw [serveHbm]
  with_reducible repeat' first
    | apply serveBurst_canon | refine forAll_canon (fun _ _ _ => ?_) ?_ | assumption | split

theorem hbmWake_canon (q off n : Nat) (s : State) (h0 : Kept s) : Kept (hbmWake q off n s) := by
  rw [hbmWake]
  with_reducible repeat' first
    | apply wakeUnit_canon | refine forAll_canon (fun _ _ _ => ?_) ?_ | assumption

theorem queueBursts_canon (c : HbmClass) (u n : Nat) (s : State) (h0 : Kept s) : Kept (queueBursts c u n s) := by
  rw [queueBursts]
  with_reducible repeat' first
    | apply wakeUnit_canon | simp -zeta only [canon_mk] | assumption

theorem hbmMoved_canon (c : HbmClass) (q off n : Nat) (s : State) (h0 : Kept s) : Kept (hbmMoved c q off n s) := by
  rw [hbmMoved]
  with_reducible repeat' first
    | apply queueBursts_canon | refine forAll_canon (fun _ _ _ => ?_) ?_ | assumption

theorem wakePieces_canon (q base : Nat) (rs : List (Nat × Nat)) (s : State) (h0 : Kept s) :
    Kept (wakePieces q base rs s) := by
  rw [wakePieces]
  with_reducible repeat' first
    | apply hbmWake_canon | refine forAll_canon (fun _ _ _ => ?_) ?_ | assumption

theorem movedPieces_canon (c : HbmClass) (q base : Nat) (rs : List (Nat × Nat)) (s : State) (h0 : Kept s) :
    Kept (movedPieces c q base rs s) := by
  rw [movedPieces]
  with_reducible repeat' first
    | apply hbmMoved_canon | refine forAll_canon (fun _ _ _ => ?_) ?_ | assumption

theorem writeChunk_canon (c : HbmClass) (q off : Nat) (bs : List Byte) (req : Nat) (x : Nat × Nat) (s : State) (h0 :
    Kept s) :
    Kept (writeChunk c q off bs req x s) := by
  rw [writeChunk]
  with_reducible repeat' first
    | ((try lift_lets); intro x; clear_value x) | apply queueBursts_canon | apply storeBytes_canon | assumption
    | split

theorem hbmWrite_canon (c : HbmClass) (q off : Nat) (bs : List Byte) (req : Nat) (s : State) (h0 : Kept s) :
    Kept (hbmWrite c q off bs req s) := by
  rw [hbmWrite]
  with_reducible repeat' first
    | apply writeChunk_canon | refine forAll_canon (fun _ _ _ => ?_) ?_ | assumption

theorem tallyWrite_canon (e : TEntry) (s : State) (h0 : Kept s) : Kept (tallyWrite e s) := by
  rw [tallyWrite]
  with_reducible repeat' first
    | apply hbmWrite_canon | apply raiseEv_canon | apply State.addFld_canon | apply State.setFld_canon | assumption
    | split

theorem tallyDrop_canon (e : TEntry) (s : State) (h0 : Kept s) : Kept (tallyDrop e s) := by
  rw [tallyDrop]
  with_reducible repeat' first
    | ((try lift_lets); intro x; clear_value x) | simp -zeta only [canon_mk] | assumption

theorem stormDrop_canon (s : State) (h0 : Kept s) : Kept (stormDrop s) := by
  rw [stormDrop]
  with_reducible repeat' first
    | ((try lift_lets); intro x; clear_value x) | simp -zeta only [canon_mk] | assumption

theorem tallyTake_canon (r : Report) (now : Nat) (s : State) (h0 : Kept s) : Kept (tallyTake r now s) := by
  rw [tallyTake]
  with_reducible repeat' first
    | ((try lift_lets); intro x; clear_value x) | apply raiseEv_canon | simp -zeta only [canon_mk] | assumption
    | split

theorem reportWith_canon (close : TEntry → State → State) (subj cls rep det : Nat) (s : State)
    (hc : ∀ e s, Kept s → Kept (close e s)) (h0 : Kept s) : Kept (reportWith close subj cls rep det s) := by
  rw [reportWith]
  with_reducible repeat' first
    | ((try lift_lets); intro x; first | (refine canon_via x ?_ ?_; (on_goal 2 => (intro _; try clear_value x)); (on_goal 1 => unfold x)) | clear_value x | skip)
    | apply State.addWrap_canon | apply errCount_canon | apply tallyTake_canon | assumption | apply hc | split

theorem closeWith_canon (ptr : State → State) (e : TEntry) (s : State) (h0 : (∀ s, Kept s → Kept (ptr s))) (h1 :
    Kept s) :
    Kept (closeWith ptr e s) := by
  rw [closeWith]
  with_reducible repeat' first
    | ((try lift_lets); intro x; first | (refine canon_via x ?_ ?_; (on_goal 2 => (intro _; try clear_value x)); (on_goal 1 => unfold x)) | clear_value x | skip)
    | apply raiseEv_canon | apply tallyWrite_canon | apply stormDrop_canon | apply tallyDrop_canon | assumption
    | apply h0 | split

theorem ptrReport_canon (close : TEntry → State → State) (s : State) (hc : ∀ e s, Kept s → Kept (close e s))
    (h0 : Kept s) : Kept (ptrReport close s) := by
  rw [ptrReport]
  with_reducible repeat' first
    | ((try lift_lets); intro x; first | (refine canon_via x ?_ ?_; (on_goal 2 => (intro _; try clear_value x)); (on_goal 1 => unfold x)) | (refine pairCanon_via x ?_ ?_; (on_goal 2 => (intro _; try clear_value x)); (on_goal 1 => unfold x)) | clear_value x | skip)
    | apply State.draw_canon | refine reportWith_canon _ _ _ _ _ _ hc ?_ | assumption | apply pairCanon_mk
    | refine canon_of_pair (by assumption) ?_ | apply canon_snd

theorem closeDeep_canon (n : Nat) : ∀ (e : TEntry) (s : State), Kept s → Kept (closeDeep n e s) := by
  induction n with
  | zero => exact fun e s h => closeWith_canon id e s (fun _ h => h) h
  | succ n ih => exact fun e s h => closeWith_canon _ e s (fun s h => ptrReport_canon _ s ih h) h

theorem tallyClose_canon (e : TEntry) (s : State) (h0 : Kept s) : Kept (tallyClose e s) := closeDeep_canon 4 e s h0

theorem report_canon (subj cls rep det : Nat) (s : State) (h0 : Kept s) : Kept (report subj cls rep det s) :=
  reportWith_canon _ _ _ _ _ s tallyClose_canon h0

theorem reportOwn_canon (cls rep det : Nat) (s : State) (h0 : Kept s) : Kept (reportOwn cls rep det s) := by
  rw [reportOwn]
  with_reducible repeat' first
    | apply report_canon | assumption

theorem reportOpen_canon (subj cls rep : Nat) (s : State) (h0 : Kept s) : Kept (reportOpen subj cls rep s) := by
  rw [reportOpen]
  with_reducible repeat' first
    | apply State.draw_canon | apply report_canon | assumption | apply pairCanon_mk
    | refine canon_of_pair (by assumption) ?_ | apply canon_snd

theorem reportOwnOpen_canon (cls rep : Nat) (s : State) (h0 : Kept s) : Kept (reportOwnOpen cls rep s) := by
  rw [reportOwnOpen]
  with_reducible repeat' first
    | apply reportOpen_canon | assumption

theorem tallyDrain_canon (x1 : List TEntry) (s : State) (h0 : Kept s) : Kept (tallyDrain x1 s) := by
  induction x1 generalizing s
  case nil =>
    rw [tallyDrain]
    with_reducible repeat' first
      | apply ih | apply tallyClose_canon | assumption
  case cons _ _ ih =>
    rw [tallyDrain]
    with_reducible repeat' first
      | apply ih | apply tallyClose_canon | assumption | split

theorem absentCmd_canon (rep : Nat) (s : State) (h0 : Kept s) : Kept (absentCmd rep s) := by
  rw [absentCmd]
  with_reducible repeat' first
    | apply reportOwnOpen_canon | apply State.addFld_canon | assumption

theorem disabledWork_canon (rep : Nat) (s : State) (h0 : Kept s) : Kept (disabledWork rep s) := by
  rw [disabledWork]
  with_reducible repeat' first
    | apply reportOwnOpen_canon | apply State.addFld_canon | assumption

theorem takeSeq_canon (src dst vc : Nat) (s : State) (h0 : Kept s) : PairCanon (takeSeq src dst vc s) := by
  rw [takeSeq]
  with_reducible repeat' first
    | simp -zeta only [canon_mk] | assumption | apply pairCanon_mk

theorem sealPacket_canon (p : Packet) (s : State) (h0 : Kept s) : PairCanon (sealPacket p s) := by
  rw [sealPacket]
  with_reducible repeat' first
    | ((try lift_lets); intro x; clear_value x) | apply takeSeq_canon | assumption | split | apply pairCanon_mk
    | refine canon_of_pair (by assumption) ?_

theorem enqueue_canon (unit vc : Nat) (l : Load) (org : Origin) (buf : Option Nat) (s : State) (h0 : Kept s) :
    Kept (enqueue unit vc l org buf s) := by
  rw [enqueue]
  with_reducible repeat' first
    | simp -zeta only [canon_mk] | assumption

theorem originate_canon (unit : Nat) (p : Packet) (org : Origin) (s : State) (h0 : Kept s) :
    Kept (originate unit p org s) := by
  rw [originate]
  with_reducible repeat' first
    | apply sealPacket_canon | apply enqueue_canon | assumption | split | apply pairCanon_mk
    | refine canon_of_pair (by assumption) ?_ | apply canon_snd

theorem sendTransport_canon (unit dst vc tag code : Nat) (s : State) (h0 : Kept s) :
    Kept (sendTransport unit dst vc tag code s) := by
  rw [sendTransport]
  with_reducible repeat' first
    | apply originate_canon | assumption

theorem sendStatus_canon (unit dst : Nat) (k : Key) (lo hi status n : Nat) (s : State) (h0 : Kept s) :
    Kept (sendStatus unit dst k lo hi status n s) := by
  rw [sendStatus]
  with_reducible repeat' first
    | apply originate_canon | assumption

theorem deliverIn_canon (w : Waiting) (p : Packet) (s : State) (h0 : Kept s) : Kept (deliverIn w p s) := by
  rw [deliverIn]
  with_reducible repeat' first
    | simp -zeta only [canon_mk] | assumption

theorem takeInbox_canon (port : Nat) (p : Packet) (s : State) (h0 : Kept s) : PairCanon (takeInbox port p s) := by
  rw [takeInbox]
  with_reducible repeat' first
    | simp -zeta only [canon_mk] | assumption | split | apply pairCanon_mk

theorem holdInbox_canon (x : InPkt) (s : State) (h0 : Kept s) : Kept (holdInbox x s) := by
  rw [holdInbox]
  with_reducible repeat' first
    | simp -zeta only [canon_mk] | assumption

theorem holdFull_canon (x : InPkt) (s : State) (h0 : Kept s) : Kept (holdFull x s) := by
  rw [holdFull]
  with_reducible repeat' first
    | apply holdInbox_canon | assumption

theorem refuseHandle_canon (q req : Nat) (s : State) (h0 : Kept s) : Kept (refuseHandle q req s) := by
  rw [refuseHandle]
  with_reducible repeat' first
    | apply State.addFld_canon | apply reportOpen_canon | apply raiseEv_canon | assumption

theorem bumpUsed_canon (q p : Nat) (s : State) (h0 : Kept s) : Kept (bumpUsed q p s) := by
  rw [bumpUsed]
  with_reducible repeat' first
    | apply State.setFld_canon | assumption

theorem allocBuf_canon (q p req : Nat) (s : State) (h0 : Kept s) : OptPairCanon (allocBuf q p req s) := by
  rw [allocBuf]
  with_reducible repeat' first
    | ((try lift_lets); intro x; clear_value x) | apply noteAct_canon | apply bumpUsed_canon
    | apply State.setBuf_canon | exact optPairCanon_none | apply optPairCanon_some | assumption | split

theorem allocAfter_canon (hs : List Waiter) (q p req : Nat) (s : State) (h0 : Kept s) :
    OptPairCanon (allocAfter hs q p req s) := by
  rw [allocAfter]
  with_reducible repeat' first
    | apply allocBuf_canon | exact optPairCanon_none | apply optPairCanon_some | assumption | split
    | refine canon_of_optPair (by assumption) ?_ | refine canon_of_optPair' (by assumption) ?_

theorem takeBuf_canon (q p req : Nat) (s : State) (h0 : Kept s) : OptPairCanon (takeBuf q p req s) := by
  rw [takeBuf]
  with_reducible repeat' first
    | apply allocAfter_canon | exact optPairCanon_none | apply optPairCanon_some | assumption | split
    | refine canon_of_optPair (by assumption) ?_ | refine canon_of_optPair' (by assumption) ?_

theorem scanTables_canon (q off n : Nat) (s : State) (h0 : Kept s) : Kept (scanTables q off n s) := by
  rw [scanTables]
  with_reducible repeat' first
    | simp -zeta only [canon_mk] | assumption

theorem cellWrite_canon (q off req : Nat) (bs : List Byte) (s : State) (h0 : Kept s) :
    Kept (cellWrite q off req bs s) := by
  rw [cellWrite]
  with_reducible repeat' first
    | apply goodParity_canon | apply storeBytes_canon | apply scanTables_canon | assumption

theorem refusePage_canon (q req : Nat) (s : State) (h0 : Kept s) : Kept (refusePage q req s) := by
  rw [refusePage]
  with_reducible repeat' first
    | apply refuseHandle_canon | assumption

theorem hbmPut_canon (c : HbmClass) (q off : Nat) (bs : List Byte) (req : Nat) (s : State) (h0 : Kept s) :
    Kept (hbmPut c q off bs req s) := by
  rw [hbmPut]
  with_reducible repeat' first
    | apply hbmWrite_canon | apply refusePage_canon | assumption | split

theorem putBuf_canon (b i req : Nat) (bs : List Byte) (s : State) (h0 : Kept s) : Kept (putBuf b i req bs s) := by
  rw [putBuf]
  with_reducible repeat' first
    | apply hbmPut_canon | apply cellWrite_canon | assumption | split

theorem returnBuf_canon (b : Nat) (s : State) (h0 : Kept s) : Kept (returnBuf b s) := by
  rw [returnBuf]
  with_reducible repeat' first
    | ((try lift_lets); intro x; clear_value x) | apply State.setBuf_canon | apply State.setFld_canon
    | simp -zeta only [canon_mk] | assumption | split

theorem countDfree_canon (q : Nat) (s : State) (h0 : Kept s) : Kept (countDfree q s) := by
  rw [countDfree]
  with_reducible repeat' first
    | apply raiseEv_canon | apply State.addFld_canon | assumption

theorem countBadfree_canon (q : Nat) (s : State) (h0 : Kept s) : Kept (countBadfree q s) := by
  rw [countBadfree]
  with_reducible repeat' first
    | apply State.addFld_canon | assumption

theorem countRunder_canon (q : Nat) (s : State) (h0 : Kept s) : Kept (countRunder q s) := by
  rw [countRunder]
  with_reducible repeat' first
    | apply State.addFld_canon | assumption

theorem onHandle_canon (b req : Nat) (f : State → State) (s : State) (h0 : (∀ s, Kept s → Kept (f s))) (h1 : Kept s)
    :
    Kept (onHandle b req f s) := by
  rw [onHandle]
  with_reducible repeat' first
    | apply h0 | apply refuseHandle_canon | assumption | split

theorem fillBuf_canon (b req : Nat) (cell data : List Byte) (s : State) (h0 : Kept s) :
    Kept (fillBuf b req cell data s) := by
  rw [fillBuf]
  with_reducible repeat' first
    | refine onHandle_canon _ _ _ _ (fun _ _ => ?_) ?_ | apply putBuf_canon | assumption

theorem fillPacket_canon (b req : Nat) (p : Packet) (s : State) (h0 : Kept s) : Kept (fillPacket b req p s) := by
  rw [fillPacket]
  with_reducible repeat' first
    | apply fillBuf_canon | assumption

theorem fillFrame_canon (req : Nat) (bs : List Nat) (ds : List (List Byte)) (s : State) (h0 : Kept s) :
    Kept (fillFrame req bs ds s) := by
  rw [fillFrame]
  with_reducible repeat' first
    | apply fillBuf_canon | refine forAll_canon (fun _ _ _ => ?_) ?_ | assumption

theorem freeBuf_canon (b req : Nat) (key : Option Key) (s : State) (h0 : Kept s) : Kept (freeBuf b req key s) := by
  rw [freeBuf]
  with_reducible repeat' first
    | ((try lift_lets); intro x; clear_value x) | refine onHandle_canon _ _ _ _ (fun _ _ => ?_) ?_
    | apply countDfree_canon | apply returnBuf_canon | apply State.setBuf_canon | apply countBadfree_canon
    | assumption | split

theorem shareBuf_canon (b n req : Nat) (key : Option Key) (s : State) (h0 : Kept s) :
    Kept (shareBuf b n req key s) := by
  rw [shareBuf]
  with_reducible repeat' first
    | ((try lift_lets); intro x; clear_value x) | refine onHandle_canon _ _ _ _ (fun _ _ => ?_) ?_
    | apply countDfree_canon | apply State.setBuf_canon | apply countBadfree_canon | assumption | split

theorem releaseBuf_canon (b req : Nat) (s : State) (h0 : Kept s) : Kept (releaseBuf b req s) := by
  rw [releaseBuf]
  with_reducible repeat' first
    | ((try lift_lets); intro x; clear_value x) | refine onHandle_canon _ _ _ _ (fun _ _ => ?_) ?_
    | apply countDfree_canon | apply countRunder_canon | apply returnBuf_canon | apply State.setBuf_canon | assumption
    | split

theorem countParity_canon (q : Nat) (p : Parity) (s : State) (h0 : Kept s) : Kept (countParity q p s) := by
  unfold countParity
  with_reducible repeat' first
    | apply State.addFld_canon | assumption | split

theorem parHardEvent_canon (q off : Nat) (s : State) (h0 : Kept s) : Kept (parHardEvent q off s) := by
  rw [parHardEvent]
  with_reducible repeat' first
    | apply reportOwn_canon | apply raiseEv_canon | assumption

theorem upsetRead_canon (q off : Nat) (s : State) (h0 : Kept s) : Kept (upsetRead q off s) := by
  rw [upsetRead]
  with_reducible repeat' first
    | apply parHardEvent_canon | apply countParity_canon | assumption

theorem wheyWait_canon (q : Nat) (s : State) (h0 : Kept s) : Kept (wheyWait q s) := by
  rw [wheyWait]
  with_reducible repeat' first
    | apply raiseEv_canon | apply State.addFld_canon | assumption

theorem allocWhey_canon (q : Nat) (s : State) (h0 : Kept s) : OptPairCanon (allocWhey q s) := by
  rw [allocWhey]
  with_reducible repeat' first
    | ((try lift_lets); intro x; first | (refine canon_via x ?_ ?_; (on_goal 2 => (intro _; try clear_value x)); (on_goal 1 => unfold x)) | clear_value x)
    | apply State.setFld_canon | apply State.setBuf_canon | exact optPairCanon_none | apply optPairCanon_some
    | simp -zeta only [canon_mk] | assumption | split

theorem teleSet_canon (port off v : Nat) (s : State) (h0 : Kept s) : Kept (teleSet port off v s) := by
  rw [teleSet]
  with_reducible repeat' first
    | simp -zeta only [canon_mk] | assumption

theorem teleAdd_canon (port off n : Nat) (s : State) (h0 : Kept s) : Kept (teleAdd port off n s) := by
  rw [teleAdd]
  with_reducible repeat' first
    | apply teleSet_canon | assumption | split

theorem leavePool_canon (x : Nat) (s : State) (h0 : Kept s) : Kept (leavePool x s) := by
  rw [leavePool]
  with_reducible repeat' first
    | apply State.setFld_canon | simp -zeta only [canon_mk] | assumption | split

theorem stallPort_canon (p : Nat) (x : Port) (s : State) (h0 : Kept s) : Kept (stallPort p x s) := by
  rw [stallPort]
  with_reducible repeat' first
    | apply teleAdd_canon | refine forAll_canon (fun _ _ _ => ?_) ?_ | assumption | split

theorem nextCycle_canon (s : State) (h0 : Kept s) : Kept (nextCycle s) := by
  rw [nextCycle]
  with_reducible repeat' first
    | apply leavePool_canon | apply serveHbm_canon | apply stallPort_canon | refine forAll_canon (fun _ _ _ => ?_) ?_
    | simp -zeta only [canon_mk] | assumption

theorem orNext_canon (late : Bool) (s : State) (h0 : Kept s) : Kept (orNext late s) := by
  rw [orNext]
  with_reducible repeat' first
    | apply nextCycle_canon | assumption | split

theorem waitBuf_canon (q p req : Nat) (pu : Purpose) (s : State) (h0 : Kept s) : Kept (waitBuf q p req pu s) := by
  rw [waitBuf]
  with_reducible repeat' first
    | apply orNext_canon | apply State.setFld_canon | simp -zeta only [canon_mk] | assumption

theorem noteStart_canon (v : Nat) (s : State) (h0 : Kept s) : Kept (noteStart v s) := by
  rw [noteStart]
  with_reducible repeat' first
    | apply noteAct_canon | assumption

theorem startRequest_canon (v desc src : Nat) (bySync : Bool) (s : State) (h0 : Kept s) :
    PairCanon (startRequest v desc src bySync s) := by
  rw [startRequest]
  with_reducible repeat' first
    | ((try lift_lets); intro x; first | (refine canon_via x ?_ ?_; (on_goal 2 => (intro _; try clear_value x)); (on_goal 1 => unfold x)) | clear_value x)
    | apply absentCmd_canon | apply disabledWork_canon | apply State.addFld_canon | apply noteStart_canon
    | apply wakeUnit_canon | apply State.setVat_canon | assumption | split | apply pairCanon_mk

theorem softSet_canon (k src : Nat) (s : State) (h0 : Kept s) : Kept (softSet k src s) := by
  rw [softSet]
  with_reducible repeat' first
    | ((try lift_lets); intro x; first | (refine canon_via x ?_ ?_; (on_goal 2 => (intro _; try clear_value x)); (on_goal 1 => unfold x)) | clear_value x)
    | apply State.addFld_canon | simp -zeta only [canon_mk] | assumption | split

theorem softClear_canon (k src : Nat) (s : State) (h0 : Kept s) : Kept (softClear k src s) := by
  rw [softClear]
  with_reducible repeat' first
    | simp -zeta only [canon_mk] | assumption | split

theorem runAction_canon (f : Fire) (s : State) (h0 : Kept s) : PairCanon (runAction f s) := by
  rw [runAction]
  with_reducible repeat' first
    | ((try lift_lets); intro x; clear_value x) | apply startRequest_canon | apply softSet_canon
    | apply absentCmd_canon | simp -zeta only [canon_mk] | assumption | split | apply pairCanon_mk

theorem fireOne_canon (f : Fire) (s : State) (h0 : Kept s) : Kept (fireOne f s) := by
  rw [fireOne]
  with_reducible repeat' first
    | apply runAction_canon | simp -zeta only [canon_mk] | assumption | split | apply pairCanon_mk
    | refine canon_of_pair (by assumption) ?_ | apply canon_snd

theorem retryFires_canon (x1 : List Fire) (s : State) (h0 : Kept s) : Kept (retryFires x1 s) := by
  induction x1 generalizing s
  case nil =>
    rw [retryFires]
    with_reducible repeat' first
      | apply ih | apply runAction_canon | simp -zeta only [canon_mk] | assumption
  case cons _ _ ih =>
    rw [retryFires]
    with_reducible repeat' first
      | apply ih | apply runAction_canon | simp -zeta only [canon_mk] | assumption | split | apply pairCanon_mk
      | refine canon_of_pair (by assumption) ?_ | apply canon_snd

theorem fireLoop_canon (k d x3 x4 : Nat) (s : State) (h0 : Kept s) : Kept (fireLoop k d x3 x4 s) := by
  induction x3 generalizing k d x4 s
  case zero =>
    rw [fireLoop]
    with_reducible repeat' first
      | apply ih | apply fireOne_canon | apply State.setFld_canon | assumption
  case succ _ ih =>
    rw [fireLoop]
    with_reducible repeat' first
      | apply ih
      | ((try lift_lets); intro x; first | (refine canon_via x ?_ ?_; (on_goal 2 => (intro _; try clear_value x)); (on_goal 1 => unfold x)) | clear_value x)
      | apply fireOne_canon | apply State.setFld_canon | assumption | split

theorem syncParity_canon (k : Nat) (s : State) (h0 : Kept s) : Kept (syncParity k s) := by
  rw [syncParity]
  with_reducible repeat' first
    | apply State.setFld_canon | apply upsetRead_canon | assumption | split

theorem noteSync_canon (k : Nat) (s : State) (h0 : Kept s) : Kept (noteSync k s) := by
  rw [noteSync]
  with_reducible repeat' first
    | ((try lift_lets); intro x; clear_value x) | simp -zeta only [canon_mk] | assumption | split

theorem syncIncr_canon (k d src : Nat) (s : State) (h0 : Kept s) : Kept (syncIncr k d src s) := by
  rw [syncIncr]
  with_reducible repeat' first
    | ((try lift_lets); intro x; first | (refine canon_via x ?_ ?_; (on_goal 2 => (intro _; try clear_value x)); (on_goal 1 => unfold x)) | clear_value x)
    | apply absentCmd_canon | apply noteSync_canon | apply syncParity_canon | apply State.setFld_canon
    | apply fireLoop_canon | simp -zeta only [canon_mk] | assumption | split

theorem syncIncrIf_canon (en : Bool) (k d src : Nat) (s : State) (h0 : Kept s) : Kept (syncIncrIf en k d src s) := by
  rw [syncIncrIf]
  with_reducible repeat' first
    | apply syncIncr_canon | assumption | split

theorem syncWrite_canon (k v : Nat) (s : State) (h0 : Kept s) : Kept (syncWrite k v s) := by
  rw [syncWrite]
  with_reducible repeat' first
    | ((try lift_lets); intro x; clear_value x) | apply State.setFld_canon | apply nextCycle_canon | assumption
    | split

theorem syncMend_canon (k : Nat) (s : State) (h0 : Kept s) : Kept (syncMend k s) := by
  rw [syncMend]
  with_reducible repeat' first
    | simp -zeta only [canon_mk] | assumption

theorem openWrite_canon (q off req reg : Nat) (bs : List Byte) (s : State) (h0 : Kept s) :
    Kept (openWrite q off req reg bs s) := by
  rw [openWrite]
  with_reducible repeat' first
    | ((try lift_lets); intro x; (refine canon_via x ?_ ?_; (on_goal 2 => (intro _; try clear_value x)); (on_goal 1 => unfold x)))
    | apply cellWrite_canon | apply errCount_canon | refine forAll_canon (fun _ _ _ => ?_) ?_ | assumption | split

theorem clogWrite_canon (bytes : List Byte) (s : State) (h0 : Kept s) : Kept (clogWrite bytes s) := by
  rw [clogWrite]
  with_reducible repeat' first
    | ((try lift_lets); intro x; first | (refine canon_via x ?_ ?_; (on_goal 2 => (intro _; try clear_value x)); (on_goal 1 => unfold x)) | clear_value x)
    | apply hbmPut_canon | apply State.setFld_canon | assumption | split

theorem twinSend_canon (kind : Nat) (bytes : List Byte) (s : State) (h0 : Kept s) : Kept (twinSend kind bytes s) := by
  rw [twinSend]
  with_reducible repeat' first
    | ((try lift_lets); intro x; clear_value x) | apply originate_canon | simp -zeta only [canon_mk] | assumption

theorem State.setSlot_canon (s : State) (x : Slot) (h0 : Kept s) : Kept (State.setSlot s x) := by
  rw [State.setSlot]
  with_reducible repeat' first
    | simp -zeta only [canon_mk] | assumption | split

theorem State.addSlot_canon (s : State) (x : Slot) (h0 : Kept s) : Kept (State.addSlot s x) := by
  rw [State.addSlot]
  with_reducible repeat' first
    | simp -zeta only [canon_mk] | assumption

theorem State.dropSlot_canon (s : State) (k : Key) (h0 : Kept s) : Kept (State.dropSlot s k) := by
  rw [State.dropSlot]
  with_reducible repeat' first
    | simp -zeta only [canon_mk] | assumption

theorem sramNote_canon (g : Nat) (s : State) (h0 : Kept s) : Kept (sramNote g s) := by
  rw [sramNote]
  with_reducible repeat' first
    | apply State.updGrp_canon | assumption | split

theorem statusDown_canon (unit : Nat) (k : Key) (es : List ScopeE) (st n : Nat) (s : State) (h0 : Kept s) :
    Kept (statusDown unit k es st n s) := by
  rw [statusDown]
  with_reducible repeat' first
    | apply sendStatus_canon | refine forAll_canon (fun _ _ _ => ?_) ?_ | assumption

theorem freeParts_canon (x : Slot) (s : State) (h0 : Kept s) : Kept (freeParts x s) := by
  rw [freeParts]
  with_reducible repeat' first
    | apply freeBuf_canon | refine forAll_canon (fun _ _ _ => ?_) ?_ | assumption | split

theorem groupStop_canon (g : Nat) (s : State) (h0 : Kept s) : Kept (groupStop g s) := by
  rw [groupStop]
  with_reducible repeat' first
    | apply State.setFld_canon | apply State.updGrp_canon | assumption | split

theorem migrateEnd_canon (g : Nat) (s : State) (h0 : Kept s) : Kept (migrateEnd g s) := by
  rw [migrateEnd]
  with_reducible repeat' first
    | apply State.setFld_canon | apply State.updGrp_canon | assumption | split

theorem loadSlots_canon (a : Nat) (n : Int) (s : State) (h0 : Kept s) : Kept (loadSlots a n s) := by
  rw [loadSlots]
  with_reducible repeat' first
    | apply State.setFld_canon | assumption

theorem twinDones_canon (s : State) (h0 : Kept s) : Kept (twinDones s) := by
  rw [twinDones]
  with_reducible repeat' first
    | ((try lift_lets); intro x; first | (refine canon_via x ?_ ?_; (on_goal 2 => (intro _; try clear_value x)); (on_goal 1 => unfold x)) | clear_value x)
    | apply twinSend_canon | refine forAll_canon (fun _ _ _ => ?_) ?_ | simp -zeta only [canon_mk] | assumption
    | split

theorem staleNodes_canon (k : Key) (s : State) (h0 : Kept s) : Kept (staleNodes k s) := by
  rw [staleNodes]
  with_reducible repeat' first
    | simp -zeta only [canon_mk] | assumption

theorem freeSlot_canon (x : Slot) (st n : Nat) (s : State) (h0 : Kept s) : Kept (freeSlot x st n s) := by
  rw [freeSlot]
  with_reducible repeat' first
    | ((try lift_lets); intro x; first | (refine canon_via x ?_ ?_; (on_goal 2 => (intro _; try clear_value x)); (on_goal 1 => unfold x)) | clear_value x | skip)
    | apply clogWrite_canon | apply loadSlots_canon | apply staleNodes_canon | apply State.dropSlot_canon
    | apply syncIncrIf_canon | apply twinDones_canon | apply migrateEnd_canon | apply groupStop_canon
    | simp -zeta only [canon_mk] | assumption | split

theorem auxWrite_canon (g off : Nat) (bs : List Byte) (s : State) (h0 : Kept s) : Kept (auxWrite g off bs s) := by
  rw [auxWrite]
  with_reducible repeat' first
    | apply hbmPut_canon | assumption

theorem setTag_canon (g b settled missing : Nat) (s : State) (h0 : Kept s) : Kept (setTag g b settled missing s) := by
  rw [setTag]
  with_reducible repeat' first
    | apply auxWrite_canon | assumption

theorem clearAcc_canon (g b : Nat) (s : State) (h0 : Kept s) : Kept (clearAcc g b s) := by
  rw [clearAcc]
  with_reducible repeat' first
    | apply auxWrite_canon | assumption

theorem accRestart_canon (g missing : Nat) (s : State) (h0 : Kept s) : Kept (accRestart g missing s) := by
  rw [accRestart]
  with_reducible repeat' first
    | apply clearAcc_canon | apply setTag_canon | apply State.updGrp_canon | refine forAll_canon (fun _ _ _ => ?_) ?_
    | assumption

theorem abortQuiet_canon (x : Slot) (st n : Nat) (s : State) (h0 : Kept s) : Kept (abortQuiet x st n s) := by
  rw [abortQuiet]
  with_reducible repeat' first
    | ((try lift_lets); intro x; (refine canon_via x ?_ ?_; (on_goal 2 => (intro _; try clear_value x)); (on_goal 1 => unfold x)))
    | apply orNext_canon | apply touchUnit_canon | apply staleNodes_canon | apply freeParts_canon
    | apply freeBuf_canon | apply setTag_canon | apply clearAcc_canon | apply sramNote_canon | apply freeSlot_canon
    | apply twinSend_canon | simp -zeta only [canon_mk] | assumption | split

theorem abortSlot_canon (x : Slot) (st n : Nat) (s : State) (h0 : Kept s) : Kept (abortSlot x st n s) := by
  rw [abortSlot]
  with_reducible repeat' first
    | apply statusDown_canon | apply abortQuiet_canon | assumption

theorem abortKey_canon (k : Key) (st n : Nat) (s : State) (h0 : Kept s) : Kept (abortKey k st n s) := by
  rw [abortKey]
  with_reducible repeat' first
    | apply abortSlot_canon | assumption | split

theorem retain_canon (r : ResultBlk) (hasData : Bool) (s : State) (h0 : Kept s) : Kept (retain r hasData s) := by
  rw [retain]
  with_reducible repeat' first
    | ((try lift_lets); intro x; first | (refine canon_via x ?_ ?_; (on_goal 2 => (intro _; try clear_value x)); (on_goal 1 => unfold x)) | clear_value x)
    | apply auxWrite_canon | apply State.updGrp_canon | assumption | split

theorem dropRetained_canon (k : Key) (s : State) (h0 : Kept s) : Kept (dropRetained k s) := by
  rw [dropRetained]
  with_reducible repeat' first
    | apply State.updGrp_canon | assumption

theorem sendResult_canon (unit : Nat) (r : ResultBlk) (e : ScopeE) (q : Option MemberReq) (buf : Option Nat) (s :
    State) (h0 : Kept s) :
    Kept (sendResult unit r e q buf s) := by
  rw [sendResult]
  with_reducible repeat' first
    | apply sealPacket_canon | apply enqueue_canon | assumption | split | apply pairCanon_mk
    | refine canon_of_pair (by assumption) ?_ | apply canon_snd

theorem multicast_canon (x : Slot) (r : ResultBlk) (b : Nat) (s : State) (h0 : Kept s) :
    Kept (multicast x r b s) := by
  rw [multicast]
  with_reducible repeat' first
    | apply shareBuf_canon | apply sendResult_canon | apply freeBuf_canon | refine forAll_canon (fun _ _ _ => ?_) ?_
    | assumption

theorem releaseResult_canon (x : Slot) (r : ResultBlk) (b : Nat) (hasData : Bool) (s : State) (h0 : Kept s) :
    Kept (releaseResult x r b hasData s) := by
  rw [releaseResult]
  with_reducible repeat' first
    | apply freeParts_canon | apply multicast_canon | apply sramNote_canon | apply State.setSlot_canon
    | apply retain_canon | assumption

theorem releaseShared_canon (b req : Nat) (s : State) (h0 : Kept s) : Kept (releaseShared b req s) := by
  rw [releaseShared]
  with_reducible repeat' first
    | apply releaseBuf_canon | apply freeSlot_canon | assumption | split

theorem twinMismatch_canon (x : Slot) (s : State) (h0 : Kept s) : Kept (twinMismatch x s) := by
  rw [twinMismatch]
  with_reducible repeat' first
    | apply reportOwnOpen_canon | apply raiseEv_canon | apply State.addFld_canon | apply abortSlot_canon | assumption

theorem twinPass_canon (x : Slot) (s : State) (h0 : Kept s) : Kept (twinPass x s) := by
  rw [twinPass]
  with_reducible repeat' first
    | apply State.setSlot_canon | apply releaseResult_canon | assumption | split

theorem releaseUnverified_canon (x : Slot) (s : State) (h0 : Kept s) : Kept (releaseUnverified x s) := by
  rw [releaseUnverified]
  with_reducible repeat' first
    | split | apply reportOwnOpen_canon | apply raiseEv_canon | apply State.addFld_canon | apply twinPass_canon
    | ((try lift_lets); intro x; clear_value x) | simp -zeta only [canon_mk] | assumption

theorem twinCompare_canon (x : Slot) (d : Nat) (s : State) (h0 : Kept s) : Kept (twinCompare x d s) := by
  rw [twinCompare]
  with_reducible repeat' first
    | split | apply twinPass_canon | apply twinMismatch_canon | assumption

theorem resultLost_canon (x : Slot) (r : ResultBlk) (b : Nat) (s : State) (h0 : Kept s) :
    Kept (resultLost x r b s) := by
  rw [resultLost]
  with_reducible repeat' first
    | apply freeParts_canon | apply freeBuf_canon | apply countParity_canon | apply statusDown_canon
    | apply freeSlot_canon | apply retain_canon | assumption

theorem resultReady_canon (x : Slot) (r : ResultBlk) (b : Nat) (s : State) (h0 : Kept s) :
    Kept (resultReady x r b s) := by
  rw [resultReady]
  with_reducible repeat' first
    | split | apply fillBuf_canon | apply resultLost_canon | apply sramNote_canon | apply State.setSlot_canon
    | apply freeParts_canon | apply releaseResult_canon | assumption

theorem resultBuffer_canon (x : Slot) (r : ResultBlk) (s : State) (h0 : Kept s) : Kept (resultBuffer x r s) := by
  rw [resultBuffer]
  with_reducible repeat' first
    | apply takeBuf_canon | apply resultReady_canon | apply waitBuf_canon | apply State.setSlot_canon
    | exact optPairCanon_none | apply optPairCanon_some | assumption | split
    | refine canon_of_optPair (by assumption) ?_

theorem twinHold_canon (x : Slot) (r : ResultBlk) (s : State) (h0 : Kept s) : Kept (twinHold x r s) := by
  rw [twinHold]
  with_reducible repeat' first
    | ((try lift_lets); intro x; clear_value x) | apply twinSend_canon | apply State.setSlot_canon
    | apply resultBuffer_canon | apply releaseUnverified_canon | apply twinCompare_canon | simp -zeta only [canon_mk]
    | assumption | split

theorem resultFormed_canon (x : Slot) (r : ResultBlk) (s : State) (h0 : Kept s) : Kept (resultFormed x r s) := by
  rw [resultFormed]
  with_reducible repeat' first
    | apply twinHold_canon | apply State.setSlot_canon | apply resultBuffer_canon | assumption | split

theorem itemRelease_canon (b : Option Nat) (req : Nat) (s : State) (h0 : Kept s) : Kept (itemRelease b req s) := by
  unfold itemRelease
  with_reducible repeat' first
    | apply releaseShared_canon | assumption | split

theorem appendBuf_canon (core q : Nat) (p : Packet) (buf : Option Nat) (s : State) (h0 : Kept s) :
    Kept (appendBuf core q p buf s) := by
  rw [appendBuf]
  with_reducible repeat' first
    | apply itemRelease_canon | apply State.setCore_canon | assumption | split

theorem crgWrite_canon (core : Nat) (r : Rec) (s : State) (h0 : Kept s) : Kept (crgWrite core r s) := by
  rw [crgWrite]
  with_reducible repeat' first
    | apply localWrite_canon | apply State.updCore_canon | apply noteAct_canon | assumption

theorem dropItem_canon (core n : Nat) (s : State) (h0 : Kept s) : Kept (dropItem core n s) := by
  rw [dropItem]
  with_reducible repeat' first
    | apply State.updCore_canon | assumption

theorem resendItem_canon (core : Nat) (i : Item) (s : State) (h0 : Kept s) : Kept (resendItem core i s) := by
  rw [resendItem]
  with_reducible repeat' first
    | apply State.updCore_canon | apply enqueue_canon | assumption

theorem itemOutcome_canon (core : Nat) (i : Item) (p : Packet) (e : ExtHdr) (buf : Option Nat) (s : State) (h0 :
    Kept s) :
    Kept (itemOutcome core i p e buf s) := by
  rw [itemOutcome]
  with_reducible repeat' first
    | ((try lift_lets); intro x; (refine canon_via x ?_ ?_; (on_goal 2 => (intro _; try clear_value x)); (on_goal 1 => unfold x)))
    | apply dropItem_canon | apply crgWrite_canon | apply appendBuf_canon | apply itemRelease_canon
    | apply resendItem_canon | assumption | split

theorem noteMember_canon (g rank v : Nat) (s : State) (h0 : Kept s) : Kept (noteMember g rank v s) := by
  rw [noteMember]
  with_reducible repeat' first
    | simp -zeta only [canon_mk] | assumption

theorem sunkAt_canon (v : Nat) (s : State) (h0 : Kept s) : Kept (sunkAt v s) := by
  rw [sunkAt]
  with_reducible repeat' first
    | apply State.addFld_canon | assumption | split

theorem vatReceive_canon (p : Packet) (e : ExtHdr) (buf lo : Option Nat) (s : State) (h0 : Kept s) :
    Kept (vatReceive p e buf lo s) := by
  rw [vatReceive]
  with_reducible repeat' first
    | apply itemOutcome_canon | apply itemRelease_canon | apply sunkAt_canon | assumption | split

theorem trimBufs_canon (port vc x3 : Nat) (s : State) (h0 : Kept s) : Kept (trimBufs port vc x3 s) := by
  induction x3 generalizing port vc s
  case zero =>
    rw [trimBufs]
    with_reducible repeat' first
      | apply ih | apply freeBuf_canon | apply State.setPort_canon | assumption
  case succ _ ih =>
    rw [trimBufs]
    with_reducible repeat' first
      | apply ih | apply freeBuf_canon | apply State.setPort_canon | assumption | split

theorem trimLand_canon (port vc : Nat) (s : State) (h0 : Kept s) : Kept (trimLand port vc s) := by
  rw [trimLand]
  with_reducible repeat' first
    | apply State.setPort_canon | assumption

theorem grantReserved_canon (port vc : Nat) (s : State) (h0 : Kept s) : Kept (grantReserved port vc s) := by
  rw [grantReserved]
  with_reducible repeat' first
    | apply State.setPort_canon | assumption | split

theorem noteReg_canon (addr : Nat) (s : State) (h0 : Kept s) : Kept (noteReg addr s) := by
  rw [noteReg]
  with_reducible repeat' first
    | ((try lift_lets); intro x; clear_value x) | simp -zeta only [canon_mk] | assumption | split

theorem takeHeadroom_canon (port t x3 : Nat) (s : State) (h0 : Kept s) : Kept (takeHeadroom port t x3 s) := by
  induction x3 generalizing port t s
  case zero =>
    rw [takeHeadroom]
    with_reducible repeat' first
      | apply ih | apply takeBuf_canon | apply State.updPort_canon | exact optPairCanon_none | apply optPairCanon_some
      | assumption
  case succ _ ih =>
    rw [takeHeadroom]
    with_reducible repeat' first
      | apply ih | apply takeBuf_canon | apply State.updPort_canon | exact optPairCanon_none | apply optPairCanon_some
      | assumption | split | refine canon_of_optPair (by assumption) ?_

theorem fillHeadroom_canon (port : Nat) (s : State) (h0 : Kept s) : Kept (fillHeadroom port s) := by
  rw [fillHeadroom]
  with_reducible repeat' first
    | ((try lift_lets); intro x; clear_value x) | apply takeHeadroom_canon | apply freeBuf_canon
    | apply State.updPort_canon | refine forAll_canon (fun _ _ _ => ?_) ?_ | assumption | split

theorem pfcCheck_canon (port t : Nat) (s : State) (h0 : Kept s) : Kept (pfcCheck port t s) := by
  rw [pfcCheck]
  with_reducible repeat' first
    | apply State.setPort_canon | assumption | split

theorem pfcCheckAll_canon (port : Nat) (s : State) (h0 : Kept s) : Kept (pfcCheckAll port s) := by
  rw [pfcCheckAll]
  with_reducible repeat' first
    | apply pfcCheck_canon | refine forAll_canon (fun _ _ _ => ?_) ?_ | assumption

theorem ingressLeft_canon (port vc : Nat) (s : State) (h0 : Kept s) : Kept (ingressLeft port vc s) := by
  rw [ingressLeft]
  with_reducible repeat' first
    | apply fillHeadroom_canon | apply pfcCheckAll_canon | apply grantReserved_canon | apply trimLand_canon
    | apply trimBufs_canon | assumption | split

theorem consumed_canon (x : InPkt) (s : State) (h0 : Kept s) : Kept (consumed x s) := by
  rw [consumed]
  with_reducible repeat' first
    | apply releaseShared_canon | apply freeBuf_canon | apply ingressLeft_canon | assumption | split

theorem handBuf_canon (src : Option InPkt) (b : Nat) (s : State) (h0 : Kept s) : PairCanon (handBuf src b s) := by
  rw [handBuf]
  with_reducible repeat' first
    | ((try lift_lets); intro x; clear_value x) | apply State.updPort_canon | assumption | split | apply pairCanon_mk

theorem e2eFail_canon (port : Nat) (p : Packet) (s : State) (h0 : Kept s) : Kept (e2eFail port p s) := by
  rw [e2eFail]
  with_reducible repeat' first
    | apply reportOpen_canon | apply teleAdd_canon | assumption

theorem protoErr_canon (port : Nat) (s : State) (h0 : Kept s) : Kept (protoErr port s) := by
  rw [protoErr]
  with_reducible repeat' first
    | apply teleAdd_canon | assumption

theorem entryWake_canon (e : ExtHdr) (s : State) (h0 : Kept s) : Kept (entryWake e s) := by
  rw [entryWake]
  with_reducible repeat' first
    | apply hbmWake_canon | assumption | split

theorem entryMoved_canon (e : ExtHdr) (s : State) (h0 : Kept s) : Kept (entryMoved e s) := by
  rw [entryMoved]
  with_reducible repeat' first
    | apply hbmMoved_canon | assumption | split

theorem refuseIn_canon (p : Packet) (e : ExtHdr) (s : State) (h0 : Kept s) : Kept (refuseIn p e s) := by
  rw [refuseIn]
  with_reducible repeat' first
    | apply sendStatus_canon | apply reportOpen_canon | apply State.addFld_canon | assumption

theorem rangeOut_canon (p : Packet) (e : ExtHdr) (s : State) (h0 : Kept s) : Kept (rangeOut p e s) := by
  rw [rangeOut]
  with_reducible repeat' first
    | apply sendStatus_canon | apply State.addFld_canon | assumption

theorem redeliver_canon (cn : Bool) (p : Packet) (e : ExtHdr) (r : ResultBlk) (s : State) (h0 : Kept s) :
    Kept (redeliver cn p e r s) := by
  rw [redeliver]
  with_reducible repeat' first
    | apply State.addFld_canon | apply sendResult_canon | assumption

theorem sramBuf_canon (x : Slot) (s : State) (h0 : Kept s) : OptPairCanon (sramBuf x s) := by
  rw [sramBuf]
  with_reducible repeat' first
    | apply takeBuf_canon | exact optPairCanon_none | apply optPairCanon_some | assumption | split

theorem spillWake_canon (x : Slot) (s : State) (h0 : Kept s) : Kept (spillWake x s) := by
  rw [spillWake]
  with_reducible repeat' first
    | apply hbmWake_canon | assumption

theorem claimBuf_canon (src : Option InPkt) (x : Slot) (s : State) (h0 : Kept s) : PairCanon (claimBuf src x s) := by
  rw [claimBuf]
  with_reducible repeat' first
    | ((try lift_lets); intro x; first | (refine canon_via x ?_ ?_; (on_goal 2 => (intro _; try clear_value x)); (on_goal 1 => unfold x)) | (refine pairCanon_via x ?_ ?_; (on_goal 2 => (intro _; try clear_value x)); (on_goal 1 => unfold x)) | clear_value x)
    | apply sramBuf_canon | apply handBuf_canon | apply State.addFld_canon | apply refusePage_canon
    | exact optPairCanon_none | apply optPairCanon_some | assumption | split | apply pairCanon_mk
    | refine canon_of_pair (by assumption) ?_ | refine canon_of_optPair (by assumption) ?_
    | refine canon_of_optPair' (by assumption) ?_ | apply canon_snd

theorem storePart_canon (x : Slot) (pt : Partial) (s : State) (h0 : Kept s) : Kept (storePart x pt s) := by
  rw [storePart]
  with_reducible repeat' first
    | ((try lift_lets); intro x; (refine canon_via x ?_ ?_; (on_goal 2 => (intro _; try clear_value x)); (on_goal 1 => unfold x)))
    | apply fillBuf_canon | apply abortKey_canon | apply countParity_canon | apply hbmPut_canon | assumption | split

theorem emitNode_canon (k : Key) (pt : Partial) (s : State) (h0 : Kept s) : Kept (emitNode k pt s) := by
  rw [emitNode]
  with_reducible repeat' first
    | ((try lift_lets); intro x; first | (refine canon_via x ?_ ?_; (on_goal 2 => (intro _; try clear_value x)); (on_goal 1 => unfold x)) | clear_value x)
    | apply syncIncrIf_canon | apply resultFormed_canon | apply State.setSlot_canon | apply originate_canon
    | assumption | split

theorem nodePresent_canon (k : Key) (pt : Partial) (s : State) (h0 : Kept s) : Kept (nodePresent k pt s) := by
  rw [nodePresent]
  with_reducible repeat' first
    | apply emitNode_canon | assumption | split

theorem placeInput_canon (src : Option InPkt) (cn : Bool) (p : Packet) (e : ExtHdr) (i : Nat) (s : State) (h0 : Kept
    s) :
    Kept (placeInput src cn p e i s) := by
  rw [placeInput]
  with_reducible repeat' first
    | ((try lift_lets); intro x; clear_value x) | apply claimBuf_canon | apply abortSlot_canon
    | apply nodePresent_canon | apply storePart_canon | apply wakeUnit_canon | apply State.setSlot_canon | assumption
    | split | apply pairCanon_mk | refine canon_of_pair (by assumption) ?_

theorem openSlot_canon (src : Option InPkt) (cn : Bool) (p : Packet) (e : ExtHdr) (i a : Nat) (s : State) (h0 : Kept
    s) :
    Kept (openSlot src cn p e i a s) := by
  rw [openSlot]
  with_reducible repeat' first
    | ((try lift_lets); intro x; clear_value x) | apply disabledWork_canon | apply loadSlots_canon
    | apply State.addSlot_canon | apply twinSend_canon | apply State.setSlot_canon | apply placeInput_canon
    | assumption | split

theorem placeOrOpen_canon (src : Option InPkt) (cn : Bool) (p : Packet) (e : ExtHdr) (i : Nat) (s : State) (h0 :
    Kept s) :
    PairCanon (placeOrOpen src cn p e i s) := by
  rw [placeOrOpen]
  with_reducible repeat' first
    | ((try lift_lets); intro x; first | (refine canon_via x ?_ ?_; (on_goal 2 => (intro _; try clear_value x)); (on_goal 1 => unfold x)) | clear_value x)
    | apply State.addFld_canon | apply spillWake_canon | apply placeInput_canon | apply openSlot_canon
    | apply disabledWork_canon | apply sendStatus_canon | assumption | split | apply pairCanon_mk

theorem takeInput_canon (src : Option InPkt) (cn : Bool) (p : Packet) (e : ExtHdr) (i : Nat) (s : State) (h0 : Kept
    s) :
    PairCanon (takeInput src cn p e i s) := by
  rw [takeInput]
  with_reducible repeat' first
    | apply redeliver_canon | apply hbmMoved_canon | apply hbmWake_canon | apply placeOrOpen_canon
    | apply dropRetained_canon | apply refusePage_canon | assumption | split | apply pairCanon_mk

theorem scopeUpset_canon (p : Packet) (e : ExtHdr) (q off : Nat) (s : State) (h0 : Kept s) :
    Kept (scopeUpset p e q off s) := by
  rw [scopeUpset]
  with_reducible repeat' first
    | apply upsetRead_canon | apply abortSlot_canon | apply sendStatus_canon | assumption | split

theorem entryLost_canon (p : Packet) (e : ExtHdr) (s : State) (h0 : Kept s) : Kept (entryLost p e s) := by
  rw [entryLost]
  with_reducible repeat' first
    | apply sendStatus_canon | assumption

theorem takeChecked_canon (cn : Bool) (x : InPkt) (p : Packet) (e : ExtHdr) (s : State) (h0 : Kept s) :
    Kept (takeChecked cn x p e s) := by
  rw [takeChecked]
  with_reducible repeat' first
    | ((try lift_lets); intro x; clear_value x) | apply consumed_canon | apply noteAct_canon | apply rangeOut_canon
    | apply refuseIn_canon | apply scopeUpset_canon | apply takeInput_canon | apply entryMoved_canon
    | apply holdInbox_canon | apply holdFull_canon | assumption | split | apply pairCanon_mk
    | refine canon_of_pair (by assumption) ?_

theorem contribute_canon (cn : Bool) (x : InPkt) (s : State) (h0 : Kept s) : Kept (contribute cn x s) := by
  rw [contribute]
  with_reducible repeat' first
    | ((try lift_lets); intro x; first | (refine canon_via x ?_ ?_; (on_goal 2 => (intro _; try clear_value x)); (on_goal 1 => unfold x)) | clear_value x)
    | apply consumed_canon | apply orNext_canon | apply sendStatus_canon | apply e2eFail_canon | apply refuseIn_canon
    | apply holdInbox_canon | apply entryWake_canon | apply entryLost_canon | apply refusePage_canon
    | apply takeChecked_canon | apply entryMoved_canon | assumption | split

theorem maskRead_canon (k : Key) (ok : Bool) (s : State) (h0 : Kept s) : Kept (maskRead k ok s) := by
  rw [maskRead]
  with_reducible repeat' first
    | ((try lift_lets); intro x; clear_value x) | apply spillWake_canon | apply State.setSlot_canon
    | apply placeInput_canon | apply sendStatus_canon | apply freeSlot_canon | assumption | split

theorem maskAsk_canon (k : Key) (ok : Bool) (s : State) (h0 : Kept s) : Kept (maskAsk k ok s) := by
  rw [maskAsk]
  with_reducible repeat' first
    | ((try lift_lets); intro x; clear_value x) | apply maskRead_canon | apply hbmMoved_canon | apply hbmWake_canon
    | apply refusePage_canon | assumption | split

theorem formNode_canon (x : Slot) (l r : Partial) (s : State) (h0 : Kept s) : Kept (formNode x l r s) := by
  rw [formNode]
  with_reducible repeat' first
    | ((try lift_lets); intro x; clear_value x) | apply freeBuf_canon | apply nodePresent_canon
    | apply storePart_canon | apply touchUnit_canon | apply State.addWrap_canon | apply sramNote_canon
    | apply State.setSlot_canon | assumption | split

theorem pressTake_canon (x : Slot) (l r : Partial) (s : State) (h0 : Kept s) : Kept (pressTake x l r s) := by
  rw [pressTake]
  with_reducible repeat' first
    | ((try lift_lets); intro x; clear_value x) | apply abortSlot_canon | apply countParity_canon
    | apply refuseHandle_canon | apply refusePage_canon | apply hbmWake_canon | apply formNode_canon
    | apply hbmMoved_canon | refine forAll_canon (fun _ _ _ => ?_) ?_ | assumption | split

theorem accumAdd_canon (x : Slot) (pt : Partial) (lost : Bool) (s : State) (h0 : Kept s) :
    Kept (accumAdd x pt lost s) := by
  rw [accumAdd]
  with_reducible repeat' first
    | ((try lift_lets); intro x; clear_value x) | apply resultBuffer_canon | apply setTag_canon | apply clearAcc_canon
    | apply abortSlot_canon | apply auxWrite_canon | assumption | split

theorem passDown_canon (x : Slot) (r : ResultBlk) (b : Nat) (s : State) (h0 : Kept s) : Kept (passDown x r b s) := by
  rw [passDown]
  with_reducible repeat' first
    | apply fillBuf_canon | apply resultLost_canon | apply noteAct_canon | apply freeSlot_canon | apply retain_canon
    | apply multicast_canon | assumption | split

theorem downBuffer_canon (x : Slot) (r : ResultBlk) (s : State) (h0 : Kept s) : Kept (downBuffer x r s) := by
  rw [downBuffer]
  with_reducible repeat' first
    | apply takeBuf_canon | apply passDown_canon | apply waitBuf_canon | apply State.setSlot_canon
    | exact optPairCanon_none | apply optPairCanon_some | assumption | split
    | refine canon_of_optPair (by assumption) ?_

theorem discardChk_canon (s : State) (h0 : Kept s) : Kept (discardChk s) := by
  rw [discardChk]
  with_reducible repeat' first
    | apply State.addFld_canon | assumption

theorem forwardDown_canon (e : ExtHdr) (n : Nat) (s : State) (h0 : Kept s) : Kept (forwardDown e n s) := by
  rw [forwardDown]
  with_reducible repeat' first
    | apply statusDown_canon | assumption

theorem failFromParent_canon (p : Packet) (e : ExtHdr) (s : State) (h0 : Kept s) : Kept (failFromParent p e s) := by
  rw [failFromParent]
  with_reducible repeat' first
    | ((try lift_lets); intro x; first | (refine canon_via x ?_ ?_; (on_goal 2 => (intro _; try clear_value x)); (on_goal 1 => unfold x)) | clear_value x)
    | apply discardChk_canon | apply refuseIn_canon | apply abortQuiet_canon | apply forwardDown_canon
    | refine forAll_canon (fun _ _ _ => ?_) ?_ | assumption | split

theorem resultFromParent_canon (p : Packet) (e : ExtHdr) (s : State) (h0 : Kept s) :
    Kept (resultFromParent p e s) := by
  rw [resultFromParent]
  with_reducible repeat' first
    | apply discardChk_canon | apply failFromParent_canon | apply refuseIn_canon | apply downBuffer_canon
    | apply State.addFld_canon | assumption | split

theorem vatSweep_canon (g lo hi : Nat) (s : State) (h0 : Kept s) : Kept (vatSweep g lo hi s) := by
  rw [vatSweep]
  with_reducible repeat' first
    | apply resendItem_canon | apply sunkAt_canon | refine forAll_canon (fun _ _ _ => ?_) ?_ | assumption | split

theorem onPath_canon (req : Nat) (f : State → State) (s : State) (h0 : (∀ s, Kept s → Kept (f s))) (h1 : Kept s) :
    Kept (onPath req f s) := by
  rw [onPath]
  with_reducible repeat' first
    | apply h0 | assumption | split

theorem woTurn_canon (req addr : Nat) (s : State) (h0 : Kept s) : Kept (woTurn req addr s) := by
  rw [woTurn]
  with_reducible repeat' first
    | apply orNext_canon | assumption

theorem noteWrite_canon (req addr : Nat) (s : State) (h0 : Kept s) : Kept (noteWrite req addr s) := by
  rw [noteWrite]
  with_reducible repeat' first
    | ((try lift_lets); intro x; clear_value x) | simp -zeta only [canon_mk] | assumption

theorem writeField_canon (lost : Bool) (x : Loc) (v : U64) (f : FieldRow) (s : State) (h0 : Kept s) :
    Kept (writeField lost x v f s) := by
  rw [writeField]
  with_reducible repeat' first
    | ((try lift_lets); intro x; clear_value x) | apply State.wr_canon | assumption | split

theorem plainWrite_canon (req : Nat) (x : Loc) (v : U64) (held : FieldRow → Bool) (s : State) (h0 : Kept s) :
    Kept (plainWrite req x v held s) := by
  rw [plainWrite]
  with_reducible repeat' first
    | apply errAt_canon | apply noteWrite_canon | apply writeField_canon | apply noteReg_canon
    | refine forAll_canon (fun _ _ _ => ?_) ?_ | assumption | split

theorem discardWrite_canon (x : Loc) (s : State) (h0 : Kept s) : Kept (discardWrite x s) := by
  rw [discardWrite]
  with_reducible repeat' first
    | apply errAt_canon | assumption

theorem refuseCmd_canon (x : Loc) (s : State) (h0 : Kept s) : Kept (refuseCmd x s) := by
  rw [refuseCmd]
  with_reducible repeat' first
    | apply errAt_canon | assumption

theorem evTestWrite_canon (x : Loc) (v : U64) (s : State) (h0 : Kept s) : Kept (evTestWrite x v s) := by
  rw [evTestWrite]
  with_reducible repeat' first
    | apply raiseEv_canon | refine forAll_canon (fun _ _ _ => ?_) ?_ | assumption | split

theorem errCntWrite_canon (x : Loc) (v : U64) (s : State) (h0 : Kept s) : Kept (errCntWrite x v s) := by
  rw [errCntWrite]
  with_reducible repeat' first
    | ((try lift_lets); intro x; first | (refine canon_via x ?_ ?_; (on_goal 2 => (intro _; try clear_value x)); (on_goal 1 => unfold x)) | clear_value x)
    | apply noteReg_canon | apply State.wr_canon | assumption | split

theorem narrowAccess_canon (addr : Nat) (s : State) (h0 : Kept s) : Kept (narrowAccess addr s) := by
  rw [narrowAccess]
  with_reducible repeat' first
    | apply errAt_canon | assumption | split

theorem noteLatch_canon (g : Nat) (s : State) (h0 : Kept s) : Kept (noteLatch g s) := by
  rw [noteLatch]
  with_reducible repeat' first
    | ((try lift_lets); intro x; clear_value x) | simp -zeta only [canon_mk] | assumption | split

theorem mirrorCfg_canon (g addr : Nat) (v : U64) (s : State) (h0 : Kept s) : Kept (mirrorCfg g addr v s) := by
  rw [mirrorCfg]
  with_reducible repeat' first
    | apply twinSend_canon | assumption | split

theorem startValidation_canon (g : Nat) (s : State) (h0 : Kept s) : Kept (startValidation g s) := by
  rw [startValidation]
  with_reducible repeat' first
    | apply State.updGrp_canon | assumption

theorem enableEffect_canon (req g : Nat) (s : State) (h0 : Kept s) : Kept (enableEffect req g s) := by
  rw [enableEffect]
  with_reducible repeat' first
    | apply startValidation_canon | apply absentCmd_canon | apply groupStop_canon | apply State.updGrp_canon
    | assumption | split

theorem sramLowered_canon (g old : Nat) (s : State) (h0 : Kept s) : Kept (sramLowered g old s) := by
  rw [sramLowered]
  with_reducible repeat' first
    | apply State.updGrp_canon | apply sramNote_canon | assumption | split

theorem grpWrite_canon (req g off : Nat) (v : U64) (s : State) (h0 : Kept s) : Kept (grpWrite req g off v s) := by
  rw [grpWrite]
  with_reducible repeat' first
    | apply plainWrite_canon | apply noteLatch_canon | apply enableEffect_canon | apply sramLowered_canon
    | apply mirrorCfg_canon | assumption | split

theorem maskWrite_canon (req g : Nat) (v : U64) (s : State) (h0 : Kept s) : Kept (maskWrite req g v s) := by
  rw [maskWrite]
  with_reducible repeat' first
    | apply mirrorCfg_canon | apply discardWrite_canon | apply plainWrite_canon | assumption | split

theorem scopeFailed_canon (g i c : Nat) (s : State) (h0 : Kept s) : Kept (scopeFailed g i c s) := by
  rw [scopeFailed]
  with_reducible repeat' first
    | ((try lift_lets); intro x; first | (refine canon_via x ?_ ?_; (on_goal 2 => (intro _; try clear_value x)); (on_goal 1 => unfold x)) | clear_value x)
    | apply raiseEv_canon | apply reportOwnOpen_canon | apply State.setFld_canon | simp -zeta only [canon_mk]
    | assumption | split

theorem groupEnabled_canon (g : Nat) (s : State) (h0 : Kept s) : Kept (groupEnabled g s) := by
  rw [groupEnabled]
  with_reducible repeat' first
    | apply State.setFld_canon | apply State.updGrp_canon | apply accRestart_canon | assumption | split

theorem scanParity_canon (g : Nat) (s : State) (h0 : Kept s) : Kept (scanParity g s) := by
  rw [scanParity]
  with_reducible repeat' first
    | apply upsetRead_canon | assumption | split

theorem settleBlock_canon (g : Nat) (x : Nat × Nat) (s : State) (h0 : Kept s) : Kept (settleBlock g x s) := by
  rw [settleBlock]
  with_reducible repeat' first
    | ((try lift_lets); intro x; first | (refine canon_via x ?_ ?_; (on_goal 2 => (intro _; try clear_value x)); (on_goal 1 => unfold x)) | clear_value x | skip)
    | apply State.updGrp_canon | apply hbmWake_canon | apply clearAcc_canon | apply refusePage_canon
    | apply hbmMoved_canon | apply setTag_canon | assumption | split

theorem settleWaiting_canon (g : Nat) (s : State) (h0 : Kept s) : Kept (settleWaiting g s) := by
  rw [settleWaiting]
  with_reducible repeat' first
    | apply settleBlock_canon | apply State.updGrp_canon | refine forAll_canon (fun _ _ _ => ?_) ?_ | assumption

theorem settleAll_canon (s : State) (h0 : Kept s) : Kept (settleAll s) := by
  rw [settleAll]
  with_reducible repeat' first
    | apply settleWaiting_canon | refine forAll_canon (fun _ _ _ => ?_) ?_ | assumption | split

theorem settleBlocks_canon (g e : Nat) (s : State) (h0 : Kept s) : Kept (settleBlocks g e s) := by
  rw [settleBlocks]
  with_reducible repeat' first
    | ((try lift_lets); intro x; first | (refine canon_via x ?_ ?_; (on_goal 2 => (intro _; try clear_value x)); (on_goal 1 => unfold x)) | clear_value x | skip)
    | apply settleWaiting_canon | apply State.updGrp_canon | assumption

theorem moveHome_canon (g q : Nat) (s : State) (h0 : Kept s) : Kept (moveHome g q s) := by
  rw [moveHome]
  with_reducible repeat' first
    | apply State.setFld_canon | apply State.updGrp_canon | apply accRestart_canon | apply migrateEnd_canon
    | assumption | split

theorem dropDigests_canon (g e : Nat) (s : State) (h0 : Kept s) : Kept (dropDigests g e s) := by
  rw [dropDigests]
  with_reducible repeat' first
    | ((try lift_lets); intro x; clear_value x) | apply State.addFld_canon | simp -zeta only [canon_mk] | assumption
    | split

theorem epochAdvance_canon (g : Nat) (s : State) (h0 : Kept s) : Kept (epochAdvance g s) := by
  rw [epochAdvance]
  with_reducible repeat' first
    | apply State.setFld_canon | apply State.updGrp_canon | assumption

theorem boundary_canon (g : Nat) (s : State) (h0 : Kept s) : Kept (boundary g s) := by
  rw [boundary]
  with_reducible repeat' first
    | apply orNext_canon | apply epochAdvance_canon | apply abortSlot_canon | apply settleBlocks_canon
    | apply dropDigests_canon | apply twinSend_canon | apply moveHome_canon | refine forAll_canon (fun _ _ _ => ?_) ?_
    | assumption | split

theorem requestCame_canon (g : Nat) (s : State) (h0 : Kept s) : Kept (requestCame g s) := by
  rw [requestCame]
  with_reducible repeat' first
    | ((try lift_lets); intro x; first | (refine canon_via x ?_ ?_; (on_goal 2 => (intro _; try clear_value x)); (on_goal 1 => unfold x)) | clear_value x | skip)
    | apply State.setFld_canon | simp -zeta only [canon_mk] | assumption | split

theorem boundaryRequest_canon (g : Nat) (s : State) (h0 : Kept s) : Kept (boundaryRequest g s) := by
  rw [boundaryRequest]
  with_reducible repeat' first
    | apply requestCame_canon | apply State.setFld_canon | apply State.addFld_canon | apply boundary_canon
    | assumption | split

theorem grpCmd_canon (req g cmd qd : Nat) (s : State) (h0 : Kept s) : Kept (grpCmd req g cmd qd s) := by
  rw [grpCmd]
  with_reducible repeat' first
    | apply refuseCmd_canon | apply boundaryRequest_canon | apply State.setFld_canon | apply absentCmd_canon
    | apply State.updGrp_canon | assumption | split

theorem grpCtlWrite_canon (req off : Nat) (v : U64) (s : State) (h0 : Kept s) : Kept (grpCtlWrite req off v s) := by
  rw [grpCtlWrite]
  with_reducible repeat' first
    | ((try lift_lets); intro x; first | (refine canon_via x ?_ ?_; (on_goal 2 => (intro _; try clear_value x)); (on_goal 1 => unfold x)) | clear_value x | skip)
    | apply grpCmd_canon | apply plainWrite_canon | apply woTurn_canon | assumption | split

theorem copyScope_canon (g q : Nat) (s : State) (h0 : Kept s) : Kept (copyScope g q s) := by
  rw [copyScope]
  with_reducible repeat' first
    | apply upsetRead_canon | apply openWrite_canon | assumption | split

theorem copyRanks_canon (g q : Nat) (s : State) (h0 : Kept s) : Kept (copyRanks g q s) := by
  rw [copyRanks]
  with_reducible repeat' first
    | apply hbmPut_canon | apply hbmMoved_canon | apply refusePage_canon | assumption | split

theorem dropChain_canon (id : Nat) (s : State) (h0 : Kept s) : Kept (dropChain id s) := by
  rw [dropChain]
  with_reducible repeat' first
    | simp -zeta only [canon_mk] | assumption

theorem chainOp_canon (c : Chain) (s : State) (h0 : Kept s) : Kept (chainOp c s) := by
  rw [chainOp]
  with_reducible repeat' first
    | apply raiseEv_canon | apply dropChain_canon | assumption

theorem chainSend_canon (c : Chain) (p : Packet) (s : State) (h0 : Kept s) : Kept (chainSend c p s) := by
  rw [chainSend]
  with_reducible repeat' first
    | ((try lift_lets); intro x; first | (refine canon_via x ?_ ?_; (on_goal 2 => (intro _; try clear_value x)); (on_goal 1 => unfold x)) | (refine pairCanon_via x ?_ ?_; (on_goal 2 => (intro _; try clear_value x)); (on_goal 1 => unfold x)))
    | apply sealPacket_canon | apply enqueue_canon | simp -zeta only [canon_mk] | assumption | split
    | apply pairCanon_mk | refine canon_of_pair (by assumption) ?_ | apply canon_snd

theorem chainStop_canon (c : Chain) (off : Nat) (s : State) (h0 : Kept s) : Kept (chainStop c off s) := by
  rw [chainStop]
  with_reducible repeat' first
    | apply upsetRead_canon | apply dropChain_canon | assumption

theorem chainRun_canon (x1 : Nat) (x2 : Chain) (s : State) (h0 : Kept s) : Kept (chainRun x1 x2 s) := by
  induction x1 generalizing x2 s
  case zero =>
    rw [chainRun]
    with_reducible repeat' first
      | apply ih | apply chainStop_canon | apply chainOp_canon | apply chainSend_canon | apply syncIncr_canon
      | apply syncIncrIf_canon | apply dropChain_canon | simp -zeta only [canon_mk] | assumption
  case succ _ ih =>
    rw [chainRun]
    with_reducible repeat' first
      | apply ih
      | ((try lift_lets); intro x; (refine canon_via x ?_ ?_; (on_goal 2 => (intro _; try clear_value x)); (on_goal 1 => unfold x)))
      | apply chainStop_canon | apply chainOp_canon | apply chainSend_canon | apply syncIncr_canon
      | apply syncIncrIf_canon | apply dropChain_canon | simp -zeta only [canon_mk] | assumption | split

theorem chainDone_canon (c : Chain) (s : State) (h0 : Kept s) : Kept (chainDone c s) := by
  rw [chainDone]
  with_reducible repeat' first
    | apply syncIncrIf_canon | apply dropChain_canon | apply chainRun_canon | assumption | split

theorem laneWrite_canon (l off : Nat) (f : Loc → State → State) (s : State) (h0 : (∀ y s, Kept s → Kept (f y s)))
    (h1 : Kept s) :
    Kept (laneWrite l off f s) := by
  rw [laneWrite]
  with_reducible repeat' first
    | apply h0 | apply discardWrite_canon | assumption | split

theorem setShaper_canon (p t : Nat) (x : Shaper) (s : State) (h0 : Kept s) : Kept (setShaper p t x s) := by
  rw [setShaper]
  with_reducible repeat' first
    | apply State.updPort_canon | assumption

theorem shaperSend_canon (p t charged : Nat) (s : State) (h0 : Kept s) : Kept (shaperSend p t charged s) := by
  rw [shaperSend]
  with_reducible repeat' first
    | apply setShaper_canon | assumption | split

theorem shapeWrite_canon (req p t : Nat) (v : U64) (s : State) (h0 : Kept s) : Kept (shapeWrite req p t v s) := by
  rw [shapeWrite]
  with_reducible repeat' first
    | refine laneWrite_canon _ _ _ _ (fun _ _ _ => ?_) ?_ | apply plainWrite_canon | apply noteReg_canon
    | apply setShaper_canon | assumption

theorem schedWrite_canon (req p off : Nat) (v : U64) (s : State) (h0 : Kept s) : Kept (schedWrite req p off v s) := by
  rw [schedWrite]
  with_reducible repeat' first
    | refine laneWrite_canon _ _ _ _ (fun _ _ _ => ?_) ?_ | apply plainWrite_canon | apply noteReg_canon | assumption

theorem gateStartAt_canon (p pos at_ : Nat) (s : State) (h0 : Kept s) : Kept (gateStartAt p pos at_ s) := by
  rw [gateStartAt]
  with_reducible repeat' first
    | apply State.updPort_canon | apply State.setFld_canon | assumption

theorem gateValidate_canon (p : Nat) (s : State) (h0 : Kept s) : Kept (gateValidate p s) := by
  rw [gateValidate]
  with_reducible repeat' first
    | ((try lift_lets); intro x; (refine pairCanon_via x ?_ ?_; (on_goal 2 => (intro _; try clear_value x)); (on_goal 1 => unfold x)))
    | apply State.updPort_canon | apply gateStartAt_canon | apply raiseEv_canon | apply State.setFld_canon
    | apply State.draw_canon | assumption | split | apply pairCanon_mk | refine canon_of_pair (by assumption) ?_
    | apply canon_snd

theorem gateDataWrite_canon (req p off : Nat) (v : U64) (s : State) (h0 : Kept s) :
    Kept (gateDataWrite req p off v s) := by
  rw [gateDataWrite]
  with_reducible repeat' first
    | refine laneWrite_canon _ _ _ _ (fun _ _ _ => ?_) ?_ | apply discardWrite_canon | apply plainWrite_canon
    | assumption | split

theorem gateNext_canon (p : Nat) (s : State) (h0 : Kept s) : Kept (gateNext p s) := by
  rw [gateNext]
  with_reducible repeat' first
    | apply State.setPort_canon | apply State.addWrap_canon | apply State.addFld_canon | assumption | split

theorem gateAdvance_canon (p x2 : Nat) (s : State) (h0 : Kept s) : Kept (gateAdvance p x2 s) := by
  induction x2 generalizing p s
  case zero =>
    rw [gateAdvance]
    with_reducible repeat' first
      | apply ih | apply gateNext_canon | assumption
  case succ _ ih =>
    rw [gateAdvance]
    with_reducible repeat' first
      | apply ih | apply gateNext_canon | assumption | split

theorem gateView_canon (s : State) (p : Nat) (h0 : Kept s) : Kept (gateView s p) := by
  rw [gateView]
  with_reducible repeat' first
    | apply gateAdvance_canon | assumption

theorem gateStop_canon (p : Nat) (s : State) (h0 : Kept s) : Kept (gateStop p s) := by
  rw [gateStop]
  with_reducible repeat' first
    | apply gateView_canon | apply State.updPort_canon | apply State.setFld_canon | assumption

theorem gateCfgWrite_canon (req p : Nat) (v : U64) (s : State) (h0 : Kept s) : Kept (gateCfgWrite req p v s) := by
  rw [gateCfgWrite]
  with_reducible repeat' first
    | ((try lift_lets); intro x; first | (refine canon_via x ?_ ?_; (on_goal 2 => (intro _; try clear_value x)); (on_goal 1 => unfold x)) | clear_value x | skip)
    | refine laneWrite_canon _ _ _ _ (fun _ _ _ => ?_) ?_ | apply orNext_canon | apply plainWrite_canon
    | apply discardWrite_canon | apply gateValidate_canon | apply gateStop_canon | apply gateView_canon | assumption
    | split

theorem gateEdge_canon (p : Nat) (s : State) (h0 : Kept s) : Kept (gateEdge p s) := by
  rw [gateEdge]
  with_reducible repeat' first
    | ((try lift_lets); intro x; first | (refine canon_via x ?_ ?_; (on_goal 2 => (intro _; try clear_value x)); (on_goal 1 => unfold x)) | clear_value x)
    | apply gateStartAt_canon | apply gateView_canon | apply State.addFld_canon | apply State.setPort_canon
    | assumption | split

theorem setMeter_canon (m : Nat) (x : Meter) (s : State) (h0 : Kept s) : Kept (setMeter m x s) := by
  rw [setMeter]
  with_reducible repeat' first
    | simp -zeta only [canon_mk] | assumption

theorem meterWrite_canon (req m off : Nat) (v : U64) (s : State) (h0 : Kept s) : Kept (meterWrite req m off v s) := by
  rw [meterWrite]
  with_reducible repeat' first
    | apply plainWrite_canon | apply noteReg_canon | apply setMeter_canon | assumption

theorem meterColour_canon (m len : Nat) (s : State) (h0 : Kept s) : PairCanon (meterColour m len s) := by
  rw [meterColour]
  with_reducible repeat' first
    | apply State.addFld_canon | apply setMeter_canon | assumption | split | apply pairCanon_mk

theorem meterAtPort_canon (p t len : Nat) (s : State) (h0 : Kept s) : PairCanon (meterAtPort p t len s) := by
  rw [meterAtPort]
  with_reducible repeat' first
    | apply meterColour_canon | apply noteAct_canon | apply orNext_canon | assumption | split | apply pairCanon_mk

theorem pulseOut_canon (s : State) (h0 : Kept s) : Kept (pulseOut s) := by
  rw [pulseOut]
  with_reducible repeat' first
    | ((try lift_lets); intro x; clear_value x) | apply State.emit_canon | simp -zeta only [canon_mk] | assumption
    | split

theorem teleSnap_canon (p : Nat) (s : State) (h0 : Kept s) : Kept (teleSnap p s) := by
  rw [teleSnap]
  with_reducible repeat' first
    | apply State.wr_canon | refine forAll_canon (fun _ _ _ => ?_) ?_ | assumption

theorem teleClear_canon (p : Nat) (s : State) (h0 : Kept s) : Kept (teleClear p s) := by
  rw [teleClear]
  with_reducible repeat' first
    | apply teleSet_canon | refine forAll_canon (fun _ _ _ => ?_) ?_ | assumption | split

theorem teleReset_canon (p : Nat) (s : State) (h0 : Kept s) : Kept (teleReset p s) := by
  rw [teleReset]
  with_reducible repeat' first
    | apply teleSet_canon | refine forAll_canon (fun _ _ _ => ?_) ?_ | assumption

theorem teleWrite_canon (p off : Nat) (v : U64) (s : State) (h0 : Kept s) : Kept (teleWrite p off v s) := by
  rw [teleWrite]
  with_reducible repeat' first
    | refine laneWrite_canon _ _ _ _ (fun _ _ _ => ?_) ?_ | apply teleSet_canon | assumption | split

theorem sendLctl_canon (p kind : Nat) (body : List Byte) (s : State) (h0 : Kept s) :
    Kept (sendLctl p kind body s) := by
  rw [sendLctl]
  with_reducible repeat' first
    | apply State.updPort_canon | apply State.emit_canon | assumption

theorem lostPacket_canon (p : Nat) (load : Load) (org : Origin) (s : State) (h0 : Kept s) :
    Kept (lostPacket p load org s) := by
  unfold lostPacket
  with_reducible repeat' first
    | ((try lift_lets); intro x; clear_value x) | apply abortKey_canon | apply sendStatus_canon | assumption | split

theorem trimAll_canon (p : Nat) (s : State) (h0 : Kept s) : Kept (trimAll p s) := by
  rw [trimAll]
  with_reducible repeat' first
    | apply trimLand_canon | apply trimBufs_canon | refine forAll_canon (fun _ _ _ => ?_) ?_ | assumption

theorem unlink_canon (p : Nat) (s : State) (h0 : Kept s) : Kept (unlink p s) := by
  rw [unlink]
  with_reducible repeat' first
    | apply State.setPu_canon | apply fillHeadroom_canon | apply trimAll_canon | apply State.updPort_canon
    | refine forAll_canon (fun _ _ _ => ?_) ?_ | assumption

theorem armRetry_canon (p : Nat) (s : State) (h0 : Kept s) : Kept (armRetry p s) := by
  rw [armRetry]
  with_reducible repeat' first
    | apply State.updPort_canon | assumption

theorem linkDown_canon (p : Nat) (s : State) (h0 : Kept s) : Kept (linkDown p s) := by
  rw [linkDown]
  with_reducible repeat' first
    | apply sendLctl_canon | apply reportOwnOpen_canon | apply raiseEv_canon | apply armRetry_canon
    | apply unlink_canon | apply releaseShared_canon | apply lostPacket_canon
    | refine forAll_canon (fun _ _ _ => ?_) ?_ | assumption | split

theorem drainedDown_canon (p : Nat) (s : State) (h0 : Kept s) : Kept (drainedDown p s) := by
  rw [drainedDown]
  with_reducible repeat' first
    | apply linkDown_canon | assumption | split

theorem stepFail_canon (p bit : Nat) (s : State) (h0 : Kept s) : Kept (stepFail p bit s) := by
  rw [stepFail]
  with_reducible repeat' first
    | apply armRetry_canon | apply unlink_canon | apply reportOwn_canon | apply raiseEv_canon | assumption

theorem stepLimit_canon (p n : Nat) (s : State) (cycles : Option Nat) (h0 : Kept s) :
    Kept (stepLimit p n s cycles) := by
  rw [stepLimit]
  with_reducible repeat' first
    | apply State.updPort_canon | assumption

theorem startBringup_canon (p : Nat) (s : State) (h0 : Kept s) : Kept (startBringup p s) := by
  rw [startBringup]
  with_reducible repeat' first
    | apply stepLimit_canon | apply State.updPort_canon | assumption

theorem linkUp_canon (p : Nat) (s : State) (h0 : Kept s) : Kept (linkUp p s) := by
  rw [linkUp]
  with_reducible repeat' first
    | apply State.updPort_canon | apply drainedDown_canon | apply raiseEv_canon | apply fillHeadroom_canon
    | assumption | split

theorem placeLongReach_canon (p : Nat) (s : State) (h0 : Kept s) : OptCanon (placeLongReach p s) := by
  rw [placeLongReach]
  with_reducible repeat' first
    | apply State.setPort_canon | exact optCanon_none | apply optCanon_some | assumption | split

theorem takeBase_canon (p : Nat) (x2 : List Nat) (s : State) (h0 : Kept s) : OptCanon (takeBase p x2 s) := by
  induction x2 generalizing p s
  case nil =>
    rw [takeBase]
    with_reducible repeat' first
      | apply ih | apply takeBuf_canon | apply State.updPort_canon | exact optCanon_none | apply optCanon_some
      | exact optPairCanon_none | apply optPairCanon_some | assumption
  case cons _ _ ih =>
    rw [takeBase]
    with_reducible repeat' first
      | apply ih | apply takeBuf_canon | apply State.updPort_canon | exact optCanon_none | apply optCanon_some
      | exact optPairCanon_none | apply optPairCanon_some | assumption | split
      | refine canon_of_optPair (by assumption) ?_

theorem startStep6_canon (p : Nat) (s : State) (h0 : Kept s) : Kept (startStep6 p s) := by
  rw [startStep6]
  with_reducible repeat' first
    | apply stepLimit_canon | apply State.updPort_canon | apply sendLctl_canon
    | refine forAll_canon (fun _ _ _ => ?_) ?_ | assumption

theorem step5_canon (p : Nat) (s : State) (h0 : Kept s) : Kept (step5 p s) := by
  rw [step5]
  with_reducible repeat' first
    | apply stepLimit_canon | apply placeLongReach_canon | apply stepFail_canon | apply takeBase_canon
    | apply startStep6_canon | exact optCanon_none | apply optCanon_some | assumption | split
    | refine canon_of_opt (by assumption) ?_

theorem sendEcho_canon (p : Nat) (s : State) (h0 : Kept s) : Kept (sendEcho p s) := by
  rw [sendEcho]
  with_reducible repeat' first
    | apply State.updPort_canon | apply sendLctl_canon | assumption

theorem startStep4_canon (p : Nat) (s : State) (h0 : Kept s) : Kept (startStep4 p s) := by
  rw [startStep4]
  with_reducible repeat' first
    | apply sendEcho_canon | apply State.updPort_canon | apply stepLimit_canon | assumption

theorem startStep3_canon (p : Nat) (s : State) (h0 : Kept s) : Kept (startStep3 p s) := by
  rw [startStep3]
  with_reducible repeat' first
    | apply stepLimit_canon | apply stepFail_canon | apply State.updPort_canon | apply sendLctl_canon | assumption
    | split

theorem fecLocked_canon (p : Nat) (s : State) (h0 : Kept s) : Kept (fecLocked p s) := by
  rw [fecLocked]
  with_reducible repeat' first
    | apply linkUp_canon | apply State.updPort_canon | apply stepFail_canon | apply startStep3_canon | assumption
    | split

theorem formPort_canon (p : Nat) (s : State) (h0 : Kept s) : Kept (formPort p s) := by
  rw [formPort]
  with_reducible repeat' first
    | apply State.updPort_canon | apply startBringup_canon | assumption | split

theorem dissolve_canon (p : Nat) (s : State) (h0 : Kept s) : Kept (dissolve p s) := by
  rw [dissolve]
  with_reducible repeat' first
    | ((try lift_lets); intro x; clear_value x) | apply State.updPort_canon | assumption

theorem prtCfgExtra_canon (p : Nat) (v : U64) (s : State) (h0 : Kept s) : Kept (prtCfgExtra p v s) := by
  rw [prtCfgExtra]
  with_reducible repeat' first
    | apply teleSnap_canon | apply teleClear_canon | assumption | split

theorem prtCfgWrite_canon (req p : Nat) (v : U64) (s : State) (h0 : Kept s) : Kept (prtCfgWrite req p v s) := by
  rw [prtCfgWrite]
  with_reducible repeat' first
    | ((try lift_lets); intro x; first | (refine canon_via x ?_ ?_; (on_goal 2 => (intro _; try clear_value x)); (on_goal 1 => unfold x)) | clear_value x | skip)
    | refine laneWrite_canon _ _ _ _ (fun _ _ _ => ?_) ?_ | apply orNext_canon | apply discardWrite_canon
    | apply prtCfgExtra_canon | apply plainWrite_canon | apply formPort_canon | apply dissolve_canon
    | apply linkDown_canon | assumption | split

theorem takeCredits_canon (p : Nat) (f : Lctl) (s : State) (h0 : Kept s) : Kept (takeCredits p f s) := by
  rw [takeCredits]
  with_reducible repeat' first
    | apply State.updPort_canon | assumption

theorem takeAck_canon (p a : Nat) (s : State) (h0 : Kept s) : Kept (takeAck p a s) := by
  rw [takeAck]
  with_reducible repeat' first
    | ((try lift_lets); intro x; first | (refine canon_via x ?_ ?_; (on_goal 2 => (intro _; try clear_value x)); (on_goal 1 => unfold x)) | clear_value x)
    | apply protoErr_canon | apply State.setPort_canon | apply drainedDown_canon | apply twinDones_canon | assumption
    | split

theorem startReplay_canon (p a : Nat) (s : State) (h0 : Kept s) : Kept (startReplay p a s) := by
  rw [startReplay]
  with_reducible repeat' first
    | apply linkDown_canon | apply State.setPort_canon | assumption | split

theorem takeNak_canon (p : Nat) (f : Lctl) (s : State) (h0 : Kept s) : Kept (takeNak p f s) := by
  rw [takeNak]
  with_reducible repeat' first
    | apply teleAdd_canon | apply startReplay_canon | apply takeAck_canon | apply takeCredits_canon
    | apply protoErr_canon | assumption | split

theorem takeState_canon (p : Nat) (f : Lctl) (s : State) (h0 : Kept s) : Kept (takeState p f s) := by
  rw [takeState]
  with_reducible repeat' first
    | apply takeAck_canon | apply takeCredits_canon | apply linkUp_canon | assumption | split

theorem takeHello_canon (p : Nat) (f : Lctl) (s : State) (h0 : Kept s) : Kept (takeHello p f s) := by
  rw [takeHello]
  with_reducible repeat' first
    | apply startStep4_canon | apply stepFail_canon | assumption | split

theorem takeEcho_canon (p : Nat) (f : Lctl) (s : State) (h0 : Kept s) : Kept (takeEcho p f s) := by
  rw [takeEcho]
  with_reducible repeat' first
    | ((try lift_lets); intro x; clear_value x) | apply stepFail_canon | apply State.setPort_canon
    | apply sendEcho_canon | apply step5_canon | assumption | split

theorem fecSeen_canon (p : Nat) (f : RxFec) (s : State) (h0 : Kept s) : Kept (fecSeen p f s) := by
  rw [fecSeen]
  with_reducible repeat' first
    | apply teleAdd_canon | assumption | split

theorem lctlIn_canon (p : Nat) (fec : RxFec) (f : Lctl) (s : State) (h0 : Kept s) : Kept (lctlIn p fec f s) := by
  rw [lctlIn]
  with_reducible repeat' first
    | ((try lift_lets); intro x; (refine canon_via x ?_ ?_; (on_goal 2 => (intro _; try clear_value x)); (on_goal 1 => unfold x)))
    | apply fecSeen_canon | apply protoErr_canon | apply State.updPort_canon | apply takeState_canon
    | apply takeNak_canon | apply takeHello_canon | apply sendLctl_canon | apply takeEcho_canon | apply linkDown_canon
    | assumption | split

theorem headerBad_canon (port : Nat) (p : Packet) (s : State) (h0 : Kept s) : Kept (headerBad port p s) := by
  rw [headerBad]
  with_reducible repeat' first
    | apply reportOpen_canon | apply protoErr_canon | apply sendTransport_canon | assumption | split

theorem sendNak_canon (p : Nat) (s : State) (h0 : Kept s) : Kept (sendNak p s) := by
  rw [sendNak]
  with_reducible repeat' first
    | apply teleAdd_canon | apply State.updPort_canon | apply sendLctl_canon | assumption

theorem advanceE_canon (p : Nat) (s : State) (h0 : Kept s) : Kept (advanceE p s) := by
  rw [advanceE]
  with_reducible repeat' first
    | apply State.updPort_canon | assumption

theorem grantStep_canon (port vc b : Nat) (s : State) (h0 : Kept s) : Kept (grantStep port vc b s) := by
  rw [grantStep]
  with_reducible repeat' first
    | apply State.updPort_canon | assumption

theorem grantLanding_canon (port vc : Nat) (s : State) (h0 : Kept s) : Kept (grantLanding port vc s) := by
  rw [grantLanding]
  with_reducible repeat' first
    | apply State.setPort_canon | assumption | split

theorem sendLaneReq_canon (port lane : Nat) (drop park : Bool) (s : State) (h0 : Kept s) :
    Kept (sendLaneReq port lane drop park s) := by
  rw [sendLaneReq]
  with_reducible repeat' first
    | apply originate_canon | apply State.updPort_canon | assumption

theorem unparkLanes_canon (port : Nat) (s : State) (h0 : Kept s) : Kept (unparkLanes port s) := by
  rw [unparkLanes]
  with_reducible repeat' first
    | apply sendLaneReq_canon | apply wakeUnit_canon | refine forAll_canon (fun _ _ _ => ?_) ?_ | assumption | split

theorem unparkCheck_canon (port : Nat) (s : State) (h0 : Kept s) : Kept (unparkCheck port s) := by
  rw [unparkCheck]
  with_reducible repeat' first
    | apply unparkLanes_canon | assumption | split

theorem retryUnparks_canon (s : State) (h0 : Kept s) : Kept (retryUnparks s) := by
  rw [retryUnparks]
  with_reducible repeat' first
    | apply unparkCheck_canon | refine forAll_canon (fun _ _ _ => ?_) ?_ | assumption

theorem takeOut_canon (w : Waiting) (s : State) (h0 : Kept s) : Kept (takeOut w s) := by
  rw [takeOut]
  with_reducible repeat' first
    | apply ingressLeft_canon | simp -zeta only [canon_mk] | assumption | split

theorem dropRefs_canon (bufs : List Nat) (unit : Nat) (s : State) (h0 : Kept s) : Kept (dropRefs bufs unit s) := by
  rw [dropRefs]
  with_reducible repeat' first
    | apply twinDones_canon | apply releaseShared_canon | refine forAll_canon (fun _ _ _ => ?_) ?_ | assumption

theorem discardW_canon (w : Waiting) (s : State) (h0 : Kept s) : Kept (discardW w s) := by
  rw [discardW]
  with_reducible repeat' first
    | apply dropRefs_canon | apply takeOut_canon | assumption

theorem failDown_canon (w : Waiting) (h' : Packet) (s : State) (h0 : Kept s) : Kept (failDown w h' s) := by
  rw [failDown]
  with_reducible repeat' first
    | apply sendStatus_canon | assumption | split

theorem reportItem_canon (w : Waiting) (h' : Packet) (st : Nat) (s : State) (h0 : Kept s) :
    Kept (reportItem w h' st s) := by
  rw [reportItem]
  with_reducible repeat' first
    | apply sendStatus_canon | assumption | split

theorem noCandidate_canon (w : Waiting) (h' : Packet) (s : State) (h0 : Kept s) : Kept (noCandidate w h' s) := by
  rw [noCandidate]
  with_reducible repeat' first
    | apply reportOpen_canon | apply teleAdd_canon | apply discardW_canon | apply sendTransport_canon
    | apply failDown_canon | assumption | split

theorem noTaker_canon (w : Waiting) (h' : Packet) (absent disabled : Bool) (s : State) (h0 : Kept s) :
    Kept (noTaker w h' absent disabled s) := by
  rw [noTaker]
  with_reducible repeat' first
    | apply reportItem_canon | apply absentCmd_canon | apply discardW_canon | apply disabledWork_canon
    | apply noCandidate_canon | assumption | split

theorem unreachable_canon (w : Waiting) (h' : Packet) (c : Option Nat) (s : State) (h0 : Kept s) :
    Kept (unreachable w h' c s) := by
  unfold unreachable
  with_reducible repeat' first
    | apply noTaker_canon | apply noCandidate_canon | assumption | split

theorem ttlExpired_canon (w : Waiting) (h' : Packet) (s : State) (h0 : Kept s) : Kept (ttlExpired w h' s) := by
  rw [ttlExpired]
  with_reducible repeat' first
    | apply teleAdd_canon | apply discardW_canon | apply sendTransport_canon | assumption | split

theorem datelineDrop_canon (port : Nat) (w : Waiting) (h' : Packet) (s : State) (h0 : Kept s) :
    Kept (datelineDrop port w h' s) := by
  rw [datelineDrop]
  with_reducible repeat' first
    | apply sendTransport_canon | apply teleAdd_canon | apply discardW_canon | assumption

theorem deliverLocal_canon (w : Waiting) (s : State) (h0 : Kept s) : Kept (deliverLocal w s) := by
  rw [deliverLocal]
  with_reducible repeat' first
    | ((try lift_lets); intro x; clear_value x) | apply discardW_canon | apply headerBad_canon | apply takeOut_canon
    | apply deliverIn_canon | simp -zeta only [canon_mk] | assumption | split

theorem joinEgress_canon (port : Nat) (e : EPkt) (s : State) (h0 : Kept s) : Kept (joinEgress port e s) := by
  rw [joinEgress]
  with_reducible repeat' first
    | apply State.updPort_canon | apply teleSet_canon | apply unparkCheck_canon | assumption | split

theorem passCheck_canon (w : Waiting) (s : State) (h0 : Kept s) : Kept (passCheck w s) := by
  rw [passCheck]
  with_reducible repeat' first
    | apply teleAdd_canon | assumption | split

theorem enterNative_canon (port : Nat) (c : Option Nat) (w : Waiting) (h' : Packet) (s : State) (h0 : Kept s) :
    Kept (enterNative port c w h' s) := by
  rw [enterNative]
  with_reducible repeat' first
    | ((try lift_lets); intro x; first | (refine canon_via x ?_ ?_; (on_goal 2 => (intro _; try clear_value x)); (on_goal 1 => unfold x)) | clear_value x)
    | apply datelineDrop_canon | apply discardW_canon | apply passCheck_canon | apply joinEgress_canon
    | apply takeOut_canon | simp -zeta only [canon_mk] | assumption | split

theorem enterUdp_canon (u : UdpEntry) (w : Waiting) (h' : Packet) (s : State) (h0 : Kept s) :
    Kept (enterUdp u w h' s) := by
  rw [enterUdp]
  with_reducible repeat' first
    | ((try lift_lets); intro x; clear_value x) | apply noTaker_canon | apply discardW_canon | apply joinEgress_canon
    | apply takeOut_canon | apply passCheck_canon | assumption | split

theorem enterFrame_canon (port : Nat) (f : EthFrame) (w : Waiting) (s : State) (h0 : Kept s) :
    Kept (enterFrame port f w s) := by
  rw [enterFrame]
  with_reducible repeat' first
    | apply discardW_canon | apply joinEgress_canon | apply takeOut_canon | assumption | split

theorem forward_canon (w : Waiting) (h' : Packet) (s : State) (h0 : Kept s) : Kept (forward w h' s) := by
  rw [forward]
  with_reducible repeat' first
    | apply ttlExpired_canon | apply enterUdp_canon | apply unreachable_canon | apply enterNative_canon | assumption
    | split

theorem noteIdle_canon (port : Nat) (s : State) (h0 : Kept s) : Kept (noteIdle port s) := by
  rw [noteIdle]
  with_reducible repeat' first
    | apply State.setPort_canon | assumption | split

theorem sharedLost_canon (b : Nat) (s : State) (h0 : Kept s) : Kept (sharedLost b s) := by
  rw [sharedLost]
  with_reducible repeat' first
    | ((try lift_lets); intro x; (refine canon_via x ?_ ?_; (on_goal 2 => (intro _; try clear_value x)); (on_goal 1 => unfold x)))
    | apply failDown_canon | apply discardW_canon | apply State.updPort_canon | apply drainedDown_canon
    | apply noteIdle_canon | apply lostPacket_canon | apply dropRefs_canon | refine forAll_canon (fun _ _ _ => ?_) ?_
    | assumption | split

theorem transitLost_canon (w : Waiting) (s : State) (h0 : Kept s) : Kept (transitLost w s) := by
  rw [transitLost]
  with_reducible repeat' first
    | ((try lift_lets); intro x; (refine canon_via x ?_ ?_; (on_goal 2 => (intro _; try clear_value x)); (on_goal 1 => unfold x)))
    | apply sharedLost_canon | apply abortKey_canon | apply discardW_canon | apply sendStatus_canon | assumption
    | split

theorem lostIfRefused_canon (b : Nat) (s : State) (h0 : Kept s) : Kept (lostIfRefused b s) := by
  rw [lostIfRefused]
  with_reducible repeat' first
    | apply transitLost_canon | apply countParity_canon | refine forAll_canon (fun _ _ _ => ?_) ?_ | assumption
    | split

theorem enterCore_canon (w : Waiting) (par : Parity) (s : State) (h0 : Kept s) : Kept (enterCore w par s) := by
  rw [enterCore]
  with_reducible repeat' first
    | apply countParity_canon | apply transitLost_canon | apply refuseHandle_canon | apply enterFrame_canon
    | apply enterNative_canon | apply discardW_canon | apply headerBad_canon | apply forward_canon
    | apply deliverLocal_canon | assumption | split

theorem expandLost_canon (w : Waiting) (s : State) (h0 : Kept s) : Kept (expandLost w s) := by
  rw [expandLost]
  with_reducible repeat' first
    | apply failDown_canon | apply discardW_canon | assumption | split

theorem enterExpanded_canon (w : Waiting) (par : Parity) (s : State) (h0 : Kept s) :
    Kept (enterExpanded w par s) := by
  rw [enterExpanded]
  with_reducible repeat' first
    | ((try lift_lets); intro x; (refine canon_via x ?_ ?_; (on_goal 2 => (intro _; try clear_value x)); (on_goal 1 => unfold x)))
    | apply enterCore_canon | apply hbmWake_canon | apply hbmMoved_canon | apply expandLost_canon
    | apply refusePage_canon | assumption | split

theorem mgmtGive_canon (unit b : Nat) (s : State) (h0 : Kept s) : Kept (mgmtGive unit b s) := by
  rw [mgmtGive]
  with_reducible repeat' first
    | ((try lift_lets); intro x; (refine canon_via x ?_ ?_; (on_goal 2 => (intro _; try clear_value x)); (on_goal 1 => unfold x)))
    | apply freeBuf_canon | apply fillPacket_canon | apply shareBuf_canon | apply lostIfRefused_canon
    | simp -zeta only [canon_mk] | assumption | split

theorem mgmtTake_canon (unit : Nat) (s : State) (h0 : Kept s) : Kept (mgmtTake unit s) := by
  rw [mgmtTake]
  with_reducible repeat' first
    | apply takeBuf_canon | apply mgmtGive_canon | apply waitBuf_canon | exact optPairCanon_none
    | apply optPairCanon_some | assumption | split | refine canon_of_optPair (by assumption) ?_

theorem enterLanded_canon (w : Waiting) (par : Parity) (s : State) (h0 : Kept s) : Kept (enterLanded w par s) := by
  rw [enterLanded]
  with_reducible repeat' first
    | ((try lift_lets); intro x; first | (refine canon_via x ?_ ?_; (on_goal 2 => (intro _; try clear_value x)); (on_goal 1 => unfold x)) | clear_value x | skip)
    | apply wakePieces_canon | apply enterCore_canon | apply movedPieces_canon | apply transitLost_canon
    | apply refusePage_canon | assumption | split

theorem busyFor_canon (port bytes : Nat) (e : Option EPkt) (s : State) (h0 : Kept s) :
    Kept (busyFor port bytes e s) := by
  rw [busyFor]
  with_reducible repeat' first
    | apply State.updPort_canon | assumption

theorem chargeSend_canon (port : Nat) (e : EPkt) (s : State) (h0 : Kept s) : Kept (chargeSend port e s) := by
  rw [chargeSend]
  with_reducible repeat' first
    | apply shaperSend_canon | apply State.updPort_canon | assumption

theorem replayWrite_canon (port pos : Nat) (p : Packet) (s : State) (h0 : Kept s) :
    Kept (replayWrite port pos p s) := by
  rw [replayWrite]
  with_reducible repeat' first
    | ((try lift_lets); intro x; first | (refine canon_via x ?_ ?_; (on_goal 2 => (intro _; try clear_value x)); (on_goal 1 => unfold x)) | clear_value x | skip)
    | apply hbmPut_canon | refine forAll_canon (fun _ _ _ => ?_) ?_ | assumption | split

theorem numberSent_canon (port : Nat) (p : Packet) (org : Origin) (abort : Bool) (s : State) (h0 : Kept s) :
    Kept (numberSent port p org abort s) := by
  rw [numberSent]
  with_reducible repeat' first
    | apply replayWrite_canon | apply State.updPort_canon | assumption

theorem startNative_canon (port : Nat) (e : EPkt) (p : Packet) (abort : Bool) (s : State) (h0 : Kept s) :
    Kept (startNative port e p abort s) := by
  rw [startNative]
  with_reducible repeat' first
    | apply State.emit_canon | apply chargeSend_canon | apply busyFor_canon | assumption

theorem sendNative_canon (port : Nat) (e : EPkt) (p0 : Packet) (s : State) (h0 : Kept s) :
    Kept (sendNative port e p0 s) := by
  rw [sendNative]
  with_reducible repeat' first
    | apply numberSent_canon | apply startNative_canon | apply State.updPort_canon | apply teleAdd_canon | assumption

theorem unaccept_canon (port : Nat) (p : Packet) (vc : Nat) (s : State) (h0 : Kept s) :
    Kept (unaccept port p vc s) := by
  rw [unaccept]
  with_reducible repeat' first
    | apply State.updPort_canon | apply teleSet_canon | apply sendNak_canon | apply teleAdd_canon | assumption

theorem sendAborted_canon (port : Nat) (e : EPkt) (p0 : Packet) (s : State) (h0 : Kept s) :
    Kept (sendAborted port e p0 s) := by
  rw [sendAborted]
  with_reducible repeat' first
    | apply numberSent_canon | apply startNative_canon | apply dropRefs_canon | apply State.updPort_canon
    | apply noteIdle_canon | apply unaccept_canon | apply teleAdd_canon | assumption

theorem frameDone_canon (port : Nat) (s : State) (h0 : Kept s) : Kept (frameDone port s) := by
  rw [frameDone]
  with_reducible repeat' first
    | apply noteIdle_canon | apply dropRefs_canon | apply State.setPort_canon
    | refine forAll_canon (fun _ _ _ => ?_) ?_ | assumption | split

theorem sendFrame_canon (port : Nat) (e : EPkt) (s : State) (h0 : Kept s) : Kept (sendFrame port e s) := by
  rw [sendFrame]
  with_reducible repeat' first
    | ((try lift_lets); intro x; (refine canon_via x ?_ ?_; (on_goal 2 => (intro _; try clear_value x)); (on_goal 1 => unfold x)))
    | apply State.emit_canon | apply chargeSend_canon | apply busyFor_canon | apply frameDone_canon
    | apply State.updPort_canon | assumption | split

theorem resendFrom_canon (port r : Nat) (e : Sent) (s : State) (h0 : Kept s) : Kept (resendFrom port r e s) := by
  rw [resendFrom]
  with_reducible repeat' first
    | apply State.emit_canon | apply busyFor_canon | apply teleAdd_canon | apply State.updPort_canon | assumption

theorem resendNext_canon (port r : Nat) (s : State) (h0 : Kept s) : Kept (resendNext port r s) := by
  rw [resendNext]
  with_reducible repeat' first
    | ((try lift_lets); intro x; first | (refine canon_via x ?_ ?_; (on_goal 2 => (intro _; try clear_value x)); (on_goal 1 => unfold x)) | clear_value x | skip)
    | apply resendFrom_canon | apply movedPieces_canon | apply wakePieces_canon | apply linkDown_canon
    | apply refusePage_canon | assumption | split

theorem sendNew_canon (port : Nat) (abort : Bool) (e : EPkt) (s : State) (h0 : Kept s) :
    Kept (sendNew port abort e s) := by
  rw [sendNew]
  with_reducible repeat' first
    | apply sendFrame_canon | apply sendAborted_canon | apply sendNative_canon | assumption | split

theorem sendPlaced_canon (port : Nat) (abort : Bool) (y : Port) (e : EPkt) (s : State) (h0 : Kept s) :
    Kept (sendPlaced port abort y e s) := by
  rw [sendPlaced]
  with_reducible repeat' first
    | ((try lift_lets); intro x; first | (refine canon_via x ?_ ?_; (on_goal 2 => (intro _; try clear_value x)); (on_goal 1 => unfold x)) | clear_value x | skip)
    | apply sendNew_canon | apply State.setPort_canon | apply wakePieces_canon | assumption | split

theorem sendTurn_canon (port : Nat) (abort : Bool) (s : State) (h0 : Kept s) : Kept (sendTurn port abort s) := by
  rw [sendTurn]
  with_reducible repeat' first
    | ((try lift_lets); intro x; (refine canon_via x ?_ ?_; (on_goal 2 => (intro _; try clear_value x)); (on_goal 1 => unfold x)))
    | apply State.emit_canon | apply busyFor_canon | apply teleAdd_canon | apply State.updPort_canon
    | apply resendNext_canon | apply State.setPort_canon | apply sendPlaced_canon | assumption | split

theorem sendOne_canon (port : Nat) (abort : Bool) (s : State) (h0 : Kept s) : Kept (sendOne port abort s) := by
  rw [sendOne]
  with_reducible repeat' first
    | apply sendTurn_canon | apply gateView_canon | assumption | split

end Sys2Proof.Machine
end

