-- ==== Sys2Proof/Laws/CanonUnits.lean ====
section
/-!
SUPPORT. The second half of the operations: each keeps registers and memory in canonical form.
-/
namespace Sys2Proof.Machine

theorem slotHeld_canon (k : Key) (s : State) (h0 : Kept s) : Kept (slotHeld k s) := by
  rw [slotHeld]
  with_reducible repeat' first
    | ((try lift_lets); intro x; clear_value x) | apply sramNote_canon | apply State.setSlot_canon
    | apply freeParts_canon | assumption | split

theorem cnodeCopied_canon (k : Key) (s : State) (h0 : Kept s) : Kept (cnodeCopied k s) := by
  rw [cnodeCopied]
  with_reducible repeat' first
    | apply slotHeld_canon | apply State.setSlot_canon | assumption | split

theorem acceptPacket_canon (port : Nat) (p : Packet) (s : State) (h0 : Kept s) : Kept (acceptPacket port p s) := by
  rw [acceptPacket]
  with_reducible repeat' first
    | ((try lift_lets); intro x; first | (refine canon_via x ?_ ?_; (on_goal 2 => (intro _; try clear_value x)); (on_goal 1 => unfold x)) | clear_value x)
    | apply meterAtPort_canon | apply hbmPut_canon | apply teleAdd_canon | apply fillPacket_canon
    | apply transitLost_canon | apply countParity_canon | refine forAll_canon (fun _ _ _ => ?_) ?_
    | simp -zeta only [canon_mk] | assumption | split | apply pairCanon_mk | refine canon_of_pair (by assumption) ?_
    | apply canon_snd

theorem deliverPacket_canon (port : Nat) (p : Packet) (s : State) (h0 : Kept s) : Kept (deliverPacket port p s) := by
  rw [deliverPacket]
  with_reducible repeat' first
    | apply State.updPort_canon | apply teleAdd_canon | apply acceptPacket_canon | apply ingressLeft_canon
    | apply headerBad_canon | assumption | split

theorem macLearn_canon (vid mac port : Nat) (s : State) (h0 : Kept s) : Kept (macLearn vid mac port s) := by
  rw [macLearn]
  with_reducible repeat' first
    | apply State.addFld_canon | simp -zeta only [canon_mk] | assumption | split

theorem allocMany_canon (get : State → Option (Nat × State)) (x2 : Nat) (s : State) (h0 : (∀ s, Kept s →
    OptPairCanon (get s))) (h1 : Kept s) :
    OptPairCanon (allocMany get x2 s) := by
  induction x2 generalizing get s
  case zero =>
    rw [allocMany]
    with_reducible repeat' first
      | apply ih | apply h0 | exact optPairCanon_none | apply optPairCanon_some | assumption
  case succ _ ih =>
    rw [allocMany]
    with_reducible repeat' first
      | apply ih | apply h0 | exact optPairCanon_none | apply optPairCanon_some | assumption | split
      | refine canon_of_optPair (by assumption) ?_

theorem shareFrame_canon (port readers : Nat) (bs : List Nat) (s : State) (h0 : Kept s) :
    Kept (shareFrame port readers bs s) := by
  rw [shareFrame]
  with_reducible repeat' first
    | apply freeBuf_canon | apply shareBuf_canon | refine forAll_canon (fun _ _ _ => ?_) ?_ | assumption

theorem fillHeld_canon (port : Nat) (load : Load) (bs : List Nat) (s : State) (h0 : Kept s) :
    Kept (fillHeld port load bs s) := by
  unfold fillHeld
  with_reducible repeat' first
    | apply fillFrame_canon | apply fillPacket_canon | assumption | split

theorem holdFrame_canon (port : Nat) (h' : Held) (bs : List Nat) (s : State) (h0 : Kept s) :
    Kept (holdFrame port h' bs s) := by
  rw [holdFrame]
  with_reducible repeat' first
    | simp -zeta only [canon_mk] | assumption

theorem takeHeads_canon (port p t n : Nat) (s : State) (h0 : Kept s) : OptPairCanon (takeHeads port p t n s) := by
  rw [takeHeads]
  with_reducible repeat' first
    | apply State.updPort_canon | exact optPairCanon_none | apply optPairCanon_some | assumption | split

theorem frameBufs_canon (port : Nat) (h' : Held) (s : State) (h0 : Kept s) : OptPairCanon (frameBufs port h' s) := by
  rw [frameBufs]
  with_reducible repeat' first
    | refine allocMany_canon _ _ _ (fun _ _ => ?_) ?_ | apply takeBuf_canon | apply takeHeads_canon
    | exact optPairCanon_none | apply optPairCanon_some | assumption | split
    | refine canon_of_optPair (by assumption) ?_

theorem placeFrame_canon (port : Nat) (h' : Held) (s : State) (h0 : Kept s) : Kept (placeFrame port h' s) := by
  rw [placeFrame]
  with_reducible repeat' first
    | apply frameBufs_canon | apply pfcCheck_canon | apply lostIfRefused_canon | apply holdFrame_canon
    | apply shareFrame_canon | apply fillHeld_canon | apply waitBuf_canon | apply State.addFld_canon
    | refine forAll_canon (fun _ _ _ => ?_) ?_ | exact optPairCanon_none | apply optPairCanon_some | assumption
    | split | refine canon_of_optPair (by assumption) ?_

theorem serveFrame_canon (hs : List Waiter) (port pool : Nat) (s : State) (h0 : Kept s) :
    OptCanon (serveFrame hs port pool s) := by
  rw [serveFrame]
  with_reducible repeat' first
    | ((try lift_lets); intro x; first | (refine canon_via x ?_ ?_; (on_goal 2 => (intro _; try clear_value x)); (on_goal 1 => unfold x)) | clear_value x | skip)
    | refine allocMany_canon _ _ _ (fun _ _ => ?_) ?_ | apply allocAfter_canon | apply shareFrame_canon
    | apply fillHeld_canon | apply lostIfRefused_canon | refine forAll_canon (fun _ _ _ => ?_) ?_
    | exact optCanon_none | apply optCanon_some | exact optPairCanon_none | apply optPairCanon_some
    | simp -zeta only [canon_mk] | assumption | split | refine canon_of_optPair (by assumption) ?_
    | refine canon_of_optPair' (by assumption) ?_

theorem pfcTake_canon (port t q : Nat) (s : State) (h0 : Kept s) : Kept (pfcTake port t q s) := by
  rw [pfcTake]
  with_reducible repeat' first
    | apply teleAdd_canon | apply State.setPort_canon | assumption

theorem macControl_canon (port : Nat) (f : EthFrame) (s : State) (h0 : Kept s) : Kept (macControl port f s) := by
  rw [macControl]
  with_reducible repeat' first
    | apply pfcTake_canon | apply teleAdd_canon | refine forAll_canon (fun _ _ _ => ?_) ?_ | assumption | split

theorem bridgeFrame_canon (port vid : Nat) (f : EthFrame) (s : State) (h0 : Kept s) :
    Kept (bridgeFrame port vid f s) := by
  rw [bridgeFrame]
  with_reducible repeat' first
    | ((try lift_lets); intro x; clear_value x) | apply meterAtPort_canon | apply placeFrame_canon | assumption
    | split | apply pairCanon_mk | refine canon_of_pair (by assumption) ?_

theorem solicitFrame_canon (port : Nat) (f : EthFrame) (s : State) (h0 : Kept s) : Kept (solicitFrame port f s) := by
  rw [solicitFrame]
  with_reducible repeat' first
    | apply meterAtPort_canon | apply State.emit_canon | assumption | split | apply pairCanon_mk
    | refine canon_of_pair (by assumption) ?_

theorem frameTake_canon (port : Nat) (f : EthFrame) (s : State) (h0 : Kept s) : Kept (frameTake port f s) := by
  rw [frameTake]
  with_reducible repeat' first
    | ((try lift_lets); intro x; (refine canon_via x ?_ ?_; (on_goal 2 => (intro _; try clear_value x)); (on_goal 1 => unfold x)))
    | apply macLearn_canon | apply solicitFrame_canon | apply placeFrame_canon | apply teleAdd_canon
    | apply bridgeFrame_canon | assumption | split

theorem cdnDrop_canon (port : Nat) (e : EPkt) (s : State) (h0 : Kept s) : Kept (cdnDrop port e s) := by
  rw [cdnDrop]
  with_reducible repeat' first
    | apply State.addFld_canon | apply State.updPort_canon | apply lostPacket_canon | apply dropRefs_canon
    | assumption

theorem icacheFill_canon (core line : Nat) (bytes : List Byte) (s : State) (h0 : Kept s) :
    Kept (icacheFill core line bytes s) := by
  rw [icacheFill]
  with_reducible repeat' first
    | ((try lift_lets); intro x; first | (refine pairCanon_via x ?_ ?_; (on_goal 2 => (intro _; try clear_value x)); (on_goal 1 => unfold x)) | clear_value x)
    | apply State.setVat_canon | apply State.draw_canon | assumption | split | apply pairCanon_mk
    | refine canon_of_pair (by assumption) ?_ | apply canon_snd

theorem pcacheFill_canon (v line : Nat) (bytes : List Byte) (s : State) (h0 : Kept s) :
    Kept (pcacheFill v line bytes s) := by
  rw [pcacheFill]
  with_reducible repeat' first
    | ((try lift_lets); intro x; first | (refine canon_via x ?_ ?_; (on_goal 2 => (intro _; try clear_value x)); (on_goal 1 => unfold x)) | (refine pairCanon_via x ?_ ?_; (on_goal 2 => (intro _; try clear_value x)); (on_goal 1 => unfold x)) | clear_value x | skip)
    | apply State.draw_canon | apply State.setVat_canon | apply goodParity_canon | apply wrBytes_canon | assumption
    | split | apply pairCanon_mk | refine canon_of_pair (by assumption) ?_ | apply canon_snd

theorem dropLine_canon (core line : Nat) (s : State) (h0 : Kept s) : Kept (dropLine core line s) := by
  rw [dropLine]
  with_reducible repeat' first
    | ((try lift_lets); intro x; first | (refine canon_via x ?_ ?_; (on_goal 2 => (intro _; try clear_value x)); (on_goal 1 => unfold x)) | clear_value x | skip)
    | apply countParity_canon | apply State.setVat_canon | assumption | split

theorem dropCaches_canon (v : Nat) (s : State) (h0 : Kept s) : Kept (dropCaches v s) := by
  rw [dropCaches]
  with_reducible repeat' first
    | ((try lift_lets); intro x; clear_value x) | apply State.setVat_canon | assumption

theorem releaseQueue_canon (core : Nat) (x : Queue) (s : State) (h0 : Kept s) : Kept (releaseQueue core x s) := by
  rw [releaseQueue]
  with_reducible repeat' first
    | ((try lift_lets); intro x; (refine canon_via x ?_ ?_; (on_goal 2 => (intro _; try clear_value x)); (on_goal 1 => unfold x)))
    | apply itemRelease_canon | apply freeBuf_canon | apply State.addFld_canon
    | refine forAll_canon (fun _ _ _ => ?_) ?_ | assumption | split

theorem dropServer_canon (core : Nat) (s : State) (h0 : Kept s) : Kept (dropServer core s) := by
  rw [dropServer]
  with_reducible repeat' first
    | apply State.setServer_canon | apply freeBuf_canon | refine forAll_canon (fun _ _ _ => ?_) ?_
    | simp -zeta only [canon_mk] | assumption

theorem releaseQueues_canon (core : Nat) (s : State) (h0 : Kept s) : Kept (releaseQueues core s) := by
  rw [releaseQueues]
  with_reducible repeat' first
    | apply dropServer_canon | apply releaseQueue_canon | apply State.updCore_canon
    | refine forAll_canon (fun _ _ _ => ?_) ?_ | assumption

theorem curdExc_canon (core code pc vec : Nat) (s : State) (h0 : Kept s) : Kept (curdExc core code pc vec s) := by
  rw [curdExc]
  with_reducible repeat' first
    | apply State.updCore_canon | apply State.setFld_canon | apply releaseQueues_canon | apply reportOwnOpen_canon
    | apply raiseEv_canon | assumption

theorem coreIdle_canon (core : Nat) (s : State) (h0 : Kept s) : Kept (coreIdle core s) := by
  rw [coreIdle]
  with_reducible repeat' first
    | ((try lift_lets); intro x; clear_value x) | apply touchUnit_canon | apply State.wr_canon
    | apply State.setCore_canon | assumption

theorem clearCore_canon (core : Nat) (s : State) (h0 : Kept s) : Kept (clearCore core s) := by
  rw [clearCore]
  with_reducible repeat' first
    | apply coreIdle_canon | apply refuseCmd_canon | assumption | split

theorem stopCore_canon (core : Nat) (s : State) (h0 : Kept s) : Kept (stopCore core s) := by
  rw [stopCore]
  with_reducible repeat' first
    | apply curdExc_canon | assumption | split

theorem coreCtrl_canon (vat stop clear : Nat) (s : State) (h0 : Kept s) : Kept (coreCtrl vat stop clear s) := by
  rw [coreCtrl]
  with_reducible repeat' first
    | apply stopCore_canon | apply clearCore_canon | refine forAll_canon (fun _ _ _ => ?_) ?_ | assumption | split

theorem setRing_canon (v r : Nat) (x : Ring) (s : State) (h0 : Kept s) : Kept (setRing v r x s) := by
  rw [setRing]
  with_reducible repeat' first
    | ((try lift_lets); intro x; clear_value x) | apply State.setVat_canon | assumption

theorem lostMark_canon (core : Nat) (l : Lost) (s : State) (h0 : Kept s) : Kept (lostMark core l s) := by
  unfold lostMark
  with_reducible repeat' first
    | apply refusePage_canon | apply upsetRead_canon | apply countParity_canon | apply refuseHandle_canon | assumption
    | split

theorem spaceWrite_canon (core ord space qd a : Nat) (bs : List Byte) (s : State) (h0 : Kept s) :
    PairCanon (spaceWrite core ord space qd a bs s) := by
  unfold spaceWrite
  with_reducible repeat' first
    | apply localWrite_canon | apply openWrite_canon | apply refusePage_canon | apply hbmWrite_canon | assumption
    | split | apply pairCanon_mk

theorem dropEmpty_canon (core q x3 : Nat) (s : State) (h0 : Kept s) : Kept (dropEmpty core q x3 s) := by
  induction x3 generalizing core q s
  case zero =>
    rw [dropEmpty]
    with_reducible repeat' first
      | apply ih | apply itemRelease_canon | apply State.setCore_canon | assumption
  case succ _ ih =>
    rw [dropEmpty]
    with_reducible repeat' first
      | apply ih | apply itemRelease_canon | apply State.setCore_canon | assumption | split

theorem popStream_canon (core q : Nat) (s : State) (h0 : Kept s) : Kept (popStream core q s) := by
  rw [popStream]
  with_reducible repeat' first
    | ((try lift_lets); intro x; (refine canon_via x ?_ ?_; (on_goal 2 => (intro _; try clear_value x)); (on_goal 1 => unfold x)))
    | apply itemRelease_canon | apply State.setCore_canon | apply dropEmpty_canon | apply syncIncrIf_canon
    | assumption | split

theorem popStreams_canon (core q x3 : Nat) (s : State) (h0 : Kept s) : Kept (popStreams core q x3 s) := by
  induction x3 generalizing core q s
  case zero =>
    rw [popStreams]
    with_reducible repeat' first
      | apply ih | apply popStream_canon | assumption
  case succ _ ih =>
    rw [popStreams]
    with_reducible repeat' first
      | apply ih | apply popStream_canon | assumption

theorem windowMoved_canon (x : Queue) (i : Nat) (s : State) (h0 : Kept s) : Kept (windowMoved x i s) := by
  rw [windowMoved]
  with_reducible repeat' first
    | apply hbmMoved_canon | assumption | split

theorem popVecs_canon (core q n : Nat) (s : State) (h0 : Kept s) : Kept (popVecs core q n s) := by
  rw [popVecs]
  with_reducible repeat' first
    | ((try lift_lets); intro x; clear_value x) | apply noteAct_canon | apply setRing_canon | apply windowMoved_canon
    | apply State.setCore_canon | apply popStreams_canon | refine forAll_canon (fun _ _ _ => ?_) ?_ | assumption
    | split

theorem handOn_canon (core q : Nat) (x : Queue) (a : Asm) (s : State) (h0 : Kept s) :
    PairCanon (handOn core q x a s) := by
  rw [handOn]
  with_reducible repeat' first
    | ((try lift_lets); intro x; first | (refine canon_via x ?_ ?_; (on_goal 2 => (intro _; try clear_value x)); (on_goal 1 => unfold x)) | (refine pairCanon_via x ?_ ?_; (on_goal 2 => (intro _; try clear_value x)); (on_goal 1 => unfold x)))
    | apply State.updCore_canon | apply State.addFld_canon | apply freeBuf_canon | apply sealPacket_canon
    | apply shareBuf_canon | apply fillPacket_canon | apply syncIncrIf_canon | apply lostIfRefused_canon
    | apply enqueue_canon | assumption | split | apply pairCanon_mk | refine canon_of_pair (by assumption) ?_

theorem pushOut_canon (core q : Nat) (d : List Byte) (s : State) (h0 : Kept s) :
    OptPairCanon (pushOut core q d s) := by
  rw [pushOut]
  with_reducible repeat' first
    | ((try lift_lets); intro x; clear_value x) | apply takeBuf_canon | apply handOn_canon | apply State.updCore_canon
    | exact optPairCanon_none | apply optPairCanon_some | assumption | split | apply pairCanon_mk
    | refine canon_of_pair (by assumption) ?_ | refine canon_of_optPair (by assumption) ?_
    | refine canon_of_optPair' (by assumption) ?_ | apply canon_snd

theorem waitOut_canon (core q : Nat) (d : List Byte) (s : State) (h0 : Kept s) : Kept (waitOut core q d s) := by
  rw [waitOut]
  with_reducible repeat' first
    | apply waitBuf_canon | assumption | split

theorem pushVec_canon (core ord q : Nat) (d : List Byte) (s : State) (h0 : Kept s) :
    OptPairCanon (pushVec core ord q d s) := by
  rw [pushVec]
  with_reducible repeat' first
    | ((try lift_lets); intro x; first | (refine pairCanon_via x ?_ ?_; (on_goal 2 => (intro _; try clear_value x)); (on_goal 1 => unfold x)) | clear_value x)
    | apply noteAct_canon | apply setRing_canon | apply localWrite_canon | apply spaceWrite_canon
    | apply State.setCore_canon | apply pushOut_canon | exact optPairCanon_none | apply optPairCanon_some | assumption
    | split | apply pairCanon_mk | refine canon_of_pair (by assumption) ?_
    | refine canon_of_optPair (by assumption) ?_ | refine canon_of_optPair' (by assumption) ?_ | apply canon_snd

theorem bindQueues_canon (core : Nat) (t : List (Nat × Queue)) (s : State) (h0 : Kept s) :
    Kept (bindQueues core t s) := by
  rw [bindQueues]
  with_reducible repeat' first
    | apply setRing_canon | apply State.updCore_canon | refine forAll_canon (fun _ _ _ => ?_) ?_ | assumption | split

theorem startCore_canon (core : Nat) (d : StartDesc) (bySync : Bool) (s : State) (h0 : Kept s) :
    Kept (startCore core d bySync s) := by
  rw [startCore]
  with_reducible repeat' first
    | ((try lift_lets); intro x; clear_value x) | apply State.wr_canon | apply State.setCore_canon
    | apply curdExc_canon | apply lostMark_canon | apply bindQueues_canon | assumption | split

theorem discardStarts_canon (v : Nat) (s : State) (h0 : Kept s) : Kept (discardStarts v s) := by
  rw [discardStarts]
  with_reducible repeat' first
    | ((try lift_lets); intro x; clear_value x) | apply State.addFld_canon | apply State.setVat_canon
    | apply retryFires_canon | assumption

theorem startTaken_canon (v : Nat) (rest : List StartReq) (s : State) (h0 : Kept s) : Kept (startTaken v rest s) := by
  rw [startTaken]
  with_reducible repeat' first
    | ((try lift_lets); intro x; clear_value x) | apply noteStart_canon | apply State.setVat_canon | assumption

theorem startLost_canon (v : Nat) (rest : List StartReq) (s : State) (h0 : Kept s) : Kept (startLost v rest s) := by
  rw [startLost]
  with_reducible repeat' first
    | apply State.addFld_canon | apply startTaken_canon | apply retryFires_canon | assumption

theorem startHead_canon (v : Nat) (r : StartReq) (rest : List StartReq) (s : State) (h0 : Kept s) :
    Kept (startHead v r rest s) := by
  rw [startHead]
  with_reducible repeat' first
    | ((try lift_lets); intro x; (refine canon_via x ?_ ?_; (on_goal 2 => (intro _; try clear_value x)); (on_goal 1 => unfold x)))
    | apply hbmMoved_canon | apply startTaken_canon | apply startCore_canon | apply retryFires_canon
    | refine forAll_canon (fun _ _ _ => ?_) ?_ | assumption | split

theorem endCore_canon (core : Nat) (s : State) (h0 : Kept s) : Kept (endCore core s) := by
  rw [endCore]
  with_reducible repeat' first
    | apply coreIdle_canon | apply releaseQueues_canon | apply syncIncrIf_canon | assumption

theorem fetchEnd_canon (core : Nat) (s : State) (h0 : Kept s) : Kept (fetchEnd core s) := by
  rw [fetchEnd]
  with_reducible repeat' first
    | apply State.updCore_canon | assumption

theorem fillFromStore_canon (core line : Nat) (s : State) (h0 : Kept s) : Kept (fillFromStore core line s) := by
  rw [fillFromStore]
  with_reducible repeat' first
    | ((try lift_lets); intro x; clear_value x) | apply fetchEnd_canon | apply icacheFill_canon
    | apply pcacheFill_canon | apply hbmMoved_canon | apply hbmWake_canon | apply curdExc_canon
    | apply refusePage_canon | assumption | split

theorem fillLine_canon (core line : Nat) (s : State) (h0 : Kept s) : Kept (fillLine core line s) := by
  rw [fillLine]
  with_reducible repeat' first
    | ((try lift_lets); intro x; first | (refine canon_via x ?_ ?_; (on_goal 2 => (intro _; try clear_value x)); (on_goal 1 => unfold x)) | clear_value x | skip)
    | apply fillFromStore_canon | apply dropLine_canon | apply fetchEnd_canon | apply icacheFill_canon | assumption
    | split

theorem onVat_canon (v off : Nat) (f : State → State) (s : State) (h0 : (∀ s, Kept s → Kept (f s))) (h1 : Kept s) :
    Kept (onVat v off f s) := by
  rw [onVat]
  with_reducible repeat' first
    | apply h0 | apply discardWrite_canon | assumption | split

theorem vatCfgWrite_canon (req v : Nat) (x : U64) (s : State) (h0 : Kept s) : Kept (vatCfgWrite req v x s) := by
  rw [vatCfgWrite]
  with_reducible repeat' first
    | ((try lift_lets); intro x; first | (refine canon_via x ?_ ?_; (on_goal 2 => (intro _; try clear_value x)); (on_goal 1 => unfold x)) | clear_value x)
    | refine onVat_canon _ _ _ _ (fun _ _ => ?_) ?_ | apply plainWrite_canon | apply dropCaches_canon
    | apply State.setVat_canon | apply discardWrite_canon | assumption | split

theorem vatPstoreWrite_canon (req v : Nat) (x : U64) (s : State) (h0 : Kept s) : Kept (vatPstoreWrite req v x s) := by
  rw [vatPstoreWrite]
  with_reducible repeat' first
    | refine onVat_canon _ _ _ _ (fun _ _ => ?_) ?_ | apply plainWrite_canon | apply discardWrite_canon | assumption
    | split

theorem vatStartWrite_canon (req v : Nat) (x : U64) (s : State) (h0 : Kept s) : Kept (vatStartWrite req v x s) := by
  rw [vatStartWrite]
  with_reducible repeat' first
    | ((try lift_lets); intro x; first | (refine canon_via x ?_ ?_; (on_goal 2 => (intro _; try clear_value x)); (on_goal 1 => unfold x)) | (refine pairCanon_via x ?_ ?_; (on_goal 2 => (intro _; try clear_value x)); (on_goal 1 => unfold x)) | clear_value x | skip)
    | refine onVat_canon _ _ _ _ (fun _ _ => ?_) ?_ | apply plainWrite_canon | apply woTurn_canon
    | apply startRequest_canon | assumption | apply pairCanon_mk | refine canon_of_pair (by assumption) ?_
    | apply canon_snd

theorem vatCtrlWrite_canon (req v : Nat) (x : U64) (s : State) (h0 : Kept s) : Kept (vatCtrlWrite req v x s) := by
  rw [vatCtrlWrite]
  with_reducible repeat' first
    | refine onVat_canon _ _ _ _ (fun _ _ => ?_) ?_ | apply coreCtrl_canon | apply plainWrite_canon
    | apply woTurn_canon | assumption

theorem inbDiscard_canon (x : InPkt) (s : State) (h0 : Kept s) : Kept (inbDiscard x s) := by
  rw [inbDiscard]
  with_reducible repeat' first
    | apply State.addFld_canon | apply reportOpen_canon | apply consumed_canon | apply disabledWork_canon | assumption
    | split

theorem writeAck_canon (p : Packet) (s : State) (h0 : Kept s) : Kept (writeAck p s) := by
  rw [writeAck]
  with_reducible repeat' first
    | apply originate_canon | assumption

theorem noteSeq_canon (p : Packet) (s : State) (h0 : Kept s) : Kept (noteSeq p s) := by
  rw [noteSeq]
  with_reducible repeat' first
    | simp -zeta only [canon_mk] | assumption

theorem deliverWith_canon (x : InPkt) (b0 : Nat) (s : State) (h0 : Kept s) : Kept (deliverWith x b0 s) := by
  rw [deliverWith]
  with_reducible repeat' first
    | ((try lift_lets); intro x; first | (refine canon_via x ?_ ?_; (on_goal 2 => (intro _; try clear_value x)); (on_goal 1 => unfold x)) | (refine pairCanon_via x ?_ ?_; (on_goal 2 => (intro _; try clear_value x)); (on_goal 1 => unfold x)))
    | apply handBuf_canon | apply freeBuf_canon | apply shareBuf_canon | apply fillPacket_canon | apply consumed_canon
    | apply countParity_canon | apply noteSeq_canon | apply appendBuf_canon | apply writeAck_canon | assumption
    | split | apply pairCanon_mk | refine canon_of_pair (by assumption) ?_

theorem waitInbound_canon (x : InPkt) (s : State) (h0 : Kept s) : Kept (waitInbound x s) := by
  rw [waitInbound]
  with_reducible repeat' first
    | apply waitBuf_canon | assumption | split

theorem inbDeliver_canon (x : InPkt) (s : State) (h0 : Kept s) : Kept (inbDeliver x s) := by
  rw [inbDeliver]
  with_reducible repeat' first
    | apply inbDiscard_canon | apply holdInbox_canon | apply wakeUnit_canon | apply consumed_canon
    | apply writeAck_canon | apply holdFull_canon | apply deliverWith_canon | apply takeBuf_canon
    | apply waitInbound_canon | exact optPairCanon_none | apply optPairCanon_some | assumption | split
    | refine canon_of_optPair (by assumption) ?_

theorem giveInbound_canon (seq b req : Nat) (s : State) (h0 : Kept s) : Kept (giveInbound seq b req s) := by
  rw [giveInbound]
  with_reducible repeat' first
    | ((try lift_lets); intro x; (refine canon_via x ?_ ?_; (on_goal 2 => (intro _; try clear_value x)); (on_goal 1 => unfold x)))
    | apply freeBuf_canon | apply deliverWith_canon | simp -zeta only [canon_mk] | assumption | split

theorem tallySpace_canon (s : State) (h0 : Kept s) : Kept (tallySpace s) := by
  rw [tallySpace]
  with_reducible repeat' first
    | apply tallyDrain_canon | assumption

theorem tallyTail_canon (req : Nat) (v : U64) (s : State) (h0 : Kept s) : Kept (tallyTail req v s) := by
  rw [tallyTail]
  with_reducible repeat' first
    | apply discardWrite_canon | apply tallySpace_canon | apply plainWrite_canon | assumption | split

theorem tallySnapWrite_canon (req : Nat) (v : U64) (s : State) (h0 : Kept s) : Kept (tallySnapWrite req v s) := by
  rw [tallySnapWrite]
  with_reducible repeat' first
    | apply plainWrite_canon | apply State.setFld_canon | apply teleSnap_canon
    | refine forAll_canon (fun _ _ _ => ?_) ?_ | assumption | split

theorem keepReply_canon (src seq : Nat) (r : Packet) (s : State) (h0 : Kept s) : Kept (keepReply src seq r s) := by
  rw [keepReply]
  with_reducible repeat' first
    | simp -zeta only [canon_mk] | assumption

theorem mgmtReply_canon (port : Nat) (p : Packet) (data : List Byte) (s : State) (h0 : Kept s) :
    Kept (mgmtReply port p data s) := by
  rw [mgmtReply]
  with_reducible repeat' first
    | apply sealPacket_canon | apply enqueue_canon | apply keepReply_canon | assumption | split | apply pairCanon_mk
    | refine canon_of_pair (by assumption) ?_ | apply canon_snd

theorem mgmtAgain_canon (port : Nat) (q : Packet) (s : State) (h0 : Kept s) : Kept (mgmtAgain port q s) := by
  rw [mgmtAgain]
  with_reducible repeat' first
    | apply enqueue_canon | assumption

theorem mgmtReject_canon (port : Nat) (p : Packet) (s : State) (h0 : Kept s) : Kept (mgmtReject port p s) := by
  rw [mgmtReject]
  with_reducible repeat' first
    | apply sendTransport_canon | assumption

theorem finishTest_canon (r : Nat) (s : State) (h0 : Kept s) : Kept (finishTest r s) := by
  rw [finishTest]
  with_reducible repeat' first
    | apply State.setFld_canon | apply reportOwn_canon | simp -zeta only [canon_mk] | assumption

theorem laneDrop_canon (port l : Nat) (s : State) (h0 : Kept s) : Kept (laneDrop port l s) := by
  rw [laneDrop]
  with_reducible repeat' first
    | apply State.updPort_canon | assumption

theorem lanePark_canon (port l : Nat) (s : State) (h0 : Kept s) : Kept (lanePark port l s) := by
  rw [lanePark]
  with_reducible repeat' first
    | apply State.updPort_canon | apply State.setPu_canon | assumption

theorem laneRestore_canon (port l : Nat) (s : State) (h0 : Kept s) : Kept (laneRestore port l s) := by
  rw [laneRestore]
  with_reducible repeat' first
    | apply State.updPort_canon | assumption

theorem laneApply_canon (port : Nat) (p : Packet) (l : Nat) (drop park : Bool) (s : State) (h0 : Kept s) :
    Kept (laneApply port p l drop park s) := by
  rw [laneApply]
  with_reducible repeat' first
    | ((try lift_lets); intro x; (refine canon_via x ?_ ?_; (on_goal 2 => (intro _; try clear_value x)); (on_goal 1 => unfold x)))
    | apply unparkCheck_canon | apply mgmtReply_canon | apply lanePark_canon | apply laneDrop_canon
    | apply wakeUnit_canon | apply laneRestore_canon | apply State.updPort_canon | assumption | split

theorem dropLaneReq_canon (port : Nat) (q : LaneReq) (s : State) (h0 : Kept s) : Kept (dropLaneReq port q s) := by
  rw [dropLaneReq]
  with_reducible repeat' first
    | apply State.updPort_canon | assumption

theorem laneRequestIn_canon (port : Nat) (p : Packet) (s : State) (h0 : Kept s) : Kept (laneRequestIn port p s) := by
  rw [laneRequestIn]
  with_reducible repeat' first
    | apply mgmtReject_canon | apply laneApply_canon | apply dropLaneReq_canon | assumption | split

theorem laneRefused_canon (port : Nat) (q : LaneReq) (s : State) (h0 : Kept s) : Kept (laneRefused port q s) := by
  rw [laneRefused]
  with_reducible repeat' first
    | apply dropLaneReq_canon | apply State.updPort_canon | apply State.setPu_canon | assumption | split

theorem laneAnswered_canon (port : Nat) (q : LaneReq) (s : State) (h0 : Kept s) : Kept (laneAnswered port q s) := by
  rw [laneAnswered]
  with_reducible repeat' first
    | ((try lift_lets); intro x; (refine canon_via x ?_ ?_; (on_goal 2 => (intro _; try clear_value x)); (on_goal 1 => unfold x)))
    | apply unparkCheck_canon | apply lanePark_canon | apply dropLaneReq_canon | apply laneDrop_canon
    | apply laneRestore_canon | apply State.updPort_canon | apply finishTest_canon | assumption | split

theorem laneReply_canon (x : InPkt) (s : State) (h0 : Kept s) : Kept (laneReply x s) := by
  rw [laneReply]
  with_reducible repeat' first
    | apply consumed_canon | apply protoErr_canon | apply laneRefused_canon | apply laneAnswered_canon | assumption
    | split

theorem laneGold_canon (lane : Nat) (s : State) (h0 : Kept s) : Kept (laneGold lane s) := by
  rw [laneGold]
  with_reducible repeat' first
    | ((try lift_lets); intro x; first | (refine canon_via x ?_ ?_; (on_goal 2 => (intro _; try clear_value x)); (on_goal 1 => unfold x)) | clear_value x)
    | apply laneRestore_canon | apply dropLaneReq_canon | apply mgmtReply_canon | apply State.updPort_canon
    | assumption | split

theorem testStart_canon (s : State) (h0 : Kept s) : Kept (testStart s) := by
  rw [testStart]
  with_reducible repeat' first
    | ((try lift_lets); intro x; (refine canon_via x ?_ ?_; (on_goal 2 => (intro _; try clear_value x)); (on_goal 1 => unfold x)))
    | apply wakeUnit_canon | simp -zeta only [canon_mk] | assumption | split

theorem recalBegin_canon (port : Nat) (s : State) (h0 : Kept s) : Kept (recalBegin port s) := by
  rw [recalBegin]
  with_reducible repeat' first
    | ((try lift_lets); intro x; first | (refine canon_via x ?_ ?_; (on_goal 2 => (intro _; try clear_value x)); (on_goal 1 => unfold x)) | (refine pairCanon_via x ?_ ?_; (on_goal 2 => (intro _; try clear_value x)); (on_goal 1 => unfold x)) | clear_value x)
    | apply State.draw_canon | apply sendLaneReq_canon | simp -zeta only [canon_mk] | assumption | split
    | apply pairCanon_mk | refine canon_of_pair (by assumption) ?_ | apply canon_snd

theorem testGo_canon (kind inst wait : Nat) (s : State) (h0 : Kept s) : Kept (testGo kind inst wait s) := by
  rw [testGo]
  with_reducible repeat' first
    | ((try lift_lets); intro x; first | (refine canon_via x ?_ ?_; (on_goal 2 => (intro _; try clear_value x)); (on_goal 1 => unfold x)) | clear_value x)
    | apply orNext_canon | apply State.setFld_canon | apply finishTest_canon | apply refuseCmd_canon
    | apply recalBegin_canon | apply testStart_canon | apply discardStarts_canon | simp -zeta only [canon_mk]
    | assumption | split

theorem tlyTestWrite_canon (req : Nat) (v : U64) (s : State) (h0 : Kept s) : Kept (tlyTestWrite req v s) := by
  rw [tlyTestWrite]
  with_reducible repeat' first
    | ((try lift_lets); intro x; first | (refine canon_via x ?_ ?_; (on_goal 2 => (intro _; try clear_value x)); (on_goal 1 => unfold x)) | clear_value x | skip)
    | apply woTurn_canon | apply plainWrite_canon | apply discardWrite_canon | apply testGo_canon | assumption | split

theorem clearLocal_canon (v : Nat) (s : State) (h0 : Kept s) : Kept (clearLocal v s) := by
  exact ⟨h0.1, tabOk_filter _ _ _ _ h0.2⟩

theorem State.setRline_canon (s : State) (l : Nat) (x : RLine) (h0 : Kept s) : Kept (State.setRline s l x) := by
  rw [State.setRline]
  with_reducible repeat' first
    | simp -zeta only [canon_mk] | assumption

theorem lineLeaves_canon (c l : Nat) (s : State) (h0 : Kept s) : Kept (lineLeaves c l s) := by
  rw [lineLeaves]
  with_reducible repeat' first
    | ((try lift_lets); intro x; first | (refine canon_via x ?_ ?_; (on_goal 2 => (intro _; try clear_value x)); (on_goal 1 => unfold x)) | clear_value x | skip)
    | apply State.setRline_canon | assumption | split

theorem lineEnters_canon (c l : Nat) (s : State) (h0 : Kept s) : Kept (lineEnters c l s) := by
  rw [lineEnters]
  with_reducible repeat' first
    | ((try lift_lets); intro x; first | (refine canon_via x ?_ ?_; (on_goal 2 => (intro _; try clear_value x)); (on_goal 1 => unfold x)) | (refine pairCanon_via x ?_ ?_; (on_goal 2 => (intro _; try clear_value x)); (on_goal 1 => unfold x)) | clear_value x | skip)
    | apply State.draw_canon | apply lineLeaves_canon | apply State.setRline_canon | assumption | split
    | apply pairCanon_mk | refine canon_of_pair (by assumption) ?_ | apply canon_snd

theorem lineUsed_canon (c k l : Nat) (s : State) (h0 : Kept s) : Kept (lineUsed c k l s) := by
  rw [lineUsed]
  with_reducible repeat' first
    | apply lineEnters_canon | assumption

theorem dropCoreLines_canon (k : Nat) (s : State) (h0 : Kept s) : Kept (dropCoreLines k s) := by
  rw [dropCoreLines]
  with_reducible repeat' first
    | apply lineLeaves_canon | refine forAll_canon (fun _ _ _ => ?_) ?_ | assumption

theorem State.updRind_canon (s : State) (k : Nat) (f : Rind → Rind) (h0 : Kept s) : Kept (State.updRind s k f) := by
  rw [State.updRind]
  with_reducible repeat' first
    | apply State.setRind_canon | assumption

theorem leaveWfi_canon (k : Nat) (s : State) (h0 : Kept s) : Kept (leaveWfi k s) := by
  rw [leaveWfi]
  with_reducible repeat' first
    | apply State.setFld_canon | apply State.updRind_canon | assumption | split

theorem onRind_canon (k off : Nat) (f : State → State) (s : State) (h0 : (∀ s, Kept s → Kept (f s))) (h1 : Kept s) :
    Kept (onRind k off f s) := by
  rw [onRind]
  with_reducible repeat' first
    | apply h0 | apply discardWrite_canon | assumption | split

theorem orderFault_canon (k src : Nat) (s : State) (h0 : Kept s) : Kept (orderFault k src s) := by
  rw [orderFault]
  with_reducible repeat' first
    | apply State.addFld_canon | apply State.setFld_canon | apply reportOwn_canon | apply raiseEv_canon | assumption

theorem noteDone_canon (k : Nat) (s : State) (h0 : Kept s) : Kept (noteDone k s) := by
  rw [noteDone]
  with_reducible repeat' first
    | ((try lift_lets); intro x; clear_value x) | simp -zeta only [canon_mk] | assumption

theorem evcDone_canon (k src : Nat) (s : State) (h0 : Kept s) : Kept (evcDone k src s) := by
  rw [evcDone]
  with_reducible repeat' first
    | apply orNext_canon | apply noteDone_canon | apply State.setFld_canon | apply noteAct_canon
    | apply orderFault_canon | apply State.addFld_canon | assumption | split

theorem evcUnwind_canon (k : Nat) (s : State) (h0 : Kept s) : Kept (evcUnwind k s) := by
  rw [evcUnwind]
  with_reducible repeat' first
    | ((try lift_lets); intro x; clear_value x) | apply orNext_canon | apply State.addFld_canon
    | apply State.setFld_canon | simp -zeta only [canon_mk] | assumption

theorem evcDoneWrite_canon (req k : Nat) (v : U64) (s : State) (h0 : Kept s) : Kept (evcDoneWrite req k v s) := by
  rw [evcDoneWrite]
  with_reducible repeat' first
    | refine onRind_canon _ _ _ _ (fun _ _ => ?_) ?_ | apply evcDone_canon | apply plainWrite_canon
    | apply woTurn_canon | assumption

theorem evcSsetWrite_canon (req k : Nat) (v : U64) (s : State) (h0 : Kept s) : Kept (evcSsetWrite req k v s) := by
  rw [evcSsetWrite]
  with_reducible repeat' first
    | refine onRind_canon _ _ _ _ (fun _ _ => ?_) ?_ | apply softSet_canon | apply plainWrite_canon | assumption

theorem evcSclrWrite_canon (req k : Nat) (v : U64) (s : State) (h0 : Kept s) : Kept (evcSclrWrite req k v s) := by
  rw [evcSclrWrite]
  with_reducible repeat' first
    | refine onRind_canon _ _ _ _ (fun _ _ => ?_) ?_ | apply softClear_canon | apply plainWrite_canon | assumption

theorem evcCtrlWrite_canon (req k : Nat) (v : U64) (s : State) (h0 : Kept s) : Kept (evcCtrlWrite req k v s) := by
  rw [evcCtrlWrite]
  with_reducible repeat' first
    | ((try lift_lets); intro x; (refine canon_via x ?_ ?_; (on_goal 2 => (intro _; try clear_value x)); (on_goal 1 => unfold x)))
    | refine onRind_canon _ _ _ _ (fun _ _ => ?_) ?_ | apply plainWrite_canon | apply evcUnwind_canon | assumption
    | split

theorem rindStop_canon (k : Nat) (s : State) (h0 : Kept s) : Kept (rindStop k s) := by
  rw [rindStop]
  with_reducible repeat' first
    | ((try lift_lets); intro x; first | (refine canon_via x ?_ ?_; (on_goal 2 => (intro _; try clear_value x)); (on_goal 1 => unfold x)) | clear_value x | skip)
    | apply State.setFld_canon | apply State.updRind_canon | apply dropCoreLines_canon | assumption

theorem rindStart_canon (k : Nat) (s : State) (h0 : Kept s) : Kept (rindStart k s) := by
  rw [rindStart]
  with_reducible repeat' first
    | ((try lift_lets); intro x; clear_value x) | apply State.updRind_canon | apply rindStop_canon
    | simp -zeta only [canon_mk] | assumption

theorem evcCoreWrite_canon (req k : Nat) (v : U64) (s : State) (h0 : Kept s) : Kept (evcCoreWrite req k v s) := by
  rw [evcCoreWrite]
  with_reducible repeat' first
    | ((try lift_lets); intro x; first | (refine canon_via x ?_ ?_; (on_goal 2 => (intro _; try clear_value x)); (on_goal 1 => unfold x)) | clear_value x)
    | refine onRind_canon _ _ _ _ (fun _ _ => ?_) ?_ | apply plainWrite_canon | apply rindStart_canon
    | apply rindStop_canon | assumption | split

theorem rindTrap_canon (k cause : Nat) (tval : U64) (s : State) (h0 : Kept s) : Kept (rindTrap k cause tval s) := by
  rw [rindTrap]
  with_reducible repeat' first
    | apply State.updRind_canon | apply leaveWfi_canon | assumption | split

theorem writeS_canon (core r : Nat) (v : U64) (s : State) (h0 : Kept s) : Kept (writeS core r v s) := by
  rw [writeS]
  with_reducible repeat' first
    | apply State.updCore_canon | assumption | split

theorem writeP_canon (core p : Nat) (b : Bool) (s : State) (h0 : Kept s) : Kept (writeP core p b s) := by
  rw [writeP]
  with_reducible repeat' first
    | apply State.updCore_canon | assumption | split

theorem waitRoom_canon (core : Nat) (ps : List (Nat × List Byte)) (s : State) (h0 : Kept s) :
    Kept (waitRoom core ps s) := by
  rw [waitRoom]
  with_reducible repeat' first
    | apply waitOut_canon | assumption | split

theorem pushAll_canon (core ord : Nat) (x3 : List (Nat × List Byte)) (x4 : Nat) (s : State) (h0 : Kept s) :
    TripleCanon (pushAll core ord x3 x4 s) := by
  induction x3 generalizing core ord x4 s
  case nil =>
    rw [pushAll]
    with_reducible repeat' first
      | apply ih | apply pushVec_canon | apply waitOut_canon | exact optPairCanon_none | apply optPairCanon_some
      | assumption | split | apply tripleCanon_mk
  case cons _ _ ih =>
    rw [pushAll]
    with_reducible repeat' first
      | apply ih | apply pushVec_canon | apply waitOut_canon | exact optPairCanon_none | apply optPairCanon_some
      | assumption | split | apply tripleCanon_mk | refine canon_of_optPair (by assumption) ?_

theorem emitUnit_canon (core : Nat) (e : Sb) (xs : List Nat) (s : State) (h0 : Kept s) :
    StepCanon (emitUnit core e xs s) := by
  rw [emitUnit]
  with_reducible repeat' first
    | ((try lift_lets); intro x; clear_value x) | apply waitRoom_canon | apply pushAll_canon | apply stepCanon_wait
    | apply stepCanon_more | apply stepCanon_done | apply stepCanon_exc | assumption | split | apply tripleCanon_mk
    | refine canon_of_triple (by assumption) ?_

theorem waitNext_canon (core : Nat) (e : Sb) (s : State) (h0 : Kept s) : Kept (waitNext core e s) := by
  rw [waitNext]
  with_reducible repeat' first
    | apply waitRoom_canon | assumption

theorem withLook_canon {α : Type} (core : Nat) (e : Sb) (s : State) (l : Look α) (k : α → StepRes) (h0 : Kept s) (h1
    : (∀ y, StepCanon (k y))) :
    StepCanon (withLook core e s l k) := by
  unfold withLook
  with_reducible repeat' first
    | apply h1 | apply hbmWake_canon | apply lostMark_canon | apply stepCanon_wait | apply stepCanon_more
    | apply stepCanon_done | apply stepCanon_exc | assumption | split

theorem popSrcs_canon (core : Nat) (xs : List (Src × Nat × List (List Byte))) (s : State) (h0 : Kept s) :
    Kept (popSrcs core xs s) := by
  rw [popSrcs]
  with_reducible repeat' first
    | apply windowMoved_canon | apply popVecs_canon | refine forAll_canon (fun _ _ _ => ?_) ?_ | assumption | split

theorem censusAdd_canon (core nan inf rsv scale : Nat) (s : State) (h0 : Kept s) :
    Kept (censusAdd core nan inf rsv scale s) := by
  rw [censusAdd]
  with_reducible repeat' first
    | apply State.addFld_canon | assumption

theorem censusSrc_canon (core afmt k : Nat) (x : Src) (vecs : List (List Byte)) (s : State) (h0 : Kept s) :
    Kept (censusSrc core afmt k x vecs s) := by
  rw [censusSrc]
  with_reducible repeat' first
    | apply censusAdd_canon | assumption

theorem floatCensus_canon (core : Nat) (e : Sb) (xs : List (Src × Nat × List (List Byte))) (s : State) (h0 : Kept s)
    :
    Kept (floatCensus core e xs s) := by
  rw [floatCensus]
  with_reducible repeat' first
    | apply censusSrc_canon | apply censusAdd_canon | refine forAll_canon (fun _ _ _ => ?_) ?_ | assumption | split

theorem scatWrite_canon (core : Nat) (e : Sb) (x3 : List (Nat × List Byte)) (s : State) (h0 : Kept s) :
    Kept (scatWrite core e x3 s) := by
  induction x3 generalizing core e s
  case nil =>
    rw [scatWrite]
    with_reducible repeat' first
      | apply ih | apply spaceWrite_canon | assumption
  case cons _ _ ih =>
    rw [scatWrite]
    with_reducible repeat' first
      | apply ih | apply spaceWrite_canon | assumption | split | apply pairCanon_mk
      | refine canon_of_pair (by assumption) ?_ | apply canon_snd

theorem takeStep_canon (core : Nat) (e : Sb) (xs : List (Src × Nat × List (List Byte))) (ix : List Nat) (g : List
    Byte) (s : State) (h0 : Kept s) :
    StepCanon (takeStep core e xs ix g s) := by
  rw [takeStep]
  with_reducible repeat' first
    | ((try lift_lets); intro x; first | (refine canon_via x ?_ ?_; (on_goal 2 => (intro _; try clear_value x)); (on_goal 1 => unfold x)) | clear_value x | skip)
    | apply waitNext_canon | apply floatCensus_canon | apply scatWrite_canon | apply popSrcs_canon
    | apply stepCanon_wait | apply stepCanon_more | apply stepCanon_done | apply stepCanon_exc | assumption | split

theorem readStep_canon (core : Nat) (e : Sb) (s : State) (h0 : Kept s) : StepCanon (readStep core e s) := by
  rw [readStep]
  with_reducible repeat' first
    | ((try lift_lets); intro x; clear_value x) | refine withLook_canon _ _ _ _ _ ?_ (fun _ => ?_)
    | apply takeStep_canon | apply stepCanon_wait | apply stepCanon_more | apply stepCanon_done | apply stepCanon_exc
    | assumption | split

theorem vecStep_canon (core : Nat) (e : Sb) (s : State) (h0 : Kept s) : StepCanon (vecStep core e s) := by
  rw [vecStep]
  with_reducible repeat' first
    | apply emitUnit_canon | apply readStep_canon | apply writeS_canon | apply stepCanon_wait | apply stepCanon_more
    | apply stepCanon_done | apply stepCanon_exc | assumption | split

theorem mergeStep_canon (core : Nat) (e : Sb) (s : State) (h0 : Kept s) : StepCanon (mergeStep core e s) := by
  rw [mergeStep]
  with_reducible repeat' first
    | split | apply emitUnit_canon | apply popVecs_canon | refine withLook_canon _ _ _ _ _ ?_ (fun _ => ?_)
    | apply waitNext_canon
    | ((try lift_lets); intro x; first | (refine canon_via x ?_ ?_; (on_goal 2 => (intro _; try clear_value x)); (on_goal 1 => unfold x)) | clear_value x)
    | apply stepCanon_wait | apply stepCanon_more | apply stepCanon_done | apply stepCanon_exc | assumption

theorem asendHand_canon (core : Nat) (e : Sb) (s : State) (h0 : Kept s) : StepCanon (asendHand core e s) := by
  rw [asendHand]
  with_reducible repeat' first
    | ((try lift_lets); intro x; first | (refine canon_via x ?_ ?_; (on_goal 2 => (intro _; try clear_value x)); (on_goal 1 => unfold x)) | (refine pairCanon_via x ?_ ?_; (on_goal 2 => (intro _; try clear_value x)); (on_goal 1 => unfold x)) | clear_value x | skip)
    | apply sealPacket_canon | apply State.updCore_canon | apply noteMember_canon | apply enqueue_canon
    | apply stepCanon_wait | apply stepCanon_more | apply stepCanon_done | apply stepCanon_exc | assumption | split
    | apply pairCanon_mk | refine canon_of_pair (by assumption) ?_ | apply canon_snd

theorem asendStep_canon (core : Nat) (e : Sb) (s : State) (h0 : Kept s) : StepCanon (asendStep core e s) := by
  rw [asendStep]
  with_reducible repeat' first
    | ((try lift_lets); intro x; first | (refine canon_via x ?_ ?_; (on_goal 2 => (intro _; try clear_value x)); (on_goal 1 => unfold x)) | clear_value x)
    | apply asendHand_canon | refine withLook_canon _ _ _ _ _ ?_ (fun _ => ?_) | apply censusSrc_canon
    | apply popSrcs_canon | refine forAll_canon (fun _ _ _ => ?_) ?_ | apply stepCanon_wait | apply stepCanon_more
    | apply stepCanon_done | apply stepCanon_exc | assumption | split

theorem cpopStep_canon (core : Nat) (e : Sb) (s : State) (h0 : Kept s) : StepCanon (cpopStep core e s) := by
  rw [cpopStep]
  with_reducible repeat' first
    | ((try lift_lets); intro x; first | (refine canon_via x ?_ ?_; (on_goal 2 => (intro _; try clear_value x)); (on_goal 1 => unfold x)) | clear_value x)
    | refine withLook_canon _ _ _ _ _ ?_ (fun _ => ?_) | apply writeS_canon | apply State.updCore_canon
    | refine forAll_canon (fun _ _ _ => ?_) ?_ | apply stepCanon_wait | apply stepCanon_more | apply stepCanon_done
    | apply stepCanon_exc | assumption | split

theorem scalarStep_canon (core : Nat) (e : Sb) (s : State) (h0 : Kept s) : StepCanon (scalarStep core e s) := by
  rw [scalarStep]
  with_reducible repeat' first
    | ((try lift_lets); intro x; first | clear_value x | skip) | apply writeP_canon | apply writeS_canon
    | apply cpopStep_canon | apply syncIncr_canon | refine withLook_canon _ _ _ _ _ ?_ (fun _ => ?_)
    | apply State.updCore_canon | apply localWrite_canon | apply stepCanon_wait | apply stepCanon_more
    | apply stepCanon_done | apply stepCanon_exc | assumption | split

theorem microStep_canon (core : Nat) (e : Sb) (s : State) (h0 : Kept s) : StepCanon (microStep core e s) := by
  rw [microStep]
  with_reducible repeat' first
    | apply asendStep_canon | apply mergeStep_canon | apply vecStep_canon | apply scalarStep_canon
    | apply stepCanon_wait | apply stepCanon_more | apply stepCanon_done | apply stepCanon_exc | assumption | split

theorem runSteps_canon (core x2 : Nat) (x3 : Sb) (s : State) (h0 : Kept s) : StepCanon (runSteps core x2 x3 s) := by
  induction x2 generalizing core x3 s
  case zero =>
    rw [runSteps]
    with_reducible repeat' first
      | apply ih | apply microStep_canon | apply stepCanon_wait | apply stepCanon_more | apply stepCanon_done
      | apply stepCanon_exc | assumption
  case succ _ ih =>
    rw [runSteps]
    with_reducible repeat' first
      | apply ih | apply microStep_canon | apply stepCanon_wait | apply stepCanon_more | apply stepCanon_done
      | apply stepCanon_exc | assumption | split | refine canon_of_wait (by assumption) ?_
      | refine canon_of_more (by assumption) ?_

theorem judgeRegions_canon (core : Nat) (s : State) (h0 : Kept s) : Kept (judgeRegions core s) := by
  rw [judgeRegions]
  with_reducible repeat' first
    | apply curdExc_canon | assumption | split

theorem retire_canon (core ord : Nat) (s : State) (h0 : Kept s) : Kept (retire core ord s) := by
  rw [retire]
  with_reducible repeat' first
    | apply judgeRegions_canon | apply noteAct_canon | apply State.updCore_canon | assumption | split

theorem settle_canon (core ord : Nat) (x3 : StepRes) (h0 : StepCanon x3) : Kept (settle core ord x3) := by
  cases x3 with
  | wait e s => exact State.updCore_canon _ _ _ h0
  | more e s => exact State.updCore_canon _ _ _ h0
  | done s => exact retire_canon _ _ _ h0
  | exc c e s => exact curdExc_canon _ _ _ _ _ h0

theorem runEntry_canon (core ord : Nat) (s : State) (h0 : Kept s) : Kept (runEntry core ord s) := by
  rw [runEntry]
  with_reducible repeat' first
    | apply orNext_canon | apply settle_canon | apply runSteps_canon | apply stepCanon_wait | apply stepCanon_more
    | apply stepCanon_done | apply stepCanon_exc | assumption | split

theorem serveUnit_canon (core u : Nat) (s : State) (h0 : Kept s) : Kept (serveUnit core u s) := by
  rw [serveUnit]
  with_reducible repeat' first
    | apply runEntry_canon | refine forAll_canon (fun _ _ _ => ?_) ?_ | assumption | split

theorem startEntry_canon (core ord : Nat) (par : Parity) (s : State) (h0 : Kept s) :
    Kept (startEntry core ord par s) := by
  rw [startEntry]
  with_reducible repeat' first
    | ((try lift_lets); intro x; first | (refine canon_via x ?_ ?_; (on_goal 2 => (intro _; try clear_value x)); (on_goal 1 => unfold x)) | clear_value x | skip)
    | apply noteAct_canon | apply countParity_canon | apply curdExc_canon | apply retire_canon | apply serveUnit_canon
    | apply State.updCore_canon | assumption | split

theorem branchTo_canon (core pc : Nat) (s : State) (h0 : Kept s) : Kept (branchTo core pc s) := by
  rw [branchTo]
  with_reducible repeat' first
    | apply curdExc_canon | apply State.updCore_canon | assumption | split

theorem branch_canon (core op : Nat) (w : CurdWord) (s : State) (h0 : Kept s) : Kept (branch core op w s) := by
  rw [branch]
  with_reducible repeat' first
    | ((try lift_lets); intro x; clear_value x) | apply State.updCore_canon | apply branchTo_canon
    | apply writeS_canon | assumption | split

theorem issueCycle_canon (core op : Nat) (w : CurdWord) (s : State) (h0 : Kept s) :
    Kept (issueCycle core op w s) := by
  rw [issueCycle]
  with_reducible repeat' first
    | ((try lift_lets); intro x; first | (refine canon_via x ?_ ?_; (on_goal 2 => (intro _; try clear_value x)); (on_goal 1 => unfold x)) | clear_value x | skip)
    | apply orNext_canon | assumption

theorem issueWord_canon (core op : Nat) (w : CurdWord) (s : State) (h0 : Kept s) : Kept (issueWord core op w s) := by
  rw [issueWord]
  with_reducible repeat' first
    | ((try lift_lets); intro x; first | (refine canon_via x ?_ ?_; (on_goal 2 => (intro _; try clear_value x)); (on_goal 1 => unfold x)) | clear_value x | skip)
    | apply issueCycle_canon | apply noteAct_canon | apply curdExc_canon | apply branch_canon | apply startEntry_canon
    | apply judgeRegions_canon | apply State.updCore_canon | assumption | split

theorem issue_canon (core op : Nat) (w : CurdWord) (s : State) (h0 : Kept s) : Kept (issue core op w s) := by
  rw [issue]
  with_reducible repeat' first
    | apply curdExc_canon | apply State.updCore_canon | apply issueWord_canon | assumption | split

theorem sweep_canon (core : Nat) (x2 : List Nat) (s : State) (h0 : Kept s) : Kept (sweep core x2 s) := by
  induction x2 generalizing core s
  case nil =>
    rw [sweep]
    with_reducible repeat' first
      | apply ih | apply runEntry_canon | assumption
  case cons _ _ ih =>
    rw [sweep]
    with_reducible repeat' first
      | apply ih | apply runEntry_canon | assumption | split

theorem wakeSwait_canon (core : Nat) (s : State) (h0 : Kept s) : Kept (wakeSwait core s) := by
  rw [wakeSwait]
  with_reducible repeat' first
    | apply runEntry_canon | assumption | split

theorem libReply_canon (core : Nat) (b : CallBlk) (c : Call) (rank off : Nat) (last : Bool) (buf : Option Nat)
    (payload : List Byte) (s : State) (h0 : Kept s) :
    Kept (libReply core b c rank off last buf payload s) := by
  rw [libReply]
  with_reducible repeat' first
    | apply sealPacket_canon | apply enqueue_canon | assumption | apply pairCanon_mk
    | refine canon_of_pair (by assumption) ?_ | apply canon_snd

theorem sendData_canon (core : Nat) (b : CallBlk) (c : Call) (rank off : Nat) (data : List Byte) (s : State) (h0 :
    Kept s) :
    Kept (sendData core b c rank off data s) := by
  rw [sendData]
  with_reducible repeat' first
    | apply libReply_canon | refine forAll_canon (fun _ _ _ => ?_) ?_ | assumption

theorem endRecord_canon (core : Nat) (b : CallBlk) (c : Call) (rank len status n : Nat) (s : State) (h0 : Kept s) :
    Kept (endRecord core b c rank len status n s) := by
  rw [endRecord]
  with_reducible repeat' first
    | apply libReply_canon | assumption

theorem endCall_canon (core : Nat) (b : CallBlk) (c : Call) (status n : Nat) (len : Nat → Nat) (s : State) (h0 :
    Kept s) :
    Kept (endCall core b c status n len s) := by
  rw [endCall]
  with_reducible repeat' first
    | apply endRecord_canon | apply localWrite_canon | apply freeBuf_canon | apply syncIncrIf_canon
    | apply State.setServer_canon | refine forAll_canon (fun _ _ _ => ?_) ?_ | simp -zeta only [canon_mk] | assumption

theorem refuseCall_canon (core : Nat) (b : CallBlk) (c : Call) (s : State) (h0 : Kept s) :
    Kept (refuseCall core b c s) := by
  rw [refuseCall]
  with_reducible repeat' first
    | apply endCall_canon | assumption

theorem closeRecords_canon (core : Nat) (b : CallBlk) (c : Call) (s : State) (h0 : Kept s) :
    Kept (closeRecords core b c s) := by
  rw [closeRecords]
  with_reducible repeat' first
    | apply sendData_canon | apply endCall_canon | refine forAll_canon (fun _ _ _ => ?_) ?_ | assumption

theorem closeDispatch_canon (core : Nat) (b : CallBlk) (c : Call) (s : State) (h0 : Kept s) :
    Kept (closeDispatch core b c s) := by
  rw [closeDispatch]
  with_reducible repeat' first
    | apply sendData_canon | apply endCall_canon | apply State.setServer_canon
    | refine forAll_canon (fun _ _ _ => ?_) ?_ | assumption

theorem closeCombine_canon (core : Nat) (b : CallBlk) (c : Call) (s : State) (h0 : Kept s) :
    Kept (closeCombine core b c s) := by
  rw [closeCombine]
  with_reducible repeat' first
    | apply sendData_canon | apply endCall_canon | refine forAll_canon (fun _ _ _ => ?_) ?_ | assumption

theorem closeLse_canon (core : Nat) (b : CallBlk) (c : Call) (s : State) (h0 : Kept s) :
    Kept (closeLse core b c s) := by
  rw [closeLse]
  with_reducible repeat' first
    | apply sendData_canon | apply endCall_canon | refine forAll_canon (fun _ _ _ => ?_) ?_ | assumption

theorem closeAgather_canon (core : Nat) (b : CallBlk) (c : Call) (s : State) (h0 : Kept s) :
    Kept (closeAgather core b c s) := by
  rw [closeAgather]
  with_reducible repeat' first
    | apply endCall_canon | assumption

theorem putCall_canon (core : Nat) (c : Call) (s : State) (h0 : Kept s) : Kept (putCall core c s) := by
  rw [putCall]
  with_reducible repeat' first
    | ((try lift_lets); intro x; clear_value x) | apply State.setServer_canon | assumption

theorem pgWhey_canon (core : Nat) (b : CallBlk) (c : Call) (first : Bool) (s : State) (h0 : Kept s) :
    Kept (pgWhey core b c first s) := by
  rw [pgWhey]
  with_reducible repeat' first
    | refine allocMany_canon _ _ _ (fun _ _ => ?_) ?_ | apply allocWhey_canon | apply putCall_canon
    | apply wheyWait_canon | exact optPairCanon_none | apply optPairCanon_some | assumption | split
    | refine canon_of_optPair (by assumption) ?_

theorem pgReserve_canon (core : Nat) (b : CallBlk) (c : Call) (first : Bool) (s : State) (h0 : Kept s) :
    Kept (pgReserve core b c first s) := by
  rw [pgReserve]
  with_reducible repeat' first
    | ((try lift_lets); intro x; first | (refine canon_via x ?_ ?_; (on_goal 2 => (intro _; try clear_value x)); (on_goal 1 => unfold x)) | clear_value x | skip)
    | apply pgWhey_canon | refine allocMany_canon _ _ _ (fun _ _ => ?_) ?_ | apply allocAfter_canon
    | apply takeBuf_canon | apply putCall_canon | apply waitBuf_canon | exact optPairCanon_none
    | apply optPairCanon_some | simp -zeta only [canon_mk] | assumption | split
    | refine canon_of_optPair (by assumption) ?_ | refine canon_of_optPair' (by assumption) ?_

theorem pgSend_canon (core : Nat) (b : CallBlk) (c : Call) (pos : Nat) (buf : Option Nat) (data : List Byte) (s :
    State) (h0 : Kept s) :
    Kept (pgSend core b c pos buf data s) := by
  rw [pgSend]
  with_reducible repeat' first
    | apply libReply_canon | refine forAll_canon (fun _ _ _ => ?_) ?_ | assumption

theorem lateRead_canon (core : Nat) (b : CallBlk) (x : Nat × Option Nat) (s : State) (h0 : Kept s) :
    Kept (lateRead core b x s) := by
  rw [lateRead]
  with_reducible repeat' first
    | apply hbmMoved_canon | apply lostMark_canon | assumption | split

theorem libData_canon (core : Nat) (s : State) (h0 : Kept s) : Kept (libData core s) := by
  rw [libData]
  with_reducible repeat' first
    | apply curdExc_canon | assumption

theorem pgClose_canon (core : Nat) (b : CallBlk) (c : Call) (expired : Bool) (late : List (Nat × List Byte)) (s :
    State) (h0 : Kept s) :
    Kept (pgClose core b c expired late s) := by
  rw [pgClose]
  with_reducible repeat' first
    | apply pgSend_canon | apply sendData_canon | apply endCall_canon | refine forAll_canon (fun _ _ _ => ?_) ?_
    | assumption

theorem closePgather_canon (core : Nat) (b : CallBlk) (c : Call) (expired : Bool) (s : State) (h0 : Kept s) :
    Kept (closePgather core b c expired s) := by
  rw [closePgather]
  with_reducible repeat' first
    | apply pgClose_canon | apply lateRead_canon | apply hbmWake_canon | apply libData_canon | apply lostMark_canon
    | refine forAll_canon (fun _ _ _ => ?_) ?_ | assumption | split

theorem pgForward_canon (core : Nat) (b : CallBlk) (c : Call) (j : Nat) (p : Packet) (s : State) (h0 : Kept s) :
    Kept (pgForward core b c j p s) := by
  rw [pgForward]
  with_reducible repeat' first
    | apply lostIfRefused_canon | apply pgSend_canon | apply shareBuf_canon | apply fillPacket_canon | assumption
    | split

theorem pgWheyKeep_canon (core : Nat) (c : Call) (k w : Nat) (p : Packet) (s : State) (h0 : Kept s) :
    JudgedCanon (pgWheyKeep core c k w p s) := by
  rw [pgWheyKeep]
  with_reducible repeat' first
    | apply fillPacket_canon | apply countParity_canon | apply judgedCanon_took | exact judgedCanon_wake
    | exact judgedCanon_data | assumption | split

theorem pgKeep_canon (core : Nat) (b : CallBlk) (c : Call) (k : Nat) (p : Packet) (s : State) (h0 : Kept s) :
    JudgedCanon (pgKeep core b c k p s) := by
  rw [pgKeep]
  with_reducible repeat' first
    | ((try lift_lets); intro x; (refine canon_via x ?_ ?_; (on_goal 2 => (intro _; try clear_value x)); (on_goal 1 => unfold x)))
    | apply hbmWrite_canon | apply pgForward_canon | apply pgWheyKeep_canon | apply allocWhey_canon
    | apply judgedCanon_took | exact judgedCanon_wake | exact judgedCanon_data | exact optPairCanon_none
    | apply optPairCanon_some | assumption | split | refine canon_of_optPair (by assumption) ?_

theorem pgTake_canon (core : Nat) (b : CallBlk) (c : Call) (p : Packet) (r off : Nat) (s : State) (h0 : Kept s) :
    JudgedCanon (pgTake core b c p r off s) := by
  rw [pgTake]
  with_reducible repeat' first
    | ((try lift_lets); intro x; (refine canon_via x ?_ ?_; (on_goal 2 => (intro _; try clear_value x)); (on_goal 1 => unfold x)))
    | apply hbmMoved_canon | apply pgKeep_canon | apply judgedCanon_took | exact judgedCanon_wake
    | exact judgedCanon_data | assumption | split

theorem closeCall_canon (core : Nat) (b : CallBlk) (c : Call) (s : State) (h0 : Kept s) :
    Kept (closeCall core b c s) := by
  rw [closeCall]
  with_reducible repeat' first
    | apply refuseCall_canon | apply closeAgather_canon | apply closeDispatch_canon | apply closeCombine_canon
    | apply closeLse_canon | apply closePgather_canon | apply closeRecords_canon | assumption | split

theorem streamTake_canon (core : Nat) (b : CallBlk) (c : Call) (p : Packet) (r off : Nat) (s : State) (h0 : Kept s)
    :
    PairCanon (streamTake core b c p r off s) := by
  rw [streamTake]
  with_reducible repeat' first
    | apply libReply_canon | refine forAll_canon (fun _ _ _ => ?_) ?_ | assumption | split | apply pairCanon_mk

theorem judge_canon (core : Nat) (b : CallBlk) (c : Call) (p : Packet) (s : State) (h0 : Kept s) :
    JudgedCanon (judge core b c p s) := by
  rw [judge]
  with_reducible repeat' first
    | ((try lift_lets); intro x; first | (refine pairCanon_via x ?_ ?_; (on_goal 2 => (intro _; try clear_value x)); (on_goal 1 => unfold x)) | clear_value x)
    | apply pgTake_canon | apply streamTake_canon | apply judgedCanon_took | exact judgedCanon_wake
    | exact judgedCanon_data | assumption | split | apply pairCanon_mk | refine canon_of_pair (by assumption) ?_
    | refine canon_of_took (by assumption) ?_ | apply canon_snd

theorem popIntake_canon (core : Nat) (qs : List Nat) (s : State) (h0 : Kept s) :
    OptPairCanon (popIntake core qs s) := by
  rw [popIntake]
  with_reducible repeat' first
    | apply popStreams_canon | exact optPairCanon_none | apply optPairCanon_some | assumption | split

theorem afterPacket_canon (core : Nat) (b : CallBlk) (c : Call) (s : State) (h0 : Kept s) :
    Kept (afterPacket core b c s) := by
  rw [afterPacket]
  with_reducible repeat' first
    | apply closeCall_canon | apply putCall_canon | assumption | split

theorem openCall_canon (core : Nat) (b : CallBlk) (s : State) (h0 : Kept s) : Kept (openCall core b s) := by
  rw [openCall]
  with_reducible repeat' first
    | apply hbmMoved_canon | apply State.setServer_canon | apply pgReserve_canon | assumption | split

theorem takeCall_canon (core : Nat) (wanted : Nat → Bool) (s : State) (h0 : Kept s) :
    Kept (takeCall core wanted s) := by
  rw [takeCall]
  with_reducible repeat' first
    | apply libData_canon | apply lostMark_canon | apply openCall_canon | apply hbmWake_canon | assumption | split

theorem rowMoved_canon (x : RowStream) (d : RowData) (s : State) (h0 : Kept s) : Kept (rowMoved x d s) := by
  rw [rowMoved]
  with_reducible repeat' first
    | apply hbmMoved_canon | assumption | split

theorem rowWrites_canon (x : RowStream) (outs : List (Nat × Nat × Nat)) (s : State) (h0 : Kept s) :
    Kept (rowWrites x outs s) := by
  rw [rowWrites]
  with_reducible repeat' first
    | apply spaceWrite_canon | refine forAll_canon (fun _ _ _ => ?_) ?_ | assumption | apply pairCanon_mk
    | refine canon_of_pair (by assumption) ?_ | apply canon_snd

theorem runRows_canon (core : Nat) (x : RowStream) (scaled : Bool) (outs : RowData → List (Nat × Nat × Nat)) (s :
    State) (h0 : Kept s) :
    Kept (runRows core x scaled outs s) := by
  rw [runRows]
  with_reducible repeat' first
    | apply rowWrites_canon | apply rowMoved_canon | apply curdExc_canon | apply hbmWake_canon | apply libData_canon
    | apply lostMark_canon | assumption | split

theorem onCellar_canon (q : Nat) (f : State → State) (s : State) (h0 : (∀ s, Kept s → Kept (f s))) (h1 : Kept s) :
    Kept (onCellar q f s) := by
  rw [onCellar]
  with_reducible repeat' first
    | apply h0 | assumption | split

theorem giveBuf_canon (w : Waiter) (b : Nat) (s : State) (h0 : Kept s) : Kept (giveBuf w b s) := by
  rw [giveBuf]
  with_reducible repeat' first
    | ((try lift_lets); intro x; clear_value x) | apply grantStep_canon | apply freeBuf_canon
    | apply State.setCore_canon | apply resultReady_canon | apply passDown_canon | apply mgmtGive_canon
    | apply giveInbound_canon | assumption | split

theorem dropWaiter_canon (w : Waiter) (s : State) (h0 : Kept s) : Kept (dropWaiter w s) := by
  rw [dropWaiter]
  with_reducible repeat' first
    | simp -zeta only [canon_mk] | assumption

theorem serveWaiter_canon (w : Waiter) (s : State) (h0 : Kept s) : Kept (serveWaiter w s) := by
  rw [serveWaiter]
  with_reducible repeat' first
    | apply serveFrame_canon | apply dropWaiter_canon | apply pgReserve_canon | apply allocAfter_canon
    | apply giveBuf_canon | exact optCanon_none | apply optCanon_some | exact optPairCanon_none
    | apply optPairCanon_some | assumption | split | refine canon_of_optPair (by assumption) ?_
    | refine canon_of_optPair' (by assumption) ?_ | refine canon_of_opt (by assumption) ?_

theorem holdPool_canon (q p old : Nat) (s : State) (h0 : Kept s) : Kept (holdPool q p old s) := by
  rw [holdPool]
  with_reducible repeat' first
    | simp -zeta only [canon_mk] | assumption | split

theorem poolWrite_canon (req q p : Nat) (v : U64) (s : State) (h0 : Kept s) : Kept (poolWrite req q p v s) := by
  rw [poolWrite]
  with_reducible repeat' first
    | apply discardWrite_canon | apply holdPool_canon | apply plainWrite_canon | assumption | split

theorem areaWrite_canon (req q : Nat) (v : U64) (s : State) (h0 : Kept s) : Kept (areaWrite req q v s) := by
  rw [areaWrite]
  with_reducible repeat' first
    | apply plainWrite_canon | apply discardWrite_canon | assumption | split

theorem wheyWrite_canon (req q : Nat) (v : U64) (s : State) (h0 : Kept s) : Kept (wheyWrite req q v s) := by
  rw [wheyWrite]
  with_reducible repeat' first
    | ((try lift_lets); intro x; (refine canon_via x ?_ ?_; (on_goal 2 => (intro _; try clear_value x)); (on_goal 1 => unfold x)))
    | apply discardWrite_canon | apply plainWrite_canon | apply State.setFld_canon | assumption | split

theorem wheyStatWrite_canon (req q : Nat) (v : U64) (s : State) (h0 : Kept s) : Kept (wheyStatWrite req q v s) := by
  rw [wheyStatWrite]
  with_reducible repeat' first
    | apply plainWrite_canon | simp -zeta only [canon_mk] | assumption | split

theorem linkAreaWrite_canon (req q : Nat) (v : U64) (s : State) (h0 : Kept s) : Kept (linkAreaWrite req q v s) := by
  rw [linkAreaWrite]
  with_reducible repeat' first
    | apply discardWrite_canon | apply plainWrite_canon | assumption | split

theorem indStep_canon (q : Nat) (s : State) (h0 : Kept s) : Kept (indStep q s) := by
  rw [indStep]
  with_reducible repeat' first
    | apply State.setFld_canon | assumption | split

theorem indAddrWrite_canon (req q : Nat) (v : U64) (s : State) (h0 : Kept s) : Kept (indAddrWrite req q v s) := by
  rw [indAddrWrite]
  with_reducible repeat' first
    | apply plainWrite_canon | assumption

theorem indParity_canon (q o : Nat) (s : State) (h0 : Kept s) : Kept (indParity q o s) := by
  rw [indParity]
  with_reducible repeat' first
    | apply syncParity_canon | apply upsetRead_canon | apply countParity_canon | assumption | split

theorem indRead_canon (q : Nat) (s : State) (h0 : Kept s) : PairCanon (indRead q s) := by
  rw [indRead]
  with_reducible repeat' first
    | apply indParity_canon | assumption | split | apply pairCanon_mk

theorem indDataRead_canon (q : Nat) (s : State) (h0 : Kept s) : PairCanon (indDataRead q s) := by
  rw [indDataRead]
  with_reducible repeat' first
    | ((try lift_lets); intro x; first | (refine canon_via x ?_ ?_; (on_goal 2 => (intro _; try clear_value x)); (on_goal 1 => unfold x)) | (refine pairCanon_via x ?_ ?_; (on_goal 2 => (intro _; try clear_value x)); (on_goal 1 => unfold x)) | clear_value x | skip)
    | apply indStep_canon | apply indRead_canon | assumption | split | apply pairCanon_mk
    | refine canon_of_pair (by assumption) ?_ | apply canon_snd

theorem noteInd_canon (q : Nat) (s : State) (h0 : Kept s) : Kept (noteInd q s) := by
  rw [noteInd]
  with_reducible repeat' first
    | ((try lift_lets); intro x; first | (refine canon_via x ?_ ?_; (on_goal 2 => (intro _; try clear_value x)); (on_goal 1 => unfold x)) | (refine pairCanon_via x ?_ ?_; (on_goal 2 => (intro _; try clear_value x)); (on_goal 1 => unfold x)) | clear_value x | skip)
    | apply indRead_canon | simp -zeta only [canon_mk] | assumption | split | apply pairCanon_mk
    | refine canon_of_pair (by assumption) ?_ | apply canon_snd

theorem indWrite_canon (req q : Nat) (v : U64) (s : State) (h0 : Kept s) : Kept (indWrite req q v s) := by
  rw [indWrite]
  with_reducible repeat' first
    | apply discardWrite_canon | apply openWrite_canon | assumption | split

theorem indDataWrite_canon (req q : Nat) (v : U64) (s : State) (h0 : Kept s) : Kept (indDataWrite req q v s) := by
  rw [indDataWrite]
  with_reducible repeat' first
    | apply indStep_canon | apply indWrite_canon | apply noteInd_canon | assumption

theorem noteUncorr_canon (st page line : Nat) (s : State) (h0 : Kept s) : Kept (noteUncorr st page line s) := by
  rw [noteUncorr]
  with_reducible repeat' first
    | ((try lift_lets); intro x; first | (refine canon_via x ?_ ?_; (on_goal 2 => (intro _; try clear_value x)); (on_goal 1 => unfold x)) | clear_value x)
    | apply State.setFld_canon | simp -zeta only [canon_mk] | assumption | split

theorem hbmCheck_canon (st page line : Nat) (o : EccOutcome) (s : State) (h0 : Kept s) :
    Kept (hbmCheck st page line o s) := by
  unfold hbmCheck
  with_reducible repeat' first
    | ((try lift_lets); intro x; (refine canon_via x ?_ ?_; (on_goal 2 => (intro _; try clear_value x)); (on_goal 1 => unfold x)))
    | apply State.addFld_canon | apply countParity_canon | apply noteUncorr_canon | apply reportOwnOpen_canon
    | apply raiseEv_canon | assumption | split

theorem useLine_canon (u : HbmUse) (lost : Bool) (q off : Nat) (s : State) (h0 : Kept s) :
    Kept (useLine u lost q off s) := by
  unfold useLine
  dsimp only
  split
  · exact State.setRline_canon _ _ _ h0
  · exact State.setRline_canon _ _ _ h0
  · exact State.setRline_canon _ _ _ h0
  · split
    · exact lineUsed_canon _ _ _ _ (State.setRline_canon _ _ _ h0)
    · exact lineUsed_canon _ _ _ _ h0
  · exact h0

theorem dropBlock_canon (core blk : Nat) (s : State) (h0 : Kept s) : Kept (dropBlock core blk s) := by
  rw [dropBlock]
  with_reducible repeat' first
    | ((try lift_lets); intro x; clear_value x) | apply State.setServer_canon | assumption | split

theorem useFailed_canon (u : HbmUse) (s : State) (h0 : Kept s) : Kept (useFailed u s) := by
  unfold useFailed
  with_reducible repeat' first
    | apply linkDown_canon | apply transitLost_canon | apply abortKey_canon | apply setTag_canon
    | apply clearAcc_canon | apply maskRead_canon | apply dropRetained_canon | apply curdExc_canon
    | apply dropBlock_canon | apply rindTrap_canon | apply State.draw_canon | assumption | split | apply pairCanon_mk
    | refine canon_of_pair (by assumption) ?_ | apply canon_snd

theorem resetPage_canon (page : Nat) (s : State) (h0 : Kept s) : Kept (resetPage page s) := by
  exact ⟨tabOk_filter _ _ _ _ h0.1, h0.2⟩

theorem clearStack_canon (st : Nat) (s : State) (h0 : Kept s) : Kept (clearStack st s) := by
  exact ⟨h0.1, tabOk_filter _ _ _ _ h0.2⟩

theorem loseLocal_canon (u : Nat) (s : State) (h0 : Kept s) : Kept (loseLocal u s) := by
  rw [loseLocal]
  with_reducible repeat' first
    | apply clearLocal_canon | assumption | split

theorem stackToSlate_canon (st : Nat) (s : State) (h0 : Kept s) : Kept (stackToSlate st s) := by
  rw [stackToSlate]
  with_reducible repeat' first
    | apply State.setPu_canon | refine forAll_canon (fun _ _ _ => ?_) ?_ | assumption

theorem darkLoses_canon (u : Nat) (s : State) (h0 : Kept s) : Kept (darkLoses u s) := by
  rw [darkLoses]
  with_reducible repeat' first
    | ((try lift_lets); intro x; first | (refine canon_via x ?_ ?_; (on_goal 2 => (intro _; try clear_value x)); (on_goal 1 => unfold x)) | clear_value x | skip)
    | apply loseLocal_canon | apply resetPage_canon | apply State.setCore_canon | apply State.setVat_canon
    | apply clearStack_canon | apply dropCoreLines_canon | apply State.setRind_canon
    | refine forAll_canon (fun _ _ _ => ?_) ?_ | simp -zeta only [canon_mk] | assumption | split

theorem enterDark_canon (u : Nat) (s : State) (h0 : Kept s) : Kept (enterDark u s) := by
  rw [enterDark]
  with_reducible repeat' first
    | apply darkLoses_canon | apply State.setPu_canon | assumption

theorem darken_canon (s : State) (h0 : Kept s) : Kept (darken s) := by
  rw [darken]
  with_reducible repeat' first
    | apply enterDark_canon | refine forAll_canon (fun _ _ _ => ?_) ?_ | assumption | split

theorem refuseDark_canon (s : State) (h0 : Kept s) : Kept (refuseDark s) := by
  rw [refuseDark]
  with_reducible repeat' first
    | apply State.addFld_canon | assumption

theorem slateFirst_canon (u : Nat) (s : State) (h0 : Kept s) : Kept (slateFirst u s) := by
  rw [slateFirst]
  with_reducible repeat' first
    | ((try lift_lets); intro x; clear_value x) | apply State.setPu_canon | apply stackToSlate_canon
    | apply loseLocal_canon | simp -zeta only [canon_mk] | assumption | split

theorem darkSet_canon (u : Nat) (s : State) (h0 : Kept s) : Kept (darkSet u s) := by
  rw [darkSet]
  with_reducible repeat' first
    | apply refuseDark_canon | apply State.setFld_canon | apply State.setPu_canon | apply slateFirst_canon
    | assumption | split

theorem darkClear_canon (u : Nat) (s : State) (h0 : Kept s) : Kept (darkClear u s) := by
  rw [darkClear]
  with_reducible repeat' first
    | apply State.setFld_canon | apply State.setPu_canon | assumption | split

theorem darkBit_canon (u : Nat) (one : Bool) (s : State) (h0 : Kept s) : Kept (darkBit u one s) := by
  rw [darkBit]
  with_reducible repeat' first
    | apply darkSet_canon | apply darkClear_canon | assumption | split

theorem darkRow_canon (req off : Nat) (f : State → State) (s : State) (h0 : (∀ s, Kept s → Kept (f s))) (h1 : Kept
    s) :
    Kept (darkRow req off f s) := by
  rw [darkRow]
  with_reducible repeat' first
    | apply h0 | apply noteWrite_canon | apply noteReg_canon | assumption | split

theorem darkWrite_canon (req off : Nat) (v : U64) (s : State) (h0 : Kept s) : Kept (darkWrite req off v s) := by
  rw [darkWrite]
  with_reducible repeat' first
    | apply errAt_canon | refine darkRow_canon _ _ _ _ (fun _ _ => ?_) ?_ | apply darkBit_canon
    | refine forAll_canon (fun _ _ _ => ?_) ?_ | assumption | split

theorem tempCheck_canon (s : State) (h0 : Kept s) : Kept (tempCheck s) := by
  rw [tempCheck]
  with_reducible repeat' first
    | apply raiseEv_canon | assumption | split

theorem pwrCtrlWrite_canon (req : Nat) (v : U64) (s : State) (h0 : Kept s) : Kept (pwrCtrlWrite req v s) := by
  rw [pwrCtrlWrite]
  with_reducible repeat' first
    | apply tempCheck_canon | apply plainWrite_canon | assumption

theorem pmbEnd_canon (ok : Bool) (s : State) (h0 : Kept s) : Kept (pmbEnd ok s) := by
  rw [pmbEnd]
  with_reducible repeat' first
    | ((try lift_lets); intro x; first | (refine canon_via x ?_ ?_; (on_goal 2 => (intro _; try clear_value x)); (on_goal 1 => unfold x)) | clear_value x)
    | apply State.setFld_canon | apply raiseEv_canon | simp -zeta only [canon_mk] | assumption | split

theorem pmbGo_canon (s : State) (h0 : Kept s) : Kept (pmbGo s) := by
  rw [pmbGo]
  with_reducible repeat' first
    | ((try lift_lets); intro x; first | (refine canon_via x ?_ ?_; (on_goal 2 => (intro _; try clear_value x)); (on_goal 1 => unfold x)) | clear_value x)
    | apply pmbEnd_canon | apply State.emit_canon | apply State.setFld_canon | simp -zeta only [canon_mk] | assumption
    | split

theorem pmbWrite_canon (req : Nat) (v : U64) (s : State) (h0 : Kept s) : Kept (pmbWrite req v s) := by
  rw [pmbWrite]
  with_reducible repeat' first
    | ((try lift_lets); intro x; first | (refine canon_via x ?_ ?_; (on_goal 2 => (intro _; try clear_value x)); (on_goal 1 => unfold x)) | clear_value x | skip)
    | apply woTurn_canon | apply plainWrite_canon | apply discardWrite_canon | apply pmbGo_canon | assumption | split

theorem abortItem_canon (core : Nat) (i : Item) (s : State) (h0 : Kept s) : Kept (abortItem core i s) := by
  rw [abortItem]
  with_reducible repeat' first
    | apply State.updCore_canon | apply dropItem_canon | apply crgWrite_canon | assumption

theorem disableCore_canon (core : Nat) (s : State) (h0 : Kept s) : Kept (disableCore core s) := by
  rw [disableCore]
  with_reducible repeat' first
    | apply stopCore_canon | apply abortItem_canon | refine forAll_canon (fun _ _ _ => ?_) ?_ | assumption

theorem forceDisable_canon (x : Loc) (s : State) (h0 : Kept s) : Kept (forceDisable x s) := by
  rw [forceDisable]
  with_reducible repeat' first
    | apply linkDown_canon | apply abortKey_canon | apply disableCore_canon | apply discardStarts_canon
    | refine forAll_canon (fun _ _ _ => ?_) ?_ | assumption | split

theorem enterDraining_canon (x : Loc) (s : State) (h0 : Kept s) : Kept (enterDraining x s) := by
  rw [enterDraining]
  with_reducible repeat' first
    | apply drainedDown_canon | apply discardStarts_canon | assumption | split

theorem returnToService_canon (x : Loc) (s : State) (h0 : Kept s) : Kept (returnToService x s) := by
  rw [returnToService]
  with_reducible repeat' first
    | apply startBringup_canon | assumption | split

theorem resetState_canon (x : Loc) (s : State) (h0 : Kept s) : Kept (resetState x s) := by
  rw [resetState]
  with_reducible repeat' first
    | apply State.setPort_canon | apply teleReset_canon | apply State.setCore_canon | apply State.setVat_canon
    | refine forAll_canon (fun _ _ _ => ?_) ?_ | assumption | split

theorem blockReset_canon (x : Loc) (s : State) (h0 : Kept s) : Kept (blockReset x s) := by
  rw [blockReset]
  with_reducible repeat' first
    | apply resetPage_canon | apply resetState_canon | assumption

theorem ctrlEffect_canon (x : Loc) (en dr : Bool) (s : State) (h0 : Kept s) : Kept (ctrlEffect x en dr s) := by
  rw [ctrlEffect]
  with_reducible repeat' first
    | apply forceDisable_canon | apply enterDraining_canon | apply returnToService_canon | assumption | split

theorem blkCtrlWrite_canon (req : Nat) (x : Loc) (v : U64) (s : State) (h0 : Kept s) :
    Kept (blkCtrlWrite req x v s) := by
  rw [blkCtrlWrite]
  with_reducible repeat' first
    | apply orNext_canon | apply plainWrite_canon | apply ctrlEffect_canon | apply blockReset_canon
    | apply errAt_canon | assumption | split

theorem setRegBytes_canon (off n : Nat) (bs : List Byte) (s : State) (h0 : Kept s) :
    Kept (setRegBytes off n bs s) := by
  rw [setRegBytes]
  with_reducible repeat' first
    | apply State.wr_canon | refine forAll_canon (fun _ _ _ => ?_) ?_ | assumption

theorem setMeas_canon (m : Nat) (bs : List Byte) (s : State) (h0 : Kept s) : Kept (setMeas m bs s) := by
  rw [setMeas]
  with_reducible repeat' first
    | apply setRegBytes_canon | assumption

theorem extendMeas_canon (m : Nat) (d : List Byte) (s : State) (h0 : Kept s) : Kept (extendMeas m d s) := by
  rw [extendMeas]
  with_reducible repeat' first
    | apply setMeas_canon | assumption

theorem drawNonce_canon (s : State) (h0 : Kept s) : Kept (drawNonce s) := by
  rw [drawNonce]
  with_reducible repeat' first
    | ((try lift_lets); intro x; clear_value x) | apply State.wr_canon | refine forAll_canon (fun _ _ _ => ?_) ?_
    | simp -zeta only [canon_mk] | assumption

theorem tryImage_canon (img : List Byte) (bodyOk copyOk : Bool) (s : State) (h0 : Kept s) :
    PairCanon (tryImage img bodyOk copyOk s) := by
  rw [tryImage]
  with_reducible repeat' first
    | ((try lift_lets); intro x; first | (refine canon_via x ?_ ?_; (on_goal 2 => (intro _; try clear_value x)); (on_goal 1 => unfold x)) | clear_value x)
    | apply hbmWrite_canon | assumption | split | apply pairCanon_mk

theorem bootMeasure_canon (h' : List Byte) (s : State) (h0 : Kept s) : Kept (bootMeasure h' s) := by
  rw [bootMeasure]
  with_reducible repeat' first
    | apply extendMeas_canon | assumption

theorem finishBoot_canon (src : Nat) (h' : List Byte) (s : State) (h0 : Kept s) : Kept (finishBoot src h' s) := by
  rw [finishBoot]
  with_reducible repeat' first
    | ((try lift_lets); intro x; clear_value x) | apply State.setFld_canon | apply bootMeasure_canon
    | apply rindStart_canon | simp -zeta only [canon_mk] | assumption

theorem driveFault_canon (s : State) (h0 : Kept s) : Kept (driveFault s) := by
  rw [driveFault]
  with_reducible repeat' first
    | ((try lift_lets); intro x; clear_value x) | simp -zeta only [canon_mk] | assumption

theorem enterRecovery_canon (s : State) (h0 : Kept s) : Kept (enterRecovery s) := by
  rw [enterRecovery]
  with_reducible repeat' first
    | apply driveFault_canon | apply State.setFld_canon | assumption

theorem haltBoot_canon (code : Nat) (s : State) (h0 : Kept s) : Kept (haltBoot code s) := by
  rw [haltBoot]
  with_reducible repeat' first
    | ((try lift_lets); intro x; clear_value x) | apply enterRecovery_canon | apply State.setFld_canon
    | simp -zeta only [canon_mk] | assumption

theorem trySlot_canon (base : Nat) (readOk bodyOk copyOk : Bool) (s : State) (h0 : Kept s) :
    PairCanon (trySlot base readOk bodyOk copyOk s) := by
  rw [trySlot]
  with_reducible repeat' first
    | apply tryImage_canon | assumption | split | apply pairCanon_mk

theorem runSlots_canon (env : BootEnv) (s : State) (h0 : Kept s) : Kept (runSlots env s) := by
  rw [runSlots]
  with_reducible repeat' first
    | ((try lift_lets); intro x; first | (refine canon_via x ?_ ?_; (on_goal 2 => (intro _; try clear_value x)); (on_goal 1 => unfold x)) | (refine pairCanon_via x ?_ ?_; (on_goal 2 => (intro _; try clear_value x)); (on_goal 1 => unfold x)))
    | apply trySlot_canon | apply State.setFld_canon | apply finishBoot_canon | apply enterRecovery_canon | assumption
    | split | apply pairCanon_mk | refine canon_of_pair (by assumption) ?_ | apply canon_snd

theorem alignClocks_canon (failures : Nat) (s : State) (h0 : Kept s) : Kept (alignClocks failures s) := by
  rw [alignClocks]
  with_reducible repeat' first
    | apply State.setFld_canon | apply reportOwnOpen_canon | assumption | split

theorem trainStack_canon (env : BootEnv) (st : Nat) (s : State) (h0 : Kept s) : Kept (trainStack env st s) := by
  rw [trainStack]
  with_reducible repeat' first
    | ((try lift_lets); intro x; (refine canon_via x ?_ ?_; (on_goal 2 => (intro _; try clear_value x)); (on_goal 1 => unfold x)))
    | apply State.setPu_canon | apply State.setFld_canon | apply stackToSlate_canon | assumption | split

theorem powerOn_canon (env : BootEnv) (s : State) (h0 : Kept s) : Kept (powerOn env s) := by
  rw [powerOn]
  with_reducible repeat' first
    | ((try lift_lets); intro x; (refine canon_via x ?_ ?_; (on_goal 2 => (intro _; try clear_value x)); (on_goal 1 => unfold x)))
    | apply haltBoot_canon | apply trainStack_canon | apply alignClocks_canon
    | refine forAll_canon (fun _ _ _ => ?_) ?_ | assumption | split

theorem fuseCut_canon (s : State) (h0 : Kept s) : Kept (fuseCut s) := by
  unfold fuseCut
  have h1 : Kept s.draw.2 := State.draw_canon _ h0
  split
  · extract_lets d
    split
    · exact kept_fuses (s := s.draw.2) rfl h1
    · split
      · exact kept_fuses (s := s.draw.2) rfl h1
      · split
        · exact h1
        · exact h0
  · exact h0

theorem resetModule_canon (por : Bool) (s : State) (h0 : Kept s) : Kept (resetModule por s) := by
  unfold resetModule
  extract_lets s' a b c d s1 s2
  have hs : Kept s' := by
    show Kept (if por then fuseCut s else s)
    split
    · exact fuseCut_canon _ h0
    · exact h0
  clear_value s'
  have h1 : Kept s1 := by
    refine ⟨?_, tabOk_filter _ _ _ _ hs.2⟩
    show tabOk (regReset s'.fuses) none (if por then [] else s'.regs.filter _) = true
    split
    · rfl
    · exact tabOk_filter _ _ _ _ hs.1
  have h2 : Kept s2 := forAll_canon (fun _ _ h => touchUnit_canon _ _ h) h1
  clear_value s2
  split
  · exact h2
  · refine forAll_canon (fun _ _ h => ?_) h2
    split
    · exact stackToSlate_canon _ _ h
    · exact h

theorem coldBoot_canon (env : BootEnv) (s : State) (h0 : Kept s) : Kept (coldBoot env s) := by
  rw [coldBoot]
  with_reducible repeat' first
    | apply powerOn_canon | apply drawNonce_canon | apply resetModule_canon | apply runSlots_canon | assumption
    | split

theorem refuseRnt_canon (s : State) (h0 : Kept s) : Kept (refuseRnt s) := by
  rw [refuseRnt]
  with_reducible repeat' first
    | apply State.addFld_canon | assumption

theorem rntMoved_canon (v : U64) (s : State) (h0 : Kept s) : Kept (rntMoved v s) := by
  rw [rntMoved]
  with_reducible repeat' first
    | apply hbmMoved_canon | apply hbmWake_canon | assumption | split

theorem checkPages_canon (v : U64) (s : State) (h0 : Kept s) : Kept (checkPages v s) := by
  rw [checkPages]
  with_reducible repeat' first
    | apply refuseHandle_canon | assumption | split

theorem rntStart_canon (v : U64) (s : State) (h0 : Kept s) : Kept (rntStart v s) := by
  rw [rntStart]
  with_reducible repeat' first
    | ((try lift_lets); intro x; first | (refine canon_via x ?_ ?_; (on_goal 2 => (intro _; try clear_value x)); (on_goal 1 => unfold x)) | clear_value x | skip)
    | apply refuseRnt_canon | apply rntMoved_canon | apply checkPages_canon | apply State.setFld_canon
    | simp -zeta only [canon_mk] | assumption | split

theorem rntCmdWrite_canon (req : Nat) (v : U64) (s : State) (h0 : Kept s) : Kept (rntCmdWrite req v s) := by
  rw [rntCmdWrite]
  with_reducible repeat' first
    | ((try lift_lets); intro x; first | (refine canon_via x ?_ ?_; (on_goal 2 => (intro _; try clear_value x)); (on_goal 1 => unfold x)) | clear_value x | skip)
    | apply woTurn_canon | apply plainWrite_canon | apply refuseRnt_canon | apply rntStart_canon | assumption | split

theorem recDataWrite_canon (req : Nat) (v : U64) (s : State) (h0 : Kept s) : Kept (recDataWrite req v s) := by
  rw [recDataWrite]
  with_reducible repeat' first
    | ((try lift_lets); intro x; clear_value x) | apply errAt_canon | apply noteWrite_canon | apply State.setFld_canon
    | apply hbmPut_canon | apply discardWrite_canon | assumption | split

theorem randomBytes_canon (n : Nat) (s : State) (h0 : Kept s) : PairCanon (randomBytes n s) := by
  rw [randomBytes]
  with_reducible repeat' first
    | ((try lift_lets); intro x; clear_value x) | simp -zeta only [canon_mk] | assumption | apply pairCanon_mk

theorem dualSign_canon (uds key m : List Byte) (s : State) (h0 : Kept s) : PairCanon (dualSign uds key m s) := by
  rw [dualSign]
  with_reducible repeat' first
    | apply randomBytes_canon | assumption | apply pairCanon_mk | refine canon_of_pair (by assumption) ?_
    | apply canon_snd

theorem setAttResult_canon (code : Nat) (s : State) (h0 : Kept s) : Kept (setAttResult code s) := by
  rw [setAttResult]
  with_reducible repeat' first
    | ((try lift_lets); intro x; clear_value x) | simp -zeta only [canon_mk] | assumption

theorem attestDone_canon (c : RCmd) (s : State) (h0 : Kept s) : Kept (attestDone c s) := by
  rw [attestDone]
  with_reducible repeat' first
    | ((try lift_lets); intro x; (refine pairCanon_via x ?_ ?_; (on_goal 2 => (intro _; try clear_value x)); (on_goal 1 => unfold x)))
    | apply dualSign_canon | apply raiseEv_canon | apply hbmWrite_canon | apply setAttResult_canon | assumption
    | split | apply pairCanon_mk | refine canon_of_pair (by assumption) ?_ | apply canon_snd

theorem unlockDone_canon (c : RCmd) (s : State) (h0 : Kept s) : Kept (unlockDone c s) := by
  rw [unlockDone]
  with_reducible repeat' first
    | apply drawNonce_canon | apply State.setFld_canon | apply extendMeas_canon | apply State.addFld_canon
    | apply raiseEv_canon | assumption | split

theorem recoverDone_canon (c : RCmd) (copyOk : Bool) (s : State) (h0 : Kept s) : Kept (recoverDone c copyOk s) := by
  rw [recoverDone]
  with_reducible repeat' first
    | apply tryImage_canon | apply State.setFld_canon | apply finishBoot_canon | assumption | split
    | apply pairCanon_mk | refine canon_of_pair (by assumption) ?_ | apply canon_snd

theorem rntEffect_canon (c : RCmd) (copyOk : Bool) (s : State) (h0 : Kept s) : Kept (rntEffect c copyOk s) := by
  unfold rntEffect
  split
  · exact setMeas_canon _ _ _ h0
  · exact attestDone_canon _ _ h0
  · exact unlockDone_canon _ _ h0
  · exact kept_fuses rfl h0
  · exact kept_fuses rfl h0
  · exact recoverDone_canon _ _ _ h0

theorem clearPage_canon (page : Nat) (s : State) (h0 : Kept s) : Kept (clearPage page s) := by
  exact ⟨tabOk_filter _ _ _ _ h0.1, h0.2⟩

theorem xspiGo_canon (op len : Nat) (s : State) (h0 : Kept s) : Kept (xspiGo op len s) := by
  rw [xspiGo]
  with_reducible repeat' first
    | ((try lift_lets); intro x; first | (refine canon_via x ?_ ?_; (on_goal 2 => (intro _; try clear_value x)); (on_goal 1 => unfold x)) | clear_value x)
    | apply State.setFld_canon | apply refuseCmd_canon | simp -zeta only [canon_mk] | assumption | split

theorem xspiCmdWrite_canon (req : Nat) (v : U64) (s : State) (h0 : Kept s) : Kept (xspiCmdWrite req v s) := by
  rw [xspiCmdWrite]
  with_reducible repeat' first
    | apply xspiGo_canon | apply plainWrite_canon | apply woTurn_canon | assumption

theorem xspiLoad_canon (addr j : Nat) (s : State) (h0 : Kept s) : Kept (xspiLoad addr j s) := by
  rw [xspiLoad]
  with_reducible repeat' first
    | apply State.draw_canon | apply State.wr_canon | assumption | split | apply pairCanon_mk
    | refine canon_of_pair (by assumption) ?_ | apply canon_snd

theorem xspiEffect_canon (c : XCmd) (s : State) (h0 : Kept s) : Kept (xspiEffect c s) := by
  rw [xspiEffect]
  with_reducible repeat' first
    | apply xspiLoad_canon | apply wrBytes_canon | refine forAll_canon (fun _ _ _ => ?_) ?_ | assumption | split

theorem onTwin_canon (f : State → State) (s : State) (h0 : (∀ s, Kept s → Kept (f s))) (h1 : Kept s) :
    Kept (onTwin f s) := by
  rw [onTwin]
  with_reducible repeat' first
    | apply h0 | assumption | split

theorem setTwin_canon (f : Twin → Twin) (s : State) (h0 : Kept s) : Kept (setTwin f s) := by
  rw [setTwin]
  with_reducible repeat' first
    | simp -zeta only [canon_mk] | assumption

theorem setTwState_canon (x : Nat) (s : State) (h0 : Kept s) : Kept (setTwState x s) := by
  rw [setTwState]
  with_reducible repeat' first
    | apply State.setFld_canon | assumption

theorem releaseKey_canon (k : Key) (s : State) (h0 : Kept s) : Kept (releaseKey k s) := by
  rw [releaseKey]
  with_reducible repeat' first
    | apply releaseUnverified_canon | assumption | split

theorem releaseHeld_canon (s : State) (h0 : Kept s) : Kept (releaseHeld s) := by
  rw [releaseHeld]
  with_reducible repeat' first
    | apply releaseKey_canon | refine forAll_canon (fun _ _ _ => ?_) ?_ | assumption

theorem leavePaired_canon (next_ : Nat) (s : State) (h0 : Kept s) : Kept (leavePaired next_ s) := by
  rw [leavePaired]
  with_reducible repeat' first
    | apply setTwin_canon | apply setTwState_canon | apply releaseHeld_canon | assumption | split

theorem enterPaired_canon (s : State) (h0 : Kept s) : Kept (enterPaired s) := by
  rw [enterPaired]
  with_reducible repeat' first
    | apply setTwin_canon | apply setTwState_canon | assumption

theorem takeGroup_canon (g : Nat) (s : State) (h0 : Kept s) : Kept (takeGroup g s) := by
  rw [takeGroup]
  with_reducible repeat' first
    | apply State.setFld_canon | apply State.updGrp_canon | apply accRestart_canon | assumption | split

theorem sweepGroup_canon (g : Nat) (s : State) (h0 : Kept s) : Kept (sweepGroup g s) := by
  rw [sweepGroup]
  with_reducible repeat' first
    | ((try lift_lets); intro x; clear_value x) | apply statusDown_canon | assumption | split

theorem takeOver_canon (s : State) (h0 : Kept s) : Kept (takeOver s) := by
  rw [takeOver]
  with_reducible repeat' first
    | apply setTwin_canon | apply takeGroup_canon | apply sweepGroup_canon | apply setTwState_canon
    | apply State.addFld_canon | refine forAll_canon (fun _ _ _ => ?_) ?_ | assumption

theorem unpair_canon (s : State) (h0 : Kept s) : Kept (unpair s) := by
  rw [unpair]
  with_reducible repeat' first
    | apply setTwin_canon | apply leavePaired_canon | assumption

theorem twnCfgWrite_canon (req : Nat) (v : U64) (s : State) (h0 : Kept s) : Kept (twnCfgWrite req v s) := by
  rw [twnCfgWrite]
  with_reducible repeat' first
    | ((try lift_lets); intro x; first | (refine canon_via x ?_ ?_; (on_goal 2 => (intro _; try clear_value x)); (on_goal 1 => unfold x)) | clear_value x)
    | refine onTwin_canon _ _ (fun _ _ => ?_) ?_ | apply plainWrite_canon | apply unpair_canon | apply setTwin_canon
    | apply takeOver_canon | assumption | split

theorem gmodeWrite_canon (req k : Nat) (v : U64) (s : State) (h0 : Kept s) : Kept (gmodeWrite req k v s) := by
  rw [gmodeWrite]
  with_reducible repeat' first
    | refine onTwin_canon _ _ (fun _ _ => ?_) ?_ | apply plainWrite_canon | apply discardWrite_canon | assumption
    | split

theorem twnCmd_canon (cmd : Nat) (s : State) (h0 : Kept s) : Kept (twnCmd cmd s) := by
  rw [twnCmd]
  with_reducible repeat' first
    | apply takeOver_canon | apply refuseCmd_canon | apply leavePaired_canon | apply enterPaired_canon | assumption
    | split

theorem twnCmdWrite_canon (req : Nat) (v : U64) (s : State) (h0 : Kept s) : Kept (twnCmdWrite req v s) := by
  rw [twnCmdWrite]
  with_reducible repeat' first
    | refine onTwin_canon _ _ (fun _ _ => ?_) ?_ | apply twnCmd_canon | apply plainWrite_canon | apply woTurn_canon
    | assumption

theorem digestEntry.keep_canon (k : Key) (d : Nat) (s : State) (h0 : Kept s) : Kept (digestEntry.keep k d s) := by
  rw [digestEntry.keep]
  with_reducible repeat' first
    | ((try lift_lets); intro x; (refine canon_via x ?_ ?_; (on_goal 2 => (intro _; try clear_value x)); (on_goal 1 => unfold x)))
    | apply setTwin_canon | apply reportOwnOpen_canon | apply raiseEv_canon | apply State.addFld_canon | assumption
    | split

theorem digestEntry_canon (k : Key) (d : Nat) (s : State) (h0 : Kept s) : PairCanon (digestEntry k d s) := by
  rw [digestEntry]
  with_reducible repeat' first
    | split | apply twinCompare_canon | apply digestEntry.keep_canon | assumption | apply pairCanon_mk

theorem abortEntry_canon (k : Key) (s : State) (h0 : Kept s) : Kept (abortEntry k s) := by
  rw [abortEntry]
  with_reducible repeat' first
    | apply releaseUnverified_canon | apply setTwin_canon | assumption | split

theorem cfgEntry_canon (addr : Nat) (v : U64) (s : State) (h0 : Kept s) : Kept (cfgEntry addr v s) := by
  rw [cfgEntry]
  with_reducible repeat' first
    | apply grpWrite_canon | apply maskWrite_canon | assumption | split

theorem applyEntry_canon (e : TwinEntry) (s : State) (h0 : Kept s) : PairCanon (applyEntry e s) := by
  rw [applyEntry]
  with_reducible repeat' first
    | split | apply digestEntry_canon | apply abortEntry_canon | apply cfgEntry_canon | apply State.setFld_canon
    | apply setTwin_canon | apply clogWrite_canon
    | ((try lift_lets); intro x; first | (refine canon_via x ?_ ?_; (on_goal 2 => (intro _; try clear_value x)); (on_goal 1 => unfold x)) | clear_value x)
    | assumption | apply pairCanon_mk

theorem drainTwin_canon (x1 : Nat) (s : State) (h0 : Kept s) : Kept (drainTwin x1 s) := by
  induction x1 generalizing s
  case zero =>
    rw [drainTwin]
    with_reducible repeat' first
      | apply ih | apply applyEntry_canon | apply setTwin_canon | assumption
  case succ _ ih =>
    rw [drainTwin]
    with_reducible repeat' first
      | apply ih | apply applyEntry_canon | apply setTwin_canon | assumption | split | apply pairCanon_mk
      | refine canon_of_pair (by assumption) ?_

theorem drainAll_canon (s : State) (h0 : Kept s) : Kept (drainAll s) := by
  rw [drainAll]
  with_reducible repeat' first
    | apply drainTwin_canon | assumption

theorem takeEntry_canon (e : TwinEntry) (s : State) (h0 : Kept s) : Kept (takeEntry e s) := by
  rw [takeEntry]
  with_reducible repeat' first
    | apply setTwin_canon | assumption | split

theorem heartTake_canon (p : Packet) (s : State) (h0 : Kept s) : Kept (heartTake p s) := by
  rw [heartTake]
  with_reducible repeat' first
    | apply setTwin_canon | apply State.setFld_canon | apply enterPaired_canon | assumption | split

theorem twinTake_canon (port : Nat) (p : Packet) (s : State) (h0 : Kept s) : Kept (twinTake port p s) := by
  rw [twinTake]
  with_reducible repeat' first
    | ((try lift_lets); intro x; (refine canon_via x ?_ ?_; (on_goal 2 => (intro _; try clear_value x)); (on_goal 1 => unfold x)))
    | apply protoErr_canon | apply setTwin_canon | apply heartTake_canon | apply drainAll_canon
    | apply takeEntry_canon | refine forAll_canon (fun _ _ _ => ?_) ?_ | assumption | split

theorem twinPacket_canon (kinds : Nat → Bool) (port : Nat) (p : Packet) (s : State) (h0 : Kept s) :
    Kept (twinPacket kinds port p s) := by
  rw [twinPacket]
  with_reducible repeat' first
    | apply takeInbox_canon | apply consumed_canon | apply e2eFail_canon | apply twinTake_canon | assumption | split
    | apply pairCanon_mk | refine canon_of_pair (by assumption) ?_

theorem resendEntry_canon (e : TwinEntry) (s : State) (h0 : Kept s) : Kept (resendEntry e s) := by
  rw [resendEntry]
  with_reducible repeat' first
    | apply setTwin_canon | apply originate_canon | assumption

theorem hbmStat_canon (s : State) (st : Nat) (h0 : Kept s) : PairCanon (hbmStat s st) := by
  rw [hbmStat]
  with_reducible repeat' first
    | apply State.draw_canon | assumption | apply pairCanon_mk | refine canon_of_pair (by assumption) ?_
    | apply canon_snd

theorem beforeWrite_canon (x : Loc) (s : State) (h0 : Kept s) : Kept (beforeWrite x s) := by
  rw [beforeWrite]
  with_reducible repeat' first
    | apply State.wr_canon | assumption

theorem busRead_canon (addr : Nat) (s : State) (h0 : Kept s) : PairCanon (busRead addr s) := by
  rw [busRead]
  with_reducible repeat' first
    | apply errAt_canon | apply indDataRead_canon | apply hbmStat_canon | apply beforeWrite_canon | assumption | split
    | apply pairCanon_mk

theorem plain_canon (req : Nat) (x : Loc) (v : U64) (s : State) (h0 : Kept s) : Kept (plain req x v s) := by
  rw [plain]
  with_reducible repeat' first
    | apply plainWrite_canon | assumption

theorem commonWrite_canon (req : Nat) (x : Loc) (v : U64) (s : State) (h0 : Kept s) :
    Kept (commonWrite req x v s) := by
  rw [commonWrite]
  with_reducible repeat' first
    | apply blkCtrlWrite_canon | apply evTestWrite_canon | apply errCntWrite_canon | apply plain_canon | assumption
    | split

theorem windowWrite_canon (req : Nat) (x : Loc) (v : U64) (s : State) (h0 : Kept s) :
    Kept (windowWrite req x v s) := by
  rw [windowWrite]
  with_reducible repeat' first
    | ((try lift_lets); intro x; clear_value x) | apply grpWrite_canon | apply maskWrite_canon
    | apply meterWrite_canon | apply plain_canon | apply noteReg_canon | apply noteWrite_canon | apply syncMend_canon
    | apply syncWrite_canon | assumption | split

theorem laneRegWrite_canon (req : Nat) (x : Loc) (v : U64) (s : State) (h0 : Kept s) :
    Kept (laneRegWrite req x v s) := by
  rw [laneRegWrite]
  with_reducible repeat' first
    | apply errAt_canon | apply plain_canon | apply prtCfgWrite_canon | apply gateCfgWrite_canon
    | apply gateDataWrite_canon | apply schedWrite_canon | refine laneWrite_canon _ _ _ _ (fun _ _ _ => ?_) ?_
    | apply fillHeadroom_canon | apply pfcCheckAll_canon | apply shapeWrite_canon | apply teleWrite_canon
    | apply unparkCheck_canon | assumption | split

theorem vatRegWrite_canon (req : Nat) (x : Loc) (v : U64) (s : State) (h0 : Kept s) :
    Kept (vatRegWrite req x v s) := by
  rw [vatRegWrite]
  with_reducible repeat' first
    | apply vatCfgWrite_canon | apply vatPstoreWrite_canon | apply vatStartWrite_canon | apply vatCtrlWrite_canon
    | apply plain_canon | assumption | split

theorem cellarRegWrite_canon (req : Nat) (x : Loc) (v : U64) (s : State) (h0 : Kept s) :
    Kept (cellarRegWrite req x v s) := by
  rw [cellarRegWrite]
  with_reducible repeat' first
    | apply areaWrite_canon | apply indAddrWrite_canon | apply indDataWrite_canon | apply wheyWrite_canon
    | apply wheyStatWrite_canon | apply linkAreaWrite_canon | apply poolWrite_canon | apply plain_canon | assumption
    | split

theorem rindRegWrite_canon (req : Nat) (x : Loc) (v : U64) (s : State) (h0 : Kept s) :
    Kept (rindRegWrite req x v s) := by
  rw [rindRegWrite]
  with_reducible repeat' first
    | apply evcCtrlWrite_canon | apply evcDoneWrite_canon | apply evcSsetWrite_canon | apply evcSclrWrite_canon
    | apply evcCoreWrite_canon | apply plain_canon | assumption | split

theorem chipRegWrite_canon (req : Nat) (x : Loc) (v : U64) (s : State) (h0 : Kept s) :
    Kept (chipRegWrite req x v s) := by
  rw [chipRegWrite]
  with_reducible repeat' first
    | apply pwrCtrlWrite_canon | apply darkWrite_canon | apply pmbWrite_canon | apply rntCmdWrite_canon
    | apply recDataWrite_canon | apply tallyTail_canon | apply tlyTestWrite_canon | apply tallySnapWrite_canon
    | apply twnCfgWrite_canon | apply twnCmdWrite_canon | apply gmodeWrite_canon | apply plain_canon
    | apply grpCtlWrite_canon | apply xspiCmdWrite_canon | assumption | split

theorem regWrite_canon (req : Nat) (x : Loc) (v : U64) (s : State) (h0 : Kept s) : Kept (regWrite req x v s) := by
  rw [regWrite]
  with_reducible repeat' first
    | apply windowWrite_canon | apply commonWrite_canon | apply plain_canon | apply discardWrite_canon
    | apply laneRegWrite_canon | apply vatRegWrite_canon | apply cellarRegWrite_canon | apply rindRegWrite_canon
    | apply chipRegWrite_canon | assumption | split

theorem busWrite_canon (req addr : Nat) (v : U64) (s : State) (h0 : Kept s) : Kept (busWrite req addr v s) := by
  rw [busWrite]
  with_reducible repeat' first
    | apply errAt_canon | apply regWrite_canon | assumption | split

theorem mgmtApply_canon (port : Nat) (p : Packet) (s : State) (h0 : Kept s) : Kept (mgmtApply port p s) := by
  rw [mgmtApply]
  with_reducible repeat' first
    | ((try lift_lets); intro x; (refine pairCanon_via x ?_ ?_; (on_goal 2 => (intro _; try clear_value x)); (on_goal 1 => unfold x)))
    | apply mgmtReject_canon | apply busRead_canon | apply mgmtReply_canon | apply busWrite_canon | assumption | split
    | apply pairCanon_mk | refine canon_of_pair (by assumption) ?_ | apply canon_snd

theorem mgmtRequest_canon (port : Nat) (p : Packet) (s : State) (h0 : Kept s) : Kept (mgmtRequest port p s) := by
  rw [mgmtRequest]
  with_reducible repeat' first
    | apply takeInbox_canon | apply consumed_canon | apply e2eFail_canon | apply mgmtAgain_canon
    | apply mgmtApply_canon | assumption | split | apply pairCanon_mk | refine canon_of_pair (by assumption) ?_

theorem i3cDone_canon (s : State) (h0 : Kept s) : Kept (i3cDone s) := by
  rw [i3cDone]
  with_reducible repeat' first
    | apply raiseEv_canon | assumption

theorem rvPeek_canon (k fault pa n : Nat) (va : U64) (s : State) (h0 : Kept s) :
    PairCanon (rvPeek k fault pa n va s) := by
  unfold rvPeek
  dsimp only
  split
  · exact h0
  · split
    · exact lineUsed_canon _ _ _ _ h0
    · split
      · split
        · exact hbmMoved_canon _ _ _ _ _ h0
        · exact lineUsed_canon _ _ _ _ (State.setRline_canon _ _ _ (hbmMoved_canon _ _ _ _ _ h0))
      · exact hbmWake_canon _ _ _ _ h0
      · exact h0
      · exact refusePage_canon _ _ _ h0
  · exact h0

theorem dropResv_canon (k line : Nat) (s : State) (h0 : Kept s) : Kept (dropResv k line s) := by
  rw [dropResv]
  with_reducible repeat' first
    | apply State.updRind_canon | refine forAll_canon (fun _ _ _ => ?_) ?_ | assumption | split

theorem rvWriteLine_canon (k q off : Nat) (direct : Bool) (bs : List Byte) (s : State) (h0 : Kept s) :
    Kept (rvWriteLine k q off direct bs s) := by
  rw [rvWriteLine]
  with_reducible repeat' first
    | ((try lift_lets); intro x; first | (refine canon_via x ?_ ?_; (on_goal 2 => (intro _; try clear_value x)); (on_goal 1 => unfold x)) | clear_value x | skip)
    | apply hbmPut_canon | apply State.setRline_canon | apply lineUsed_canon | assumption | split

theorem rvPoke_canon (k pa n v : Nat) (va : U64) (s : State) (h0 : Kept s) : PairCanon (rvPoke k pa n v va s) := by
  rw [rvPoke]
  with_reducible repeat' first
    | apply refusePage_canon | apply dropResv_canon | apply rvWriteLine_canon | assumption | split
    | apply pairCanon_mk | apply canon_snd

theorem rvDeviceRead_canon (k pa n : Nat) (s : State) (h0 : Kept s) : PairCanon (rvDeviceRead k pa n s) := by
  rw [rvDeviceRead]
  with_reducible repeat' first
    | ((try lift_lets); intro x; (refine pairCanon_via x ?_ ?_; (on_goal 2 => (intro _; try clear_value x)); (on_goal 1 => unfold x)))
    | apply busRead_canon | apply narrowAccess_canon | assumption | split | apply pairCanon_mk
    | refine canon_of_pair (by assumption) ?_ | apply canon_snd

theorem rvDeviceWrite_canon (k pa n v : Nat) (s : State) (h0 : Kept s) : Kept (rvDeviceWrite k pa n v s) := by
  rw [rvDeviceWrite]
  with_reducible repeat' first
    | refine onPath_canon _ _ _ (fun _ _ => ?_) ?_ | apply busWrite_canon | apply narrowAccess_canon | assumption
    | split

theorem rvWalk_canon (k mode : Nat) (acc : RvAcc) (va : U64) (x5 x6 : Nat) (s : State) (h0 : Kept s) :
    PairCanon (rvWalk k mode acc va x5 x6 s) := by
  induction x5 generalizing k mode acc va x6 s
  case zero =>
    rw [rvWalk]
    with_reducible repeat' first
      | apply ih | refine rvThen_canon ?_ (fun _ _ _ => ?_) | apply rvPeek_canon | assumption | split
      | apply pairCanon_mk
  case succ _ ih =>
    rw [rvWalk]
    with_reducible repeat' first
      | apply ih | refine rvThen_canon ?_ (fun _ _ _ => ?_) | apply rvPeek_canon | assumption | split
      | apply pairCanon_mk

theorem rvTranslate_canon (k : Nat) (acc : RvAcc) (va : U64) (s : State) (h0 : Kept s) :
    PairCanon (rvTranslate k acc va s) := by
  rw [rvTranslate]
  with_reducible repeat' first
    | ((try lift_lets); intro x; clear_value x) | apply rvWalk_canon | assumption | split | apply pairCanon_mk

theorem rvAddress_canon (k : Nat) (acc : RvAcc) (va : U64) (n : Nat) (s : State) (h0 : Kept s) :
    PairCanon (rvAddress k acc va n s) := by
  rw [rvAddress]
  with_reducible repeat' first
    | ((try lift_lets); intro x; clear_value x) | refine rvThen_canon ?_ (fun _ _ _ => ?_) | apply rvTranslate_canon
    | assumption | split | apply pairCanon_mk

theorem rvLoad_canon (k n : Nat) (va : U64) (s : State) (h0 : Kept s) : PairCanon (rvLoad k n va s) := by
  rw [rvLoad]
  with_reducible repeat' first
    | ((try lift_lets); intro x; (refine pairCanon_via x ?_ ?_; (on_goal 2 => (intro _; try clear_value x)); (on_goal 1 => unfold x)))
    | refine rvThen_canon ?_ (fun _ _ _ => ?_) | apply rvAddress_canon | apply rvDeviceRead_canon | apply rvPeek_canon
    | assumption | split | apply pairCanon_mk | refine canon_of_pair (by assumption) ?_ | apply canon_snd

theorem rvStore_canon (k n v : Nat) (va : U64) (s : State) (h0 : Kept s) : PairCanon (rvStore k n v va s) := by
  rw [rvStore]
  with_reducible repeat' first
    | refine rvThen_canon ?_ (fun _ _ _ => ?_) | apply rvAddress_canon | apply rvDeviceWrite_canon
    | apply rvPoke_canon | assumption | split | apply pairCanon_mk

theorem rvLoadReserve_canon (k n : Nat) (va : U64) (s : State) (h0 : Kept s) :
    PairCanon (rvLoadReserve k n va s) := by
  rw [rvLoadReserve]
  with_reducible repeat' first
    | refine rvThen_canon ?_ (fun _ _ _ => ?_) | apply rvAddress_canon | apply rvPeek_canon
    | apply State.updRind_canon | assumption | split | apply pairCanon_mk

theorem rvStoreCond_canon (k n v : Nat) (va : U64) (s : State) (h0 : Kept s) :
    PairCanon (rvStoreCond k n v va s) := by
  rw [rvStoreCond]
  with_reducible repeat' first
    | ((try lift_lets); intro x; first | (refine canon_via x ?_ ?_; (on_goal 2 => (intro _; try clear_value x)); (on_goal 1 => unfold x)) | clear_value x)
    | refine rvThen_canon ?_ (fun _ _ _ => ?_) | apply rvAddress_canon | apply State.updRind_canon
    | apply rvPoke_canon | assumption | split | apply pairCanon_mk

theorem rvAmo_canon (k n : Nat) (f : Nat → Nat) (va : U64) (s : State) (h0 : Kept s) :
    PairCanon (rvAmo k n f va s) := by
  rw [rvAmo]
  with_reducible repeat' first
    | refine rvThen_canon ?_ (fun _ _ _ => ?_) | apply rvAddress_canon | apply rvPeek_canon | apply rvPoke_canon
    | assumption | split | apply pairCanon_mk

theorem rvFetchHalf_canon (k : Nat) (va : U64) (s : State) (h0 : Kept s) : PairCanon (rvFetchHalf k va s) := by
  rw [rvFetchHalf]
  with_reducible repeat' first
    | refine rvThen_canon ?_ (fun _ _ _ => ?_) | apply rvAddress_canon | apply rvPeek_canon | assumption

theorem rvFetch_canon (k : Nat) (pc : U64) (s : State) (h0 : Kept s) : PairCanon (rvFetch k pc s) := by
  rw [rvFetch]
  with_reducible repeat' first
    | refine rvThen_canon ?_ (fun _ _ _ => ?_) | apply rvFetchHalf_canon | assumption | split | apply pairCanon_mk

theorem rvIllegal_canon (x : RvAt) (s : State) (h0 : Kept s) : PairCanon (rvIllegal x s) := by
  rw [rvIllegal]
  with_reducible repeat' first
    | assumption | apply pairCanon_mk

theorem rvWrite_canon (x : RvAt) (rd : Nat) (v : U64) (s : State) (h0 : Kept s) : PairCanon (rvWrite x rd v s) := by
  rw [rvWrite]
  with_reducible repeat' first
    | apply State.updRind_canon | assumption | apply pairCanon_mk

theorem rvResult_canon (x : RvAt) (rd : Nat) (v : Option U64) (s : State) (h0 : Kept s) :
    PairCanon (rvResult x rd v s) := by
  unfold rvResult
  with_reducible repeat' first
    | apply rvWrite_canon | apply rvIllegal_canon | assumption | split

theorem rvExecLoad_canon (x : RvAt) (w : Nat) (s : State) (h0 : Kept s) : PairCanon (rvExecLoad x w s) := by
  rw [rvExecLoad]
  with_reducible repeat' first
    | apply rvIllegal_canon | refine rvThen_canon ?_ (fun _ _ _ => ?_) | apply rvLoad_canon | apply rvWrite_canon
    | assumption | split

theorem rvExecStore_canon (x : RvAt) (w : Nat) (s : State) (h0 : Kept s) : PairCanon (rvExecStore x w s) := by
  rw [rvExecStore]
  with_reducible repeat' first
    | apply rvIllegal_canon | refine rvThen_canon ?_ (fun _ _ _ => ?_) | apply rvStore_canon | assumption | split
    | apply pairCanon_mk

theorem rvExecAmo_canon (x : RvAt) (w : Nat) (s : State) (h0 : Kept s) : PairCanon (rvExecAmo x w s) := by
  rw [rvExecAmo]
  with_reducible repeat' first
    | apply rvIllegal_canon | refine rvThen_canon ?_ (fun _ _ _ => ?_) | apply rvLoadReserve_canon
    | apply rvWrite_canon | apply rvStoreCond_canon | apply rvAmo_canon | assumption | split

theorem rvWriteF_canon (x : RvAt) (d : Bool) (rd : Nat) (c : Nat × Nat) (s : State) (h0 : Kept s) :
    PairCanon (rvWriteF x d rd c s) := by
  rw [rvWriteF]
  with_reducible repeat' first
    | apply State.updRind_canon | assumption | apply pairCanon_mk

theorem rvWriteXF_canon (x : RvAt) (rd : Nat) (v : U64) (fl : Nat) (s : State) (h0 : Kept s) :
    PairCanon (rvWriteXF x rd v fl s) := by
  rw [rvWriteXF]
  with_reducible repeat' first
    | apply State.updRind_canon | assumption | apply pairCanon_mk

theorem rvFpLoad_canon (x : RvAt) (w : Nat) (s : State) (h0 : Kept s) : PairCanon (rvFpLoad x w s) := by
  rw [rvFpLoad]
  with_reducible repeat' first
    | apply rvIllegal_canon | refine rvThen_canon ?_ (fun _ _ _ => ?_) | apply rvLoad_canon | apply rvWriteF_canon
    | assumption | split

theorem rvFpStore_canon (x : RvAt) (w : Nat) (s : State) (h0 : Kept s) : PairCanon (rvFpStore x w s) := by
  rw [rvFpStore]
  with_reducible repeat' first
    | apply rvIllegal_canon | refine rvThen_canon ?_ (fun _ _ _ => ?_) | apply rvStore_canon | assumption | split
    | apply pairCanon_mk

theorem rvFused_canon (x : RvAt) (w : Nat) (s : State) (h0 : Kept s) : PairCanon (rvFused x w s) := by
  rw [rvFused]
  with_reducible repeat' first
    | apply rvIllegal_canon | apply rvWriteF_canon | assumption | split

theorem rvFpRound_canon (x : RvAt) (w rm : Nat) (d : Bool) (s : State) (h0 : Kept s) :
    PairCanon (rvFpRound x w rm d s) := by
  rw [rvFpRound]
  with_reducible repeat' first
    | ((try lift_lets); intro x; clear_value x) | apply rvWriteF_canon | apply rvIllegal_canon | apply rvWriteXF_canon
    | assumption | split

theorem rvFpMove_canon (x : RvAt) (w : Nat) (d : Bool) (s : State) (h0 : Kept s) : PairCanon (rvFpMove x w d s) := by
  rw [rvFpMove]
  with_reducible repeat' first
    | apply rvIllegal_canon | apply rvWriteF_canon | apply rvWrite_canon | assumption | split

theorem rvExecFp_canon (x : RvAt) (w : Nat) (s : State) (h0 : Kept s) : PairCanon (rvExecFp x w s) := by
  rw [rvExecFp]
  with_reducible repeat' first
    | ((try lift_lets); intro x; clear_value x) | apply rvIllegal_canon | apply rvWriteF_canon | apply rvWriteXF_canon
    | apply rvFpMove_canon | apply rvFpRound_canon | assumption | split

theorem rvExecCsr_canon (x : RvAt) (w : Nat) (s : State) (h0 : Kept s) : PairCanon (rvExecCsr x w s) := by
  rw [rvExecCsr]
  with_reducible repeat' first
    | ((try lift_lets); intro x; first | (refine canon_via x ?_ ?_; (on_goal 2 => (intro _; try clear_value x)); (on_goal 1 => unfold x)) | clear_value x)
    | apply rvIllegal_canon | apply State.updRind_canon | apply rvWrite_canon | assumption | split

theorem rvReturn_canon (x : RvAt) (f : Rind → Rind) (s : State) (h0 : Kept s) : PairCanon (rvReturn x f s) := by
  rw [rvReturn]
  with_reducible repeat' first
    | apply State.updRind_canon | assumption | apply pairCanon_mk

theorem rvWfi_canon (x : RvAt) (s : State) (h0 : Kept s) : PairCanon (rvWfi x s) := by
  rw [rvWfi]
  with_reducible repeat' first
    | apply rvIllegal_canon | apply State.setFld_canon | assumption | split | apply pairCanon_mk

theorem rvExecSystem_canon (x : RvAt) (w : Nat) (s : State) (h0 : Kept s) : PairCanon (rvExecSystem x w s) := by
  rw [rvExecSystem]
  with_reducible repeat' first
    | apply rvIllegal_canon | apply rvExecCsr_canon | apply rvReturn_canon | apply rvWfi_canon | assumption | split
    | apply pairCanon_mk

theorem rvJump_canon (x : RvAt) (rd : Nat) (target : U64) (s : State) (h0 : Kept s) :
    PairCanon (rvJump x rd target s) := by
  rw [rvJump]
  with_reducible repeat' first
    | apply State.updRind_canon | assumption | apply pairCanon_mk

theorem rvExecBranch_canon (x : RvAt) (w : Nat) (s : State) (h0 : Kept s) : PairCanon (rvExecBranch x w s) := by
  rw [rvExecBranch]
  with_reducible repeat' first
    | apply rvIllegal_canon | assumption | split | apply pairCanon_mk

theorem rvExec_canon (x : RvAt) (w : Nat) (s : State) (h0 : Kept s) : PairCanon (rvExec x w s) := by
  unfold rvExec
  extract_lets r a b
  split
  all_goals with_reducible first
    | exact rvExecLoad_canon _ _ _ h0
    | exact rvFpOn_canon h0 (fun _ _ _ h => rvFpLoad_canon _ _ _ h)
    | exact rvFpOn_canon h0 (fun _ _ _ h => rvFpStore_canon _ _ _ h)
    | exact rvFpOn_canon h0 (fun _ _ _ h => rvFused_canon _ _ _ h)
    | exact rvFpOn_canon h0 (fun _ _ _ h => rvExecFp_canon _ _ _ h)
    | exact rvResult_canon _ _ _ _ h0
    | exact rvWrite_canon _ _ _ _ h0
    | exact rvExecStore_canon _ _ _ h0
    | exact rvExecAmo_canon _ _ _ h0
    | exact rvExecBranch_canon _ _ _ h0
    | exact rvJump_canon _ _ _ _ h0
    | exact rvExecSystem_canon _ _ _ h0
    | exact rvIllegal_canon _ _ h0
    | (split; apply pairCanon_mk; exact h0; exact rvIllegal_canon _ _ h0)
    | (split; exact rvJump_canon _ _ _ _ h0; exact rvIllegal_canon _ _ h0)

theorem rvInstr_canon (k : Nat) (s : State) (h0 : Kept s) : PairCanon (rvInstr k s) := by
  rw [rvInstr]
  with_reducible repeat' first
    | ((try lift_lets); intro x; clear_value x) | refine rvThen_canon ?_ (fun _ _ _ => ?_) | apply rvAddress_canon
    | apply rvFetch_canon | apply rvIllegal_canon | apply rvExec_canon | assumption | split | apply pairCanon_mk

theorem rvTrap_canon (k cause : Nat) (tval : U64) (s : State) (h0 : Kept s) : Kept (rvTrap k cause tval s) := by
  rw [rvTrap]
  with_reducible repeat' first
    | apply rindTrap_canon | apply State.draw_canon | assumption | split | apply pairCanon_mk
    | refine canon_of_pair (by assumption) ?_ | apply canon_snd

theorem rvRetire_canon (k : Nat) (pc : U64) (c : U64 × Bool) (s : State) (h0 : Kept s) :
    Kept (rvRetire k pc c s) := by
  rw [rvRetire]
  with_reducible repeat' first
    | apply State.updRind_canon | assumption | split

theorem rindStep_canon (k : Nat) (s : State) (h0 : Kept s) : Kept (rindStep k s) := by
  rw [rindStep]
  with_reducible repeat' first
    | ((try lift_lets); intro x; first | (refine canon_via x ?_ ?_; (on_goal 2 => (intro _; try clear_value x)); (on_goal 1 => unfold x)) | (refine pairCanon_via x ?_ ?_; (on_goal 2 => (intro _; try clear_value x)); (on_goal 1 => unfold x)) | clear_value x)
    | apply leaveWfi_canon | apply State.updRind_canon | apply rvInstr_canon | apply rvRetire_canon
    | apply rvTrap_canon | assumption | split | apply pairCanon_mk | refine canon_of_pair (by assumption) ?_
    | apply canon_snd

theorem rindCores_canon (s : State) (h0 : Kept s) : Kept (rindCores s) := by
  rw [rindCores]
  with_reducible repeat' first
    | apply rindStep_canon | refine forAll_canon (fun _ _ _ => ?_) ?_ | assumption

theorem tick_canon (s : State) (h0 : Kept s) : Kept (tick s) := by
  rw [tick]
  with_reducible repeat' first
    | apply rindCores_canon | apply settleAll_canon | apply tempCheck_canon | apply darken_canon
    | apply testStart_canon | apply retryUnparks_canon | apply nextCycle_canon | assumption

theorem State.withFetchWord_canon (s : State) (nbits w : Nat) (h0 : Kept s) :
    Kept (State.withFetchWord s nbits w) := by
  rw [State.withFetchWord]
  with_reducible repeat' first
    | simp -zeta only [canon_mk] | assumption | split

end Sys2Proof.Machine
end

