-- ==== Sys2Proof/Laws/CanonExec.lean ====
section
/-!
SUPPORT. One lemma for each command: where it answers a next state, registers and memory are in canonical form.
-/
namespace Sys2Proof.Machine

theorem execCwrite_canon (port : Nat) (p : Packet) (s : State) (h0 : Kept s) : ResCanon (execCwrite port p s) := by
  rw [execCwrite]
  with_reducible repeat' first
    | apply takeInbox_canon | apply contribute_canon | apply resCanon_next | assumption | split | apply pairCanon_mk
    | refine canon_of_pair (by assumption) ?_ | apply canon_snd

theorem execCnode_canon (port : Nat) (p : Packet) (s : State) (h0 : Kept s) : ResCanon (execCnode port p s) := by
  rw [execCnode]
  with_reducible repeat' first
    | apply takeInbox_canon | apply contribute_canon | apply resCanon_next | assumption | split | apply pairCanon_mk
    | refine canon_of_pair (by assumption) ?_ | apply canon_snd

theorem execMaskReadDone_canon (k : Key) (ok : Bool) (s : State) (h0 : Kept s) :
    ResCanon (execMaskReadDone k ok s) := by
  rw [execMaskReadDone]
  with_reducible repeat' first
    | apply maskAsk_canon | apply resCanon_next | assumption

theorem execPressAdd_canon (array : Nat) (par : Parity) (s : State) (h0 : Kept s) :
    ResCanon (execPressAdd array par s) := by
  rw [execPressAdd]
  with_reducible repeat' first
    | ((try lift_lets); intro x; (refine canon_via x ?_ ?_; (on_goal 2 => (intro _; try clear_value x)); (on_goal 1 => unfold x)))
    | apply wakeUnit_canon | apply countParity_canon | apply abortSlot_canon | apply pressTake_canon
    | apply resCanon_next | assumption | split

theorem execAccumAdd_canon (group block : Nat) (s : State) (h0 : Kept s) : ResCanon (execAccumAdd group block s) := by
  rw [execAccumAdd]
  with_reducible repeat' first
    | ((try lift_lets); intro x; clear_value x) | apply accumAdd_canon | apply refusePage_canon | apply hbmWake_canon
    | apply hbmMoved_canon | apply resCanon_next | assumption | split

theorem execFailureStatus_canon (port : Nat) (p : Packet) (s : State) (h0 : Kept s) :
    ResCanon (execFailureStatus port p s) := by
  rw [execFailureStatus]
  with_reducible repeat' first
    | apply takeInbox_canon | apply consumed_canon | apply e2eFail_canon | apply vatSweep_canon
    | apply vatReceive_canon | apply failFromParent_canon | apply resCanon_next | assumption | split
    | apply pairCanon_mk | refine canon_of_pair (by assumption) ?_ | apply canon_snd

theorem execCresult_canon (port : Nat) (p : Packet) (s : State) (h0 : Kept s) : ResCanon (execCresult port p s) := by
  rw [execCresult]
  with_reducible repeat' first
    | apply takeInbox_canon | apply consumed_canon | apply e2eFail_canon | apply vatReceive_canon
    | apply resultFromParent_canon | apply resCanon_next | assumption | split | apply pairCanon_mk
    | refine canon_of_pair (by assumption) ?_ | apply canon_snd

theorem execItemTimeout_canon (core n : Nat) (s : State) (h0 : Kept s) : ResCanon (execItemTimeout core n s) := by
  rw [execItemTimeout]
  with_reducible repeat' first
    | apply resendItem_canon | apply resCanon_next | assumption | split

theorem execUnalignedAccess_canon (req addr size : Nat) (isWrite : Bool) (s : State) (h0 : Kept s) :
    ResCanon (execUnalignedAccess req addr size isWrite s) := by
  rw [execUnalignedAccess]
  with_reducible repeat' first
    | ((try lift_lets); intro x; (refine canon_via x ?_ ?_; (on_goal 2 => (intro _; try clear_value x)); (on_goal 1 => unfold x)))
    | refine onPath_canon _ _ _ (fun _ _ => ?_) ?_ | apply narrowAccess_canon | apply State.emit_canon
    | apply resCanon_next | assumption | split

theorem execErrCntClear_canon (req page : Nat) (s : State) (h0 : Kept s) : ResCanon (execErrCntClear req page s) := by
  rw [execErrCntClear]
  with_reducible repeat' first
    | refine onPath_canon _ _ _ (fun _ _ => ?_) ?_ | apply errCntWrite_canon | apply resCanon_next | assumption
    | split

theorem execEventTest_canon (req page : Nat) (v : U64) (s : State) (h0 : Kept s) :
    ResCanon (execEventTest req page v s) := by
  rw [execEventTest]
  with_reducible repeat' first
    | refine onPath_canon _ _ _ (fun _ _ => ?_) ?_ | apply evTestWrite_canon | apply resCanon_next | assumption
    | split

theorem execScopeValidationDone_canon (group : Nat) (s : State) (h0 : Kept s) :
    ResCanon (execScopeValidationDone group s) := by
  rw [execScopeValidationDone]
  with_reducible repeat' first
    | ((try lift_lets); intro x; (refine canon_via x ?_ ?_; (on_goal 2 => (intro _; try clear_value x)); (on_goal 1 => unfold x)))
    | apply State.updGrp_canon | apply scanParity_canon | apply scopeFailed_canon | apply groupEnabled_canon
    | apply resCanon_next | assumption | split

theorem execGroupEnable_canon (req group : Nat) (v : U64) (s : State) (h0 : Kept s) :
    ResCanon (execGroupEnable req group v s) := by
  rw [execGroupEnable]
  with_reducible repeat' first
    | refine onPath_canon _ _ _ (fun _ _ => ?_) ?_ | apply grpWrite_canon | apply resCanon_next | assumption | split

theorem execGroupDisable_canon (req group : Nat) (v : U64) (s : State) (h0 : Kept s) :
    ResCanon (execGroupDisable req group v s) := by
  rw [execGroupDisable]
  with_reducible repeat' first
    | refine onPath_canon _ _ _ (fun _ _ => ?_) ?_ | apply grpWrite_canon | apply resCanon_next | assumption | split

theorem grpRow_canon (req group cmd qd : Nat) (s : State) (h0 : Kept s) : ResCanon (grpRow req group cmd qd s) := by
  rw [grpRow]
  with_reducible repeat' first
    | refine onPath_canon _ _ _ (fun _ _ => ?_) ?_ | apply grpCtlWrite_canon | apply resCanon_next | assumption

theorem execEpochClose_canon (req group : Nat) (s : State) (h0 : Kept s) : ResCanon (execEpochClose req group s) := by
  rw [execEpochClose]
  with_reducible repeat' first
    | apply grpRow_canon | apply resCanon_next | assumption

theorem execAccumRelease_canon (req group : Nat) (s : State) (h0 : Kept s) :
    ResCanon (execAccumRelease req group s) := by
  rw [execAccumRelease]
  with_reducible repeat' first
    | apply grpRow_canon | apply resCanon_next | assumption

theorem execMigrate_canon (req group qd : Nat) (s : State) (h0 : Kept s) : ResCanon (execMigrate req group qd s) := by
  rw [execMigrate]
  with_reducible repeat' first
    | apply grpRow_canon | apply resCanon_next | assumption

theorem execMigrateCopyDone_canon (group : Nat) (s : State) (h0 : Kept s) :
    ResCanon (execMigrateCopyDone group s) := by
  rw [execMigrateCopyDone]
  with_reducible repeat' first
    | ((try lift_lets); intro x; first | (refine canon_via x ?_ ?_; (on_goal 2 => (intro _; try clear_value x)); (on_goal 1 => unfold x)) | clear_value x)
    | apply hbmWake_canon | apply copyRanks_canon | apply copyScope_canon | apply State.updGrp_canon
    | apply moveHome_canon | apply resCanon_next | assumption | split

theorem execDeferredBoundary_canon (group : Nat) (s : State) (h0 : Kept s) :
    ResCanon (execDeferredBoundary group s) := by
  rw [execDeferredBoundary]
  with_reducible repeat' first
    | apply boundary_canon | apply resCanon_next | assumption | split

theorem execEpochMaxTimeout_canon (group : Nat) (s : State) (h0 : Kept s) :
    ResCanon (execEpochMaxTimeout group s) := by
  rw [execEpochMaxTimeout]
  with_reducible repeat' first
    | ((try lift_lets); intro x; first | (refine canon_via x ?_ ?_; (on_goal 2 => (intro _; try clear_value x)); (on_goal 1 => unfold x)) | clear_value x | skip)
    | apply State.addFld_canon | apply boundary_canon | apply noteAct_canon | apply resCanon_next | assumption | split

theorem execChainStart_canon (qd : Nat) (par : Parity) (s : State) (h0 : Kept s) :
    ResCanon (execChainStart qd par s) := by
  rw [execChainStart]
  with_reducible repeat' first
    | ((try lift_lets); intro x; first | (refine canon_via x ?_ ?_; (on_goal 2 => (intro _; try clear_value x)); (on_goal 1 => unfold x)) | clear_value x)
    | apply retryFires_canon | apply countParity_canon | apply parHardEvent_canon | apply dropChain_canon
    | apply chainRun_canon | apply resCanon_next | simp -zeta only [canon_mk] | assumption | split

theorem execChainSendDone_canon (chain : Nat) (s : State) (h0 : Kept s) : ResCanon (execChainSendDone chain s) := by
  rw [execChainSendDone]
  with_reducible repeat' first
    | apply chainDone_canon | apply chainRun_canon | apply resCanon_next | assumption | split

theorem execGateEnable_canon (req port : Nat) (v : U64) (s : State) (h0 : Kept s) :
    ResCanon (execGateEnable req port v s) := by
  rw [execGateEnable]
  with_reducible repeat' first
    | refine onPath_canon _ _ _ (fun _ _ => ?_) ?_ | apply gateCfgWrite_canon | apply resCanon_next | assumption
    | split

theorem execGateDisable_canon (req port : Nat) (v : U64) (s : State) (h0 : Kept s) :
    ResCanon (execGateDisable req port v s) := by
  rw [execGateDisable]
  with_reducible repeat' first
    | refine onPath_canon _ _ _ (fun _ _ => ?_) ?_ | apply gateCfgWrite_canon | apply resCanon_next | assumption
    | split

theorem execGateEntry_canon (port : Nat) (s : State) (h0 : Kept s) : ResCanon (execGateEntry port s) := by
  rw [execGateEntry]
  with_reducible repeat' first
    | apply gateNext_canon | apply resCanon_next | assumption | split

theorem execSyncInEdge_canon (s : State) (h0 : Kept s) : ResCanon (execSyncInEdge s) := by
  rw [execSyncInEdge]
  with_reducible repeat' first
    | apply boundaryRequest_canon | apply gateEdge_canon | apply pulseOut_canon
    | refine forAll_canon (fun _ _ _ => ?_) ?_ | apply resCanon_next | assumption

theorem execNakTimerExpire_canon (port : Nat) (s : State) (h0 : Kept s) : ResCanon (execNakTimerExpire port s) := by
  rw [execNakTimerExpire]
  with_reducible repeat' first
    | apply sendNak_canon | apply resCanon_next | assumption | split

theorem execAckTimerExpire_canon (port : Nat) (s : State) (h0 : Kept s) : ResCanon (execAckTimerExpire port s) := by
  rw [execAckTimerExpire]
  with_reducible repeat' first
    | apply startReplay_canon | apply teleAdd_canon | apply State.updPort_canon | apply resCanon_next | assumption
    | split

theorem execReplayDone_canon (port : Nat) (s : State) (h0 : Kept s) : ResCanon (execReplayDone port s) := by
  rw [execReplayDone]
  with_reducible repeat' first
    | ((try lift_lets); intro x; clear_value x) | apply State.setPort_canon | apply resCanon_next | assumption | split

theorem execPortUpReq_canon (req lane : Nat) (v : U64) (s : State) (h0 : Kept s) :
    ResCanon (execPortUpReq req lane v s) := by
  rw [execPortUpReq]
  with_reducible repeat' first
    | refine onPath_canon _ _ _ (fun _ _ => ?_) ?_ | apply prtCfgWrite_canon | apply resCanon_next | assumption
    | split

theorem execPortDownReq_canon (req lane : Nat) (v : U64) (s : State) (h0 : Kept s) :
    ResCanon (execPortDownReq req lane v s) := by
  rw [execPortDownReq]
  with_reducible repeat' first
    | refine onPath_canon _ _ _ (fun _ _ => ?_) ?_ | apply prtCfgWrite_canon | apply resCanon_next | assumption
    | split

theorem execPmdTrainingDone_canon (port : Nat) (ok : Bool) (s : State) (h0 : Kept s) :
    ResCanon (execPmdTrainingDone port ok s) := by
  rw [execPmdTrainingDone]
  with_reducible repeat' first
    | apply stepLimit_canon | apply stepFail_canon | apply resCanon_next | assumption | split

theorem execFecLock_canon (port : Nat) (s : State) (h0 : Kept s) : ResCanon (execFecLock port s) := by
  rw [execFecLock]
  with_reducible repeat' first
    | apply fecLocked_canon | apply resCanon_next | assumption | split

theorem execHelloTimer_canon (port : Nat) (s : State) (h0 : Kept s) : ResCanon (execHelloTimer port s) := by
  rw [execHelloTimer]
  with_reducible repeat' first
    | apply State.updPort_canon | apply sendLctl_canon | apply resCanon_next | assumption | split

theorem execHelloFrame_canon (port : Nat) (f : Rx Lctl) (s : State) (h0 : Kept s) :
    ResCanon (execHelloFrame port f s) := by
  rw [execHelloFrame]
  with_reducible repeat' first
    | apply lctlIn_canon | apply resCanon_next | assumption

theorem execEchoReqFrame_canon (port : Nat) (f : Rx Lctl) (s : State) (h0 : Kept s) :
    ResCanon (execEchoReqFrame port f s) := by
  rw [execEchoReqFrame]
  with_reducible repeat' first
    | apply lctlIn_canon | apply resCanon_next | assumption

theorem execEchoRspFrame_canon (port : Nat) (f : Rx Lctl) (s : State) (h0 : Kept s) :
    ResCanon (execEchoRspFrame port f s) := by
  rw [execEchoRspFrame]
  with_reducible repeat' first
    | apply lctlIn_canon | apply resCanon_next | assumption

theorem execStateFrame_canon (port : Nat) (f : Rx Lctl) (s : State) (h0 : Kept s) :
    ResCanon (execStateFrame port f s) := by
  rw [execStateFrame]
  with_reducible repeat' first
    | apply lctlIn_canon | apply resCanon_next | assumption

theorem execNakFrame_canon (port : Nat) (f : Rx Lctl) (s : State) (h0 : Kept s) :
    ResCanon (execNakFrame port f s) := by
  rw [execNakFrame]
  with_reducible repeat' first
    | apply lctlIn_canon | apply resCanon_next | assumption

theorem execDownFrame_canon (port : Nat) (f : Rx Lctl) (s : State) (h0 : Kept s) :
    ResCanon (execDownFrame port f s) := by
  rw [execDownFrame]
  with_reducible repeat' first
    | apply lctlIn_canon | apply resCanon_next | assumption

theorem execBringupStepTimeout_canon (port : Nat) (s : State) (h0 : Kept s) :
    ResCanon (execBringupStepTimeout port s) := by
  rw [execBringupStepTimeout]
  with_reducible repeat' first
    | apply stepFail_canon | apply resCanon_next | assumption | split

theorem execBringupRetry_canon (port : Nat) (s : State) (h0 : Kept s) : ResCanon (execBringupRetry port s) := by
  rw [execBringupRetry]
  with_reducible repeat' first
    | apply startBringup_canon | apply resCanon_next | assumption | split

theorem execStateSend_canon (port : Nat) (s : State) (h0 : Kept s) : ResCanon (execStateSend port s) := by
  rw [execStateSend]
  with_reducible repeat' first
    | apply State.updPort_canon | apply sendLctl_canon | apply resCanon_next | assumption | split

theorem execLctlSilenceTimeout_canon (port : Nat) (s : State) (h0 : Kept s) :
    ResCanon (execLctlSilenceTimeout port s) := by
  rw [execLctlSilenceTimeout]
  with_reducible repeat' first
    | ((try lift_lets); intro x; clear_value x) | apply linkDown_canon | apply resCanon_next | assumption | split

theorem execLrefclkLoss_canon (clock : Nat) (s : State) (h0 : Kept s) : ResCanon (execLrefclkLoss clock s) := by
  rw [execLrefclkLoss]
  with_reducible repeat' first
    | apply linkDown_canon | refine forAll_canon (fun _ _ _ => ?_) ?_ | apply resCanon_next | assumption | split

theorem execCreditGrant_canon (port vc : Nat) (s : State) (h0 : Kept s) : ResCanon (execCreditGrant port vc s) := by
  rw [execCreditGrant]
  with_reducible repeat' first
    | apply grantLanding_canon | apply takeBuf_canon | apply grantStep_canon | apply waitBuf_canon
    | refine forAll_canon (fun _ _ _ => ?_) ?_ | apply resCanon_next | exact optPairCanon_none
    | apply optPairCanon_some | assumption | split | refine canon_of_optPair (by assumption) ?_

theorem execPortSnapshot_canon (req port : Nat) (s : State) (h0 : Kept s) :
    ResCanon (execPortSnapshot req port s) := by
  rw [execPortSnapshot]
  with_reducible repeat' first
    | refine onPath_canon _ _ _ (fun _ _ => ?_) ?_ | refine laneWrite_canon _ _ _ _ (fun _ _ _ => ?_) ?_
    | apply teleSnap_canon | apply resCanon_next | assumption

theorem execTelemetryClear_canon (req port : Nat) (s : State) (h0 : Kept s) :
    ResCanon (execTelemetryClear req port s) := by
  rw [execTelemetryClear]
  with_reducible repeat' first
    | refine onPath_canon _ _ _ (fun _ _ => ?_) ?_ | refine laneWrite_canon _ _ _ _ (fun _ _ _ => ?_) ?_
    | apply teleClear_canon | apply resCanon_next | assumption

theorem execHighWaterReset_canon (req port vc : Nat) (s : State) (h0 : Kept s) :
    ResCanon (execHighWaterReset req port vc s) := by
  rw [execHighWaterReset]
  with_reducible repeat' first
    | refine onPath_canon _ _ _ (fun _ _ => ?_) ?_ | apply teleWrite_canon | apply resCanon_next | assumption

theorem execSwitchEntry_canon (unit vc n : Nat) (par : Parity) (s : State) (h0 : Kept s) :
    ResCanon (execSwitchEntry unit vc n par s) := by
  rw [execSwitchEntry]
  with_reducible repeat' first
    | ((try lift_lets); intro x; (refine canon_via x ?_ ?_; (on_goal 2 => (intro _; try clear_value x)); (on_goal 1 => unfold x)))
    | apply mgmtTake_canon | apply enterLanded_canon | apply enterExpanded_canon | apply resCanon_next | assumption
    | split

theorem execPacketSend_canon (port : Nat) (abort : Bool) (s : State) (h0 : Kept s) :
    ResCanon (execPacketSend port abort s) := by
  rw [execPacketSend]
  with_reducible repeat' first
    | apply sendOne_canon | apply resCanon_next | assumption

theorem execReplayCopyDone_canon (port : Nat) (s : State) (h0 : Kept s) : ResCanon (execReplayCopyDone port s) := by
  rw [execReplayCopyDone]
  with_reducible repeat' first
    | ((try lift_lets); intro x; (refine canon_via x ?_ ?_; (on_goal 2 => (intro _; try clear_value x)); (on_goal 1 => unfold x)))
    | apply drainedDown_canon | apply frameDone_canon | apply dropRefs_canon | apply State.updPort_canon
    | apply cnodeCopied_canon | apply noteIdle_canon | apply resCanon_next | assumption | split

theorem execPacketArrive_canon (port : Nat) (cls : RxClass) (fec : RxFec) (p : Packet) (s : State) (h0 : Kept s) :
    ResCanon (execPacketArrive port cls fec p s) := by
  rw [execPacketArrive]
  with_reducible repeat' first
    | ((try lift_lets); intro x; first | (refine canon_via x ?_ ?_; (on_goal 2 => (intro _; try clear_value x)); (on_goal 1 => unfold x)) | clear_value x)
    | apply fecSeen_canon | apply protoErr_canon | apply deliverPacket_canon | apply advanceE_canon
    | apply teleAdd_canon | apply sendNak_canon | apply resCanon_next | assumption | split

theorem execEthernetFrame_canon (port : Nat) (r : Rx EthFrame) (s : State) (h0 : Kept s) :
    ResCanon (execEthernetFrame port r s) := by
  rw [execEthernetFrame]
  with_reducible repeat' first
    | apply fecSeen_canon | apply teleAdd_canon | apply macControl_canon | apply frameTake_canon | apply resCanon_next
    | assumption | split

theorem execMacAgeOut_canon (vid mac : Nat) (s : State) (h0 : Kept s) : ResCanon (execMacAgeOut vid mac s) := by
  rw [execMacAgeOut]
  with_reducible repeat' first
    | ((try lift_lets); intro x; clear_value x) | apply resCanon_next | simp -zeta only [canon_mk] | assumption

theorem execPfcFrame_canon (port prio : Nat) (quanta : Rx Nat) (s : State) (h0 : Kept s) :
    ResCanon (execPfcFrame port prio quanta s) := by
  rw [execPfcFrame]
  with_reducible repeat' first
    | apply fecSeen_canon | apply teleAdd_canon | apply pfcTake_canon | apply resCanon_next | assumption | split

theorem execPfcPauseExpire_canon (port prio : Nat) (s : State) (h0 : Kept s) :
    ResCanon (execPfcPauseExpire port prio s) := by
  rw [execPfcPauseExpire]
  with_reducible repeat' first
    | ((try lift_lets); intro x; clear_value x) | apply State.setPort_canon | apply resCanon_next | assumption | split

theorem execPfcRefresh_canon (port prio : Nat) (s : State) (h0 : Kept s) : ResCanon (execPfcRefresh port prio s) := by
  rw [execPfcRefresh]
  with_reducible repeat' first
    | ((try lift_lets); intro x; clear_value x) | apply State.setPort_canon | apply resCanon_next | assumption | split

theorem execCdnPauseLimit_canon (port : Nat) (s : State) (h0 : Kept s) : ResCanon (execCdnPauseLimit port s) := by
  rw [execCdnPauseLimit]
  with_reducible repeat' first
    | ((try lift_lets); intro x; clear_value x) | apply cdnDrop_canon | refine forAll_canon (fun _ _ _ => ?_) ?_
    | apply resCanon_next | assumption | split

theorem execProgramStart_canon (vat : Nat) (s : State) (h0 : Kept s) : ResCanon (execProgramStart vat s) := by
  rw [execProgramStart]
  with_reducible repeat' first
    | apply wakeUnit_canon | apply startLost_canon | apply startHead_canon | apply hbmWake_canon
    | apply refusePage_canon | apply resCanon_next | assumption | split

theorem execProgramEnd_canon (core : Nat) (s : State) (h0 : Kept s) : ResCanon (execProgramEnd core s) := by
  rw [execProgramEnd]
  with_reducible repeat' first
    | ((try lift_lets); intro x; clear_value x) | apply endCore_canon | apply resCanon_next | assumption | split

theorem execCacheFillDone_canon (core : Nat) (par : Parity) (s : State) (h0 : Kept s) :
    ResCanon (execCacheFillDone core par s) := by
  rw [execCacheFillDone]
  with_reducible repeat' first
    | ((try lift_lets); intro x; first | (refine canon_via x ?_ ?_; (on_goal 2 => (intro _; try clear_value x)); (on_goal 1 => unfold x)) | clear_value x | skip)
    | apply fillFromStore_canon | apply State.updCore_canon | apply dropLine_canon | apply curdExc_canon
    | apply fetchEnd_canon | apply fillLine_canon | apply resCanon_next | assumption | split

theorem execBudgetExhausted_canon (core : Nat) (s : State) (h0 : Kept s) : ResCanon (execBudgetExhausted core s) := by
  rw [execBudgetExhausted]
  with_reducible repeat' first
    | ((try lift_lets); intro x; clear_value x) | apply curdExc_canon | apply resCanon_next | assumption | split

theorem execVatStart_canon (req vat desc : Nat) (s : State) (h0 : Kept s) :
    ResCanon (execVatStart req vat desc s) := by
  rw [execVatStart]
  with_reducible repeat' first
    | refine onPath_canon _ _ _ (fun _ _ => ?_) ?_ | apply vatStartWrite_canon | apply absentCmd_canon
    | apply resCanon_next | assumption | split

theorem execCacheInvalidate_canon (req vat : Nat) (v : U64) (s : State) (h0 : Kept s) :
    ResCanon (execCacheInvalidate req vat v s) := by
  rw [execCacheInvalidate]
  with_reducible repeat' first
    | refine onPath_canon _ _ _ (fun _ _ => ?_) ?_ | apply vatCfgWrite_canon | apply resCanon_next | assumption

theorem execCoreStop_canon (req vat mask : Nat) (s : State) (h0 : Kept s) :
    ResCanon (execCoreStop req vat mask s) := by
  rw [execCoreStop]
  with_reducible repeat' first
    | refine onPath_canon _ _ _ (fun _ _ => ?_) ?_ | apply vatCtrlWrite_canon | apply resCanon_next | assumption

theorem execCoreClear_canon (req vat mask : Nat) (s : State) (h0 : Kept s) :
    ResCanon (execCoreClear req vat mask s) := by
  rw [execCoreClear]
  with_reducible repeat' first
    | refine onPath_canon _ _ _ (fun _ _ => ?_) ?_ | apply vatCtrlWrite_canon | apply resCanon_next | assumption

theorem execInboundDelivery_canon (port : Nat) (p : Packet) (s : State) (h0 : Kept s) :
    ResCanon (execInboundDelivery port p s) := by
  rw [execInboundDelivery]
  with_reducible repeat' first
    | apply takeInbox_canon | apply consumed_canon | apply e2eFail_canon | apply inbDeliver_canon
    | apply resCanon_next | assumption | split | apply pairCanon_mk | refine canon_of_pair (by assumption) ?_
    | apply canon_snd

theorem execTallyEntryClose_canon (subject cls : Nat) (s : State) (h0 : Kept s) :
    ResCanon (execTallyEntryClose subject cls s) := by
  rw [execTallyEntryClose]
  with_reducible repeat' first
    | ((try lift_lets); intro x; clear_value x) | apply tallyClose_canon | apply resCanon_next | assumption | split

theorem execTallyTailWrite_canon (req : Nat) (v : U64) (s : State) (h0 : Kept s) :
    ResCanon (execTallyTailWrite req v s) := by
  rw [execTallyTailWrite]
  with_reducible repeat' first
    | refine onPath_canon _ _ _ (fun _ _ => ?_) ?_ | apply tallyTail_canon | apply resCanon_next | assumption

theorem execTallySnap_canon (req : Nat) (s : State) (h0 : Kept s) : ResCanon (execTallySnap req s) := by
  rw [execTallySnap]
  with_reducible repeat' first
    | refine onPath_canon _ _ _ (fun _ _ => ?_) ?_ | apply tallySnapWrite_canon | apply resCanon_next | assumption

theorem execLaneRequest_canon (port : Nat) (p : Packet) (s : State) (h0 : Kept s) :
    ResCanon (execLaneRequest port p s) := by
  rw [execLaneRequest]
  with_reducible repeat' first
    | apply takeInbox_canon | apply consumed_canon | apply e2eFail_canon | apply mgmtAgain_canon
    | apply laneRequestIn_canon | apply resCanon_next | assumption | split | apply pairCanon_mk
    | refine canon_of_pair (by assumption) ?_

theorem execResponseDelivery_canon (port : Nat) (p : Packet) (s : State) (h0 : Kept s) :
    ResCanon (execResponseDelivery port p s) := by
  rw [execResponseDelivery]
  with_reducible repeat' first
    | apply takeInbox_canon | apply consumed_canon | apply e2eFail_canon | apply laneReply_canon
    | apply inbDeliver_canon | apply resCanon_next | assumption | split | apply pairCanon_mk
    | refine canon_of_pair (by assumption) ?_

theorem execLaneReqTimeout_canon (port : Nat) (s : State) (h0 : Kept s) : ResCanon (execLaneReqTimeout port s) := by
  rw [execLaneReqTimeout]
  with_reducible repeat' first
    | apply laneRefused_canon | refine forAll_canon (fun _ _ _ => ?_) ?_ | apply resCanon_next | assumption | split

theorem execLanePark_canon (port : Nat) (s : State) (h0 : Kept s) : ResCanon (execLanePark port s) := by
  rw [execLanePark]
  with_reducible repeat' first
    | ((try lift_lets); intro x; clear_value x) | apply sendLaneReq_canon | apply resCanon_next | assumption | split

theorem execVatBist_canon (req : Nat) (v : U64) (s : State) (h0 : Kept s) : ResCanon (execVatBist req v s) := by
  rw [execVatBist]
  with_reducible repeat' first
    | refine onPath_canon _ _ _ (fun _ _ => ?_) ?_ | apply tlyTestWrite_canon | apply resCanon_next | assumption
    | split

theorem execPressBist_canon (req : Nat) (v : U64) (s : State) (h0 : Kept s) : ResCanon (execPressBist req v s) := by
  rw [execPressBist]
  with_reducible repeat' first
    | refine onPath_canon _ _ _ (fun _ _ => ?_) ?_ | apply tlyTestWrite_canon | apply resCanon_next | assumption
    | split

theorem execLaneRecal_canon (req : Nat) (v : U64) (s : State) (h0 : Kept s) : ResCanon (execLaneRecal req v s) := by
  rw [execLaneRecal]
  with_reducible repeat' first
    | refine onPath_canon _ _ _ (fun _ _ => ?_) ?_ | apply tlyTestWrite_canon | apply resCanon_next | assumption
    | split

theorem execBistDone_canon (pass : Bool) (s : State) (h0 : Kept s) : ResCanon (execBistDone pass s) := by
  rw [execBistDone]
  with_reducible repeat' first
    | ((try lift_lets); intro x; (refine canon_via x ?_ ?_; (on_goal 2 => (intro _; try clear_value x)); (on_goal 1 => unfold x)))
    | apply clearLocal_canon | apply finishTest_canon | apply State.setFld_canon | apply resCanon_next | assumption
    | split

theorem execTestWaitExpire_canon (s : State) (h0 : Kept s) : ResCanon (execTestWaitExpire s) := by
  rw [execTestWaitExpire]
  with_reducible repeat' first
    | apply finishTest_canon | apply State.setFld_canon | apply resCanon_next | assumption | split

theorem execIdleRecal_canon (port : Nat) (s : State) (h0 : Kept s) : ResCanon (execIdleRecal port s) := by
  rw [execIdleRecal]
  with_reducible repeat' first
    | ((try lift_lets); intro x; clear_value x) | apply State.setPort_canon | apply resCanon_next | assumption | split

theorem execRecalDone_canon (port lane : Nat) (s : State) (h0 : Kept s) : ResCanon (execRecalDone port lane s) := by
  rw [execRecalDone]
  with_reducible repeat' first
    | ((try lift_lets); intro x; first | (refine canon_via x ?_ ?_; (on_goal 2 => (intro _; try clear_value x)); (on_goal 1 => unfold x)) | clear_value x)
    | apply State.setPort_canon | apply finishTest_canon | apply sendLaneReq_canon | apply resCanon_next | assumption
    | split

theorem execNormalDelivery_canon (core : Nat) (s : State) (h0 : Kept s) : ResCanon (execNormalDelivery core s) := by
  rw [execNormalDelivery]
  with_reducible repeat' first
    | ((try lift_lets); intro x; (refine canon_via x ?_ ?_; (on_goal 2 => (intro _; try clear_value x)); (on_goal 1 => unfold x)))
    | apply noteAct_canon | apply leaveWfi_canon | apply State.setFld_canon | apply State.updRind_canon
    | apply resCanon_next | assumption | split

theorem execFastDelivery_canon (core : Nat) (s : State) (h0 : Kept s) : ResCanon (execFastDelivery core s) := by
  rw [execFastDelivery]
  with_reducible repeat' first
    | ((try lift_lets); intro x; (refine canon_via x ?_ ?_; (on_goal 2 => (intro _; try clear_value x)); (on_goal 1 => unfold x)))
    | apply noteAct_canon | apply leaveWfi_canon | apply State.setFld_canon | apply State.updRind_canon
    | apply resCanon_next | assumption | split

theorem execEvcDone_canon (req core src : Nat) (s : State) (h0 : Kept s) : ResCanon (execEvcDone req core src s) := by
  rw [execEvcDone]
  with_reducible repeat' first
    | refine onPath_canon _ _ _ (fun _ _ => ?_) ?_ | apply evcDoneWrite_canon | apply resCanon_next | assumption

theorem execEvcSset_canon (req core src : Nat) (s : State) (h0 : Kept s) : ResCanon (execEvcSset req core src s) := by
  rw [execEvcSset]
  with_reducible repeat' first
    | refine onPath_canon _ _ _ (fun _ _ => ?_) ?_ | apply evcSsetWrite_canon | apply absentCmd_canon
    | apply resCanon_next | assumption | split

theorem execEvcSclr_canon (req core src : Nat) (s : State) (h0 : Kept s) : ResCanon (execEvcSclr req core src s) := by
  rw [execEvcSclr]
  with_reducible repeat' first
    | refine onPath_canon _ _ _ (fun _ _ => ?_) ?_ | apply evcSclrWrite_canon | apply resCanon_next | assumption

theorem execUnwind_canon (req core : Nat) (s : State) (h0 : Kept s) : ResCanon (execUnwind req core s) := by
  rw [execUnwind]
  with_reducible repeat' first
    | refine onPath_canon _ _ _ (fun _ _ => ?_) ?_ | refine onRind_canon _ _ _ _ (fun _ _ => ?_) ?_
    | apply evcUnwind_canon | apply resCanon_next | assumption

theorem execCoreRelease_canon (req core : Nat) (v : U64) (s : State) (h0 : Kept s) :
    ResCanon (execCoreRelease req core v s) := by
  rw [execCoreRelease]
  with_reducible repeat' first
    | refine onPath_canon _ _ _ (fun _ _ => ?_) ?_ | apply evcCoreWrite_canon | apply resCanon_next | assumption
    | split

theorem execRindHold_canon (req core : Nat) (v : U64) (s : State) (h0 : Kept s) :
    ResCanon (execRindHold req core v s) := by
  rw [execRindHold]
  with_reducible repeat' first
    | refine onPath_canon _ _ _ (fun _ _ => ?_) ?_ | apply evcCoreWrite_canon | apply resCanon_next | assumption
    | split

theorem execMretFast_canon (core : Nat) (s : State) (h0 : Kept s) : ResCanon (execMretFast core s) := by
  rw [execMretFast]
  with_reducible repeat' first
    | ((try lift_lets); intro x; clear_value x) | apply State.setRind_canon | apply rindTrap_canon
    | apply State.draw_canon | apply resCanon_next | assumption | split | apply pairCanon_mk
    | refine canon_of_pair (by assumption) ?_ | apply canon_snd

theorem execSynchronousException_canon (core cause : Nat) (tval : U64) (s : State) (h0 : Kept s) :
    ResCanon (execSynchronousException core cause tval s) := by
  rw [execSynchronousException]
  with_reducible repeat' first
    | apply rindTrap_canon | apply resCanon_next | assumption

theorem execWfiWake_canon (core : Nat) (s : State) (h0 : Kept s) : ResCanon (execWfiWake core s) := by
  rw [execWfiWake]
  with_reducible repeat' first
    | apply leaveWfi_canon | apply resCanon_next | assumption | split

theorem execInstructionStart_canon (core : Nat) (par : Parity) (s : State) (h0 : Kept s) :
    ResCanon (execInstructionStart core par s) := by
  rw [execInstructionStart]
  with_reducible repeat' first
    | apply startEntry_canon | apply resCanon_next | assumption | split

theorem execInstructionComplete_canon (core : Nat) (s : State) (h0 : Kept s) :
    ResCanon (execInstructionComplete core s) := by
  rw [execInstructionComplete]
  with_reducible repeat' first
    | apply sweep_canon | apply resCanon_next | assumption | split

theorem execCAdd_canon (core : Nat) (w : CurdWord) (s : State) (h0 : Kept s) : ResCanon (execCAdd core w s) := by
  rw [execCAdd]
  with_reducible repeat' first
    | apply issue_canon | apply resCanon_next | assumption

theorem execCSub_canon (core : Nat) (w : CurdWord) (s : State) (h0 : Kept s) : ResCanon (execCSub core w s) := by
  rw [execCSub]
  with_reducible repeat' first
    | apply issue_canon | apply resCanon_next | assumption

theorem execCMul_canon (core : Nat) (w : CurdWord) (s : State) (h0 : Kept s) : ResCanon (execCMul core w s) := by
  rw [execCMul]
  with_reducible repeat' first
    | apply issue_canon | apply resCanon_next | assumption

theorem execCFma_canon (core : Nat) (w : CurdWord) (s : State) (h0 : Kept s) : ResCanon (execCFma core w s) := by
  rw [execCFma]
  with_reducible repeat' first
    | apply issue_canon | apply resCanon_next | assumption

theorem execCMax_canon (core : Nat) (w : CurdWord) (s : State) (h0 : Kept s) : ResCanon (execCMax core w s) := by
  rw [execCMax]
  with_reducible repeat' first
    | apply issue_canon | apply resCanon_next | assumption

theorem execCMin_canon (core : Nat) (w : CurdWord) (s : State) (h0 : Kept s) : ResCanon (execCMin core w s) := by
  rw [execCMin]
  with_reducible repeat' first
    | apply issue_canon | apply resCanon_next | assumption

theorem execCCmp_canon (core : Nat) (w : CurdWord) (s : State) (h0 : Kept s) : ResCanon (execCCmp core w s) := by
  rw [execCCmp]
  with_reducible repeat' first
    | apply issue_canon | apply resCanon_next | assumption

theorem execCSel_canon (core : Nat) (w : CurdWord) (s : State) (h0 : Kept s) : ResCanon (execCSel core w s) := by
  rw [execCSel]
  with_reducible repeat' first
    | apply issue_canon | apply resCanon_next | assumption

theorem execCCvt_canon (core : Nat) (w : CurdWord) (s : State) (h0 : Kept s) : ResCanon (execCCvt core w s) := by
  rw [execCCvt]
  with_reducible repeat' first
    | apply issue_canon | apply resCanon_next | assumption

theorem execCRsum_canon (core : Nat) (w : CurdWord) (s : State) (h0 : Kept s) : ResCanon (execCRsum core w s) := by
  rw [execCRsum]
  with_reducible repeat' first
    | apply issue_canon | apply resCanon_next | assumption

theorem execCRmax_canon (core : Nat) (w : CurdWord) (s : State) (h0 : Kept s) : ResCanon (execCRmax core w s) := by
  rw [execCRmax]
  with_reducible repeat' first
    | apply issue_canon | apply resCanon_next | assumption

theorem execCExp2_canon (core : Nat) (w : CurdWord) (s : State) (h0 : Kept s) : ResCanon (execCExp2 core w s) := by
  rw [execCExp2]
  with_reducible repeat' first
    | apply issue_canon | apply resCanon_next | assumption

theorem execCLog2_canon (core : Nat) (w : CurdWord) (s : State) (h0 : Kept s) : ResCanon (execCLog2 core w s) := by
  rw [execCLog2]
  with_reducible repeat' first
    | apply issue_canon | apply resCanon_next | assumption

theorem execCRcp_canon (core : Nat) (w : CurdWord) (s : State) (h0 : Kept s) : ResCanon (execCRcp core w s) := by
  rw [execCRcp]
  with_reducible repeat' first
    | apply issue_canon | apply resCanon_next | assumption

theorem execCRsq_canon (core : Nat) (w : CurdWord) (s : State) (h0 : Kept s) : ResCanon (execCRsq core w s) := by
  rw [execCRsq]
  with_reducible repeat' first
    | apply issue_canon | apply resCanon_next | assumption

theorem execCIadd_canon (core : Nat) (w : CurdWord) (s : State) (h0 : Kept s) : ResCanon (execCIadd core w s) := by
  rw [execCIadd]
  with_reducible repeat' first
    | apply issue_canon | apply resCanon_next | assumption

theorem execCIsub_canon (core : Nat) (w : CurdWord) (s : State) (h0 : Kept s) : ResCanon (execCIsub core w s) := by
  rw [execCIsub]
  with_reducible repeat' first
    | apply issue_canon | apply resCanon_next | assumption

theorem execCAnd_canon (core : Nat) (w : CurdWord) (s : State) (h0 : Kept s) : ResCanon (execCAnd core w s) := by
  rw [execCAnd]
  with_reducible repeat' first
    | apply issue_canon | apply resCanon_next | assumption

theorem execCOr_canon (core : Nat) (w : CurdWord) (s : State) (h0 : Kept s) : ResCanon (execCOr core w s) := by
  rw [execCOr]
  with_reducible repeat' first
    | apply issue_canon | apply resCanon_next | assumption

theorem execCXor_canon (core : Nat) (w : CurdWord) (s : State) (h0 : Kept s) : ResCanon (execCXor core w s) := by
  rw [execCXor]
  with_reducible repeat' first
    | apply issue_canon | apply resCanon_next | assumption

theorem execCShl_canon (core : Nat) (w : CurdWord) (s : State) (h0 : Kept s) : ResCanon (execCShl core w s) := by
  rw [execCShl]
  with_reducible repeat' first
    | apply issue_canon | apply resCanon_next | assumption

theorem execCShr_canon (core : Nat) (w : CurdWord) (s : State) (h0 : Kept s) : ResCanon (execCShr core w s) := by
  rw [execCShr]
  with_reducible repeat' first
    | apply issue_canon | apply resCanon_next | assumption

theorem execCIcmp_canon (core : Nat) (w : CurdWord) (s : State) (h0 : Kept s) : ResCanon (execCIcmp core w s) := by
  rw [execCIcmp]
  with_reducible repeat' first
    | apply issue_canon | apply resCanon_next | assumption

theorem execCMov_canon (core : Nat) (w : CurdWord) (s : State) (h0 : Kept s) : ResCanon (execCMov core w s) := by
  rw [execCMov]
  with_reducible repeat' first
    | apply issue_canon | apply resCanon_next | assumption

theorem execCCompact_canon (core : Nat) (w : CurdWord) (s : State) (h0 : Kept s) :
    ResCanon (execCCompact core w s) := by
  rw [execCCompact]
  with_reducible repeat' first
    | apply issue_canon | apply resCanon_next | assumption

theorem execCGath_canon (core : Nat) (w : CurdWord) (s : State) (h0 : Kept s) : ResCanon (execCGath core w s) := by
  rw [execCGath]
  with_reducible repeat' first
    | apply issue_canon | apply resCanon_next | assumption

theorem execCScat_canon (core : Nat) (w : CurdWord) (s : State) (h0 : Kept s) : ResCanon (execCScat core w s) := by
  rw [execCScat]
  with_reducible repeat' first
    | apply issue_canon | apply resCanon_next | assumption

theorem execCKeyx_canon (core : Nat) (w : CurdWord) (s : State) (h0 : Kept s) : ResCanon (execCKeyx core w s) := by
  rw [execCKeyx]
  with_reducible repeat' first
    | apply issue_canon | apply resCanon_next | assumption

theorem execCSortv_canon (core : Nat) (w : CurdWord) (s : State) (h0 : Kept s) : ResCanon (execCSortv core w s) := by
  rw [execCSortv]
  with_reducible repeat' first
    | apply issue_canon | apply resCanon_next | assumption

theorem execCMerge_canon (core : Nat) (w : CurdWord) (s : State) (h0 : Kept s) : ResCanon (execCMerge core w s) := by
  rw [execCMerge]
  with_reducible repeat' first
    | apply issue_canon | apply resCanon_next | assumption

theorem execCNop_canon (core : Nat) (w : CurdWord) (s : State) (h0 : Kept s) : ResCanon (execCNop core w s) := by
  rw [execCNop]
  with_reducible repeat' first
    | apply issue_canon | apply resCanon_next | assumption

theorem execCAsend_canon (core : Nat) (w : CurdWord) (s : State) (h0 : Kept s) : ResCanon (execCAsend core w s) := by
  rw [execCAsend]
  with_reducible repeat' first
    | apply issue_canon | apply resCanon_next | assumption

theorem execCCpop_canon (core : Nat) (w : CurdWord) (s : State) (h0 : Kept s) : ResCanon (execCCpop core w s) := by
  rw [execCCpop]
  with_reducible repeat' first
    | apply issue_canon | apply resCanon_next | assumption

theorem execCSinc_canon (core : Nat) (w : CurdWord) (s : State) (h0 : Kept s) : ResCanon (execCSinc core w s) := by
  rw [execCSinc]
  with_reducible repeat' first
    | apply issue_canon | apply resCanon_next | assumption

theorem execCSwait_canon (core : Nat) (w : CurdWord) (s : State) (h0 : Kept s) : ResCanon (execCSwait core w s) := by
  rw [execCSwait]
  with_reducible repeat' first
    | apply issue_canon | apply resCanon_next | assumption

theorem execCBarrier_canon (core : Nat) (w : CurdWord) (s : State) (h0 : Kept s) :
    ResCanon (execCBarrier core w s) := by
  rw [execCBarrier]
  with_reducible repeat' first
    | apply issue_canon | apply resCanon_next | assumption

theorem execCOhdr_canon (core : Nat) (w : CurdWord) (s : State) (h0 : Kept s) : ResCanon (execCOhdr core w s) := by
  rw [execCOhdr]
  with_reducible repeat' first
    | apply issue_canon | apply resCanon_next | assumption

theorem execCEnd_canon (core : Nat) (w : CurdWord) (s : State) (h0 : Kept s) : ResCanon (execCEnd core w s) := by
  rw [execCEnd]
  with_reducible repeat' first
    | apply issue_canon | apply resCanon_next | assumption

theorem execCSadd_canon (core : Nat) (w : CurdWord) (s : State) (h0 : Kept s) : ResCanon (execCSadd core w s) := by
  rw [execCSadd]
  with_reducible repeat' first
    | apply issue_canon | apply resCanon_next | assumption

theorem execCSsub_canon (core : Nat) (w : CurdWord) (s : State) (h0 : Kept s) : ResCanon (execCSsub core w s) := by
  rw [execCSsub]
  with_reducible repeat' first
    | apply issue_canon | apply resCanon_next | assumption

theorem execCSmul_canon (core : Nat) (w : CurdWord) (s : State) (h0 : Kept s) : ResCanon (execCSmul core w s) := by
  rw [execCSmul]
  with_reducible repeat' first
    | apply issue_canon | apply resCanon_next | assumption

theorem execCSand_canon (core : Nat) (w : CurdWord) (s : State) (h0 : Kept s) : ResCanon (execCSand core w s) := by
  rw [execCSand]
  with_reducible repeat' first
    | apply issue_canon | apply resCanon_next | assumption

theorem execCSor_canon (core : Nat) (w : CurdWord) (s : State) (h0 : Kept s) : ResCanon (execCSor core w s) := by
  rw [execCSor]
  with_reducible repeat' first
    | apply issue_canon | apply resCanon_next | assumption

theorem execCSxor_canon (core : Nat) (w : CurdWord) (s : State) (h0 : Kept s) : ResCanon (execCSxor core w s) := by
  rw [execCSxor]
  with_reducible repeat' first
    | apply issue_canon | apply resCanon_next | assumption

theorem execCSshl_canon (core : Nat) (w : CurdWord) (s : State) (h0 : Kept s) : ResCanon (execCSshl core w s) := by
  rw [execCSshl]
  with_reducible repeat' first
    | apply issue_canon | apply resCanon_next | assumption

theorem execCSshr_canon (core : Nat) (w : CurdWord) (s : State) (h0 : Kept s) : ResCanon (execCSshr core w s) := by
  rw [execCSshr]
  with_reducible repeat' first
    | apply issue_canon | apply resCanon_next | assumption

theorem execCSsra_canon (core : Nat) (w : CurdWord) (s : State) (h0 : Kept s) : ResCanon (execCSsra core w s) := by
  rw [execCSsra]
  with_reducible repeat' first
    | apply issue_canon | apply resCanon_next | assumption

theorem execCSceq_canon (core : Nat) (w : CurdWord) (s : State) (h0 : Kept s) : ResCanon (execCSceq core w s) := by
  rw [execCSceq]
  with_reducible repeat' first
    | apply issue_canon | apply resCanon_next | assumption

theorem execCScne_canon (core : Nat) (w : CurdWord) (s : State) (h0 : Kept s) : ResCanon (execCScne core w s) := by
  rw [execCScne]
  with_reducible repeat' first
    | apply issue_canon | apply resCanon_next | assumption

theorem execCScltu_canon (core : Nat) (w : CurdWord) (s : State) (h0 : Kept s) : ResCanon (execCScltu core w s) := by
  rw [execCScltu]
  with_reducible repeat' first
    | apply issue_canon | apply resCanon_next | assumption

theorem execCSclts_canon (core : Nat) (w : CurdWord) (s : State) (h0 : Kept s) : ResCanon (execCSclts core w s) := by
  rw [execCSclts]
  with_reducible repeat' first
    | apply issue_canon | apply resCanon_next | assumption

theorem execCScgeu_canon (core : Nat) (w : CurdWord) (s : State) (h0 : Kept s) : ResCanon (execCScgeu core w s) := by
  rw [execCScgeu]
  with_reducible repeat' first
    | apply issue_canon | apply resCanon_next | assumption

theorem execCScges_canon (core : Nat) (w : CurdWord) (s : State) (h0 : Kept s) : ResCanon (execCScges core w s) := by
  rw [execCScges]
  with_reducible repeat' first
    | apply issue_canon | apply resCanon_next | assumption

theorem execCSld_canon (core : Nat) (w : CurdWord) (s : State) (h0 : Kept s) : ResCanon (execCSld core w s) := by
  rw [execCSld]
  with_reducible repeat' first
    | apply issue_canon | apply resCanon_next | assumption

theorem execCSst_canon (core : Nat) (w : CurdWord) (s : State) (h0 : Kept s) : ResCanon (execCSst core w s) := by
  rw [execCSst]
  with_reducible repeat' first
    | apply issue_canon | apply resCanon_next | assumption

theorem execCBr_canon (core : Nat) (w : CurdWord) (s : State) (h0 : Kept s) : ResCanon (execCBr core w s) := by
  rw [execCBr]
  with_reducible repeat' first
    | apply issue_canon | apply resCanon_next | assumption

theorem execCLoop_canon (core : Nat) (w : CurdWord) (s : State) (h0 : Kept s) : ResCanon (execCLoop core w s) := by
  rw [execCLoop]
  with_reducible repeat' first
    | apply issue_canon | apply resCanon_next | assumption

theorem execCScyc_canon (core : Nat) (w : CurdWord) (s : State) (h0 : Kept s) : ResCanon (execCScyc core w s) := by
  rw [execCScyc]
  with_reducible repeat' first
    | apply issue_canon | apply resCanon_next | assumption

theorem execLibraryPacket_canon (core : Nat) (s : State) (h0 : Kept s) : ResCanon (execLibraryPacket core s) := by
  rw [execLibraryPacket]
  with_reducible repeat' first
    | ((try lift_lets); intro x; clear_value x) | apply popIntake_canon | apply libData_canon | apply lostMark_canon
    | apply closeCall_canon | apply judge_canon | apply afterPacket_canon | apply hbmWake_canon | apply resCanon_next
    | exact optPairCanon_none | apply optPairCanon_some | assumption | split
    | refine canon_of_optPair (by assumption) ?_ | refine canon_of_optPair' (by assumption) ?_
    | refine canon_of_took (by assumption) ?_

theorem execCallLimitExpire_canon (core : Nat) (s : State) (h0 : Kept s) : ResCanon (execCallLimitExpire core s) := by
  rw [execCallLimitExpire]
  with_reducible repeat' first
    | ((try lift_lets); intro x; clear_value x) | apply refuseCall_canon | apply closePgather_canon
    | apply endCall_canon | apply resCanon_next | assumption | split

theorem execPgatherReserve_canon (core : Nat) (s : State) (h0 : Kept s) : ResCanon (execPgatherReserve core s) := by
  rw [execPgatherReserve]
  with_reducible repeat' first
    | apply pgReserve_canon | apply resCanon_next | assumption | split

theorem execCallAgather_canon (core : Nat) (s : State) (h0 : Kept s) : ResCanon (execCallAgather core s) := by
  rw [execCallAgather]
  with_reducible repeat' first
    | apply takeCall_canon | apply resCanon_next | assumption

theorem execCallSort_canon (core : Nat) (s : State) (h0 : Kept s) : ResCanon (execCallSort core s) := by
  rw [execCallSort]
  with_reducible repeat' first
    | apply takeCall_canon | apply resCanon_next | assumption

theorem execCallFilter_canon (core : Nat) (s : State) (h0 : Kept s) : ResCanon (execCallFilter core s) := by
  rw [execCallFilter]
  with_reducible repeat' first
    | apply takeCall_canon | apply resCanon_next | assumption

theorem execCallTopk_canon (core : Nat) (s : State) (h0 : Kept s) : ResCanon (execCallTopk core s) := by
  rw [execCallTopk]
  with_reducible repeat' first
    | apply takeCall_canon | apply resCanon_next | assumption

theorem execCallDispatch_canon (core : Nat) (s : State) (h0 : Kept s) : ResCanon (execCallDispatch core s) := by
  rw [execCallDispatch]
  with_reducible repeat' first
    | apply takeCall_canon | apply resCanon_next | assumption

theorem execCallCombine_canon (core : Nat) (s : State) (h0 : Kept s) : ResCanon (execCallCombine core s) := by
  rw [execCallCombine]
  with_reducible repeat' first
    | apply takeCall_canon | apply resCanon_next | assumption

theorem execCallLsemerge_canon (core : Nat) (s : State) (h0 : Kept s) : ResCanon (execCallLsemerge core s) := by
  rw [execCallLsemerge]
  with_reducible repeat' first
    | apply takeCall_canon | apply resCanon_next | assumption

theorem execCallPgather_canon (core : Nat) (s : State) (h0 : Kept s) : ResCanon (execCallPgather core s) := by
  rw [execCallPgather]
  with_reducible repeat' first
    | apply takeCall_canon | apply resCanon_next | assumption

theorem execServerStop_canon (core : Nat) (s : State) (h0 : Kept s) : ResCanon (execServerStop core s) := by
  rw [execServerStop]
  with_reducible repeat' first
    | ((try lift_lets); intro x; clear_value x) | apply State.updCore_canon | refine forAll_canon (fun _ _ _ => ?_) ?_
    | apply resCanon_next | assumption | split

theorem execSwaitWake_canon (core : Nat) (s : State) (h0 : Kept s) : ResCanon (execSwaitWake core s) := by
  rw [execSwaitWake]
  with_reducible repeat' first
    | apply wakeSwait_canon | apply takeCall_canon | apply resCanon_next | assumption | split

theorem execRowScale_canon (core : Nat) (rs : RowStream) (s : State) (h0 : Kept s) :
    ResCanon (execRowScale core rs s) := by
  rw [execRowScale]
  with_reducible repeat' first
    | apply runRows_canon | apply resCanon_next | assumption

theorem execRowSum_canon (core : Nat) (rs : RowStream) (s : State) (h0 : Kept s) :
    ResCanon (execRowSum core rs s) := by
  rw [execRowSum]
  with_reducible repeat' first
    | apply runRows_canon | apply resCanon_next | assumption

theorem execBufferAllocate_canon (qd pool : Nat) (s : State) (h0 : Kept s) :
    ResCanon (execBufferAllocate qd pool s) := by
  rw [execBufferAllocate]
  with_reducible repeat' first
    | apply serveWaiter_canon | apply resCanon_next | assumption | split

theorem execPoolWrite_canon (req qd pool : Nat) (v : U64) (s : State) (h0 : Kept s) :
    ResCanon (execPoolWrite req qd pool v s) := by
  rw [execPoolWrite]
  with_reducible repeat' first
    | refine onPath_canon _ _ _ (fun _ _ => ?_) ?_ | refine onCellar_canon _ _ _ (fun _ _ => ?_) ?_
    | apply poolWrite_canon | apply resCanon_next | assumption | split

theorem execOpenPagesWrite_canon (req qd : Nat) (v : U64) (s : State) (h0 : Kept s) :
    ResCanon (execOpenPagesWrite req qd v s) := by
  rw [execOpenPagesWrite]
  with_reducible repeat' first
    | refine onPath_canon _ _ _ (fun _ _ => ?_) ?_ | refine onCellar_canon _ _ _ (fun _ _ => ?_) ?_
    | apply areaWrite_canon | apply resCanon_next | assumption

theorem execCelIndDataRead_canon (req qd : Nat) (s : State) (h0 : Kept s) :
    ResCanon (execCelIndDataRead req qd s) := by
  rw [execCelIndDataRead]
  with_reducible repeat' first
    | ((try lift_lets); intro x; (refine pairCanon_via x ?_ ?_; (on_goal 2 => (intro _; try clear_value x)); (on_goal 1 => unfold x)))
    | refine onPath_canon _ _ _ (fun _ _ => ?_) ?_ | apply indDataRead_canon | apply State.emit_canon
    | apply resCanon_next | assumption | split | apply pairCanon_mk | refine canon_of_pair (by assumption) ?_
    | apply canon_snd

theorem execCelIndDataWrite_canon (req qd : Nat) (v : U64) (s : State) (h0 : Kept s) :
    ResCanon (execCelIndDataWrite req qd v s) := by
  rw [execCelIndDataWrite]
  with_reducible repeat' first
    | refine onPath_canon _ _ _ (fun _ _ => ?_) ?_ | refine onCellar_canon _ _ _ (fun _ _ => ?_) ?_
    | apply indDataWrite_canon | apply resCanon_next | assumption

theorem execHbmReadDone_canon (qd page line : Nat) (use : HbmUse) (outcome : EccOutcome) (s : State) (h0 : Kept s) :
    ResCanon (execHbmReadDone qd page line use outcome s) := by
  rw [execHbmReadDone]
  with_reducible repeat' first
    | ((try lift_lets); intro x; first | (refine canon_via x ?_ ?_; (on_goal 2 => (intro _; try clear_value x)); (on_goal 1 => unfold x)) | clear_value x | skip)
    | apply useFailed_canon | apply refusePage_canon | apply wakeUnit_canon | apply queueBursts_canon
    | apply useLine_canon | apply hbmCheck_canon | apply resCanon_next | assumption | split

theorem execScrub_canon (stack pc : Nat) (outcome : EccOutcome) (s : State) (h0 : Kept s) :
    ResCanon (execScrub stack pc outcome s) := by
  rw [execScrub]
  with_reducible repeat' first
    | ((try lift_lets); intro x; first | (refine canon_via x ?_ ?_; (on_goal 2 => (intro _; try clear_value x)); (on_goal 1 => unfold x)) | clear_value x)
    | apply hbmCheck_canon | apply queueBursts_canon | apply resCanon_next | simp -zeta only [canon_mk] | assumption
    | split

theorem execAutoPark_canon (unit : Nat) (s : State) (h0 : Kept s) : ResCanon (execAutoPark unit s) := by
  rw [execAutoPark]
  with_reducible repeat' first
    | ((try lift_lets); intro x; clear_value x) | apply State.setPu_canon | apply resCanon_next | assumption | split

theorem execWakeComplete_canon (unit : Nat) (s : State) (h0 : Kept s) : ResCanon (execWakeComplete unit s) := by
  rw [execWakeComplete]
  with_reducible repeat' first
    | ((try lift_lets); intro x; first | (refine canon_via x ?_ ?_; (on_goal 2 => (intro _; try clear_value x)); (on_goal 1 => unfold x)) | clear_value x | skip)
    | apply loseLocal_canon | apply State.setPu_canon | apply laneGold_canon | apply settleAll_canon
    | apply darkLoses_canon | apply stackToSlate_canon | apply resCanon_next | assumption | split

theorem execDarkRequest_canon (req unit : Nat) (s : State) (h0 : Kept s) : ResCanon (execDarkRequest req unit s) := by
  rw [execDarkRequest]
  with_reducible repeat' first
    | refine onPath_canon _ _ _ (fun _ _ => ?_) ?_ | refine darkRow_canon _ _ _ _ (fun _ _ => ?_) ?_
    | apply darkBit_canon | apply resCanon_next | assumption | split

theorem execDarkExit_canon (req unit : Nat) (s : State) (h0 : Kept s) : ResCanon (execDarkExit req unit s) := by
  rw [execDarkExit]
  with_reducible repeat' first
    | refine onPath_canon _ _ _ (fun _ _ => ?_) ?_ | refine darkRow_canon _ _ _ _ (fun _ _ => ?_) ?_
    | apply darkBit_canon | apply resCanon_next | assumption | split

theorem execAvsUpdate_canon (qd mv temp : Nat) (s : State) (h0 : Kept s) : ResCanon (execAvsUpdate qd mv temp s) := by
  rw [execAvsUpdate]
  with_reducible repeat' first
    | apply tempCheck_canon | apply State.setFld_canon | apply resCanon_next | assumption | split

theorem execPmbusGo_canon (req : Nat) (v : U64) (s : State) (h0 : Kept s) : ResCanon (execPmbusGo req v s) := by
  rw [execPmbusGo]
  with_reducible repeat' first
    | refine onPath_canon _ _ _ (fun _ _ => ?_) ?_ | apply pmbWrite_canon | apply resCanon_next | assumption | split

theorem execPmbusDone_canon (ok : Bool) (data : Nat) (s : State) (h0 : Kept s) :
    ResCanon (execPmbusDone ok data s) := by
  rw [execPmbusDone]
  with_reducible repeat' first
    | apply pmbEnd_canon | apply State.setFld_canon | apply resCanon_next | assumption | split

theorem execPmbAlert_canon (level : Bool) (s : State) (h0 : Kept s) : ResCanon (execPmbAlert level s) := by
  rw [execPmbAlert]
  with_reducible repeat' first
    | ((try lift_lets); intro x; clear_value x) | apply resCanon_next | simp -zeta only [canon_mk] | assumption

theorem execThermTrip_canon (stack : Bool) (temp : Nat) (s : State) (h0 : Kept s) :
    ResCanon (execThermTrip stack temp s) := by
  rw [execThermTrip]
  with_reducible repeat' first
    | ((try lift_lets); intro x; clear_value x) | apply resCanon_next | simp -zeta only [canon_mk] | assumption
    | split

theorem ctrlRow_canon (req page : Nat) (f : U64 → U64) (s : State) (h0 : Kept s) :
    ResCanon (ctrlRow req page f s) := by
  rw [ctrlRow]
  with_reducible repeat' first
    | refine onPath_canon _ _ _ (fun _ _ => ?_) ?_ | apply blkCtrlWrite_canon | apply resCanon_next | assumption
    | split

theorem execBlockReset_canon (req page : Nat) (s : State) (h0 : Kept s) : ResCanon (execBlockReset req page s) := by
  rw [execBlockReset]
  with_reducible repeat' first
    | apply ctrlRow_canon | apply resCanon_next | assumption

theorem execUnitEnable_canon (req page : Nat) (s : State) (h0 : Kept s) : ResCanon (execUnitEnable req page s) := by
  rw [execUnitEnable]
  with_reducible repeat' first
    | apply ctrlRow_canon | apply resCanon_next | assumption

theorem execDrainUnit_canon (req page : Nat) (s : State) (h0 : Kept s) : ResCanon (execDrainUnit req page s) := by
  rw [execDrainUnit]
  with_reducible repeat' first
    | apply ctrlRow_canon | apply resCanon_next | assumption

theorem execDrainCancel_canon (req page : Nat) (s : State) (h0 : Kept s) : ResCanon (execDrainCancel req page s) := by
  rw [execDrainCancel]
  with_reducible repeat' first
    | apply ctrlRow_canon | apply resCanon_next | assumption

theorem execForcedDisable_canon (req page : Nat) (s : State) (h0 : Kept s) :
    ResCanon (execForcedDisable req page s) := by
  rw [execForcedDisable]
  with_reducible repeat' first
    | apply ctrlRow_canon | apply resCanon_next | assumption

theorem execPoresetAssert_canon (s : State) (h0 : Kept s) : ResCanon (execPoresetAssert s) := by
  rw [execPoresetAssert]
  with_reducible repeat' first
    | ((try lift_lets); intro x; clear_value x) | apply resetModule_canon | apply resCanon_next
    | simp -zeta only [canon_mk] | assumption

theorem execPwrgoodFall_canon (s : State) (h0 : Kept s) : ResCanon (execPwrgoodFall s) := by
  rw [execPwrgoodFall]
  with_reducible repeat' first
    | ((try lift_lets); intro x; clear_value x) | apply resetModule_canon | apply resCanon_next
    | simp -zeta only [canon_mk] | assumption

theorem execPoresetRelease_canon (env : BootEnv) (s : State) (h0 : Kept s) : ResCanon (execPoresetRelease env s) := by
  rw [execPoresetRelease]
  with_reducible repeat' first
    | ((try lift_lets); intro x; first | (refine canon_via x ?_ ?_; (on_goal 2 => (intro _; try clear_value x)); (on_goal 1 => unfold x)) | clear_value x)
    | apply coldBoot_canon | apply resCanon_next | simp -zeta only [canon_mk] | assumption | split

theorem execPwrgoodRise_canon (env : BootEnv) (s : State) (h0 : Kept s) : ResCanon (execPwrgoodRise env s) := by
  rw [execPwrgoodRise]
  with_reducible repeat' first
    | ((try lift_lets); intro x; first | (refine canon_via x ?_ ?_; (on_goal 2 => (intro _; try clear_value x)); (on_goal 1 => unfold x)) | clear_value x)
    | apply coldBoot_canon | apply resCanon_next | simp -zeta only [canon_mk] | assumption | split

theorem execSysresetAssert_canon (s : State) (h0 : Kept s) : ResCanon (execSysresetAssert s) := by
  rw [execSysresetAssert]
  with_reducible repeat' first
    | ((try lift_lets); intro x; clear_value x) | apply resCanon_next | simp -zeta only [canon_mk] | assumption

theorem execSysresetRelease_canon (env : BootEnv) (s : State) (h0 : Kept s) :
    ResCanon (execSysresetRelease env s) := by
  rw [execSysresetRelease]
  with_reducible repeat' first
    | ((try lift_lets); intro x; first | (refine canon_via x ?_ ?_; (on_goal 2 => (intro _; try clear_value x)); (on_goal 1 => unfold x)) | clear_value x)
    | apply drawNonce_canon | apply resetModule_canon | apply haltBoot_canon | apply runSlots_canon
    | apply resCanon_next | simp -zeta only [canon_mk] | assumption | split

theorem rntRow_canon (cmd req : Nat) (v : U64) (s : State) (h0 : Kept s) : ResCanon (rntRow cmd req v s) := by
  rw [rntRow]
  with_reducible repeat' first
    | refine onPath_canon _ _ _ (fun _ _ => ?_) ?_ | apply rntCmdWrite_canon | apply resCanon_next | assumption
    | split

theorem execExtend_canon (req : Nat) (v : U64) (s : State) (h0 : Kept s) : ResCanon (execExtend req v s) := by
  rw [execExtend]
  with_reducible repeat' first
    | apply rntRow_canon | apply resCanon_next | assumption

theorem execAttest_canon (req : Nat) (v : U64) (s : State) (h0 : Kept s) : ResCanon (execAttest req v s) := by
  rw [execAttest]
  with_reducible repeat' first
    | apply rntRow_canon | apply resCanon_next | assumption

theorem execUnlock_canon (req : Nat) (v : U64) (s : State) (h0 : Kept s) : ResCanon (execUnlock req v s) := by
  rw [execUnlock]
  with_reducible repeat' first
    | apply rntRow_canon | apply resCanon_next | assumption

theorem execSvnAdv_canon (req : Nat) (v : U64) (s : State) (h0 : Kept s) : ResCanon (execSvnAdv req v s) := by
  rw [execSvnAdv]
  with_reducible repeat' first
    | apply rntRow_canon | apply resCanon_next | assumption

theorem execRevoke_canon (req : Nat) (v : U64) (s : State) (h0 : Kept s) : ResCanon (execRevoke req v s) := by
  rw [execRevoke]
  with_reducible repeat' first
    | apply rntRow_canon | apply resCanon_next | assumption

theorem execRecGo_canon (req : Nat) (v : U64) (s : State) (h0 : Kept s) : ResCanon (execRecGo req v s) := by
  rw [execRecGo]
  with_reducible repeat' first
    | apply rntRow_canon | apply resCanon_next | assumption

theorem execRecData_canon (req : Nat) (v : U64) (s : State) (h0 : Kept s) : ResCanon (execRecData req v s) := by
  rw [execRecData]
  with_reducible repeat' first
    | refine onPath_canon _ _ _ (fun _ _ => ?_) ?_ | apply recDataWrite_canon | apply resCanon_next | assumption

theorem execRennetCmdDone_canon (bodyOk : Bool) (s : State) (h0 : Kept s) :
    ResCanon (execRennetCmdDone bodyOk s) := by
  rw [execRennetCmdDone]
  with_reducible repeat' first
    | ((try lift_lets); intro x; first | (refine canon_via x ?_ ?_; (on_goal 2 => (intro _; try clear_value x)); (on_goal 1 => unfold x)) | clear_value x)
    | apply rntEffect_canon | apply State.setFld_canon | apply resCanon_next | simp -zeta only [canon_mk] | assumption
    | split

theorem execPciePerstAssert_canon (s : State) (h0 : Kept s) : ResCanon (execPciePerstAssert s) := by
  rw [execPciePerstAssert]
  with_reducible repeat' first
    | ((try lift_lets); intro x; first | (refine canon_via x ?_ ?_; (on_goal 2 => (intro _; try clear_value x)); (on_goal 1 => unfold x)) | clear_value x)
    | apply clearPage_canon | apply resCanon_next | simp -zeta only [canon_mk] | assumption

theorem execPciePerstRelease_canon (s : State) (h0 : Kept s) : ResCanon (execPciePerstRelease s) := by
  rw [execPciePerstRelease]
  with_reducible repeat' first
    | ((try lift_lets); intro x; clear_value x) | apply resCanon_next | simp -zeta only [canon_mk] | assumption

theorem execPcieLink_canon (up : Bool) (speed width : Nat) (s : State) (h0 : Kept s) :
    ResCanon (execPcieLink up speed width s) := by
  rw [execPcieLink]
  with_reducible repeat' first
    | ((try lift_lets); intro x; (refine canon_via x ?_ ?_; (on_goal 2 => (intro _; try clear_value x)); (on_goal 1 => unfold x)))
    | apply State.setFld_canon | apply raiseEv_canon | apply resCanon_next | assumption | split

theorem execPcieFlr_canon (s : State) (h0 : Kept s) : ResCanon (execPcieFlr s) := by
  rw [execPcieFlr]
  with_reducible repeat' first
    | apply raiseEv_canon | apply resCanon_next | assumption | split

theorem execMgmtPortFrame_canon (received : Bool) (frame : List Byte) (s : State) (h0 : Kept s) :
    ResCanon (execMgmtPortFrame received frame s) := by
  rw [execMgmtPortFrame]
  with_reducible repeat' first
    | ((try lift_lets); intro x; clear_value x) | apply raiseEv_canon | apply State.emit_canon | apply resCanon_next
    | simp -zeta only [canon_mk] | assumption | split

theorem xspiRow_canon (op req : Nat) (v : U64) (s : State) (h0 : Kept s) : ResCanon (xspiRow op req v s) := by
  rw [xspiRow]
  with_reducible repeat' first
    | refine onPath_canon _ _ _ (fun _ _ => ?_) ?_ | apply xspiCmdWrite_canon | apply resCanon_next | assumption
    | split

theorem execXspiRead_canon (req : Nat) (v : U64) (s : State) (h0 : Kept s) : ResCanon (execXspiRead req v s) := by
  rw [execXspiRead]
  with_reducible repeat' first
    | apply xspiRow_canon | apply resCanon_next | assumption

theorem execXspiProgram_canon (req : Nat) (v : U64) (s : State) (h0 : Kept s) :
    ResCanon (execXspiProgram req v s) := by
  rw [execXspiProgram]
  with_reducible repeat' first
    | apply xspiRow_canon | apply resCanon_next | assumption

theorem execXspiErase_canon (req : Nat) (v : U64) (s : State) (h0 : Kept s) : ResCanon (execXspiErase req v s) := by
  rw [execXspiErase]
  with_reducible repeat' first
    | apply xspiRow_canon | apply resCanon_next | assumption

theorem execXspiDone_canon (s : State) (h0 : Kept s) : ResCanon (execXspiDone s) := by
  rw [execXspiDone]
  with_reducible repeat' first
    | ((try lift_lets); intro x; first | (refine canon_via x ?_ ?_; (on_goal 2 => (intro _; try clear_value x)); (on_goal 1 => unfold x)) | clear_value x)
    | apply xspiEffect_canon | apply raiseEv_canon | apply State.setFld_canon | apply resCanon_next
    | simp -zeta only [canon_mk] | assumption | split

theorem execTwinModeSet_canon (req : Nat) (v : U64) (s : State) (h0 : Kept s) :
    ResCanon (execTwinModeSet req v s) := by
  rw [execTwinModeSet]
  with_reducible repeat' first
    | refine onPath_canon _ _ _ (fun _ _ => ?_) ?_ | apply twnCfgWrite_canon | apply resCanon_next | assumption
    | split

theorem execTwinUnpair_canon (req : Nat) (v : U64) (s : State) (h0 : Kept s) : ResCanon (execTwinUnpair req v s) := by
  rw [execTwinUnpair]
  with_reducible repeat' first
    | refine onPath_canon _ _ _ (fun _ _ => ?_) ?_ | apply twnCfgWrite_canon | apply resCanon_next | assumption
    | split

theorem execTakeover_canon (req : Nat) (s : State) (h0 : Kept s) : ResCanon (execTakeover req s) := by
  rw [execTakeover]
  with_reducible repeat' first
    | refine onPath_canon _ _ _ (fun _ _ => ?_) ?_ | apply twnCmdWrite_canon | apply resCanon_next | assumption

theorem execSolo_canon (req : Nat) (s : State) (h0 : Kept s) : ResCanon (execSolo req s) := by
  rw [execSolo]
  with_reducible repeat' first
    | refine onPath_canon _ _ _ (fun _ _ => ?_) ?_ | apply twnCmdWrite_canon | apply resCanon_next | assumption

theorem execRejoin_canon (req : Nat) (s : State) (h0 : Kept s) : ResCanon (execRejoin req s) := by
  rw [execRejoin]
  with_reducible repeat' first
    | refine onPath_canon _ _ _ (fun _ _ => ?_) ?_ | apply twnCmdWrite_canon | apply resCanon_next | assumption

theorem execHeart_canon (port : Nat) (p : Packet) (s : State) (h0 : Kept s) : ResCanon (execHeart port p s) := by
  rw [execHeart]
  with_reducible repeat' first
    | apply twinPacket_canon | apply resCanon_next | assumption

theorem execDigest_canon (port : Nat) (p : Packet) (s : State) (h0 : Kept s) : ResCanon (execDigest port p s) := by
  rw [execDigest]
  with_reducible repeat' first
    | apply twinPacket_canon | apply resCanon_next | assumption

theorem execTwinCfg_canon (port : Nat) (p : Packet) (s : State) (h0 : Kept s) : ResCanon (execTwinCfg port p s) := by
  rw [execTwinCfg]
  with_reducible repeat' first
    | apply twinPacket_canon | apply resCanon_next | assumption

theorem execTwinEpoch_canon (port : Nat) (p : Packet) (s : State) (h0 : Kept s) :
    ResCanon (execTwinEpoch port p s) := by
  rw [execTwinEpoch]
  with_reducible repeat' first
    | apply twinPacket_canon | apply resCanon_next | assumption

theorem execTwinOpen_canon (port : Nat) (p : Packet) (s : State) (h0 : Kept s) :
    ResCanon (execTwinOpen port p s) := by
  rw [execTwinOpen]
  with_reducible repeat' first
    | apply twinPacket_canon | apply resCanon_next | assumption

theorem execTwinDone_canon (port : Nat) (p : Packet) (s : State) (h0 : Kept s) :
    ResCanon (execTwinDone port p s) := by
  rw [execTwinDone]
  with_reducible repeat' first
    | apply twinPacket_canon | apply resCanon_next | assumption

theorem execTwinAbort_canon (port : Nat) (p : Packet) (s : State) (h0 : Kept s) :
    ResCanon (execTwinAbort port p s) := by
  rw [execTwinAbort]
  with_reducible repeat' first
    | apply twinPacket_canon | apply resCanon_next | assumption

theorem execHeartTimer_canon (s : State) (h0 : Kept s) : ResCanon (execHeartTimer s) := by
  rw [execHeartTimer]
  with_reducible repeat' first
    | ((try lift_lets); intro x; clear_value x) | apply setTwin_canon | apply originate_canon | apply resCanon_next
    | assumption | split

theorem execTwinResend_canon (s : State) (h0 : Kept s) : ResCanon (execTwinResend s) := by
  rw [execTwinResend]
  with_reducible repeat' first
    | apply resendEntry_canon | refine forAll_canon (fun _ _ _ => ?_) ?_ | apply resCanon_next | assumption | split

theorem execTwinLost_canon (s : State) (h0 : Kept s) : ResCanon (execTwinLost s) := by
  rw [execTwinLost]
  with_reducible repeat' first
    | ((try lift_lets); intro x; (refine canon_via x ?_ ?_; (on_goal 2 => (intro _; try clear_value x)); (on_goal 1 => unfold x)))
    | apply leavePaired_canon | apply reportOwnOpen_canon | apply raiseEv_canon | apply setTwState_canon
    | apply takeOver_canon | apply resCanon_next | assumption | split

theorem execDigWaitExpire_canon (k : Key) (s : State) (h0 : Kept s) : ResCanon (execDigWaitExpire k s) := by
  rw [execDigWaitExpire]
  with_reducible repeat' first
    | apply releaseUnverified_canon | apply resCanon_next | assumption | split

theorem execRegisterWrite_canon (req addr : Nat) (v : U64) (s : State) (h0 : Kept s) :
    ResCanon (execRegisterWrite req addr v s) := by
  rw [execRegisterWrite]
  with_reducible repeat' first
    | refine onPath_canon _ _ _ (fun _ _ => ?_) ?_ | apply busWrite_canon | apply resCanon_next | assumption

theorem execCounterClear_canon (req addr : Nat) (v : U64) (s : State) (h0 : Kept s) :
    ResCanon (execCounterClear req addr v s) := by
  rw [execCounterClear]
  with_reducible repeat' first
    | refine onPath_canon _ _ _ (fun _ _ => ?_) ?_ | apply busWrite_canon | apply resCanon_next | assumption | split

theorem execMgmtRead_canon (port : Nat) (p : Packet) (s : State) (h0 : Kept s) :
    ResCanon (execMgmtRead port p s) := by
  rw [execMgmtRead]
  with_reducible repeat' first
    | apply mgmtRequest_canon | apply resCanon_next | assumption | split

theorem execMgmtWrite_canon (port : Nat) (p : Packet) (s : State) (h0 : Kept s) :
    ResCanon (execMgmtWrite port p s) := by
  rw [execMgmtWrite]
  with_reducible repeat' first
    | apply mgmtRequest_canon | apply resCanon_next | assumption | split

theorem execI3cPrivateWrite_canon (target addr : Nat) (v : U64) (s : State) (h0 : Kept s) :
    ResCanon (execI3cPrivateWrite target addr v s) := by
  rw [execI3cPrivateWrite]
  with_reducible repeat' first
    | ((try lift_lets); intro x; first | (refine canon_via x ?_ ?_; (on_goal 2 => (intro _; try clear_value x)); (on_goal 1 => unfold x)) | clear_value x)
    | refine onPath_canon _ _ _ (fun _ _ => ?_) ?_ | apply i3cDone_canon | apply busWrite_canon | apply resCanon_next
    | simp -zeta only [canon_mk] | assumption | split

theorem execI3cPrivateRead_canon (target : Nat) (s : State) (h0 : Kept s) :
    ResCanon (execI3cPrivateRead target s) := by
  rw [execI3cPrivateRead]
  with_reducible repeat' first
    | ((try lift_lets); intro x; (refine pairCanon_via x ?_ ?_; (on_goal 2 => (intro _; try clear_value x)); (on_goal 1 => unfold x)))
    | refine onPath_canon _ _ _ (fun _ _ => ?_) ?_ | apply busRead_canon | apply i3cDone_canon
    | apply State.emit_canon | apply resCanon_next | assumption | split | apply pairCanon_mk
    | refine canon_of_pair (by assumption) ?_ | apply canon_snd

theorem execI3cDynamicAddress_canon (da : Nat) (s : State) (h0 : Kept s) : ResCanon (execI3cDynamicAddress da s) := by
  rw [execI3cDynamicAddress]
  with_reducible repeat' first
    | ((try lift_lets); intro x; clear_value x) | apply resCanon_next | simp -zeta only [canon_mk] | assumption

theorem execJtagAccess_canon (isWrite : Bool) (addr : Nat) (v : U64) (s : State) (h0 : Kept s) :
    ResCanon (execJtagAccess isWrite addr v s) := by
  rw [execJtagAccess]
  with_reducible repeat' first
    | ((try lift_lets); intro x; first | (refine canon_via x ?_ ?_; (on_goal 2 => (intro _; try clear_value x)); (on_goal 1 => unfold x)) | (refine pairCanon_via x ?_ ?_; (on_goal 2 => (intro _; try clear_value x)); (on_goal 1 => unfold x)) | clear_value x | skip)
    | refine onPath_canon _ _ _ (fun _ _ => ?_) ?_ | apply busWrite_canon | apply busRead_canon
    | apply State.emit_canon | apply resCanon_next | assumption | split | apply pairCanon_mk
    | refine canon_of_pair (by assumption) ?_ | apply canon_snd

end Sys2Proof.Machine
end

