-- ==== Sys2Proof/Laws/PerInstr.lean ====
section
/-!
SUPPORT. One lemma per constructor of Instr: what `encodeCurd` says of it. Whatever it gives a word for is the instruction
that the opcode table of R241 has under the opcode of that word, and is well formed exactly when its core and fields are.
-/
namespace Sys2Proof.Laws.Family

/-- A word that the encoder gives for `i` carries an opcode of one byte, under which R241 has `i` itself. -/
def Statement (i : Instr) : Prop :=
  ∀ x, encodeCurd i = some x → ∃ core op w, op < 256 ∧ curdInstr core op w = some i ∧ x = curdBits op w ∧
    i.wf = (decide (core < 256) && curdOk w)

theorem registerWrite (req addr : Nat) (v : U64) : Statement (.registerWrite req addr v) := by
  intro x h; cases h

theorem unalignedAccess (req addr size : Nat) (isWrite : Bool) : Statement (.unalignedAccess req addr size isWrite) := by
  intro x h; cases h

theorem counterClear (req addr : Nat) (v : U64) : Statement (.counterClear req addr v) := by
  intro x h; cases h

theorem errCntClear (req page : Nat) : Statement (.errCntClear req page) := by
  intro x h; cases h

theorem eventTest (req page : Nat) (v : U64) : Statement (.eventTest req page v) := by
  intro x h; cases h

theorem blockReset (req page : Nat) : Statement (.blockReset req page) := by
  intro x h; cases h

theorem unitEnable (req page : Nat) : Statement (.unitEnable req page) := by
  intro x h; cases h

theorem drainUnit (req page : Nat) : Statement (.drainUnit req page) := by
  intro x h; cases h

theorem drainCancel (req page : Nat) : Statement (.drainCancel req page) := by
  intro x h; cases h

theorem forcedDisable (req page : Nat) : Statement (.forcedDisable req page) := by
  intro x h; cases h

theorem portUpReq (req lane : Nat) (v : U64) : Statement (.portUpReq req lane v) := by
  intro x h; cases h

theorem portDownReq (req lane : Nat) (v : U64) : Statement (.portDownReq req lane v) := by
  intro x h; cases h

theorem pmdTrainingDone (port : Nat) (ok : Bool) : Statement (.pmdTrainingDone port ok) := by
  intro x h; cases h

theorem fecLock (port : Nat) : Statement (.fecLock port) := by
  intro x h; cases h

theorem helloTimer (port : Nat) : Statement (.helloTimer port) := by
  intro x h; cases h

theorem helloFrame (port : Nat) (f : Rx Lctl) : Statement (.helloFrame port f) := by
  intro x h; cases h

theorem echoReqFrame (port : Nat) (f : Rx Lctl) : Statement (.echoReqFrame port f) := by
  intro x h; cases h

theorem echoRspFrame (port : Nat) (f : Rx Lctl) : Statement (.echoRspFrame port f) := by
  intro x h; cases h

theorem bringupStepTimeout (port : Nat) : Statement (.bringupStepTimeout port) := by
  intro x h; cases h

theorem bringupRetry (port : Nat) : Statement (.bringupRetry port) := by
  intro x h; cases h

theorem stateFrame (port : Nat) (f : Rx Lctl) : Statement (.stateFrame port f) := by
  intro x h; cases h

theorem stateSend (port : Nat) : Statement (.stateSend port) := by
  intro x h; cases h

theorem packetArrive (port : Nat) (cls : RxClass) (fec : RxFec) (p : Packet) : Statement (.packetArrive port cls fec p) := by
  intro x h; cases h

theorem nakTimerExpire (port : Nat) : Statement (.nakTimerExpire port) := by
  intro x h; cases h

theorem nakFrame (port : Nat) (f : Rx Lctl) : Statement (.nakFrame port f) := by
  intro x h; cases h

theorem replayDone (port : Nat) : Statement (.replayDone port) := by
  intro x h; cases h

theorem ackTimerExpire (port : Nat) : Statement (.ackTimerExpire port) := by
  intro x h; cases h

theorem lctlSilenceTimeout (port : Nat) : Statement (.lctlSilenceTimeout port) := by
  intro x h; cases h

theorem downFrame (port : Nat) (f : Rx Lctl) : Statement (.downFrame port f) := by
  intro x h; cases h

theorem lrefclkLoss (clock : Nat) : Statement (.lrefclkLoss clock) := by
  intro x h; cases h

theorem creditGrant (port vc : Nat) : Statement (.creditGrant port vc) := by
  intro x h; cases h

theorem switchEntry (unit vc n : Nat) (par : Parity) : Statement (.switchEntry unit vc n par) := by
  intro x h; cases h

theorem packetSend (port : Nat) (abort : Bool) : Statement (.packetSend port abort) := by
  intro x h; cases h

theorem replayCopyDone (port : Nat) : Statement (.replayCopyDone port) := by
  intro x h; cases h

theorem mgmtRead (port : Nat) (p : Packet) : Statement (.mgmtRead port p) := by
  intro x h; cases h

theorem mgmtWrite (port : Nat) (p : Packet) : Statement (.mgmtWrite port p) := by
  intro x h; cases h

theorem responseDelivery (port : Nat) (p : Packet) : Statement (.responseDelivery port p) := by
  intro x h; cases h

theorem portSnapshot (req port : Nat) : Statement (.portSnapshot req port) := by
  intro x h; cases h

theorem telemetryClear (req port : Nat) : Statement (.telemetryClear req port) := by
  intro x h; cases h

theorem highWaterReset (req port vc : Nat) : Statement (.highWaterReset req port vc) := by
  intro x h; cases h

theorem ethernetFrame (port : Nat) (f : Rx EthFrame) : Statement (.ethernetFrame port f) := by
  intro x h; cases h

theorem macAgeOut (vid mac : Nat) : Statement (.macAgeOut vid mac) := by
  intro x h; cases h

theorem pfcFrame (port prio : Nat) (quanta : Rx Nat) : Statement (.pfcFrame port prio quanta) := by
  intro x h; cases h

theorem pfcPauseExpire (port prio : Nat) : Statement (.pfcPauseExpire port prio) := by
  intro x h; cases h

theorem pfcRefresh (port prio : Nat) : Statement (.pfcRefresh port prio) := by
  intro x h; cases h

theorem cdnPauseLimit (port : Nat) : Statement (.cdnPauseLimit port) := by
  intro x h; cases h

theorem cwrite (port : Nat) (p : Packet) : Statement (.cwrite port p) := by
  intro x h; cases h

theorem cnode (port : Nat) (p : Packet) : Statement (.cnode port p) := by
  intro x h; cases h

theorem maskReadDone (k : Key) (ok : Bool) : Statement (.maskReadDone k ok) := by
  intro x h; cases h

theorem pressAdd (array : Nat) (par : Parity) : Statement (.pressAdd array par) := by
  intro x h; cases h

theorem accumAdd (group block : Nat) : Statement (.accumAdd group block) := by
  intro x h; cases h

theorem cresult (port : Nat) (p : Packet) : Statement (.cresult port p) := by
  intro x h; cases h

theorem failureStatus (port : Nat) (p : Packet) : Statement (.failureStatus port p) := by
  intro x h; cases h

theorem itemTimeout (core n : Nat) : Statement (.itemTimeout core n) := by
  intro x h; cases h

theorem groupEnable (req group : Nat) (v : U64) : Statement (.groupEnable req group v) := by
  intro x h; cases h

theorem scopeValidationDone (group : Nat) : Statement (.scopeValidationDone group) := by
  intro x h; cases h

theorem groupDisable (req group : Nat) (v : U64) : Statement (.groupDisable req group v) := by
  intro x h; cases h

theorem epochClose (req group : Nat) : Statement (.epochClose req group) := by
  intro x h; cases h

theorem accumRelease (req group : Nat) : Statement (.accumRelease req group) := by
  intro x h; cases h

theorem migrate (req group qd : Nat) : Statement (.migrate req group qd) := by
  intro x h; cases h

theorem migrateCopyDone (group : Nat) : Statement (.migrateCopyDone group) := by
  intro x h; cases h

theorem syncInEdge : Statement (.syncInEdge) := by
  intro x h; cases h

theorem deferredBoundary (group : Nat) : Statement (.deferredBoundary group) := by
  intro x h; cases h

theorem epochMaxTimeout (group : Nat) : Statement (.epochMaxTimeout group) := by
  intro x h; cases h

theorem chainStart (qd : Nat) (par : Parity) : Statement (.chainStart qd par) := by
  intro x h; cases h

theorem chainSendDone (chain : Nat) : Statement (.chainSendDone chain) := by
  intro x h; cases h

theorem vatStart (req vat desc : Nat) : Statement (.vatStart req vat desc) := by
  intro x h; cases h

theorem programStart (vat : Nat) : Statement (.programStart vat) := by
  intro x h; cases h

theorem cacheFillDone (core : Nat) (par : Parity) : Statement (.cacheFillDone core par) := by
  intro x h; cases h

theorem cacheInvalidate (req vat : Nat) (v : U64) : Statement (.cacheInvalidate req vat v) := by
  intro x h; cases h

theorem instructionStart (core : Nat) (par : Parity) : Statement (.instructionStart core par) := by
  intro x h; cases h

theorem instructionComplete (core : Nat) : Statement (.instructionComplete core) := by
  intro x h; cases h

theorem budgetExhausted (core : Nat) : Statement (.budgetExhausted core) := by
  intro x h; cases h

theorem programEnd (core : Nat) : Statement (.programEnd core) := by
  intro x h; cases h

theorem coreStop (req vat mask : Nat) : Statement (.coreStop req vat mask) := by
  intro x h; cases h

theorem coreClear (req vat mask : Nat) : Statement (.coreClear req vat mask) := by
  intro x h; cases h

theorem inboundDelivery (port : Nat) (p : Packet) : Statement (.inboundDelivery port p) := by
  intro x h; cases h

theorem swaitWake (core : Nat) : Statement (.swaitWake core) := by
  intro x h; cases h

theorem cAdd (core : Nat) (w : CurdWord) : Statement (.cAdd core w) := by
  intro x h; cases h; exact ⟨core, 0x10, w, by decide, rfl, rfl, rfl⟩

theorem cSub (core : Nat) (w : CurdWord) : Statement (.cSub core w) := by
  intro x h; cases h; exact ⟨core, 0x11, w, by decide, rfl, rfl, rfl⟩

theorem cMul (core : Nat) (w : CurdWord) : Statement (.cMul core w) := by
  intro x h; cases h; exact ⟨core, 0x12, w, by decide, rfl, rfl, rfl⟩

theorem cFma (core : Nat) (w : CurdWord) : Statement (.cFma core w) := by
  intro x h; cases h; exact ⟨core, 0x13, w, by decide, rfl, rfl, rfl⟩

theorem cMax (core : Nat) (w : CurdWord) : Statement (.cMax core w) := by
  intro x h; cases h; exact ⟨core, 0x14, w, by decide, rfl, rfl, rfl⟩

theorem cMin (core : Nat) (w : CurdWord) : Statement (.cMin core w) := by
  intro x h; cases h; exact ⟨core, 0x15, w, by decide, rfl, rfl, rfl⟩

theorem cCmp (core : Nat) (w : CurdWord) : Statement (.cCmp core w) := by
  intro x h; cases h; exact ⟨core, 0x16, w, by decide, rfl, rfl, rfl⟩

theorem cSel (core : Nat) (w : CurdWord) : Statement (.cSel core w) := by
  intro x h; cases h; exact ⟨core, 0x17, w, by decide, rfl, rfl, rfl⟩

theorem cCvt (core : Nat) (w : CurdWord) : Statement (.cCvt core w) := by
  intro x h; cases h; exact ⟨core, 0x18, w, by decide, rfl, rfl, rfl⟩

theorem cRsum (core : Nat) (w : CurdWord) : Statement (.cRsum core w) := by
  intro x h; cases h; exact ⟨core, 0x19, w, by decide, rfl, rfl, rfl⟩

theorem cRmax (core : Nat) (w : CurdWord) : Statement (.cRmax core w) := by
  intro x h; cases h; exact ⟨core, 0x1A, w, by decide, rfl, rfl, rfl⟩

theorem cExp2 (core : Nat) (w : CurdWord) : Statement (.cExp2 core w) := by
  intro x h; cases h; exact ⟨core, 0x1B, w, by decide, rfl, rfl, rfl⟩

theorem cLog2 (core : Nat) (w : CurdWord) : Statement (.cLog2 core w) := by
  intro x h; cases h; exact ⟨core, 0x1C, w, by decide, rfl, rfl, rfl⟩

theorem cRcp (core : Nat) (w : CurdWord) : Statement (.cRcp core w) := by
  intro x h; cases h; exact ⟨core, 0x1D, w, by decide, rfl, rfl, rfl⟩

theorem cRsq (core : Nat) (w : CurdWord) : Statement (.cRsq core w) := by
  intro x h; cases h; exact ⟨core, 0x1E, w, by decide, rfl, rfl, rfl⟩

theorem cIadd (core : Nat) (w : CurdWord) : Statement (.cIadd core w) := by
  intro x h; cases h; exact ⟨core, 0x20, w, by decide, rfl, rfl, rfl⟩

theorem cIsub (core : Nat) (w : CurdWord) : Statement (.cIsub core w) := by
  intro x h; cases h; exact ⟨core, 0x21, w, by decide, rfl, rfl, rfl⟩

theorem cAnd (core : Nat) (w : CurdWord) : Statement (.cAnd core w) := by
  intro x h; cases h; exact ⟨core, 0x22, w, by decide, rfl, rfl, rfl⟩

theorem cOr (core : Nat) (w : CurdWord) : Statement (.cOr core w) := by
  intro x h; cases h; exact ⟨core, 0x23, w, by decide, rfl, rfl, rfl⟩

theorem cXor (core : Nat) (w : CurdWord) : Statement (.cXor core w) := by
  intro x h; cases h; exact ⟨core, 0x24, w, by decide, rfl, rfl, rfl⟩

theorem cShl (core : Nat) (w : CurdWord) : Statement (.cShl core w) := by
  intro x h; cases h; exact ⟨core, 0x25, w, by decide, rfl, rfl, rfl⟩

theorem cShr (core : Nat) (w : CurdWord) : Statement (.cShr core w) := by
  intro x h; cases h; exact ⟨core, 0x26, w, by decide, rfl, rfl, rfl⟩

theorem cIcmp (core : Nat) (w : CurdWord) : Statement (.cIcmp core w) := by
  intro x h; cases h; exact ⟨core, 0x27, w, by decide, rfl, rfl, rfl⟩

theorem cMov (core : Nat) (w : CurdWord) : Statement (.cMov core w) := by
  intro x h; cases h; exact ⟨core, 0x28, w, by decide, rfl, rfl, rfl⟩

theorem cCompact (core : Nat) (w : CurdWord) : Statement (.cCompact core w) := by
  intro x h; cases h; exact ⟨core, 0x29, w, by decide, rfl, rfl, rfl⟩

theorem cGath (core : Nat) (w : CurdWord) : Statement (.cGath core w) := by
  intro x h; cases h; exact ⟨core, 0x2A, w, by decide, rfl, rfl, rfl⟩

theorem cScat (core : Nat) (w : CurdWord) : Statement (.cScat core w) := by
  intro x h; cases h; exact ⟨core, 0x2B, w, by decide, rfl, rfl, rfl⟩

theorem cKeyx (core : Nat) (w : CurdWord) : Statement (.cKeyx core w) := by
  intro x h; cases h; exact ⟨core, 0x30, w, by decide, rfl, rfl, rfl⟩

theorem cSortv (core : Nat) (w : CurdWord) : Statement (.cSortv core w) := by
  intro x h; cases h; exact ⟨core, 0x31, w, by decide, rfl, rfl, rfl⟩

theorem cMerge (core : Nat) (w : CurdWord) : Statement (.cMerge core w) := by
  intro x h; cases h; exact ⟨core, 0x32, w, by decide, rfl, rfl, rfl⟩

theorem cNop (core : Nat) (w : CurdWord) : Statement (.cNop core w) := by
  intro x h; cases h; exact ⟨core, 0x00, w, by decide, rfl, rfl, rfl⟩

theorem cAsend (core : Nat) (w : CurdWord) : Statement (.cAsend core w) := by
  intro x h; cases h; exact ⟨core, 0x40, w, by decide, rfl, rfl, rfl⟩

theorem cCpop (core : Nat) (w : CurdWord) : Statement (.cCpop core w) := by
  intro x h; cases h; exact ⟨core, 0x41, w, by decide, rfl, rfl, rfl⟩

theorem cSinc (core : Nat) (w : CurdWord) : Statement (.cSinc core w) := by
  intro x h; cases h; exact ⟨core, 0x42, w, by decide, rfl, rfl, rfl⟩

theorem cSwait (core : Nat) (w : CurdWord) : Statement (.cSwait core w) := by
  intro x h; cases h; exact ⟨core, 0x43, w, by decide, rfl, rfl, rfl⟩

theorem cBarrier (core : Nat) (w : CurdWord) : Statement (.cBarrier core w) := by
  intro x h; cases h; exact ⟨core, 0x44, w, by decide, rfl, rfl, rfl⟩

theorem cOhdr (core : Nat) (w : CurdWord) : Statement (.cOhdr core w) := by
  intro x h; cases h; exact ⟨core, 0x45, w, by decide, rfl, rfl, rfl⟩

theorem cEnd (core : Nat) (w : CurdWord) : Statement (.cEnd core w) := by
  intro x h; cases h; exact ⟨core, 0x46, w, by decide, rfl, rfl, rfl⟩

theorem cSadd (core : Nat) (w : CurdWord) : Statement (.cSadd core w) := by
  intro x h; cases h; exact ⟨core, 0x50, w, by decide, rfl, rfl, rfl⟩

theorem cSsub (core : Nat) (w : CurdWord) : Statement (.cSsub core w) := by
  intro x h; cases h; exact ⟨core, 0x51, w, by decide, rfl, rfl, rfl⟩

theorem cSmul (core : Nat) (w : CurdWord) : Statement (.cSmul core w) := by
  intro x h; cases h; exact ⟨core, 0x52, w, by decide, rfl, rfl, rfl⟩

theorem cSand (core : Nat) (w : CurdWord) : Statement (.cSand core w) := by
  intro x h; cases h; exact ⟨core, 0x53, w, by decide, rfl, rfl, rfl⟩

theorem cSor (core : Nat) (w : CurdWord) : Statement (.cSor core w) := by
  intro x h; cases h; exact ⟨core, 0x54, w, by decide, rfl, rfl, rfl⟩

theorem cSxor (core : Nat) (w : CurdWord) : Statement (.cSxor core w) := by
  intro x h; cases h; exact ⟨core, 0x55, w, by decide, rfl, rfl, rfl⟩

theorem cSshl (core : Nat) (w : CurdWord) : Statement (.cSshl core w) := by
  intro x h; cases h; exact ⟨core, 0x56, w, by decide, rfl, rfl, rfl⟩

theorem cSshr (core : Nat) (w : CurdWord) : Statement (.cSshr core w) := by
  intro x h; cases h; exact ⟨core, 0x57, w, by decide, rfl, rfl, rfl⟩

theorem cSsra (core : Nat) (w : CurdWord) : Statement (.cSsra core w) := by
  intro x h; cases h; exact ⟨core, 0x58, w, by decide, rfl, rfl, rfl⟩

theorem cSceq (core : Nat) (w : CurdWord) : Statement (.cSceq core w) := by
  intro x h; cases h; exact ⟨core, 0x59, w, by decide, rfl, rfl, rfl⟩

theorem cScne (core : Nat) (w : CurdWord) : Statement (.cScne core w) := by
  intro x h; cases h; exact ⟨core, 0x5A, w, by decide, rfl, rfl, rfl⟩

theorem cScltu (core : Nat) (w : CurdWord) : Statement (.cScltu core w) := by
  intro x h; cases h; exact ⟨core, 0x5B, w, by decide, rfl, rfl, rfl⟩

theorem cSclts (core : Nat) (w : CurdWord) : Statement (.cSclts core w) := by
  intro x h; cases h; exact ⟨core, 0x5C, w, by decide, rfl, rfl, rfl⟩

theorem cScgeu (core : Nat) (w : CurdWord) : Statement (.cScgeu core w) := by
  intro x h; cases h; exact ⟨core, 0x5D, w, by decide, rfl, rfl, rfl⟩

theorem cScges (core : Nat) (w : CurdWord) : Statement (.cScges core w) := by
  intro x h; cases h; exact ⟨core, 0x5E, w, by decide, rfl, rfl, rfl⟩

theorem cSld (core : Nat) (w : CurdWord) : Statement (.cSld core w) := by
  intro x h; cases h; exact ⟨core, 0x60, w, by decide, rfl, rfl, rfl⟩

theorem cSst (core : Nat) (w : CurdWord) : Statement (.cSst core w) := by
  intro x h; cases h; exact ⟨core, 0x61, w, by decide, rfl, rfl, rfl⟩

theorem cBr (core : Nat) (w : CurdWord) : Statement (.cBr core w) := by
  intro x h; cases h; exact ⟨core, 0x68, w, by decide, rfl, rfl, rfl⟩

theorem cLoop (core : Nat) (w : CurdWord) : Statement (.cLoop core w) := by
  intro x h; cases h; exact ⟨core, 0x69, w, by decide, rfl, rfl, rfl⟩

theorem cScyc (core : Nat) (w : CurdWord) : Statement (.cScyc core w) := by
  intro x h; cases h; exact ⟨core, 0x6A, w, by decide, rfl, rfl, rfl⟩

theorem callAgather (core : Nat) : Statement (.callAgather core) := by
  intro x h; cases h

theorem callSort (core : Nat) : Statement (.callSort core) := by
  intro x h; cases h

theorem callFilter (core : Nat) : Statement (.callFilter core) := by
  intro x h; cases h

theorem callTopk (core : Nat) : Statement (.callTopk core) := by
  intro x h; cases h

theorem callDispatch (core : Nat) : Statement (.callDispatch core) := by
  intro x h; cases h

theorem callCombine (core : Nat) : Statement (.callCombine core) := by
  intro x h; cases h

theorem callLsemerge (core : Nat) : Statement (.callLsemerge core) := by
  intro x h; cases h

theorem callPgather (core : Nat) : Statement (.callPgather core) := by
  intro x h; cases h

theorem serverStop (core : Nat) : Statement (.serverStop core) := by
  intro x h; cases h

theorem libraryPacket (core : Nat) : Statement (.libraryPacket core) := by
  intro x h; cases h

theorem callLimitExpire (core : Nat) : Statement (.callLimitExpire core) := by
  intro x h; cases h

theorem pgatherReserve (core : Nat) : Statement (.pgatherReserve core) := by
  intro x h; cases h

theorem rowScale (core : Nat) (rs : RowStream) : Statement (.rowScale core rs) := by
  intro x h; cases h

theorem rowSum (core : Nat) (rs : RowStream) : Statement (.rowSum core rs) := by
  intro x h; cases h

theorem gateEnable (req port : Nat) (v : U64) : Statement (.gateEnable req port v) := by
  intro x h; cases h

theorem gateDisable (req port : Nat) (v : U64) : Statement (.gateDisable req port v) := by
  intro x h; cases h

theorem gateEntry (port : Nat) : Statement (.gateEntry port) := by
  intro x h; cases h

theorem bufferAllocate (qd pool : Nat) : Statement (.bufferAllocate qd pool) := by
  intro x h; cases h

theorem celIndDataRead (req qd : Nat) : Statement (.celIndDataRead req qd) := by
  intro x h; cases h

theorem celIndDataWrite (req qd : Nat) (v : U64) : Statement (.celIndDataWrite req qd v) := by
  intro x h; cases h

theorem poolWrite (req qd pool : Nat) (v : U64) : Statement (.poolWrite req qd pool v) := by
  intro x h; cases h

theorem openPagesWrite (req qd : Nat) (v : U64) : Statement (.openPagesWrite req qd v) := by
  intro x h; cases h

theorem hbmReadDone (qd page line : Nat) (use : HbmUse) (outcome : EccOutcome) : Statement (.hbmReadDone qd page line use outcome) := by
  intro x h; cases h

theorem scrub (stack pc : Nat) (outcome : EccOutcome) : Statement (.scrub stack pc outcome) := by
  intro x h; cases h

theorem twinModeSet (req : Nat) (v : U64) : Statement (.twinModeSet req v) := by
  intro x h; cases h

theorem twinUnpair (req : Nat) (v : U64) : Statement (.twinUnpair req v) := by
  intro x h; cases h

theorem takeover (req : Nat) : Statement (.takeover req) := by
  intro x h; cases h

theorem solo (req : Nat) : Statement (.solo req) := by
  intro x h; cases h

theorem rejoin (req : Nat) : Statement (.rejoin req) := by
  intro x h; cases h

theorem heartTimer : Statement (.heartTimer) := by
  intro x h; cases h

theorem heart (port : Nat) (p : Packet) : Statement (.heart port p) := by
  intro x h; cases h

theorem digest (port : Nat) (p : Packet) : Statement (.digest port p) := by
  intro x h; cases h

theorem twinCfg (port : Nat) (p : Packet) : Statement (.twinCfg port p) := by
  intro x h; cases h

theorem twinEpoch (port : Nat) (p : Packet) : Statement (.twinEpoch port p) := by
  intro x h; cases h

theorem twinOpen (port : Nat) (p : Packet) : Statement (.twinOpen port p) := by
  intro x h; cases h

theorem twinDone (port : Nat) (p : Packet) : Statement (.twinDone port p) := by
  intro x h; cases h

theorem twinAbort (port : Nat) (p : Packet) : Statement (.twinAbort port p) := by
  intro x h; cases h

theorem twinResend : Statement (.twinResend) := by
  intro x h; cases h

theorem twinLost : Statement (.twinLost) := by
  intro x h; cases h

theorem digWaitExpire (k : Key) : Statement (.digWaitExpire k) := by
  intro x h; cases h

theorem tallyEntryClose (subject cls : Nat) : Statement (.tallyEntryClose subject cls) := by
  intro x h; cases h

theorem tallyTailWrite (req : Nat) (v : U64) : Statement (.tallyTailWrite req v) := by
  intro x h; cases h

theorem tallySnap (req : Nat) : Statement (.tallySnap req) := by
  intro x h; cases h

theorem vatBist (req : Nat) (v : U64) : Statement (.vatBist req v) := by
  intro x h; cases h

theorem pressBist (req : Nat) (v : U64) : Statement (.pressBist req v) := by
  intro x h; cases h

theorem laneRecal (req : Nat) (v : U64) : Statement (.laneRecal req v) := by
  intro x h; cases h

theorem bistDone (pass : Bool) : Statement (.bistDone pass) := by
  intro x h; cases h

theorem testWaitExpire : Statement (.testWaitExpire) := by
  intro x h; cases h

theorem laneRequest (port : Nat) (p : Packet) : Statement (.laneRequest port p) := by
  intro x h; cases h

theorem laneReqTimeout (port : Nat) : Statement (.laneReqTimeout port) := by
  intro x h; cases h

theorem recalDone (port lane : Nat) : Statement (.recalDone port lane) := by
  intro x h; cases h

theorem idleRecal (port : Nat) : Statement (.idleRecal port) := by
  intro x h; cases h

theorem normalDelivery (core : Nat) : Statement (.normalDelivery core) := by
  intro x h; cases h

theorem fastDelivery (core : Nat) : Statement (.fastDelivery core) := by
  intro x h; cases h

theorem evcDone (req core src : Nat) : Statement (.evcDone req core src) := by
  intro x h; cases h

theorem evcSset (req core src : Nat) : Statement (.evcSset req core src) := by
  intro x h; cases h

theorem evcSclr (req core src : Nat) : Statement (.evcSclr req core src) := by
  intro x h; cases h

theorem unwind (req core : Nat) : Statement (.unwind req core) := by
  intro x h; cases h

theorem mretFast (core : Nat) : Statement (.mretFast core) := by
  intro x h; cases h

theorem wfiWake (core : Nat) : Statement (.wfiWake core) := by
  intro x h; cases h

theorem coreRelease (req core : Nat) (v : U64) : Statement (.coreRelease req core v) := by
  intro x h; cases h

theorem rindHold (req core : Nat) (v : U64) : Statement (.rindHold req core v) := by
  intro x h; cases h

theorem autoPark (unit : Nat) : Statement (.autoPark unit) := by
  intro x h; cases h

theorem wakeComplete (unit : Nat) : Statement (.wakeComplete unit) := by
  intro x h; cases h

theorem darkRequest (req unit : Nat) : Statement (.darkRequest req unit) := by
  intro x h; cases h

theorem darkExit (req unit : Nat) : Statement (.darkExit req unit) := by
  intro x h; cases h

theorem lanePark (port : Nat) : Statement (.lanePark port) := by
  intro x h; cases h

theorem avsUpdate (qd mv temp : Nat) : Statement (.avsUpdate qd mv temp) := by
  intro x h; cases h

theorem pmbusGo (req : Nat) (v : U64) : Statement (.pmbusGo req v) := by
  intro x h; cases h

theorem pmbusDone (ok : Bool) (data : Nat) : Statement (.pmbusDone ok data) := by
  intro x h; cases h

theorem pmbAlert (level : Bool) : Statement (.pmbAlert level) := by
  intro x h; cases h

theorem poresetAssert : Statement (.poresetAssert) := by
  intro x h; cases h

theorem pwrgoodFall : Statement (.pwrgoodFall) := by
  intro x h; cases h

theorem poresetRelease (env : BootEnv) : Statement (.poresetRelease env) := by
  intro x h; cases h

theorem sysresetRelease (env : BootEnv) : Statement (.sysresetRelease env) := by
  intro x h; cases h

theorem pciePerstAssert : Statement (.pciePerstAssert) := by
  intro x h; cases h

theorem pciePerstRelease : Statement (.pciePerstRelease) := by
  intro x h; cases h

theorem pcieLink (up : Bool) (speed width : Nat) : Statement (.pcieLink up speed width) := by
  intro x h; cases h

theorem pcieFlr : Statement (.pcieFlr) := by
  intro x h; cases h

theorem thermTrip (stack : Bool) (temp : Nat) : Statement (.thermTrip stack temp) := by
  intro x h; cases h

theorem extend (req : Nat) (v : U64) : Statement (.extend req v) := by
  intro x h; cases h

theorem attest (req : Nat) (v : U64) : Statement (.attest req v) := by
  intro x h; cases h

theorem unlock (req : Nat) (v : U64) : Statement (.unlock req v) := by
  intro x h; cases h

theorem svnAdv (req : Nat) (v : U64) : Statement (.svnAdv req v) := by
  intro x h; cases h

theorem revoke (req : Nat) (v : U64) : Statement (.revoke req v) := by
  intro x h; cases h

theorem recGo (req : Nat) (v : U64) : Statement (.recGo req v) := by
  intro x h; cases h

theorem recData (req : Nat) (v : U64) : Statement (.recData req v) := by
  intro x h; cases h

theorem rennetCmdDone (bodyOk : Bool) : Statement (.rennetCmdDone bodyOk) := by
  intro x h; cases h

theorem xspiRead (req : Nat) (v : U64) : Statement (.xspiRead req v) := by
  intro x h; cases h

theorem xspiProgram (req : Nat) (v : U64) : Statement (.xspiProgram req v) := by
  intro x h; cases h

theorem xspiErase (req : Nat) (v : U64) : Statement (.xspiErase req v) := by
  intro x h; cases h

theorem xspiDone : Statement (.xspiDone) := by
  intro x h; cases h

theorem i3cPrivateWrite (target addr : Nat) (v : U64) : Statement (.i3cPrivateWrite target addr v) := by
  intro x h; cases h

theorem i3cPrivateRead (target : Nat) : Statement (.i3cPrivateRead target) := by
  intro x h; cases h

theorem i3cDynamicAddress (da : Nat) : Statement (.i3cDynamicAddress da) := by
  intro x h; cases h

theorem mgmtPortFrame (received : Bool) (frame : List Byte) : Statement (.mgmtPortFrame received frame) := by
  intro x h; cases h

theorem jtagAccess (isWrite : Bool) (addr : Nat) (v : U64) : Statement (.jtagAccess isWrite addr v) := by
  intro x h; cases h

theorem pwrgoodRise (env : BootEnv) : Statement (.pwrgoodRise env) := by
  intro x h; cases h

theorem sysresetAssert : Statement (.sysresetAssert) := by
  intro x h; cases h

theorem synchronousException (core cause : Nat) (tval : U64) : Statement (.synchronousException core cause tval) := by
  intro x h; cases h

end Sys2Proof.Laws.Family
end

