-- ==== Sys2Proof/Laws/RegMap.lean ====
section
/-!
SUPPORT. Laws of the register map: an address is the base of its page or entry plus its offset.
-/
namespace Sys2Proof.Machine

/-- Where an address lies adds up to the address. -/
theorem locate_addr (addr : Nat) (x : Loc) (h : locate addr = some x) : x.base + x.off = addr := by
  unfold locate at h
  split at h
  · unfold locateQuad at h
    have h1 := Nat.div_add_mod addr 0x4000000
    have h2 := Nat.div_add_mod (addr % 0x4000000) 0x1000
    dsimp only at h
    split at h
    · cases h; simp only; omega
    · split at h
      · cases h; simp only; omega
      · split at h
        · cases h; simp only; omega
        · split at h
          · cases h; simp only; omega
          · split at h
            · cases h; simp only; omega
            · split at h
              · cases h; simp only; omega
              · split at h
                · cases h; simp only; omega
                · cases h
  · split at h
    · split at h
      · cases h; simp only; omega
      · cases h
    · split at h
      · rename_i k st n sz hf
        cases h
        have h1 := List.find?_some hf
        simp only [Bool.and_eq_true, decide_eq_true_eq] at h1
        have h2 := Nat.div_add_mod (addr - st) sz
        have h3 : (addr - st) / sz * sz = sz * ((addr - st) / sz) := Nat.mul_comm _ _
        simp only
        omega
      · cases h

/-- The same for a present page or entry. -/
theorem presentLoc_addr (s : State) (addr : Nat) (x : Loc) (h : presentLoc s addr = some x) :
    x.base + x.off = addr ∧ present s.fuses x.kind x.inst = true ∧ locate addr = some x := by
  unfold presentLoc at h
  split at h
  · rename_i y hy
    split at h
    · cases h; exact ⟨locate_addr addr _ hy, by assumption, hy⟩
    · cases h
  · cases h

end Sys2Proof.Machine
end

