-- ==== Sys2Proof/Laws/State.lean ====
section
/-!
SUPPORT. Field laws of the primitive updates: one lemma for each field that an update leaves alone, so that no proof unfolds
a record update, and one for the field it writes.
-/
namespace Sys2Proof.Machine


/-! ### setPort -/

@[simp] theorem setPort_pending (s : State) (p : Nat) (x : Port) : (s.setPort p x).pending = s.pending := rfl
@[simp] theorem setPort_cyc (s : State) (p : Nat) (x : Port) : (s.setPort p x).cyc = s.cyc := rfl
@[simp] theorem setPort_same (s : State) (p : Nat) (x : Port) : (s.setPort p x).same = s.same := rfl
@[simp] theorem setPort_fuses (s : State) (p : Nat) (x : Port) : (s.setPort p x).fuses = s.fuses := rfl
@[simp] theorem setPort_pins (s : State) (p : Nat) (x : Port) : (s.setPort p x).pins = s.pins := rfl
@[simp] theorem setPort_regs (s : State) (p : Nat) (x : Port) : (s.setPort p x).regs = s.regs := rfl
@[simp] theorem setPort_mem (s : State) (p : Nat) (x : Port) : (s.setPort p x).mem = s.mem := rfl
@[simp] theorem setPort_tele (s : State) (p : Nat) (x : Port) : (s.setPort p x).tele = s.tele := rfl
@[simp] theorem setPort_out (s : State) (p : Nat) (x : Port) : (s.setPort p x).out = s.out := rfl
@[simp] theorem setPort_waiting (s : State) (p : Nat) (x : Port) : (s.setPort p x).waiting = s.waiting := rfl
@[simp] theorem setPort_inbox (s : State) (p : Nat) (x : Port) : (s.setPort p x).inbox = s.inbox := rfl
@[simp] theorem setPort_arrivals (s : State) (p : Nat) (x : Port) : (s.setPort p x).arrivals = s.arrivals := rfl
@[simp] theorem setPort_frames (s : State) (p : Nat) (x : Port) : (s.setPort p x).frames = s.frames := rfl
@[simp] theorem setPort_seqs (s : State) (p : Nat) (x : Port) : (s.setPort p x).seqs = s.seqs := rfl
@[simp] theorem setPort_mgmtKept (s : State) (p : Nat) (x : Port) : (s.setPort p x).mgmtKept = s.mgmtKept := rfl
@[simp] theorem setPort_seen (s : State) (p : Nat) (x : Port) : (s.setPort p x).seen = s.seen := rfl
@[simp] theorem setPort_candPos (s : State) (p : Nat) (x : Port) : (s.setPort p x).candPos = s.candPos := rfl
@[simp] theorem setPort_macs (s : State) (p : Nat) (x : Port) : (s.setPort p x).macs = s.macs := rfl
@[simp] theorem setPort_meters (s : State) (p : Nat) (x : Port) : (s.setPort p x).meters = s.meters := rfl
@[simp] theorem setPort_bufs (s : State) (p : Nat) (x : Port) : (s.setPort p x).bufs = s.bufs := rfl
@[simp] theorem setPort_waiters (s : State) (p : Nat) (x : Port) : (s.setPort p x).waiters = s.waiters := rfl
@[simp] theorem setPort_poolHold (s : State) (p : Nat) (x : Port) : (s.setPort p x).poolHold = s.poolHold := rfl
@[simp] theorem setPort_upset (s : State) (p : Nat) (x : Port) : (s.setPort p x).upset = s.upset := rfl
@[simp] theorem setPort_wheySeen (s : State) (p : Nat) (x : Port) : (s.setPort p x).wheySeen = s.wheySeen := rfl
@[simp] theorem setPort_slots (s : State) (p : Nat) (x : Port) : (s.setPort p x).slots = s.slots := rfl
@[simp] theorem setPort_grps (s : State) (p : Nat) (x : Port) : (s.setPort p x).grps = s.grps := rfl
@[simp] theorem setPort_fires (s : State) (p : Nat) (x : Port) : (s.setPort p x).fires = s.fires := rfl
@[simp] theorem setPort_chainQ (s : State) (p : Nat) (x : Port) : (s.setPort p x).chainQ = s.chainQ := rfl
@[simp] theorem setPort_chains (s : State) (p : Nat) (x : Port) : (s.setPort p x).chains = s.chains := rfl
@[simp] theorem setPort_nextChain (s : State) (p : Nat) (x : Port) : (s.setPort p x).nextChain = s.nextChain := rfl
@[simp] theorem setPort_vats (s : State) (p : Nat) (x : Port) : (s.setPort p x).vats = s.vats := rfl
@[simp] theorem setPort_cores (s : State) (p : Nat) (x : Port) : (s.setPort p x).cores = s.cores := rfl
@[simp] theorem setPort_servers (s : State) (p : Nat) (x : Port) : (s.setPort p x).servers = s.servers := rfl
@[simp] theorem setPort_members (s : State) (p : Nat) (x : Port) : (s.setPort p x).members = s.members := rfl
@[simp] theorem setPort_twin (s : State) (p : Nat) (x : Port) : (s.setPort p x).twin = s.twin := rfl
@[simp] theorem setPort_tally (s : State) (p : Nat) (x : Port) : (s.setPort p x).tally = s.tally := rfl
@[simp] theorem setPort_soft (s : State) (p : Nat) (x : Port) : (s.setPort p x).soft = s.soft := rfl
@[simp] theorem setPort_rinds (s : State) (p : Nat) (x : Port) : (s.setPort p x).rinds = s.rinds := rfl
@[simp] theorem setPort_rlines (s : State) (p : Nat) (x : Port) : (s.setPort p x).rlines = s.rlines := rfl
@[simp] theorem setPort_pwr (s : State) (p : Nat) (x : Port) : (s.setPort p x).pwr = s.pwr := rfl
@[simp] theorem setPort_asked (s : State) (p : Nat) (x : Port) : (s.setPort p x).asked = s.asked := rfl
@[simp] theorem setPort_back (s : State) (p : Nat) (x : Port) : (s.setPort p x).back = s.back := rfl
@[simp] theorem setPort_test (s : State) (p : Nat) (x : Port) : (s.setPort p x).test = s.test := rfl
@[simp] theorem setPort_scrubs (s : State) (p : Nat) (x : Port) : (s.setPort p x).scrubs = s.scrubs := rfl
@[simp] theorem setPort_hbmQ (s : State) (p : Nat) (x : Port) : (s.setPort p x).hbmQ = s.hbmQ := rfl
@[simp] theorem setPort_rennet (s : State) (p : Nat) (x : Port) : (s.setPort p x).rennet = s.rennet := rfl
@[simp] theorem setPort_ifc (s : State) (p : Nat) (x : Port) : (s.setPort p x).ifc = s.ifc := rfl
@[simp] theorem setPort_draws (s : State) (p : Nat) (x : Port) : (s.setPort p x).draws = s.draws := rfl

/-! ### setCore -/

@[simp] theorem setCore_pending (s : State) (c : Nat) (x : Core) : (s.setCore c x).pending = s.pending := rfl
@[simp] theorem setCore_cyc (s : State) (c : Nat) (x : Core) : (s.setCore c x).cyc = s.cyc := rfl
@[simp] theorem setCore_same (s : State) (c : Nat) (x : Core) : (s.setCore c x).same = s.same := rfl
@[simp] theorem setCore_fuses (s : State) (c : Nat) (x : Core) : (s.setCore c x).fuses = s.fuses := rfl
@[simp] theorem setCore_pins (s : State) (c : Nat) (x : Core) : (s.setCore c x).pins = s.pins := rfl
@[simp] theorem setCore_regs (s : State) (c : Nat) (x : Core) : (s.setCore c x).regs = s.regs := rfl
@[simp] theorem setCore_mem (s : State) (c : Nat) (x : Core) : (s.setCore c x).mem = s.mem := rfl
@[simp] theorem setCore_tele (s : State) (c : Nat) (x : Core) : (s.setCore c x).tele = s.tele := rfl
@[simp] theorem setCore_out (s : State) (c : Nat) (x : Core) : (s.setCore c x).out = s.out := rfl
@[simp] theorem setCore_ports (s : State) (c : Nat) (x : Core) : (s.setCore c x).ports = s.ports := rfl
@[simp] theorem setCore_waiting (s : State) (c : Nat) (x : Core) : (s.setCore c x).waiting = s.waiting := rfl
@[simp] theorem setCore_inbox (s : State) (c : Nat) (x : Core) : (s.setCore c x).inbox = s.inbox := rfl
@[simp] theorem setCore_arrivals (s : State) (c : Nat) (x : Core) : (s.setCore c x).arrivals = s.arrivals := rfl
@[simp] theorem setCore_frames (s : State) (c : Nat) (x : Core) : (s.setCore c x).frames = s.frames := rfl
@[simp] theorem setCore_seqs (s : State) (c : Nat) (x : Core) : (s.setCore c x).seqs = s.seqs := rfl
@[simp] theorem setCore_mgmtKept (s : State) (c : Nat) (x : Core) : (s.setCore c x).mgmtKept = s.mgmtKept := rfl
@[simp] theorem setCore_seen (s : State) (c : Nat) (x : Core) : (s.setCore c x).seen = s.seen := rfl
@[simp] theorem setCore_candPos (s : State) (c : Nat) (x : Core) : (s.setCore c x).candPos = s.candPos := rfl
@[simp] theorem setCore_macs (s : State) (c : Nat) (x : Core) : (s.setCore c x).macs = s.macs := rfl
@[simp] theorem setCore_meters (s : State) (c : Nat) (x : Core) : (s.setCore c x).meters = s.meters := rfl
@[simp] theorem setCore_bufs (s : State) (c : Nat) (x : Core) : (s.setCore c x).bufs = s.bufs := rfl
@[simp] theorem setCore_waiters (s : State) (c : Nat) (x : Core) : (s.setCore c x).waiters = s.waiters := rfl
@[simp] theorem setCore_poolHold (s : State) (c : Nat) (x : Core) : (s.setCore c x).poolHold = s.poolHold := rfl
@[simp] theorem setCore_upset (s : State) (c : Nat) (x : Core) : (s.setCore c x).upset = s.upset := rfl
@[simp] theorem setCore_wheySeen (s : State) (c : Nat) (x : Core) : (s.setCore c x).wheySeen = s.wheySeen := rfl
@[simp] theorem setCore_slots (s : State) (c : Nat) (x : Core) : (s.setCore c x).slots = s.slots := rfl
@[simp] theorem setCore_grps (s : State) (c : Nat) (x : Core) : (s.setCore c x).grps = s.grps := rfl
@[simp] theorem setCore_fires (s : State) (c : Nat) (x : Core) : (s.setCore c x).fires = s.fires := rfl
@[simp] theorem setCore_chainQ (s : State) (c : Nat) (x : Core) : (s.setCore c x).chainQ = s.chainQ := rfl
@[simp] theorem setCore_chains (s : State) (c : Nat) (x : Core) : (s.setCore c x).chains = s.chains := rfl
@[simp] theorem setCore_nextChain (s : State) (c : Nat) (x : Core) : (s.setCore c x).nextChain = s.nextChain := rfl
@[simp] theorem setCore_vats (s : State) (c : Nat) (x : Core) : (s.setCore c x).vats = s.vats := rfl
@[simp] theorem setCore_servers (s : State) (c : Nat) (x : Core) : (s.setCore c x).servers = s.servers := rfl
@[simp] theorem setCore_members (s : State) (c : Nat) (x : Core) : (s.setCore c x).members = s.members := rfl
@[simp] theorem setCore_twin (s : State) (c : Nat) (x : Core) : (s.setCore c x).twin = s.twin := rfl
@[simp] theorem setCore_tally (s : State) (c : Nat) (x : Core) : (s.setCore c x).tally = s.tally := rfl
@[simp] theorem setCore_soft (s : State) (c : Nat) (x : Core) : (s.setCore c x).soft = s.soft := rfl
@[simp] theorem setCore_rinds (s : State) (c : Nat) (x : Core) : (s.setCore c x).rinds = s.rinds := rfl
@[simp] theorem setCore_rlines (s : State) (c : Nat) (x : Core) : (s.setCore c x).rlines = s.rlines := rfl
@[simp] theorem setCore_pwr (s : State) (c : Nat) (x : Core) : (s.setCore c x).pwr = s.pwr := rfl
@[simp] theorem setCore_asked (s : State) (c : Nat) (x : Core) : (s.setCore c x).asked = s.asked := rfl
@[simp] theorem setCore_back (s : State) (c : Nat) (x : Core) : (s.setCore c x).back = s.back := rfl
@[simp] theorem setCore_test (s : State) (c : Nat) (x : Core) : (s.setCore c x).test = s.test := rfl
@[simp] theorem setCore_scrubs (s : State) (c : Nat) (x : Core) : (s.setCore c x).scrubs = s.scrubs := rfl
@[simp] theorem setCore_hbmQ (s : State) (c : Nat) (x : Core) : (s.setCore c x).hbmQ = s.hbmQ := rfl
@[simp] theorem setCore_rennet (s : State) (c : Nat) (x : Core) : (s.setCore c x).rennet = s.rennet := rfl
@[simp] theorem setCore_ifc (s : State) (c : Nat) (x : Core) : (s.setCore c x).ifc = s.ifc := rfl
@[simp] theorem setCore_draws (s : State) (c : Nat) (x : Core) : (s.setCore c x).draws = s.draws := rfl

/-! ### setVat -/

@[simp] theorem setVat_pending (s : State) (v : Nat) (x : Vat) : (s.setVat v x).pending = s.pending := rfl
@[simp] theorem setVat_cyc (s : State) (v : Nat) (x : Vat) : (s.setVat v x).cyc = s.cyc := rfl
@[simp] theorem setVat_same (s : State) (v : Nat) (x : Vat) : (s.setVat v x).same = s.same := rfl
@[simp] theorem setVat_fuses (s : State) (v : Nat) (x : Vat) : (s.setVat v x).fuses = s.fuses := rfl
@[simp] theorem setVat_pins (s : State) (v : Nat) (x : Vat) : (s.setVat v x).pins = s.pins := rfl
@[simp] theorem setVat_regs (s : State) (v : Nat) (x : Vat) : (s.setVat v x).regs = s.regs := rfl
@[simp] theorem setVat_mem (s : State) (v : Nat) (x : Vat) : (s.setVat v x).mem = s.mem := rfl
@[simp] theorem setVat_tele (s : State) (v : Nat) (x : Vat) : (s.setVat v x).tele = s.tele := rfl
@[simp] theorem setVat_out (s : State) (v : Nat) (x : Vat) : (s.setVat v x).out = s.out := rfl
@[simp] theorem setVat_ports (s : State) (v : Nat) (x : Vat) : (s.setVat v x).ports = s.ports := rfl
@[simp] theorem setVat_waiting (s : State) (v : Nat) (x : Vat) : (s.setVat v x).waiting = s.waiting := rfl
@[simp] theorem setVat_inbox (s : State) (v : Nat) (x : Vat) : (s.setVat v x).inbox = s.inbox := rfl
@[simp] theorem setVat_arrivals (s : State) (v : Nat) (x : Vat) : (s.setVat v x).arrivals = s.arrivals := rfl
@[simp] theorem setVat_frames (s : State) (v : Nat) (x : Vat) : (s.setVat v x).frames = s.frames := rfl
@[simp] theorem setVat_seqs (s : State) (v : Nat) (x : Vat) : (s.setVat v x).seqs = s.seqs := rfl
@[simp] theorem setVat_mgmtKept (s : State) (v : Nat) (x : Vat) : (s.setVat v x).mgmtKept = s.mgmtKept := rfl
@[simp] theorem setVat_seen (s : State) (v : Nat) (x : Vat) : (s.setVat v x).seen = s.seen := rfl
@[simp] theorem setVat_candPos (s : State) (v : Nat) (x : Vat) : (s.setVat v x).candPos = s.candPos := rfl
@[simp] theorem setVat_macs (s : State) (v : Nat) (x : Vat) : (s.setVat v x).macs = s.macs := rfl
@[simp] theorem setVat_meters (s : State) (v : Nat) (x : Vat) : (s.setVat v x).meters = s.meters := rfl
@[simp] theorem setVat_bufs (s : State) (v : Nat) (x : Vat) : (s.setVat v x).bufs = s.bufs := rfl
@[simp] theorem setVat_waiters (s : State) (v : Nat) (x : Vat) : (s.setVat v x).waiters = s.waiters := rfl
@[simp] theorem setVat_poolHold (s : State) (v : Nat) (x : Vat) : (s.setVat v x).poolHold = s.poolHold := rfl
@[simp] theorem setVat_upset (s : State) (v : Nat) (x : Vat) : (s.setVat v x).upset = s.upset := rfl
@[simp] theorem setVat_wheySeen (s : State) (v : Nat) (x : Vat) : (s.setVat v x).wheySeen = s.wheySeen := rfl
@[simp] theorem setVat_slots (s : State) (v : Nat) (x : Vat) : (s.setVat v x).slots = s.slots := rfl
@[simp] theorem setVat_grps (s : State) (v : Nat) (x : Vat) : (s.setVat v x).grps = s.grps := rfl
@[simp] theorem setVat_fires (s : State) (v : Nat) (x : Vat) : (s.setVat v x).fires = s.fires := rfl
@[simp] theorem setVat_chainQ (s : State) (v : Nat) (x : Vat) : (s.setVat v x).chainQ = s.chainQ := rfl
@[simp] theorem setVat_chains (s : State) (v : Nat) (x : Vat) : (s.setVat v x).chains = s.chains := rfl
@[simp] theorem setVat_nextChain (s : State) (v : Nat) (x : Vat) : (s.setVat v x).nextChain = s.nextChain := rfl
@[simp] theorem setVat_cores (s : State) (v : Nat) (x : Vat) : (s.setVat v x).cores = s.cores := rfl
@[simp] theorem setVat_servers (s : State) (v : Nat) (x : Vat) : (s.setVat v x).servers = s.servers := rfl
@[simp] theorem setVat_members (s : State) (v : Nat) (x : Vat) : (s.setVat v x).members = s.members := rfl
@[simp] theorem setVat_twin (s : State) (v : Nat) (x : Vat) : (s.setVat v x).twin = s.twin := rfl
@[simp] theorem setVat_tally (s : State) (v : Nat) (x : Vat) : (s.setVat v x).tally = s.tally := rfl
@[simp] theorem setVat_soft (s : State) (v : Nat) (x : Vat) : (s.setVat v x).soft = s.soft := rfl
@[simp] theorem setVat_rinds (s : State) (v : Nat) (x : Vat) : (s.setVat v x).rinds = s.rinds := rfl
@[simp] theorem setVat_rlines (s : State) (v : Nat) (x : Vat) : (s.setVat v x).rlines = s.rlines := rfl
@[simp] theorem setVat_pwr (s : State) (v : Nat) (x : Vat) : (s.setVat v x).pwr = s.pwr := rfl
@[simp] theorem setVat_asked (s : State) (v : Nat) (x : Vat) : (s.setVat v x).asked = s.asked := rfl
@[simp] theorem setVat_back (s : State) (v : Nat) (x : Vat) : (s.setVat v x).back = s.back := rfl
@[simp] theorem setVat_test (s : State) (v : Nat) (x : Vat) : (s.setVat v x).test = s.test := rfl
@[simp] theorem setVat_scrubs (s : State) (v : Nat) (x : Vat) : (s.setVat v x).scrubs = s.scrubs := rfl
@[simp] theorem setVat_hbmQ (s : State) (v : Nat) (x : Vat) : (s.setVat v x).hbmQ = s.hbmQ := rfl
@[simp] theorem setVat_rennet (s : State) (v : Nat) (x : Vat) : (s.setVat v x).rennet = s.rennet := rfl
@[simp] theorem setVat_ifc (s : State) (v : Nat) (x : Vat) : (s.setVat v x).ifc = s.ifc := rfl
@[simp] theorem setVat_draws (s : State) (v : Nat) (x : Vat) : (s.setVat v x).draws = s.draws := rfl

/-! ### setGrp -/

@[simp] theorem setGrp_pending (s : State) (g : Nat) (x : Grp) : (s.setGrp g x).pending = s.pending := rfl
@[simp] theorem setGrp_cyc (s : State) (g : Nat) (x : Grp) : (s.setGrp g x).cyc = s.cyc := rfl
@[simp] theorem setGrp_same (s : State) (g : Nat) (x : Grp) : (s.setGrp g x).same = s.same := rfl
@[simp] theorem setGrp_fuses (s : State) (g : Nat) (x : Grp) : (s.setGrp g x).fuses = s.fuses := rfl
@[simp] theorem setGrp_pins (s : State) (g : Nat) (x : Grp) : (s.setGrp g x).pins = s.pins := rfl
@[simp] theorem setGrp_regs (s : State) (g : Nat) (x : Grp) : (s.setGrp g x).regs = s.regs := rfl
@[simp] theorem setGrp_mem (s : State) (g : Nat) (x : Grp) : (s.setGrp g x).mem = s.mem := rfl
@[simp] theorem setGrp_tele (s : State) (g : Nat) (x : Grp) : (s.setGrp g x).tele = s.tele := rfl
@[simp] theorem setGrp_out (s : State) (g : Nat) (x : Grp) : (s.setGrp g x).out = s.out := rfl
@[simp] theorem setGrp_ports (s : State) (g : Nat) (x : Grp) : (s.setGrp g x).ports = s.ports := rfl
@[simp] theorem setGrp_waiting (s : State) (g : Nat) (x : Grp) : (s.setGrp g x).waiting = s.waiting := rfl
@[simp] theorem setGrp_inbox (s : State) (g : Nat) (x : Grp) : (s.setGrp g x).inbox = s.inbox := rfl
@[simp] theorem setGrp_arrivals (s : State) (g : Nat) (x : Grp) : (s.setGrp g x).arrivals = s.arrivals := rfl
@[simp] theorem setGrp_frames (s : State) (g : Nat) (x : Grp) : (s.setGrp g x).frames = s.frames := rfl
@[simp] theorem setGrp_seqs (s : State) (g : Nat) (x : Grp) : (s.setGrp g x).seqs = s.seqs := rfl
@[simp] theorem setGrp_mgmtKept (s : State) (g : Nat) (x : Grp) : (s.setGrp g x).mgmtKept = s.mgmtKept := rfl
@[simp] theorem setGrp_seen (s : State) (g : Nat) (x : Grp) : (s.setGrp g x).seen = s.seen := rfl
@[simp] theorem setGrp_candPos (s : State) (g : Nat) (x : Grp) : (s.setGrp g x).candPos = s.candPos := rfl
@[simp] theorem setGrp_macs (s : State) (g : Nat) (x : Grp) : (s.setGrp g x).macs = s.macs := rfl
@[simp] theorem setGrp_meters (s : State) (g : Nat) (x : Grp) : (s.setGrp g x).meters = s.meters := rfl
@[simp] theorem setGrp_bufs (s : State) (g : Nat) (x : Grp) : (s.setGrp g x).bufs = s.bufs := rfl
@[simp] theorem setGrp_waiters (s : State) (g : Nat) (x : Grp) : (s.setGrp g x).waiters = s.waiters := rfl
@[simp] theorem setGrp_poolHold (s : State) (g : Nat) (x : Grp) : (s.setGrp g x).poolHold = s.poolHold := rfl
@[simp] theorem setGrp_upset (s : State) (g : Nat) (x : Grp) : (s.setGrp g x).upset = s.upset := rfl
@[simp] theorem setGrp_wheySeen (s : State) (g : Nat) (x : Grp) : (s.setGrp g x).wheySeen = s.wheySeen := rfl
@[simp] theorem setGrp_slots (s : State) (g : Nat) (x : Grp) : (s.setGrp g x).slots = s.slots := rfl
@[simp] theorem setGrp_fires (s : State) (g : Nat) (x : Grp) : (s.setGrp g x).fires = s.fires := rfl
@[simp] theorem setGrp_chainQ (s : State) (g : Nat) (x : Grp) : (s.setGrp g x).chainQ = s.chainQ := rfl
@[simp] theorem setGrp_chains (s : State) (g : Nat) (x : Grp) : (s.setGrp g x).chains = s.chains := rfl
@[simp] theorem setGrp_nextChain (s : State) (g : Nat) (x : Grp) : (s.setGrp g x).nextChain = s.nextChain := rfl
@[simp] theorem setGrp_vats (s : State) (g : Nat) (x : Grp) : (s.setGrp g x).vats = s.vats := rfl
@[simp] theorem setGrp_cores (s : State) (g : Nat) (x : Grp) : (s.setGrp g x).cores = s.cores := rfl
@[simp] theorem setGrp_servers (s : State) (g : Nat) (x : Grp) : (s.setGrp g x).servers = s.servers := rfl
@[simp] theorem setGrp_members (s : State) (g : Nat) (x : Grp) : (s.setGrp g x).members = s.members := rfl
@[simp] theorem setGrp_twin (s : State) (g : Nat) (x : Grp) : (s.setGrp g x).twin = s.twin := rfl
@[simp] theorem setGrp_tally (s : State) (g : Nat) (x : Grp) : (s.setGrp g x).tally = s.tally := rfl
@[simp] theorem setGrp_soft (s : State) (g : Nat) (x : Grp) : (s.setGrp g x).soft = s.soft := rfl
@[simp] theorem setGrp_rinds (s : State) (g : Nat) (x : Grp) : (s.setGrp g x).rinds = s.rinds := rfl
@[simp] theorem setGrp_rlines (s : State) (g : Nat) (x : Grp) : (s.setGrp g x).rlines = s.rlines := rfl
@[simp] theorem setGrp_pwr (s : State) (g : Nat) (x : Grp) : (s.setGrp g x).pwr = s.pwr := rfl
@[simp] theorem setGrp_asked (s : State) (g : Nat) (x : Grp) : (s.setGrp g x).asked = s.asked := rfl
@[simp] theorem setGrp_back (s : State) (g : Nat) (x : Grp) : (s.setGrp g x).back = s.back := rfl
@[simp] theorem setGrp_test (s : State) (g : Nat) (x : Grp) : (s.setGrp g x).test = s.test := rfl
@[simp] theorem setGrp_scrubs (s : State) (g : Nat) (x : Grp) : (s.setGrp g x).scrubs = s.scrubs := rfl
@[simp] theorem setGrp_hbmQ (s : State) (g : Nat) (x : Grp) : (s.setGrp g x).hbmQ = s.hbmQ := rfl
@[simp] theorem setGrp_rennet (s : State) (g : Nat) (x : Grp) : (s.setGrp g x).rennet = s.rennet := rfl
@[simp] theorem setGrp_ifc (s : State) (g : Nat) (x : Grp) : (s.setGrp g x).ifc = s.ifc := rfl
@[simp] theorem setGrp_draws (s : State) (g : Nat) (x : Grp) : (s.setGrp g x).draws = s.draws := rfl

/-! ### setBuf -/

@[simp] theorem setBuf_pending (s : State) (b : Nat) (x : Buf) : (s.setBuf b x).pending = s.pending := rfl
@[simp] theorem setBuf_cyc (s : State) (b : Nat) (x : Buf) : (s.setBuf b x).cyc = s.cyc := rfl
@[simp] theorem setBuf_same (s : State) (b : Nat) (x : Buf) : (s.setBuf b x).same = s.same := rfl
@[simp] theorem setBuf_fuses (s : State) (b : Nat) (x : Buf) : (s.setBuf b x).fuses = s.fuses := rfl
@[simp] theorem setBuf_pins (s : State) (b : Nat) (x : Buf) : (s.setBuf b x).pins = s.pins := rfl
@[simp] theorem setBuf_regs (s : State) (b : Nat) (x : Buf) : (s.setBuf b x).regs = s.regs := rfl
@[simp] theorem setBuf_mem (s : State) (b : Nat) (x : Buf) : (s.setBuf b x).mem = s.mem := rfl
@[simp] theorem setBuf_tele (s : State) (b : Nat) (x : Buf) : (s.setBuf b x).tele = s.tele := rfl
@[simp] theorem setBuf_out (s : State) (b : Nat) (x : Buf) : (s.setBuf b x).out = s.out := rfl
@[simp] theorem setBuf_ports (s : State) (b : Nat) (x : Buf) : (s.setBuf b x).ports = s.ports := rfl
@[simp] theorem setBuf_waiting (s : State) (b : Nat) (x : Buf) : (s.setBuf b x).waiting = s.waiting := rfl
@[simp] theorem setBuf_inbox (s : State) (b : Nat) (x : Buf) : (s.setBuf b x).inbox = s.inbox := rfl
@[simp] theorem setBuf_arrivals (s : State) (b : Nat) (x : Buf) : (s.setBuf b x).arrivals = s.arrivals := rfl
@[simp] theorem setBuf_frames (s : State) (b : Nat) (x : Buf) : (s.setBuf b x).frames = s.frames := rfl
@[simp] theorem setBuf_seqs (s : State) (b : Nat) (x : Buf) : (s.setBuf b x).seqs = s.seqs := rfl
@[simp] theorem setBuf_mgmtKept (s : State) (b : Nat) (x : Buf) : (s.setBuf b x).mgmtKept = s.mgmtKept := rfl
@[simp] theorem setBuf_seen (s : State) (b : Nat) (x : Buf) : (s.setBuf b x).seen = s.seen := rfl
@[simp] theorem setBuf_candPos (s : State) (b : Nat) (x : Buf) : (s.setBuf b x).candPos = s.candPos := rfl
@[simp] theorem setBuf_macs (s : State) (b : Nat) (x : Buf) : (s.setBuf b x).macs = s.macs := rfl
@[simp] theorem setBuf_meters (s : State) (b : Nat) (x : Buf) : (s.setBuf b x).meters = s.meters := rfl
@[simp] theorem setBuf_waiters (s : State) (b : Nat) (x : Buf) : (s.setBuf b x).waiters = s.waiters := rfl
@[simp] theorem setBuf_poolHold (s : State) (b : Nat) (x : Buf) : (s.setBuf b x).poolHold = s.poolHold := rfl
@[simp] theorem setBuf_upset (s : State) (b : Nat) (x : Buf) : (s.setBuf b x).upset = s.upset := rfl
@[simp] theorem setBuf_wheySeen (s : State) (b : Nat) (x : Buf) : (s.setBuf b x).wheySeen = s.wheySeen := rfl
@[simp] theorem setBuf_slots (s : State) (b : Nat) (x : Buf) : (s.setBuf b x).slots = s.slots := rfl
@[simp] theorem setBuf_grps (s : State) (b : Nat) (x : Buf) : (s.setBuf b x).grps = s.grps := rfl
@[simp] theorem setBuf_fires (s : State) (b : Nat) (x : Buf) : (s.setBuf b x).fires = s.fires := rfl
@[simp] theorem setBuf_chainQ (s : State) (b : Nat) (x : Buf) : (s.setBuf b x).chainQ = s.chainQ := rfl
@[simp] theorem setBuf_chains (s : State) (b : Nat) (x : Buf) : (s.setBuf b x).chains = s.chains := rfl
@[simp] theorem setBuf_nextChain (s : State) (b : Nat) (x : Buf) : (s.setBuf b x).nextChain = s.nextChain := rfl
@[simp] theorem setBuf_vats (s : State) (b : Nat) (x : Buf) : (s.setBuf b x).vats = s.vats := rfl
@[simp] theorem setBuf_cores (s : State) (b : Nat) (x : Buf) : (s.setBuf b x).cores = s.cores := rfl
@[simp] theorem setBuf_servers (s : State) (b : Nat) (x : Buf) : (s.setBuf b x).servers = s.servers := rfl
@[simp] theorem setBuf_members (s : State) (b : Nat) (x : Buf) : (s.setBuf b x).members = s.members := rfl
@[simp] theorem setBuf_twin (s : State) (b : Nat) (x : Buf) : (s.setBuf b x).twin = s.twin := rfl
@[simp] theorem setBuf_tally (s : State) (b : Nat) (x : Buf) : (s.setBuf b x).tally = s.tally := rfl
@[simp] theorem setBuf_soft (s : State) (b : Nat) (x : Buf) : (s.setBuf b x).soft = s.soft := rfl
@[simp] theorem setBuf_rinds (s : State) (b : Nat) (x : Buf) : (s.setBuf b x).rinds = s.rinds := rfl
@[simp] theorem setBuf_rlines (s : State) (b : Nat) (x : Buf) : (s.setBuf b x).rlines = s.rlines := rfl
@[simp] theorem setBuf_pwr (s : State) (b : Nat) (x : Buf) : (s.setBuf b x).pwr = s.pwr := rfl
@[simp] theorem setBuf_asked (s : State) (b : Nat) (x : Buf) : (s.setBuf b x).asked = s.asked := rfl
@[simp] theorem setBuf_back (s : State) (b : Nat) (x : Buf) : (s.setBuf b x).back = s.back := rfl
@[simp] theorem setBuf_test (s : State) (b : Nat) (x : Buf) : (s.setBuf b x).test = s.test := rfl
@[simp] theorem setBuf_scrubs (s : State) (b : Nat) (x : Buf) : (s.setBuf b x).scrubs = s.scrubs := rfl
@[simp] theorem setBuf_hbmQ (s : State) (b : Nat) (x : Buf) : (s.setBuf b x).hbmQ = s.hbmQ := rfl
@[simp] theorem setBuf_rennet (s : State) (b : Nat) (x : Buf) : (s.setBuf b x).rennet = s.rennet := rfl
@[simp] theorem setBuf_ifc (s : State) (b : Nat) (x : Buf) : (s.setBuf b x).ifc = s.ifc := rfl
@[simp] theorem setBuf_draws (s : State) (b : Nat) (x : Buf) : (s.setBuf b x).draws = s.draws := rfl

/-! ### setServer -/

@[simp] theorem setServer_pending (s : State) (c : Nat) (x : Server) : (s.setServer c x).pending = s.pending := rfl
@[simp] theorem setServer_cyc (s : State) (c : Nat) (x : Server) : (s.setServer c x).cyc = s.cyc := rfl
@[simp] theorem setServer_same (s : State) (c : Nat) (x : Server) : (s.setServer c x).same = s.same := rfl
@[simp] theorem setServer_fuses (s : State) (c : Nat) (x : Server) : (s.setServer c x).fuses = s.fuses := rfl
@[simp] theorem setServer_pins (s : State) (c : Nat) (x : Server) : (s.setServer c x).pins = s.pins := rfl
@[simp] theorem setServer_regs (s : State) (c : Nat) (x : Server) : (s.setServer c x).regs = s.regs := rfl
@[simp] theorem setServer_mem (s : State) (c : Nat) (x : Server) : (s.setServer c x).mem = s.mem := rfl
@[simp] theorem setServer_tele (s : State) (c : Nat) (x : Server) : (s.setServer c x).tele = s.tele := rfl
@[simp] theorem setServer_out (s : State) (c : Nat) (x : Server) : (s.setServer c x).out = s.out := rfl
@[simp] theorem setServer_ports (s : State) (c : Nat) (x : Server) : (s.setServer c x).ports = s.ports := rfl
@[simp] theorem setServer_waiting (s : State) (c : Nat) (x : Server) : (s.setServer c x).waiting = s.waiting := rfl
@[simp] theorem setServer_inbox (s : State) (c : Nat) (x : Server) : (s.setServer c x).inbox = s.inbox := rfl
@[simp] theorem setServer_arrivals (s : State) (c : Nat) (x : Server) : (s.setServer c x).arrivals = s.arrivals := rfl
@[simp] theorem setServer_frames (s : State) (c : Nat) (x : Server) : (s.setServer c x).frames = s.frames := rfl
@[simp] theorem setServer_seqs (s : State) (c : Nat) (x : Server) : (s.setServer c x).seqs = s.seqs := rfl
@[simp] theorem setServer_mgmtKept (s : State) (c : Nat) (x : Server) : (s.setServer c x).mgmtKept = s.mgmtKept := rfl
@[simp] theorem setServer_seen (s : State) (c : Nat) (x : Server) : (s.setServer c x).seen = s.seen := rfl
@[simp] theorem setServer_candPos (s : State) (c : Nat) (x : Server) : (s.setServer c x).candPos = s.candPos := rfl
@[simp] theorem setServer_macs (s : State) (c : Nat) (x : Server) : (s.setServer c x).macs = s.macs := rfl
@[simp] theorem setServer_meters (s : State) (c : Nat) (x : Server) : (s.setServer c x).meters = s.meters := rfl
@[simp] theorem setServer_bufs (s : State) (c : Nat) (x : Server) : (s.setServer c x).bufs = s.bufs := rfl
@[simp] theorem setServer_waiters (s : State) (c : Nat) (x : Server) : (s.setServer c x).waiters = s.waiters := rfl
@[simp] theorem setServer_poolHold (s : State) (c : Nat) (x : Server) : (s.setServer c x).poolHold = s.poolHold := rfl
@[simp] theorem setServer_upset (s : State) (c : Nat) (x : Server) : (s.setServer c x).upset = s.upset := rfl
@[simp] theorem setServer_wheySeen (s : State) (c : Nat) (x : Server) : (s.setServer c x).wheySeen = s.wheySeen := rfl
@[simp] theorem setServer_slots (s : State) (c : Nat) (x : Server) : (s.setServer c x).slots = s.slots := rfl
@[simp] theorem setServer_grps (s : State) (c : Nat) (x : Server) : (s.setServer c x).grps = s.grps := rfl
@[simp] theorem setServer_fires (s : State) (c : Nat) (x : Server) : (s.setServer c x).fires = s.fires := rfl
@[simp] theorem setServer_chainQ (s : State) (c : Nat) (x : Server) : (s.setServer c x).chainQ = s.chainQ := rfl
@[simp] theorem setServer_chains (s : State) (c : Nat) (x : Server) : (s.setServer c x).chains = s.chains := rfl
@[simp] theorem setServer_nextChain (s : State) (c : Nat) (x : Server) : (s.setServer c x).nextChain = s.nextChain := rfl
@[simp] theorem setServer_vats (s : State) (c : Nat) (x : Server) : (s.setServer c x).vats = s.vats := rfl
@[simp] theorem setServer_cores (s : State) (c : Nat) (x : Server) : (s.setServer c x).cores = s.cores := rfl
@[simp] theorem setServer_members (s : State) (c : Nat) (x : Server) : (s.setServer c x).members = s.members := rfl
@[simp] theorem setServer_twin (s : State) (c : Nat) (x : Server) : (s.setServer c x).twin = s.twin := rfl
@[simp] theorem setServer_tally (s : State) (c : Nat) (x : Server) : (s.setServer c x).tally = s.tally := rfl
@[simp] theorem setServer_soft (s : State) (c : Nat) (x : Server) : (s.setServer c x).soft = s.soft := rfl
@[simp] theorem setServer_rinds (s : State) (c : Nat) (x : Server) : (s.setServer c x).rinds = s.rinds := rfl
@[simp] theorem setServer_rlines (s : State) (c : Nat) (x : Server) : (s.setServer c x).rlines = s.rlines := rfl
@[simp] theorem setServer_pwr (s : State) (c : Nat) (x : Server) : (s.setServer c x).pwr = s.pwr := rfl
@[simp] theorem setServer_asked (s : State) (c : Nat) (x : Server) : (s.setServer c x).asked = s.asked := rfl
@[simp] theorem setServer_back (s : State) (c : Nat) (x : Server) : (s.setServer c x).back = s.back := rfl
@[simp] theorem setServer_test (s : State) (c : Nat) (x : Server) : (s.setServer c x).test = s.test := rfl
@[simp] theorem setServer_scrubs (s : State) (c : Nat) (x : Server) : (s.setServer c x).scrubs = s.scrubs := rfl
@[simp] theorem setServer_hbmQ (s : State) (c : Nat) (x : Server) : (s.setServer c x).hbmQ = s.hbmQ := rfl
@[simp] theorem setServer_rennet (s : State) (c : Nat) (x : Server) : (s.setServer c x).rennet = s.rennet := rfl
@[simp] theorem setServer_ifc (s : State) (c : Nat) (x : Server) : (s.setServer c x).ifc = s.ifc := rfl
@[simp] theorem setServer_draws (s : State) (c : Nat) (x : Server) : (s.setServer c x).draws = s.draws := rfl

/-! ### setRind -/

@[simp] theorem setRind_pending (s : State) (k : Nat) (x : Rind) : (s.setRind k x).pending = s.pending := rfl
@[simp] theorem setRind_cyc (s : State) (k : Nat) (x : Rind) : (s.setRind k x).cyc = s.cyc := rfl
@[simp] theorem setRind_same (s : State) (k : Nat) (x : Rind) : (s.setRind k x).same = s.same := rfl
@[simp] theorem setRind_fuses (s : State) (k : Nat) (x : Rind) : (s.setRind k x).fuses = s.fuses := rfl
@[simp] theorem setRind_pins (s : State) (k : Nat) (x : Rind) : (s.setRind k x).pins = s.pins := rfl
@[simp] theorem setRind_regs (s : State) (k : Nat) (x : Rind) : (s.setRind k x).regs = s.regs := rfl
@[simp] theorem setRind_mem (s : State) (k : Nat) (x : Rind) : (s.setRind k x).mem = s.mem := rfl
@[simp] theorem setRind_tele (s : State) (k : Nat) (x : Rind) : (s.setRind k x).tele = s.tele := rfl
@[simp] theorem setRind_out (s : State) (k : Nat) (x : Rind) : (s.setRind k x).out = s.out := rfl
@[simp] theorem setRind_ports (s : State) (k : Nat) (x : Rind) : (s.setRind k x).ports = s.ports := rfl
@[simp] theorem setRind_waiting (s : State) (k : Nat) (x : Rind) : (s.setRind k x).waiting = s.waiting := rfl
@[simp] theorem setRind_inbox (s : State) (k : Nat) (x : Rind) : (s.setRind k x).inbox = s.inbox := rfl
@[simp] theorem setRind_arrivals (s : State) (k : Nat) (x : Rind) : (s.setRind k x).arrivals = s.arrivals := rfl
@[simp] theorem setRind_frames (s : State) (k : Nat) (x : Rind) : (s.setRind k x).frames = s.frames := rfl
@[simp] theorem setRind_seqs (s : State) (k : Nat) (x : Rind) : (s.setRind k x).seqs = s.seqs := rfl
@[simp] theorem setRind_mgmtKept (s : State) (k : Nat) (x : Rind) : (s.setRind k x).mgmtKept = s.mgmtKept := rfl
@[simp] theorem setRind_seen (s : State) (k : Nat) (x : Rind) : (s.setRind k x).seen = s.seen := rfl
@[simp] theorem setRind_candPos (s : State) (k : Nat) (x : Rind) : (s.setRind k x).candPos = s.candPos := rfl
@[simp] theorem setRind_macs (s : State) (k : Nat) (x : Rind) : (s.setRind k x).macs = s.macs := rfl
@[simp] theorem setRind_meters (s : State) (k : Nat) (x : Rind) : (s.setRind k x).meters = s.meters := rfl
@[simp] theorem setRind_bufs (s : State) (k : Nat) (x : Rind) : (s.setRind k x).bufs = s.bufs := rfl
@[simp] theorem setRind_waiters (s : State) (k : Nat) (x : Rind) : (s.setRind k x).waiters = s.waiters := rfl
@[simp] theorem setRind_poolHold (s : State) (k : Nat) (x : Rind) : (s.setRind k x).poolHold = s.poolHold := rfl
@[simp] theorem setRind_upset (s : State) (k : Nat) (x : Rind) : (s.setRind k x).upset = s.upset := rfl
@[simp] theorem setRind_wheySeen (s : State) (k : Nat) (x : Rind) : (s.setRind k x).wheySeen = s.wheySeen := rfl
@[simp] theorem setRind_slots (s : State) (k : Nat) (x : Rind) : (s.setRind k x).slots = s.slots := rfl
@[simp] theorem setRind_grps (s : State) (k : Nat) (x : Rind) : (s.setRind k x).grps = s.grps := rfl
@[simp] theorem setRind_fires (s : State) (k : Nat) (x : Rind) : (s.setRind k x).fires = s.fires := rfl
@[simp] theorem setRind_chainQ (s : State) (k : Nat) (x : Rind) : (s.setRind k x).chainQ = s.chainQ := rfl
@[simp] theorem setRind_chains (s : State) (k : Nat) (x : Rind) : (s.setRind k x).chains = s.chains := rfl
@[simp] theorem setRind_nextChain (s : State) (k : Nat) (x : Rind) : (s.setRind k x).nextChain = s.nextChain := rfl
@[simp] theorem setRind_vats (s : State) (k : Nat) (x : Rind) : (s.setRind k x).vats = s.vats := rfl
@[simp] theorem setRind_cores (s : State) (k : Nat) (x : Rind) : (s.setRind k x).cores = s.cores := rfl
@[simp] theorem setRind_servers (s : State) (k : Nat) (x : Rind) : (s.setRind k x).servers = s.servers := rfl
@[simp] theorem setRind_members (s : State) (k : Nat) (x : Rind) : (s.setRind k x).members = s.members := rfl
@[simp] theorem setRind_twin (s : State) (k : Nat) (x : Rind) : (s.setRind k x).twin = s.twin := rfl
@[simp] theorem setRind_tally (s : State) (k : Nat) (x : Rind) : (s.setRind k x).tally = s.tally := rfl
@[simp] theorem setRind_soft (s : State) (k : Nat) (x : Rind) : (s.setRind k x).soft = s.soft := rfl
@[simp] theorem setRind_rlines (s : State) (k : Nat) (x : Rind) : (s.setRind k x).rlines = s.rlines := rfl
@[simp] theorem setRind_pwr (s : State) (k : Nat) (x : Rind) : (s.setRind k x).pwr = s.pwr := rfl
@[simp] theorem setRind_asked (s : State) (k : Nat) (x : Rind) : (s.setRind k x).asked = s.asked := rfl
@[simp] theorem setRind_back (s : State) (k : Nat) (x : Rind) : (s.setRind k x).back = s.back := rfl
@[simp] theorem setRind_test (s : State) (k : Nat) (x : Rind) : (s.setRind k x).test = s.test := rfl
@[simp] theorem setRind_scrubs (s : State) (k : Nat) (x : Rind) : (s.setRind k x).scrubs = s.scrubs := rfl
@[simp] theorem setRind_hbmQ (s : State) (k : Nat) (x : Rind) : (s.setRind k x).hbmQ = s.hbmQ := rfl
@[simp] theorem setRind_rennet (s : State) (k : Nat) (x : Rind) : (s.setRind k x).rennet = s.rennet := rfl
@[simp] theorem setRind_ifc (s : State) (k : Nat) (x : Rind) : (s.setRind k x).ifc = s.ifc := rfl
@[simp] theorem setRind_draws (s : State) (k : Nat) (x : Rind) : (s.setRind k x).draws = s.draws := rfl

/-! ### setPu -/

@[simp] theorem setPu_pending (s : State) (u : Nat) (x : PwrUnit) : (s.setPu u x).pending = s.pending := rfl
@[simp] theorem setPu_cyc (s : State) (u : Nat) (x : PwrUnit) : (s.setPu u x).cyc = s.cyc := rfl
@[simp] theorem setPu_same (s : State) (u : Nat) (x : PwrUnit) : (s.setPu u x).same = s.same := rfl
@[simp] theorem setPu_fuses (s : State) (u : Nat) (x : PwrUnit) : (s.setPu u x).fuses = s.fuses := rfl
@[simp] theorem setPu_pins (s : State) (u : Nat) (x : PwrUnit) : (s.setPu u x).pins = s.pins := rfl
@[simp] theorem setPu_regs (s : State) (u : Nat) (x : PwrUnit) : (s.setPu u x).regs = s.regs := rfl
@[simp] theorem setPu_mem (s : State) (u : Nat) (x : PwrUnit) : (s.setPu u x).mem = s.mem := rfl
@[simp] theorem setPu_tele (s : State) (u : Nat) (x : PwrUnit) : (s.setPu u x).tele = s.tele := rfl
@[simp] theorem setPu_out (s : State) (u : Nat) (x : PwrUnit) : (s.setPu u x).out = s.out := rfl
@[simp] theorem setPu_ports (s : State) (u : Nat) (x : PwrUnit) : (s.setPu u x).ports = s.ports := rfl
@[simp] theorem setPu_waiting (s : State) (u : Nat) (x : PwrUnit) : (s.setPu u x).waiting = s.waiting := rfl
@[simp] theorem setPu_inbox (s : State) (u : Nat) (x : PwrUnit) : (s.setPu u x).inbox = s.inbox := rfl
@[simp] theorem setPu_arrivals (s : State) (u : Nat) (x : PwrUnit) : (s.setPu u x).arrivals = s.arrivals := rfl
@[simp] theorem setPu_frames (s : State) (u : Nat) (x : PwrUnit) : (s.setPu u x).frames = s.frames := rfl
@[simp] theorem setPu_seqs (s : State) (u : Nat) (x : PwrUnit) : (s.setPu u x).seqs = s.seqs := rfl
@[simp] theorem setPu_mgmtKept (s : State) (u : Nat) (x : PwrUnit) : (s.setPu u x).mgmtKept = s.mgmtKept := rfl
@[simp] theorem setPu_seen (s : State) (u : Nat) (x : PwrUnit) : (s.setPu u x).seen = s.seen := rfl
@[simp] theorem setPu_candPos (s : State) (u : Nat) (x : PwrUnit) : (s.setPu u x).candPos = s.candPos := rfl
@[simp] theorem setPu_macs (s : State) (u : Nat) (x : PwrUnit) : (s.setPu u x).macs = s.macs := rfl
@[simp] theorem setPu_meters (s : State) (u : Nat) (x : PwrUnit) : (s.setPu u x).meters = s.meters := rfl
@[simp] theorem setPu_bufs (s : State) (u : Nat) (x : PwrUnit) : (s.setPu u x).bufs = s.bufs := rfl
@[simp] theorem setPu_waiters (s : State) (u : Nat) (x : PwrUnit) : (s.setPu u x).waiters = s.waiters := rfl
@[simp] theorem setPu_poolHold (s : State) (u : Nat) (x : PwrUnit) : (s.setPu u x).poolHold = s.poolHold := rfl
@[simp] theorem setPu_upset (s : State) (u : Nat) (x : PwrUnit) : (s.setPu u x).upset = s.upset := rfl
@[simp] theorem setPu_wheySeen (s : State) (u : Nat) (x : PwrUnit) : (s.setPu u x).wheySeen = s.wheySeen := rfl
@[simp] theorem setPu_slots (s : State) (u : Nat) (x : PwrUnit) : (s.setPu u x).slots = s.slots := rfl
@[simp] theorem setPu_grps (s : State) (u : Nat) (x : PwrUnit) : (s.setPu u x).grps = s.grps := rfl
@[simp] theorem setPu_fires (s : State) (u : Nat) (x : PwrUnit) : (s.setPu u x).fires = s.fires := rfl
@[simp] theorem setPu_chainQ (s : State) (u : Nat) (x : PwrUnit) : (s.setPu u x).chainQ = s.chainQ := rfl
@[simp] theorem setPu_chains (s : State) (u : Nat) (x : PwrUnit) : (s.setPu u x).chains = s.chains := rfl
@[simp] theorem setPu_nextChain (s : State) (u : Nat) (x : PwrUnit) : (s.setPu u x).nextChain = s.nextChain := rfl
@[simp] theorem setPu_vats (s : State) (u : Nat) (x : PwrUnit) : (s.setPu u x).vats = s.vats := rfl
@[simp] theorem setPu_cores (s : State) (u : Nat) (x : PwrUnit) : (s.setPu u x).cores = s.cores := rfl
@[simp] theorem setPu_servers (s : State) (u : Nat) (x : PwrUnit) : (s.setPu u x).servers = s.servers := rfl
@[simp] theorem setPu_members (s : State) (u : Nat) (x : PwrUnit) : (s.setPu u x).members = s.members := rfl
@[simp] theorem setPu_twin (s : State) (u : Nat) (x : PwrUnit) : (s.setPu u x).twin = s.twin := rfl
@[simp] theorem setPu_tally (s : State) (u : Nat) (x : PwrUnit) : (s.setPu u x).tally = s.tally := rfl
@[simp] theorem setPu_soft (s : State) (u : Nat) (x : PwrUnit) : (s.setPu u x).soft = s.soft := rfl
@[simp] theorem setPu_rinds (s : State) (u : Nat) (x : PwrUnit) : (s.setPu u x).rinds = s.rinds := rfl
@[simp] theorem setPu_rlines (s : State) (u : Nat) (x : PwrUnit) : (s.setPu u x).rlines = s.rlines := rfl
@[simp] theorem setPu_asked (s : State) (u : Nat) (x : PwrUnit) : (s.setPu u x).asked = s.asked := rfl
@[simp] theorem setPu_back (s : State) (u : Nat) (x : PwrUnit) : (s.setPu u x).back = s.back := rfl
@[simp] theorem setPu_test (s : State) (u : Nat) (x : PwrUnit) : (s.setPu u x).test = s.test := rfl
@[simp] theorem setPu_scrubs (s : State) (u : Nat) (x : PwrUnit) : (s.setPu u x).scrubs = s.scrubs := rfl
@[simp] theorem setPu_hbmQ (s : State) (u : Nat) (x : PwrUnit) : (s.setPu u x).hbmQ = s.hbmQ := rfl
@[simp] theorem setPu_rennet (s : State) (u : Nat) (x : PwrUnit) : (s.setPu u x).rennet = s.rennet := rfl
@[simp] theorem setPu_ifc (s : State) (u : Nat) (x : PwrUnit) : (s.setPu u x).ifc = s.ifc := rfl
@[simp] theorem setPu_draws (s : State) (u : Nat) (x : PwrUnit) : (s.setPu u x).draws = s.draws := rfl

/-! ### wr -/

@[simp] theorem wr_pending (s : State) (a : Nat) (v : U64) : (s.wr a v).pending = s.pending := rfl
@[simp] theorem wr_cyc (s : State) (a : Nat) (v : U64) : (s.wr a v).cyc = s.cyc := rfl
@[simp] theorem wr_same (s : State) (a : Nat) (v : U64) : (s.wr a v).same = s.same := rfl
@[simp] theorem wr_fuses (s : State) (a : Nat) (v : U64) : (s.wr a v).fuses = s.fuses := rfl
@[simp] theorem wr_pins (s : State) (a : Nat) (v : U64) : (s.wr a v).pins = s.pins := rfl
@[simp] theorem wr_mem (s : State) (a : Nat) (v : U64) : (s.wr a v).mem = s.mem := rfl
@[simp] theorem wr_tele (s : State) (a : Nat) (v : U64) : (s.wr a v).tele = s.tele := rfl
@[simp] theorem wr_out (s : State) (a : Nat) (v : U64) : (s.wr a v).out = s.out := rfl
@[simp] theorem wr_ports (s : State) (a : Nat) (v : U64) : (s.wr a v).ports = s.ports := rfl
@[simp] theorem wr_waiting (s : State) (a : Nat) (v : U64) : (s.wr a v).waiting = s.waiting := rfl
@[simp] theorem wr_inbox (s : State) (a : Nat) (v : U64) : (s.wr a v).inbox = s.inbox := rfl
@[simp] theorem wr_arrivals (s : State) (a : Nat) (v : U64) : (s.wr a v).arrivals = s.arrivals := rfl
@[simp] theorem wr_frames (s : State) (a : Nat) (v : U64) : (s.wr a v).frames = s.frames := rfl
@[simp] theorem wr_seqs (s : State) (a : Nat) (v : U64) : (s.wr a v).seqs = s.seqs := rfl
@[simp] theorem wr_mgmtKept (s : State) (a : Nat) (v : U64) : (s.wr a v).mgmtKept = s.mgmtKept := rfl
@[simp] theorem wr_seen (s : State) (a : Nat) (v : U64) : (s.wr a v).seen = s.seen := rfl
@[simp] theorem wr_candPos (s : State) (a : Nat) (v : U64) : (s.wr a v).candPos = s.candPos := rfl
@[simp] theorem wr_macs (s : State) (a : Nat) (v : U64) : (s.wr a v).macs = s.macs := rfl
@[simp] theorem wr_meters (s : State) (a : Nat) (v : U64) : (s.wr a v).meters = s.meters := rfl
@[simp] theorem wr_bufs (s : State) (a : Nat) (v : U64) : (s.wr a v).bufs = s.bufs := rfl
@[simp] theorem wr_waiters (s : State) (a : Nat) (v : U64) : (s.wr a v).waiters = s.waiters := rfl
@[simp] theorem wr_poolHold (s : State) (a : Nat) (v : U64) : (s.wr a v).poolHold = s.poolHold := rfl
@[simp] theorem wr_upset (s : State) (a : Nat) (v : U64) : (s.wr a v).upset = s.upset := rfl
@[simp] theorem wr_wheySeen (s : State) (a : Nat) (v : U64) : (s.wr a v).wheySeen = s.wheySeen := rfl
@[simp] theorem wr_slots (s : State) (a : Nat) (v : U64) : (s.wr a v).slots = s.slots := rfl
@[simp] theorem wr_grps (s : State) (a : Nat) (v : U64) : (s.wr a v).grps = s.grps := rfl
@[simp] theorem wr_fires (s : State) (a : Nat) (v : U64) : (s.wr a v).fires = s.fires := rfl
@[simp] theorem wr_chainQ (s : State) (a : Nat) (v : U64) : (s.wr a v).chainQ = s.chainQ := rfl
@[simp] theorem wr_chains (s : State) (a : Nat) (v : U64) : (s.wr a v).chains = s.chains := rfl
@[simp] theorem wr_nextChain (s : State) (a : Nat) (v : U64) : (s.wr a v).nextChain = s.nextChain := rfl
@[simp] theorem wr_vats (s : State) (a : Nat) (v : U64) : (s.wr a v).vats = s.vats := rfl
@[simp] theorem wr_cores (s : State) (a : Nat) (v : U64) : (s.wr a v).cores = s.cores := rfl
@[simp] theorem wr_servers (s : State) (a : Nat) (v : U64) : (s.wr a v).servers = s.servers := rfl
@[simp] theorem wr_members (s : State) (a : Nat) (v : U64) : (s.wr a v).members = s.members := rfl
@[simp] theorem wr_twin (s : State) (a : Nat) (v : U64) : (s.wr a v).twin = s.twin := rfl
@[simp] theorem wr_tally (s : State) (a : Nat) (v : U64) : (s.wr a v).tally = s.tally := rfl
@[simp] theorem wr_soft (s : State) (a : Nat) (v : U64) : (s.wr a v).soft = s.soft := rfl
@[simp] theorem wr_rinds (s : State) (a : Nat) (v : U64) : (s.wr a v).rinds = s.rinds := rfl
@[simp] theorem wr_rlines (s : State) (a : Nat) (v : U64) : (s.wr a v).rlines = s.rlines := rfl
@[simp] theorem wr_pwr (s : State) (a : Nat) (v : U64) : (s.wr a v).pwr = s.pwr := rfl
@[simp] theorem wr_asked (s : State) (a : Nat) (v : U64) : (s.wr a v).asked = s.asked := rfl
@[simp] theorem wr_back (s : State) (a : Nat) (v : U64) : (s.wr a v).back = s.back := rfl
@[simp] theorem wr_test (s : State) (a : Nat) (v : U64) : (s.wr a v).test = s.test := rfl
@[simp] theorem wr_scrubs (s : State) (a : Nat) (v : U64) : (s.wr a v).scrubs = s.scrubs := rfl
@[simp] theorem wr_hbmQ (s : State) (a : Nat) (v : U64) : (s.wr a v).hbmQ = s.hbmQ := rfl
@[simp] theorem wr_rennet (s : State) (a : Nat) (v : U64) : (s.wr a v).rennet = s.rennet := rfl
@[simp] theorem wr_ifc (s : State) (a : Nat) (v : U64) : (s.wr a v).ifc = s.ifc := rfl
@[simp] theorem wr_draws (s : State) (a : Nat) (v : U64) : (s.wr a v).draws = s.draws := rfl

/-! ### setFld -/

@[simp] theorem setFld_pending (s : State) (b : Nat) (f : Fd) (x : Nat) : (s.setFld b f x).pending = s.pending := rfl
@[simp] theorem setFld_cyc (s : State) (b : Nat) (f : Fd) (x : Nat) : (s.setFld b f x).cyc = s.cyc := rfl
@[simp] theorem setFld_same (s : State) (b : Nat) (f : Fd) (x : Nat) : (s.setFld b f x).same = s.same := rfl
@[simp] theorem setFld_fuses (s : State) (b : Nat) (f : Fd) (x : Nat) : (s.setFld b f x).fuses = s.fuses := rfl
@[simp] theorem setFld_pins (s : State) (b : Nat) (f : Fd) (x : Nat) : (s.setFld b f x).pins = s.pins := rfl
@[simp] theorem setFld_mem (s : State) (b : Nat) (f : Fd) (x : Nat) : (s.setFld b f x).mem = s.mem := rfl
@[simp] theorem setFld_tele (s : State) (b : Nat) (f : Fd) (x : Nat) : (s.setFld b f x).tele = s.tele := rfl
@[simp] theorem setFld_out (s : State) (b : Nat) (f : Fd) (x : Nat) : (s.setFld b f x).out = s.out := rfl
@[simp] theorem setFld_ports (s : State) (b : Nat) (f : Fd) (x : Nat) : (s.setFld b f x).ports = s.ports := rfl
@[simp] theorem setFld_waiting (s : State) (b : Nat) (f : Fd) (x : Nat) : (s.setFld b f x).waiting = s.waiting := rfl
@[simp] theorem setFld_inbox (s : State) (b : Nat) (f : Fd) (x : Nat) : (s.setFld b f x).inbox = s.inbox := rfl
@[simp] theorem setFld_arrivals (s : State) (b : Nat) (f : Fd) (x : Nat) : (s.setFld b f x).arrivals = s.arrivals := rfl
@[simp] theorem setFld_frames (s : State) (b : Nat) (f : Fd) (x : Nat) : (s.setFld b f x).frames = s.frames := rfl
@[simp] theorem setFld_seqs (s : State) (b : Nat) (f : Fd) (x : Nat) : (s.setFld b f x).seqs = s.seqs := rfl
@[simp] theorem setFld_mgmtKept (s : State) (b : Nat) (f : Fd) (x : Nat) : (s.setFld b f x).mgmtKept = s.mgmtKept := rfl
@[simp] theorem setFld_seen (s : State) (b : Nat) (f : Fd) (x : Nat) : (s.setFld b f x).seen = s.seen := rfl
@[simp] theorem setFld_candPos (s : State) (b : Nat) (f : Fd) (x : Nat) : (s.setFld b f x).candPos = s.candPos := rfl
@[simp] theorem setFld_macs (s : State) (b : Nat) (f : Fd) (x : Nat) : (s.setFld b f x).macs = s.macs := rfl
@[simp] theorem setFld_meters (s : State) (b : Nat) (f : Fd) (x : Nat) : (s.setFld b f x).meters = s.meters := rfl
@[simp] theorem setFld_bufs (s : State) (b : Nat) (f : Fd) (x : Nat) : (s.setFld b f x).bufs = s.bufs := rfl
@[simp] theorem setFld_waiters (s : State) (b : Nat) (f : Fd) (x : Nat) : (s.setFld b f x).waiters = s.waiters := rfl
@[simp] theorem setFld_poolHold (s : State) (b : Nat) (f : Fd) (x : Nat) : (s.setFld b f x).poolHold = s.poolHold := rfl
@[simp] theorem setFld_upset (s : State) (b : Nat) (f : Fd) (x : Nat) : (s.setFld b f x).upset = s.upset := rfl
@[simp] theorem setFld_wheySeen (s : State) (b : Nat) (f : Fd) (x : Nat) : (s.setFld b f x).wheySeen = s.wheySeen := rfl
@[simp] theorem setFld_slots (s : State) (b : Nat) (f : Fd) (x : Nat) : (s.setFld b f x).slots = s.slots := rfl
@[simp] theorem setFld_grps (s : State) (b : Nat) (f : Fd) (x : Nat) : (s.setFld b f x).grps = s.grps := rfl
@[simp] theorem setFld_fires (s : State) (b : Nat) (f : Fd) (x : Nat) : (s.setFld b f x).fires = s.fires := rfl
@[simp] theorem setFld_chainQ (s : State) (b : Nat) (f : Fd) (x : Nat) : (s.setFld b f x).chainQ = s.chainQ := rfl
@[simp] theorem setFld_chains (s : State) (b : Nat) (f : Fd) (x : Nat) : (s.setFld b f x).chains = s.chains := rfl
@[simp] theorem setFld_nextChain (s : State) (b : Nat) (f : Fd) (x : Nat) : (s.setFld b f x).nextChain = s.nextChain := rfl
@[simp] theorem setFld_vats (s : State) (b : Nat) (f : Fd) (x : Nat) : (s.setFld b f x).vats = s.vats := rfl
@[simp] theorem setFld_cores (s : State) (b : Nat) (f : Fd) (x : Nat) : (s.setFld b f x).cores = s.cores := rfl
@[simp] theorem setFld_servers (s : State) (b : Nat) (f : Fd) (x : Nat) : (s.setFld b f x).servers = s.servers := rfl
@[simp] theorem setFld_members (s : State) (b : Nat) (f : Fd) (x : Nat) : (s.setFld b f x).members = s.members := rfl
@[simp] theorem setFld_twin (s : State) (b : Nat) (f : Fd) (x : Nat) : (s.setFld b f x).twin = s.twin := rfl
@[simp] theorem setFld_tally (s : State) (b : Nat) (f : Fd) (x : Nat) : (s.setFld b f x).tally = s.tally := rfl
@[simp] theorem setFld_soft (s : State) (b : Nat) (f : Fd) (x : Nat) : (s.setFld b f x).soft = s.soft := rfl
@[simp] theorem setFld_rinds (s : State) (b : Nat) (f : Fd) (x : Nat) : (s.setFld b f x).rinds = s.rinds := rfl
@[simp] theorem setFld_rlines (s : State) (b : Nat) (f : Fd) (x : Nat) : (s.setFld b f x).rlines = s.rlines := rfl
@[simp] theorem setFld_pwr (s : State) (b : Nat) (f : Fd) (x : Nat) : (s.setFld b f x).pwr = s.pwr := rfl
@[simp] theorem setFld_asked (s : State) (b : Nat) (f : Fd) (x : Nat) : (s.setFld b f x).asked = s.asked := rfl
@[simp] theorem setFld_back (s : State) (b : Nat) (f : Fd) (x : Nat) : (s.setFld b f x).back = s.back := rfl
@[simp] theorem setFld_test (s : State) (b : Nat) (f : Fd) (x : Nat) : (s.setFld b f x).test = s.test := rfl
@[simp] theorem setFld_scrubs (s : State) (b : Nat) (f : Fd) (x : Nat) : (s.setFld b f x).scrubs = s.scrubs := rfl
@[simp] theorem setFld_hbmQ (s : State) (b : Nat) (f : Fd) (x : Nat) : (s.setFld b f x).hbmQ = s.hbmQ := rfl
@[simp] theorem setFld_rennet (s : State) (b : Nat) (f : Fd) (x : Nat) : (s.setFld b f x).rennet = s.rennet := rfl
@[simp] theorem setFld_ifc (s : State) (b : Nat) (f : Fd) (x : Nat) : (s.setFld b f x).ifc = s.ifc := rfl
@[simp] theorem setFld_draws (s : State) (b : Nat) (f : Fd) (x : Nat) : (s.setFld b f x).draws = s.draws := rfl

/-! ### addFld -/

@[simp] theorem addFld_pending (s : State) (b : Nat) (f : Fd) (n : Nat) : (s.addFld b f n).pending = s.pending := rfl
@[simp] theorem addFld_cyc (s : State) (b : Nat) (f : Fd) (n : Nat) : (s.addFld b f n).cyc = s.cyc := rfl
@[simp] theorem addFld_same (s : State) (b : Nat) (f : Fd) (n : Nat) : (s.addFld b f n).same = s.same := rfl
@[simp] theorem addFld_fuses (s : State) (b : Nat) (f : Fd) (n : Nat) : (s.addFld b f n).fuses = s.fuses := rfl
@[simp] theorem addFld_pins (s : State) (b : Nat) (f : Fd) (n : Nat) : (s.addFld b f n).pins = s.pins := rfl
@[simp] theorem addFld_mem (s : State) (b : Nat) (f : Fd) (n : Nat) : (s.addFld b f n).mem = s.mem := rfl
@[simp] theorem addFld_tele (s : State) (b : Nat) (f : Fd) (n : Nat) : (s.addFld b f n).tele = s.tele := rfl
@[simp] theorem addFld_out (s : State) (b : Nat) (f : Fd) (n : Nat) : (s.addFld b f n).out = s.out := rfl
@[simp] theorem addFld_ports (s : State) (b : Nat) (f : Fd) (n : Nat) : (s.addFld b f n).ports = s.ports := rfl
@[simp] theorem addFld_waiting (s : State) (b : Nat) (f : Fd) (n : Nat) : (s.addFld b f n).waiting = s.waiting := rfl
@[simp] theorem addFld_inbox (s : State) (b : Nat) (f : Fd) (n : Nat) : (s.addFld b f n).inbox = s.inbox := rfl
@[simp] theorem addFld_arrivals (s : State) (b : Nat) (f : Fd) (n : Nat) : (s.addFld b f n).arrivals = s.arrivals := rfl
@[simp] theorem addFld_frames (s : State) (b : Nat) (f : Fd) (n : Nat) : (s.addFld b f n).frames = s.frames := rfl
@[simp] theorem addFld_seqs (s : State) (b : Nat) (f : Fd) (n : Nat) : (s.addFld b f n).seqs = s.seqs := rfl
@[simp] theorem addFld_mgmtKept (s : State) (b : Nat) (f : Fd) (n : Nat) : (s.addFld b f n).mgmtKept = s.mgmtKept := rfl
@[simp] theorem addFld_seen (s : State) (b : Nat) (f : Fd) (n : Nat) : (s.addFld b f n).seen = s.seen := rfl
@[simp] theorem addFld_candPos (s : State) (b : Nat) (f : Fd) (n : Nat) : (s.addFld b f n).candPos = s.candPos := rfl
@[simp] theorem addFld_macs (s : State) (b : Nat) (f : Fd) (n : Nat) : (s.addFld b f n).macs = s.macs := rfl
@[simp] theorem addFld_meters (s : State) (b : Nat) (f : Fd) (n : Nat) : (s.addFld b f n).meters = s.meters := rfl
@[simp] theorem addFld_bufs (s : State) (b : Nat) (f : Fd) (n : Nat) : (s.addFld b f n).bufs = s.bufs := rfl
@[simp] theorem addFld_waiters (s : State) (b : Nat) (f : Fd) (n : Nat) : (s.addFld b f n).waiters = s.waiters := rfl
@[simp] theorem addFld_poolHold (s : State) (b : Nat) (f : Fd) (n : Nat) : (s.addFld b f n).poolHold = s.poolHold := rfl
@[simp] theorem addFld_upset (s : State) (b : Nat) (f : Fd) (n : Nat) : (s.addFld b f n).upset = s.upset := rfl
@[simp] theorem addFld_wheySeen (s : State) (b : Nat) (f : Fd) (n : Nat) : (s.addFld b f n).wheySeen = s.wheySeen := rfl
@[simp] theorem addFld_slots (s : State) (b : Nat) (f : Fd) (n : Nat) : (s.addFld b f n).slots = s.slots := rfl
@[simp] theorem addFld_grps (s : State) (b : Nat) (f : Fd) (n : Nat) : (s.addFld b f n).grps = s.grps := rfl
@[simp] theorem addFld_fires (s : State) (b : Nat) (f : Fd) (n : Nat) : (s.addFld b f n).fires = s.fires := rfl
@[simp] theorem addFld_chainQ (s : State) (b : Nat) (f : Fd) (n : Nat) : (s.addFld b f n).chainQ = s.chainQ := rfl
@[simp] theorem addFld_chains (s : State) (b : Nat) (f : Fd) (n : Nat) : (s.addFld b f n).chains = s.chains := rfl
@[simp] theorem addFld_nextChain (s : State) (b : Nat) (f : Fd) (n : Nat) : (s.addFld b f n).nextChain = s.nextChain := rfl
@[simp] theorem addFld_vats (s : State) (b : Nat) (f : Fd) (n : Nat) : (s.addFld b f n).vats = s.vats := rfl
@[simp] theorem addFld_cores (s : State) (b : Nat) (f : Fd) (n : Nat) : (s.addFld b f n).cores = s.cores := rfl
@[simp] theorem addFld_servers (s : State) (b : Nat) (f : Fd) (n : Nat) : (s.addFld b f n).servers = s.servers := rfl
@[simp] theorem addFld_members (s : State) (b : Nat) (f : Fd) (n : Nat) : (s.addFld b f n).members = s.members := rfl
@[simp] theorem addFld_twin (s : State) (b : Nat) (f : Fd) (n : Nat) : (s.addFld b f n).twin = s.twin := rfl
@[simp] theorem addFld_tally (s : State) (b : Nat) (f : Fd) (n : Nat) : (s.addFld b f n).tally = s.tally := rfl
@[simp] theorem addFld_soft (s : State) (b : Nat) (f : Fd) (n : Nat) : (s.addFld b f n).soft = s.soft := rfl
@[simp] theorem addFld_rinds (s : State) (b : Nat) (f : Fd) (n : Nat) : (s.addFld b f n).rinds = s.rinds := rfl
@[simp] theorem addFld_rlines (s : State) (b : Nat) (f : Fd) (n : Nat) : (s.addFld b f n).rlines = s.rlines := rfl
@[simp] theorem addFld_pwr (s : State) (b : Nat) (f : Fd) (n : Nat) : (s.addFld b f n).pwr = s.pwr := rfl
@[simp] theorem addFld_asked (s : State) (b : Nat) (f : Fd) (n : Nat) : (s.addFld b f n).asked = s.asked := rfl
@[simp] theorem addFld_back (s : State) (b : Nat) (f : Fd) (n : Nat) : (s.addFld b f n).back = s.back := rfl
@[simp] theorem addFld_test (s : State) (b : Nat) (f : Fd) (n : Nat) : (s.addFld b f n).test = s.test := rfl
@[simp] theorem addFld_scrubs (s : State) (b : Nat) (f : Fd) (n : Nat) : (s.addFld b f n).scrubs = s.scrubs := rfl
@[simp] theorem addFld_hbmQ (s : State) (b : Nat) (f : Fd) (n : Nat) : (s.addFld b f n).hbmQ = s.hbmQ := rfl
@[simp] theorem addFld_rennet (s : State) (b : Nat) (f : Fd) (n : Nat) : (s.addFld b f n).rennet = s.rennet := rfl
@[simp] theorem addFld_ifc (s : State) (b : Nat) (f : Fd) (n : Nat) : (s.addFld b f n).ifc = s.ifc := rfl
@[simp] theorem addFld_draws (s : State) (b : Nat) (f : Fd) (n : Nat) : (s.addFld b f n).draws = s.draws := rfl

/-! ### emit -/

@[simp] theorem emit_pending (s : State) (o : Out) : (s.emit o).pending = s.pending := rfl
@[simp] theorem emit_cyc (s : State) (o : Out) : (s.emit o).cyc = s.cyc := rfl
@[simp] theorem emit_same (s : State) (o : Out) : (s.emit o).same = s.same := rfl
@[simp] theorem emit_fuses (s : State) (o : Out) : (s.emit o).fuses = s.fuses := rfl
@[simp] theorem emit_pins (s : State) (o : Out) : (s.emit o).pins = s.pins := rfl
@[simp] theorem emit_regs (s : State) (o : Out) : (s.emit o).regs = s.regs := rfl
@[simp] theorem emit_mem (s : State) (o : Out) : (s.emit o).mem = s.mem := rfl
@[simp] theorem emit_tele (s : State) (o : Out) : (s.emit o).tele = s.tele := rfl
@[simp] theorem emit_ports (s : State) (o : Out) : (s.emit o).ports = s.ports := rfl
@[simp] theorem emit_waiting (s : State) (o : Out) : (s.emit o).waiting = s.waiting := rfl
@[simp] theorem emit_inbox (s : State) (o : Out) : (s.emit o).inbox = s.inbox := rfl
@[simp] theorem emit_arrivals (s : State) (o : Out) : (s.emit o).arrivals = s.arrivals := rfl
@[simp] theorem emit_frames (s : State) (o : Out) : (s.emit o).frames = s.frames := rfl
@[simp] theorem emit_seqs (s : State) (o : Out) : (s.emit o).seqs = s.seqs := rfl
@[simp] theorem emit_mgmtKept (s : State) (o : Out) : (s.emit o).mgmtKept = s.mgmtKept := rfl
@[simp] theorem emit_seen (s : State) (o : Out) : (s.emit o).seen = s.seen := rfl
@[simp] theorem emit_candPos (s : State) (o : Out) : (s.emit o).candPos = s.candPos := rfl
@[simp] theorem emit_macs (s : State) (o : Out) : (s.emit o).macs = s.macs := rfl
@[simp] theorem emit_meters (s : State) (o : Out) : (s.emit o).meters = s.meters := rfl
@[simp] theorem emit_bufs (s : State) (o : Out) : (s.emit o).bufs = s.bufs := rfl
@[simp] theorem emit_waiters (s : State) (o : Out) : (s.emit o).waiters = s.waiters := rfl
@[simp] theorem emit_poolHold (s : State) (o : Out) : (s.emit o).poolHold = s.poolHold := rfl
@[simp] theorem emit_upset (s : State) (o : Out) : (s.emit o).upset = s.upset := rfl
@[simp] theorem emit_wheySeen (s : State) (o : Out) : (s.emit o).wheySeen = s.wheySeen := rfl
@[simp] theorem emit_slots (s : State) (o : Out) : (s.emit o).slots = s.slots := rfl
@[simp] theorem emit_grps (s : State) (o : Out) : (s.emit o).grps = s.grps := rfl
@[simp] theorem emit_fires (s : State) (o : Out) : (s.emit o).fires = s.fires := rfl
@[simp] theorem emit_chainQ (s : State) (o : Out) : (s.emit o).chainQ = s.chainQ := rfl
@[simp] theorem emit_chains (s : State) (o : Out) : (s.emit o).chains = s.chains := rfl
@[simp] theorem emit_nextChain (s : State) (o : Out) : (s.emit o).nextChain = s.nextChain := rfl
@[simp] theorem emit_vats (s : State) (o : Out) : (s.emit o).vats = s.vats := rfl
@[simp] theorem emit_cores (s : State) (o : Out) : (s.emit o).cores = s.cores := rfl
@[simp] theorem emit_servers (s : State) (o : Out) : (s.emit o).servers = s.servers := rfl
@[simp] theorem emit_members (s : State) (o : Out) : (s.emit o).members = s.members := rfl
@[simp] theorem emit_twin (s : State) (o : Out) : (s.emit o).twin = s.twin := rfl
@[simp] theorem emit_tally (s : State) (o : Out) : (s.emit o).tally = s.tally := rfl
@[simp] theorem emit_soft (s : State) (o : Out) : (s.emit o).soft = s.soft := rfl
@[simp] theorem emit_rinds (s : State) (o : Out) : (s.emit o).rinds = s.rinds := rfl
@[simp] theorem emit_rlines (s : State) (o : Out) : (s.emit o).rlines = s.rlines := rfl
@[simp] theorem emit_pwr (s : State) (o : Out) : (s.emit o).pwr = s.pwr := rfl
@[simp] theorem emit_asked (s : State) (o : Out) : (s.emit o).asked = s.asked := rfl
@[simp] theorem emit_back (s : State) (o : Out) : (s.emit o).back = s.back := rfl
@[simp] theorem emit_test (s : State) (o : Out) : (s.emit o).test = s.test := rfl
@[simp] theorem emit_scrubs (s : State) (o : Out) : (s.emit o).scrubs = s.scrubs := rfl
@[simp] theorem emit_hbmQ (s : State) (o : Out) : (s.emit o).hbmQ = s.hbmQ := rfl
@[simp] theorem emit_rennet (s : State) (o : Out) : (s.emit o).rennet = s.rennet := rfl
@[simp] theorem emit_ifc (s : State) (o : Out) : (s.emit o).ifc = s.ifc := rfl
@[simp] theorem emit_draws (s : State) (o : Out) : (s.emit o).draws = s.draws := rfl

/-! ### wrByte -/

@[simp] theorem wrByte_pending (s : State) (sp off : Nat) (b : Byte) : (wrByte s sp off b).pending = s.pending := rfl
@[simp] theorem wrByte_cyc (s : State) (sp off : Nat) (b : Byte) : (wrByte s sp off b).cyc = s.cyc := rfl
@[simp] theorem wrByte_same (s : State) (sp off : Nat) (b : Byte) : (wrByte s sp off b).same = s.same := rfl
@[simp] theorem wrByte_fuses (s : State) (sp off : Nat) (b : Byte) : (wrByte s sp off b).fuses = s.fuses := rfl
@[simp] theorem wrByte_pins (s : State) (sp off : Nat) (b : Byte) : (wrByte s sp off b).pins = s.pins := rfl
@[simp] theorem wrByte_regs (s : State) (sp off : Nat) (b : Byte) : (wrByte s sp off b).regs = s.regs := rfl
@[simp] theorem wrByte_tele (s : State) (sp off : Nat) (b : Byte) : (wrByte s sp off b).tele = s.tele := rfl
@[simp] theorem wrByte_out (s : State) (sp off : Nat) (b : Byte) : (wrByte s sp off b).out = s.out := rfl
@[simp] theorem wrByte_ports (s : State) (sp off : Nat) (b : Byte) : (wrByte s sp off b).ports = s.ports := rfl
@[simp] theorem wrByte_waiting (s : State) (sp off : Nat) (b : Byte) : (wrByte s sp off b).waiting = s.waiting := rfl
@[simp] theorem wrByte_inbox (s : State) (sp off : Nat) (b : Byte) : (wrByte s sp off b).inbox = s.inbox := rfl
@[simp] theorem wrByte_arrivals (s : State) (sp off : Nat) (b : Byte) : (wrByte s sp off b).arrivals = s.arrivals := rfl
@[simp] theorem wrByte_frames (s : State) (sp off : Nat) (b : Byte) : (wrByte s sp off b).frames = s.frames := rfl
@[simp] theorem wrByte_seqs (s : State) (sp off : Nat) (b : Byte) : (wrByte s sp off b).seqs = s.seqs := rfl
@[simp] theorem wrByte_mgmtKept (s : State) (sp off : Nat) (b : Byte) : (wrByte s sp off b).mgmtKept = s.mgmtKept := rfl
@[simp] theorem wrByte_seen (s : State) (sp off : Nat) (b : Byte) : (wrByte s sp off b).seen = s.seen := rfl
@[simp] theorem wrByte_candPos (s : State) (sp off : Nat) (b : Byte) : (wrByte s sp off b).candPos = s.candPos := rfl
@[simp] theorem wrByte_macs (s : State) (sp off : Nat) (b : Byte) : (wrByte s sp off b).macs = s.macs := rfl
@[simp] theorem wrByte_meters (s : State) (sp off : Nat) (b : Byte) : (wrByte s sp off b).meters = s.meters := rfl
@[simp] theorem wrByte_bufs (s : State) (sp off : Nat) (b : Byte) : (wrByte s sp off b).bufs = s.bufs := rfl
@[simp] theorem wrByte_waiters (s : State) (sp off : Nat) (b : Byte) : (wrByte s sp off b).waiters = s.waiters := rfl
@[simp] theorem wrByte_poolHold (s : State) (sp off : Nat) (b : Byte) : (wrByte s sp off b).poolHold = s.poolHold := rfl
@[simp] theorem wrByte_upset (s : State) (sp off : Nat) (b : Byte) : (wrByte s sp off b).upset = s.upset := rfl
@[simp] theorem wrByte_wheySeen (s : State) (sp off : Nat) (b : Byte) : (wrByte s sp off b).wheySeen = s.wheySeen := rfl
@[simp] theorem wrByte_slots (s : State) (sp off : Nat) (b : Byte) : (wrByte s sp off b).slots = s.slots := rfl
@[simp] theorem wrByte_grps (s : State) (sp off : Nat) (b : Byte) : (wrByte s sp off b).grps = s.grps := rfl
@[simp] theorem wrByte_fires (s : State) (sp off : Nat) (b : Byte) : (wrByte s sp off b).fires = s.fires := rfl
@[simp] theorem wrByte_chainQ (s : State) (sp off : Nat) (b : Byte) : (wrByte s sp off b).chainQ = s.chainQ := rfl
@[simp] theorem wrByte_chains (s : State) (sp off : Nat) (b : Byte) : (wrByte s sp off b).chains = s.chains := rfl
@[simp] theorem wrByte_nextChain (s : State) (sp off : Nat) (b : Byte) : (wrByte s sp off b).nextChain = s.nextChain := rfl
@[simp] theorem wrByte_vats (s : State) (sp off : Nat) (b : Byte) : (wrByte s sp off b).vats = s.vats := rfl
@[simp] theorem wrByte_cores (s : State) (sp off : Nat) (b : Byte) : (wrByte s sp off b).cores = s.cores := rfl
@[simp] theorem wrByte_servers (s : State) (sp off : Nat) (b : Byte) : (wrByte s sp off b).servers = s.servers := rfl
@[simp] theorem wrByte_members (s : State) (sp off : Nat) (b : Byte) : (wrByte s sp off b).members = s.members := rfl
@[simp] theorem wrByte_twin (s : State) (sp off : Nat) (b : Byte) : (wrByte s sp off b).twin = s.twin := rfl
@[simp] theorem wrByte_tally (s : State) (sp off : Nat) (b : Byte) : (wrByte s sp off b).tally = s.tally := rfl
@[simp] theorem wrByte_soft (s : State) (sp off : Nat) (b : Byte) : (wrByte s sp off b).soft = s.soft := rfl
@[simp] theorem wrByte_rinds (s : State) (sp off : Nat) (b : Byte) : (wrByte s sp off b).rinds = s.rinds := rfl
@[simp] theorem wrByte_rlines (s : State) (sp off : Nat) (b : Byte) : (wrByte s sp off b).rlines = s.rlines := rfl
@[simp] theorem wrByte_pwr (s : State) (sp off : Nat) (b : Byte) : (wrByte s sp off b).pwr = s.pwr := rfl
@[simp] theorem wrByte_asked (s : State) (sp off : Nat) (b : Byte) : (wrByte s sp off b).asked = s.asked := rfl
@[simp] theorem wrByte_back (s : State) (sp off : Nat) (b : Byte) : (wrByte s sp off b).back = s.back := rfl
@[simp] theorem wrByte_test (s : State) (sp off : Nat) (b : Byte) : (wrByte s sp off b).test = s.test := rfl
@[simp] theorem wrByte_scrubs (s : State) (sp off : Nat) (b : Byte) : (wrByte s sp off b).scrubs = s.scrubs := rfl
@[simp] theorem wrByte_hbmQ (s : State) (sp off : Nat) (b : Byte) : (wrByte s sp off b).hbmQ = s.hbmQ := rfl
@[simp] theorem wrByte_rennet (s : State) (sp off : Nat) (b : Byte) : (wrByte s sp off b).rennet = s.rennet := rfl
@[simp] theorem wrByte_ifc (s : State) (sp off : Nat) (b : Byte) : (wrByte s sp off b).ifc = s.ifc := rfl
@[simp] theorem wrByte_draws (s : State) (sp off : Nat) (b : Byte) : (wrByte s sp off b).draws = s.draws := rfl

/-! ### teleSet -/

@[simp] theorem teleSet_pending (s : State) (p off v : Nat) : (teleSet p off v s).pending = s.pending := rfl
@[simp] theorem teleSet_cyc (s : State) (p off v : Nat) : (teleSet p off v s).cyc = s.cyc := rfl
@[simp] theorem teleSet_same (s : State) (p off v : Nat) : (teleSet p off v s).same = s.same := rfl
@[simp] theorem teleSet_fuses (s : State) (p off v : Nat) : (teleSet p off v s).fuses = s.fuses := rfl
@[simp] theorem teleSet_pins (s : State) (p off v : Nat) : (teleSet p off v s).pins = s.pins := rfl
@[simp] theorem teleSet_regs (s : State) (p off v : Nat) : (teleSet p off v s).regs = s.regs := rfl
@[simp] theorem teleSet_mem (s : State) (p off v : Nat) : (teleSet p off v s).mem = s.mem := rfl
@[simp] theorem teleSet_out (s : State) (p off v : Nat) : (teleSet p off v s).out = s.out := rfl
@[simp] theorem teleSet_ports (s : State) (p off v : Nat) : (teleSet p off v s).ports = s.ports := rfl
@[simp] theorem teleSet_waiting (s : State) (p off v : Nat) : (teleSet p off v s).waiting = s.waiting := rfl
@[simp] theorem teleSet_inbox (s : State) (p off v : Nat) : (teleSet p off v s).inbox = s.inbox := rfl
@[simp] theorem teleSet_arrivals (s : State) (p off v : Nat) : (teleSet p off v s).arrivals = s.arrivals := rfl
@[simp] theorem teleSet_frames (s : State) (p off v : Nat) : (teleSet p off v s).frames = s.frames := rfl
@[simp] theorem teleSet_seqs (s : State) (p off v : Nat) : (teleSet p off v s).seqs = s.seqs := rfl
@[simp] theorem teleSet_mgmtKept (s : State) (p off v : Nat) : (teleSet p off v s).mgmtKept = s.mgmtKept := rfl
@[simp] theorem teleSet_seen (s : State) (p off v : Nat) : (teleSet p off v s).seen = s.seen := rfl
@[simp] theorem teleSet_candPos (s : State) (p off v : Nat) : (teleSet p off v s).candPos = s.candPos := rfl
@[simp] theorem teleSet_macs (s : State) (p off v : Nat) : (teleSet p off v s).macs = s.macs := rfl
@[simp] theorem teleSet_meters (s : State) (p off v : Nat) : (teleSet p off v s).meters = s.meters := rfl
@[simp] theorem teleSet_bufs (s : State) (p off v : Nat) : (teleSet p off v s).bufs = s.bufs := rfl
@[simp] theorem teleSet_waiters (s : State) (p off v : Nat) : (teleSet p off v s).waiters = s.waiters := rfl
@[simp] theorem teleSet_poolHold (s : State) (p off v : Nat) : (teleSet p off v s).poolHold = s.poolHold := rfl
@[simp] theorem teleSet_upset (s : State) (p off v : Nat) : (teleSet p off v s).upset = s.upset := rfl
@[simp] theorem teleSet_wheySeen (s : State) (p off v : Nat) : (teleSet p off v s).wheySeen = s.wheySeen := rfl
@[simp] theorem teleSet_slots (s : State) (p off v : Nat) : (teleSet p off v s).slots = s.slots := rfl
@[simp] theorem teleSet_grps (s : State) (p off v : Nat) : (teleSet p off v s).grps = s.grps := rfl
@[simp] theorem teleSet_fires (s : State) (p off v : Nat) : (teleSet p off v s).fires = s.fires := rfl
@[simp] theorem teleSet_chainQ (s : State) (p off v : Nat) : (teleSet p off v s).chainQ = s.chainQ := rfl
@[simp] theorem teleSet_chains (s : State) (p off v : Nat) : (teleSet p off v s).chains = s.chains := rfl
@[simp] theorem teleSet_nextChain (s : State) (p off v : Nat) : (teleSet p off v s).nextChain = s.nextChain := rfl
@[simp] theorem teleSet_vats (s : State) (p off v : Nat) : (teleSet p off v s).vats = s.vats := rfl
@[simp] theorem teleSet_cores (s : State) (p off v : Nat) : (teleSet p off v s).cores = s.cores := rfl
@[simp] theorem teleSet_servers (s : State) (p off v : Nat) : (teleSet p off v s).servers = s.servers := rfl
@[simp] theorem teleSet_members (s : State) (p off v : Nat) : (teleSet p off v s).members = s.members := rfl
@[simp] theorem teleSet_twin (s : State) (p off v : Nat) : (teleSet p off v s).twin = s.twin := rfl
@[simp] theorem teleSet_tally (s : State) (p off v : Nat) : (teleSet p off v s).tally = s.tally := rfl
@[simp] theorem teleSet_soft (s : State) (p off v : Nat) : (teleSet p off v s).soft = s.soft := rfl
@[simp] theorem teleSet_rinds (s : State) (p off v : Nat) : (teleSet p off v s).rinds = s.rinds := rfl
@[simp] theorem teleSet_rlines (s : State) (p off v : Nat) : (teleSet p off v s).rlines = s.rlines := rfl
@[simp] theorem teleSet_pwr (s : State) (p off v : Nat) : (teleSet p off v s).pwr = s.pwr := rfl
@[simp] theorem teleSet_asked (s : State) (p off v : Nat) : (teleSet p off v s).asked = s.asked := rfl
@[simp] theorem teleSet_back (s : State) (p off v : Nat) : (teleSet p off v s).back = s.back := rfl
@[simp] theorem teleSet_test (s : State) (p off v : Nat) : (teleSet p off v s).test = s.test := rfl
@[simp] theorem teleSet_scrubs (s : State) (p off v : Nat) : (teleSet p off v s).scrubs = s.scrubs := rfl
@[simp] theorem teleSet_hbmQ (s : State) (p off v : Nat) : (teleSet p off v s).hbmQ = s.hbmQ := rfl
@[simp] theorem teleSet_rennet (s : State) (p off v : Nat) : (teleSet p off v s).rennet = s.rennet := rfl
@[simp] theorem teleSet_ifc (s : State) (p off v : Nat) : (teleSet p off v s).ifc = s.ifc := rfl
@[simp] theorem teleSet_draws (s : State) (p off v : Nat) : (teleSet p off v s).draws = s.draws := rfl

/-! ### noteWrite -/

@[simp] theorem noteWrite_pending (s : State) (r a : Nat) : (noteWrite r a s).pending = s.pending := rfl
@[simp] theorem noteWrite_cyc (s : State) (r a : Nat) : (noteWrite r a s).cyc = s.cyc := rfl
@[simp] theorem noteWrite_fuses (s : State) (r a : Nat) : (noteWrite r a s).fuses = s.fuses := rfl
@[simp] theorem noteWrite_pins (s : State) (r a : Nat) : (noteWrite r a s).pins = s.pins := rfl
@[simp] theorem noteWrite_regs (s : State) (r a : Nat) : (noteWrite r a s).regs = s.regs := rfl
@[simp] theorem noteWrite_mem (s : State) (r a : Nat) : (noteWrite r a s).mem = s.mem := rfl
@[simp] theorem noteWrite_tele (s : State) (r a : Nat) : (noteWrite r a s).tele = s.tele := rfl
@[simp] theorem noteWrite_out (s : State) (r a : Nat) : (noteWrite r a s).out = s.out := rfl
@[simp] theorem noteWrite_ports (s : State) (r a : Nat) : (noteWrite r a s).ports = s.ports := rfl
@[simp] theorem noteWrite_waiting (s : State) (r a : Nat) : (noteWrite r a s).waiting = s.waiting := rfl
@[simp] theorem noteWrite_inbox (s : State) (r a : Nat) : (noteWrite r a s).inbox = s.inbox := rfl
@[simp] theorem noteWrite_arrivals (s : State) (r a : Nat) : (noteWrite r a s).arrivals = s.arrivals := rfl
@[simp] theorem noteWrite_frames (s : State) (r a : Nat) : (noteWrite r a s).frames = s.frames := rfl
@[simp] theorem noteWrite_seqs (s : State) (r a : Nat) : (noteWrite r a s).seqs = s.seqs := rfl
@[simp] theorem noteWrite_mgmtKept (s : State) (r a : Nat) : (noteWrite r a s).mgmtKept = s.mgmtKept := rfl
@[simp] theorem noteWrite_seen (s : State) (r a : Nat) : (noteWrite r a s).seen = s.seen := rfl
@[simp] theorem noteWrite_candPos (s : State) (r a : Nat) : (noteWrite r a s).candPos = s.candPos := rfl
@[simp] theorem noteWrite_macs (s : State) (r a : Nat) : (noteWrite r a s).macs = s.macs := rfl
@[simp] theorem noteWrite_meters (s : State) (r a : Nat) : (noteWrite r a s).meters = s.meters := rfl
@[simp] theorem noteWrite_bufs (s : State) (r a : Nat) : (noteWrite r a s).bufs = s.bufs := rfl
@[simp] theorem noteWrite_waiters (s : State) (r a : Nat) : (noteWrite r a s).waiters = s.waiters := rfl
@[simp] theorem noteWrite_poolHold (s : State) (r a : Nat) : (noteWrite r a s).poolHold = s.poolHold := rfl
@[simp] theorem noteWrite_upset (s : State) (r a : Nat) : (noteWrite r a s).upset = s.upset := rfl
@[simp] theorem noteWrite_wheySeen (s : State) (r a : Nat) : (noteWrite r a s).wheySeen = s.wheySeen := rfl
@[simp] theorem noteWrite_slots (s : State) (r a : Nat) : (noteWrite r a s).slots = s.slots := rfl
@[simp] theorem noteWrite_grps (s : State) (r a : Nat) : (noteWrite r a s).grps = s.grps := rfl
@[simp] theorem noteWrite_fires (s : State) (r a : Nat) : (noteWrite r a s).fires = s.fires := rfl
@[simp] theorem noteWrite_chainQ (s : State) (r a : Nat) : (noteWrite r a s).chainQ = s.chainQ := rfl
@[simp] theorem noteWrite_chains (s : State) (r a : Nat) : (noteWrite r a s).chains = s.chains := rfl
@[simp] theorem noteWrite_nextChain (s : State) (r a : Nat) : (noteWrite r a s).nextChain = s.nextChain := rfl
@[simp] theorem noteWrite_vats (s : State) (r a : Nat) : (noteWrite r a s).vats = s.vats := rfl
@[simp] theorem noteWrite_cores (s : State) (r a : Nat) : (noteWrite r a s).cores = s.cores := rfl
@[simp] theorem noteWrite_servers (s : State) (r a : Nat) : (noteWrite r a s).servers = s.servers := rfl
@[simp] theorem noteWrite_members (s : State) (r a : Nat) : (noteWrite r a s).members = s.members := rfl
@[simp] theorem noteWrite_twin (s : State) (r a : Nat) : (noteWrite r a s).twin = s.twin := rfl
@[simp] theorem noteWrite_tally (s : State) (r a : Nat) : (noteWrite r a s).tally = s.tally := rfl
@[simp] theorem noteWrite_soft (s : State) (r a : Nat) : (noteWrite r a s).soft = s.soft := rfl
@[simp] theorem noteWrite_rinds (s : State) (r a : Nat) : (noteWrite r a s).rinds = s.rinds := rfl
@[simp] theorem noteWrite_rlines (s : State) (r a : Nat) : (noteWrite r a s).rlines = s.rlines := rfl
@[simp] theorem noteWrite_pwr (s : State) (r a : Nat) : (noteWrite r a s).pwr = s.pwr := rfl
@[simp] theorem noteWrite_asked (s : State) (r a : Nat) : (noteWrite r a s).asked = s.asked := rfl
@[simp] theorem noteWrite_back (s : State) (r a : Nat) : (noteWrite r a s).back = s.back := rfl
@[simp] theorem noteWrite_test (s : State) (r a : Nat) : (noteWrite r a s).test = s.test := rfl
@[simp] theorem noteWrite_scrubs (s : State) (r a : Nat) : (noteWrite r a s).scrubs = s.scrubs := rfl
@[simp] theorem noteWrite_hbmQ (s : State) (r a : Nat) : (noteWrite r a s).hbmQ = s.hbmQ := rfl
@[simp] theorem noteWrite_rennet (s : State) (r a : Nat) : (noteWrite r a s).rennet = s.rennet := rfl
@[simp] theorem noteWrite_ifc (s : State) (r a : Nat) : (noteWrite r a s).ifc = s.ifc := rfl
@[simp] theorem noteWrite_draws (s : State) (r a : Nat) : (noteWrite r a s).draws = s.draws := rfl

/-! ### raiseEv -/

@[simp] theorem raiseEv_pending (s : State) (p k : Nat) : (raiseEv p k s).pending = s.pending := rfl
@[simp] theorem raiseEv_cyc (s : State) (p k : Nat) : (raiseEv p k s).cyc = s.cyc := rfl
@[simp] theorem raiseEv_fuses (s : State) (p k : Nat) : (raiseEv p k s).fuses = s.fuses := rfl
@[simp] theorem raiseEv_pins (s : State) (p k : Nat) : (raiseEv p k s).pins = s.pins := rfl
@[simp] theorem raiseEv_mem (s : State) (p k : Nat) : (raiseEv p k s).mem = s.mem := rfl
@[simp] theorem raiseEv_tele (s : State) (p k : Nat) : (raiseEv p k s).tele = s.tele := rfl
@[simp] theorem raiseEv_out (s : State) (p k : Nat) : (raiseEv p k s).out = s.out := rfl
@[simp] theorem raiseEv_ports (s : State) (p k : Nat) : (raiseEv p k s).ports = s.ports := rfl
@[simp] theorem raiseEv_waiting (s : State) (p k : Nat) : (raiseEv p k s).waiting = s.waiting := rfl
@[simp] theorem raiseEv_inbox (s : State) (p k : Nat) : (raiseEv p k s).inbox = s.inbox := rfl
@[simp] theorem raiseEv_arrivals (s : State) (p k : Nat) : (raiseEv p k s).arrivals = s.arrivals := rfl
@[simp] theorem raiseEv_frames (s : State) (p k : Nat) : (raiseEv p k s).frames = s.frames := rfl
@[simp] theorem raiseEv_seqs (s : State) (p k : Nat) : (raiseEv p k s).seqs = s.seqs := rfl
@[simp] theorem raiseEv_mgmtKept (s : State) (p k : Nat) : (raiseEv p k s).mgmtKept = s.mgmtKept := rfl
@[simp] theorem raiseEv_seen (s : State) (p k : Nat) : (raiseEv p k s).seen = s.seen := rfl
@[simp] theorem raiseEv_candPos (s : State) (p k : Nat) : (raiseEv p k s).candPos = s.candPos := rfl
@[simp] theorem raiseEv_macs (s : State) (p k : Nat) : (raiseEv p k s).macs = s.macs := rfl
@[simp] theorem raiseEv_meters (s : State) (p k : Nat) : (raiseEv p k s).meters = s.meters := rfl
@[simp] theorem raiseEv_bufs (s : State) (p k : Nat) : (raiseEv p k s).bufs = s.bufs := rfl
@[simp] theorem raiseEv_waiters (s : State) (p k : Nat) : (raiseEv p k s).waiters = s.waiters := rfl
@[simp] theorem raiseEv_poolHold (s : State) (p k : Nat) : (raiseEv p k s).poolHold = s.poolHold := rfl
@[simp] theorem raiseEv_upset (s : State) (p k : Nat) : (raiseEv p k s).upset = s.upset := rfl
@[simp] theorem raiseEv_wheySeen (s : State) (p k : Nat) : (raiseEv p k s).wheySeen = s.wheySeen := rfl
@[simp] theorem raiseEv_slots (s : State) (p k : Nat) : (raiseEv p k s).slots = s.slots := rfl
@[simp] theorem raiseEv_grps (s : State) (p k : Nat) : (raiseEv p k s).grps = s.grps := rfl
@[simp] theorem raiseEv_fires (s : State) (p k : Nat) : (raiseEv p k s).fires = s.fires := rfl
@[simp] theorem raiseEv_chainQ (s : State) (p k : Nat) : (raiseEv p k s).chainQ = s.chainQ := rfl
@[simp] theorem raiseEv_chains (s : State) (p k : Nat) : (raiseEv p k s).chains = s.chains := rfl
@[simp] theorem raiseEv_nextChain (s : State) (p k : Nat) : (raiseEv p k s).nextChain = s.nextChain := rfl
@[simp] theorem raiseEv_vats (s : State) (p k : Nat) : (raiseEv p k s).vats = s.vats := rfl
@[simp] theorem raiseEv_cores (s : State) (p k : Nat) : (raiseEv p k s).cores = s.cores := rfl
@[simp] theorem raiseEv_servers (s : State) (p k : Nat) : (raiseEv p k s).servers = s.servers := rfl
@[simp] theorem raiseEv_members (s : State) (p k : Nat) : (raiseEv p k s).members = s.members := rfl
@[simp] theorem raiseEv_twin (s : State) (p k : Nat) : (raiseEv p k s).twin = s.twin := rfl
@[simp] theorem raiseEv_tally (s : State) (p k : Nat) : (raiseEv p k s).tally = s.tally := rfl
@[simp] theorem raiseEv_soft (s : State) (p k : Nat) : (raiseEv p k s).soft = s.soft := rfl
@[simp] theorem raiseEv_rinds (s : State) (p k : Nat) : (raiseEv p k s).rinds = s.rinds := rfl
@[simp] theorem raiseEv_rlines (s : State) (p k : Nat) : (raiseEv p k s).rlines = s.rlines := rfl
@[simp] theorem raiseEv_pwr (s : State) (p k : Nat) : (raiseEv p k s).pwr = s.pwr := rfl
@[simp] theorem raiseEv_asked (s : State) (p k : Nat) : (raiseEv p k s).asked = s.asked := rfl
@[simp] theorem raiseEv_back (s : State) (p k : Nat) : (raiseEv p k s).back = s.back := rfl
@[simp] theorem raiseEv_test (s : State) (p k : Nat) : (raiseEv p k s).test = s.test := rfl
@[simp] theorem raiseEv_scrubs (s : State) (p k : Nat) : (raiseEv p k s).scrubs = s.scrubs := rfl
@[simp] theorem raiseEv_hbmQ (s : State) (p k : Nat) : (raiseEv p k s).hbmQ = s.hbmQ := rfl
@[simp] theorem raiseEv_rennet (s : State) (p k : Nat) : (raiseEv p k s).rennet = s.rennet := rfl
@[simp] theorem raiseEv_ifc (s : State) (p k : Nat) : (raiseEv p k s).ifc = s.ifc := rfl
@[simp] theorem raiseEv_draws (s : State) (p k : Nat) : (raiseEv p k s).draws = s.draws := rfl

/-! ### errCount -/

@[simp] theorem errCount_pending (s : State) (p o c : Nat) : (errCount p o c s).pending = s.pending := rfl
@[simp] theorem errCount_cyc (s : State) (p o c : Nat) : (errCount p o c s).cyc = s.cyc := rfl
@[simp] theorem errCount_fuses (s : State) (p o c : Nat) : (errCount p o c s).fuses = s.fuses := rfl
@[simp] theorem errCount_pins (s : State) (p o c : Nat) : (errCount p o c s).pins = s.pins := rfl
@[simp] theorem errCount_mem (s : State) (p o c : Nat) : (errCount p o c s).mem = s.mem := rfl
@[simp] theorem errCount_tele (s : State) (p o c : Nat) : (errCount p o c s).tele = s.tele := rfl
@[simp] theorem errCount_out (s : State) (p o c : Nat) : (errCount p o c s).out = s.out := rfl
@[simp] theorem errCount_ports (s : State) (p o c : Nat) : (errCount p o c s).ports = s.ports := rfl
@[simp] theorem errCount_waiting (s : State) (p o c : Nat) : (errCount p o c s).waiting = s.waiting := rfl
@[simp] theorem errCount_inbox (s : State) (p o c : Nat) : (errCount p o c s).inbox = s.inbox := rfl
@[simp] theorem errCount_arrivals (s : State) (p o c : Nat) : (errCount p o c s).arrivals = s.arrivals := rfl
@[simp] theorem errCount_frames (s : State) (p o c : Nat) : (errCount p o c s).frames = s.frames := rfl
@[simp] theorem errCount_seqs (s : State) (p o c : Nat) : (errCount p o c s).seqs = s.seqs := rfl
@[simp] theorem errCount_mgmtKept (s : State) (p o c : Nat) : (errCount p o c s).mgmtKept = s.mgmtKept := rfl
@[simp] theorem errCount_seen (s : State) (p o c : Nat) : (errCount p o c s).seen = s.seen := rfl
@[simp] theorem errCount_candPos (s : State) (p o c : Nat) : (errCount p o c s).candPos = s.candPos := rfl
@[simp] theorem errCount_macs (s : State) (p o c : Nat) : (errCount p o c s).macs = s.macs := rfl
@[simp] theorem errCount_meters (s : State) (p o c : Nat) : (errCount p o c s).meters = s.meters := rfl
@[simp] theorem errCount_bufs (s : State) (p o c : Nat) : (errCount p o c s).bufs = s.bufs := rfl
@[simp] theorem errCount_waiters (s : State) (p o c : Nat) : (errCount p o c s).waiters = s.waiters := rfl
@[simp] theorem errCount_poolHold (s : State) (p o c : Nat) : (errCount p o c s).poolHold = s.poolHold := rfl
@[simp] theorem errCount_upset (s : State) (p o c : Nat) : (errCount p o c s).upset = s.upset := rfl
@[simp] theorem errCount_wheySeen (s : State) (p o c : Nat) : (errCount p o c s).wheySeen = s.wheySeen := rfl
@[simp] theorem errCount_slots (s : State) (p o c : Nat) : (errCount p o c s).slots = s.slots := rfl
@[simp] theorem errCount_grps (s : State) (p o c : Nat) : (errCount p o c s).grps = s.grps := rfl
@[simp] theorem errCount_fires (s : State) (p o c : Nat) : (errCount p o c s).fires = s.fires := rfl
@[simp] theorem errCount_chainQ (s : State) (p o c : Nat) : (errCount p o c s).chainQ = s.chainQ := rfl
@[simp] theorem errCount_chains (s : State) (p o c : Nat) : (errCount p o c s).chains = s.chains := rfl
@[simp] theorem errCount_nextChain (s : State) (p o c : Nat) : (errCount p o c s).nextChain = s.nextChain := rfl
@[simp] theorem errCount_vats (s : State) (p o c : Nat) : (errCount p o c s).vats = s.vats := rfl
@[simp] theorem errCount_cores (s : State) (p o c : Nat) : (errCount p o c s).cores = s.cores := rfl
@[simp] theorem errCount_servers (s : State) (p o c : Nat) : (errCount p o c s).servers = s.servers := rfl
@[simp] theorem errCount_members (s : State) (p o c : Nat) : (errCount p o c s).members = s.members := rfl
@[simp] theorem errCount_twin (s : State) (p o c : Nat) : (errCount p o c s).twin = s.twin := rfl
@[simp] theorem errCount_tally (s : State) (p o c : Nat) : (errCount p o c s).tally = s.tally := rfl
@[simp] theorem errCount_soft (s : State) (p o c : Nat) : (errCount p o c s).soft = s.soft := rfl
@[simp] theorem errCount_rinds (s : State) (p o c : Nat) : (errCount p o c s).rinds = s.rinds := rfl
@[simp] theorem errCount_rlines (s : State) (p o c : Nat) : (errCount p o c s).rlines = s.rlines := rfl
@[simp] theorem errCount_pwr (s : State) (p o c : Nat) : (errCount p o c s).pwr = s.pwr := rfl
@[simp] theorem errCount_asked (s : State) (p o c : Nat) : (errCount p o c s).asked = s.asked := rfl
@[simp] theorem errCount_back (s : State) (p o c : Nat) : (errCount p o c s).back = s.back := rfl
@[simp] theorem errCount_test (s : State) (p o c : Nat) : (errCount p o c s).test = s.test := rfl
@[simp] theorem errCount_scrubs (s : State) (p o c : Nat) : (errCount p o c s).scrubs = s.scrubs := rfl
@[simp] theorem errCount_hbmQ (s : State) (p o c : Nat) : (errCount p o c s).hbmQ = s.hbmQ := rfl
@[simp] theorem errCount_rennet (s : State) (p o c : Nat) : (errCount p o c s).rennet = s.rennet := rfl
@[simp] theorem errCount_ifc (s : State) (p o c : Nat) : (errCount p o c s).ifc = s.ifc := rfl
@[simp] theorem errCount_draws (s : State) (p o c : Nat) : (errCount p o c s).draws = s.draws := rfl

/-! ### What an update writes -/

@[simp] theorem setPort_ports (s : State) (p : Nat) (x : Port) :
    (s.setPort p x).ports = tset Port.none s.ports p x := rfl
@[simp] theorem emit_out (s : State) (o : Out) : (s.emit o).out = s.out ++ [o] := rfl
@[simp] theorem wr_regs (s : State) (a : Nat) (v : U64) :
    (s.wr a v).regs = tset (regReset s.fuses a) s.regs a v := rfl

end Sys2Proof.Machine
end

