-- ==== Sys2Proof/Laws/Word.lean ====
section
/-!
SUPPORT. Laws of register fields: reading back a field, and that writing one field leaves every disjoint one alone.
-/
namespace Sys2Proof

/-- The bits of a register with one field replaced. -/
theorem withField_getLsbD (v : U64) (l w x i : Nat) (h : l + w ≤ 64) (hi : i < 64) :
    (withField v l w x).getLsbD i = if l ≤ i ∧ i < l + w then x.testBit (i - l) else v.getLsbD i := by
  have hv : v.toNat < 2 ^ 64 := v.isLt
  have key : v.toNat - ((v.toNat >>> l) % 2 ^ w) <<< l + (x % 2 ^ w) <<< l
      = (v.toNat / 2 ^ (l + w) * 2 ^ w + x % 2 ^ w) * 2 ^ l + v.toNat % 2 ^ l := by
    rw [Nat.shiftRight_eq_div_pow, Nat.shiftLeft_eq, Nat.shiftLeft_eq]
    have h1 := Nat.div_add_mod v.toNat (2 ^ l)
    have h2 := Nat.div_add_mod (v.toNat / 2 ^ l) (2 ^ w)
    have h3 : v.toNat / 2 ^ l / 2 ^ w = v.toNat / 2 ^ (l + w) := by rw [Nat.div_div_eq_div_mul, Nat.pow_add]
    rw [h3] at h2
    generalize v.toNat / 2 ^ (l + w) = q at *
    generalize v.toNat / 2 ^ l = d at *
    generalize v.toNat % 2 ^ l = r at *
    generalize d % 2 ^ w = m at *
    subst h2
    have h4 : v.toNat - m * 2 ^ l = q * 2 ^ w * 2 ^ l + r := by
      have : v.toNat = q * 2 ^ w * 2 ^ l + m * 2 ^ l + r := by rw [← h1]; ring
      omega
    rw [h4]; ring
  unfold withField
  simp only [BitVec.getLsbD_ofNat, hi, decide_true, Bool.true_and]
  rw [key, Nat.testBit_eq_decide_div_mod_eq]
  have hr : v.toNat % 2 ^ l < 2 ^ l := Nat.mod_lt _ (Nat.two_pow_pos l)
  have hx : x % 2 ^ w < 2 ^ w := Nat.mod_lt _ (Nat.two_pow_pos w)
  rw [← Nat.testBit_eq_decide_div_mod_eq]
  rw [Nat.mul_comm _ (2 ^ l), Nat.testBit_two_pow_mul_add _ hr]
  by_cases h1 : i < l
  · have h2 : ¬(l ≤ i ∧ i < l + w) := by omega
    simp only [h1, if_true, h2, if_false]
    rw [Nat.testBit_mod_two_pow, BitVec.getLsbD]
    simp [h1]
  · simp only [h1, if_false]
    rw [Nat.mul_comm _ (2 ^ w), Nat.testBit_two_pow_mul_add _ hx]
    by_cases h2 : i - l < w
    · have h3 : l ≤ i ∧ i < l + w := by omega
      simp only [h2, if_true, h3, and_self]
      rw [Nat.testBit_mod_two_pow]; simp [h2]
    · have h3 : ¬(l ≤ i ∧ i < l + w) := by omega
      simp only [h2, if_false, h3]
      rw [BitVec.getLsbD, Nat.testBit_div_two_pow]
      congr 1; omega

/-- The bits of a field. -/
theorem fieldOf_testBit (v : U64) (l w i : Nat) :
    (fieldOf v l w).testBit i = (decide (i < w) && v.getLsbD (l + i)) := by
  unfold fieldOf
  rw [Nat.testBit_mod_two_pow, Nat.testBit_shiftRight, BitVec.getLsbD]

/-- A field reads back what was stored in it. -/
theorem fieldOf_withField (v : U64) (l w x : Nat) (h : l + w ≤ 64) : fieldOf (withField v l w x) l w = x % 2 ^ w := by
  apply Nat.eq_of_testBit_eq
  intro i
  rw [fieldOf_testBit, Nat.testBit_mod_two_pow]
  by_cases hi : i < w
  · rw [withField_getLsbD v l w x (l + i) h (by omega)]
    have : l ≤ l + i ∧ l + i < l + w := by omega
    simp [hi]
  · simp [hi]

/-- A field that does not overlap the written one keeps its value. -/
theorem fieldOf_withField_other (v : U64) (l w x l' w' : Nat) (h : l + w ≤ 64) (h' : l' + w' ≤ 64)
    (hd : l' + w' ≤ l ∨ l + w ≤ l') : fieldOf (withField v l w x) l' w' = fieldOf v l' w' := by
  apply Nat.eq_of_testBit_eq
  intro i
  rw [fieldOf_testBit, fieldOf_testBit]
  by_cases hi : i < w'
  · rw [withField_getLsbD v l w x (l' + i) h (by omega)]
    have : ¬(l ≤ l' + i ∧ l' + i < l + w) := by omega
    simp only [this, if_false]
  · simp [hi]

/-- Storing the field's own value changes nothing. -/
theorem withField_self (v : U64) (l w : Nat) (h : l + w ≤ 64) : withField v l w (fieldOf v l w) = v := by
  apply BitVec.eq_of_getLsbD_eq
  intro i hi
  rw [withField_getLsbD v l w _ i h hi]
  split
  · rw [fieldOf_testBit]
    have h1 : i - l < w := by omega
    have h2 : l + (i - l) = i := by omega
    simp [h1, h2]
  · rfl

/-- A field as wide as the register is the whole value. -/
theorem withField_full (v x : U64) : withField v 0 64 x.toNat = x := by
  apply BitVec.eq_of_getLsbD_eq
  intro i hi
  rw [withField_getLsbD v 0 64 _ i (by omega) hi]
  simp [hi, BitVec.getLsbD]

theorem fieldOf_full (x : U64) : fieldOf x 0 64 = x.toNat := by
  unfold fieldOf
  simp [Nat.mod_eq_of_lt x.isLt]

theorem fieldOf_lt (v : U64) (l w : Nat) : fieldOf v l w < 2 ^ w := Nat.mod_lt _ (Nat.two_pow_pos w)

end Sys2Proof
end

