-- ==== Sys2Proof/Tests/Slice0.lean ====
section
/-!
SUPPORT. Tests of this author: worked examples of the spec, the smoke tests of WellFormed, and for every premise of a
statement a state and operands that meet it (`wit_<statement>_<clause>`).
-/
namespace Sys2Proof.Tests

open Sys2Proof.Machine

set_option Elab.async false

/-- A state with one port at lane `p`. -/
def withPort (p : Nat) (x : Port) : State := { State.reset with ports := [(p, x)] }

/-- A formed native port of one lane in bring-up step `n`. -/
def bringPort (n : Nat) : Port := { Port.none with formed := true, st := .bringup, step := n }

/-- A native port that is UP. -/
def upPort : Port := { Port.none with formed := true, st := .up, step := 7, rxOn := true }

/-- A state with one register that differs from its Reset value. -/
def withReg (a : Nat) (v : U64) : State := { State.reset with regs := [(a, v)] }

/-- A WRITE to FID 2, with its e2e_crc. -/
def hopPkt : Packet :=
  let p := rawPacket 1 ptWrite vcReq 2 7 0 none []
  { p with crc := e2eCrc p }

/-- An MGMT request that reads, and one that writes, a register of the route page. -/
def mgmtPkt : Packet :=
  let p := rawPacket 1 ptMgmt vcMgt 0 7 (pgRoute + 0x28) none []
  { p with crc := e2eCrc p }

def mgmtPktW : Packet :=
  let p := rawPacket 1 ptMgmt vcMgt 0 7 (pgRoute + 0x28) none (leBytes 8 1)
  { p with crc := e2eCrc p }

/-- A packet delivered through port `u`, and one that came through unit `u` and waits on a VC, with its buffers. -/
def inP (u : Nat) (p : Packet) : InPkt :=
  { port := u, pkt := p, buf := none, org := .none, held := false, seq := 0, pool := none, frame := 0, tc := 0 }
def wtOf (u vc : Nat) (p : Packet) (bs : List Nat) : Waiting :=
  { unit := u, vc := vc, load := .jfp p, landed := false, org := .none, credits := 1, bufs := bs, frame := 0, tc := 0, spots := [] }

/-- A result for FID 2 and its header as it waits, and a long-reach port and an Ethernet-mode port that have a packet to send. -/
def resBlk : ResultBlk := ⟨⟨0, 0, 0, 0⟩, 0, 1, .dense, [], Census.zero, 0, 0, Latch.zero⟩
def resHdr : Packet := { rawPacket 1 ptCresult vcCdn 2 0 0 (some (statusExt ⟨0, 0, 0, 0⟩ 0 0 0 0 0)) [] with src := 1 }
def resW : Waiting :=
  { unit := repGrp, vc := vcCdn, load := .result resHdr resBlk none, landed := false, org := .none, credits := 0, bufs := [],
    frame := 0, tc := 0, spots := [] }
def longPort : Port :=
  { upPort with longReach := true, rtt := 60, replayPg := some (0, 15), landPg := some (15, 15), gTx := List.replicate 7 65,
                egress := [⟨.jfp hopPkt, 0, 0, .none, [], 1024⟩] }
def longSt : State := withPort 0 longPort
def ethPort : Port := { upPort with eth := true, egress := [⟨.eth ⟨1, 2, none, 0x800, [], true⟩, 0, 0, .bridge 0, [], 1024⟩] }
def ethSt : State := withPort 0 ethPort

/-- A group whose scope is the one input [0, 0], of kind `k` and FID 3, with parent FID `par` and room for one slot. -/
def grpSt (k par : Nat) : State :=
  let s := { State.reset with mem := [(memKey (spCellar 0) 4, BitVec.ofNat 8 (0x30 + 4 * k))] }
  let s := ((s.setFld (grpAt 0) grpCfg_enable 1).setFld (grpAt 0) grpCfg_enabled 1).setFld (grpAt 0) grpLink_parentFid par
  let s := (s.setFld (grpAt 0) grpScope_scopeLen 1).setFld (grpAt 0) grpQuota_qSlots 1
  (s.setFld (grpAt 0) grpQuota_qBufs 1).setFld (grpAt 0) grpQuota_sramBufs 1

def key0 : Key := ⟨0, 0, 0, 0⟩

/-- A CWRITE or CNODE of FID 3 for key 0 without elements, with its e2e_crc. -/
def contrib (cn : Bool) : Packet :=
  let p := { rawPacket 3 (if cn then ptCnode else ptCwrite) vcCup 0 0 0 (some (statusExt key0 0 0 0 0 0)) [] with src := 3 }
  { p with crc := e2eCrc p }

/-- A CRESULT or STATUS of FID `src` for key 0, with its e2e_crc. -/
def downPkt (ptype src st : Nat) : Packet :=
  let p := { rawPacket src ptype vcCdn 0 0 0 (some (statusExt key0 0 0 0 st 0)) [] with src := src }
  { p with crc := e2eCrc p }

/-- A sweep STATUS of FID `src` (R374), with its e2e_crc. -/
def sweepKey : Key := ⟨0, 0, 0x3FF, 0xFFFFFF⟩
def sweepPkt (src : Nat) : Packet :=
  let p := { rawPacket src ptStatus vcCdn 0 0 0 (some (statusExt sweepKey 0 0 0 0x11 0)) [] with src := src }
  { p with crc := e2eCrc p }

/-- An open slot of key 0. -/
def slot0 : Slot := freshSlot (grpSt 0 9) (statusExt key0 0 0 0 0 0) 0

def part (lo hi : Nat) : Partial := ⟨lo, hi, .dense, [], Census.zero, false, none, 0⟩

def withInbox (s : State) (p : Packet) : State := { s with inbox := [inP 5 p] }

/-- A word of zeros, one of IADD from queues 1 and 2 to queue 3, and a core that runs in compatibility mode. -/
def word0 : CurdWord := ⟨0, 0, 0, 0, 0, 0, 0, 0, 0, 0, 0, 0, 0, 0, 0, 0, 0⟩
def addWord : CurdWord := { word0 with rep := 1, sa := 1, sb := 2, dd := 3, imm := 2 }
def runCore : Core := { Core.idle with st := .running, cmode := true }

/-- A state with core 0 and a program store of one page in Vat 0. -/
def vatSt (c : Core) : State := { (State.reset.setFld (pgVat 0) vatPstore_psPages 1) with cores := [(0, c)] }

/-- The state with the instruction `w` of opcode `op` in the line of the instruction cache that core 0's pc lies in. -/
def cached (op : Nat) (w : CurdWord) (s : State) : State :=
  let pc := (s.core 0).pc
  s.setVat 0 { s.vat 0 with
    icache := [⟨0, pc / 8, List.replicate (32 * (pc % 8)) 0 ++ leBytes 32 (curdBits op w) ++ List.replicate 224 0⟩] }

def fetchSt (op : Nat) (w : CurdWord) (c : Core) : State := cached op w (vatSt c)

/-- What a look has got. -/
def gotOr {α : Type} : Look (List α) → List α
  | .got x => x
  | _ => []

/-- A Vat whose first request starts core 0. -/
def startSt : State :=
  let s := vatSt Core.idle
  { s.setVat 0 { s.vat 0 with startQ := [⟨0, false⟩] } with mem := [(memKey (spHbm 0) 3, 1), (memKey (spHbm 0) 27, 0x40)] }

/-- A started SWAIT for object 0 to reach 1. -/
def swaitSb : Sb := { freshSb 0 0x43 0 word0 with started := true, cap := [0, 1, 0, 0, 0, 0, 0, 0, 0] }

/-- A core whose queues 1 to 4 are both ends of rings 1 to 4 of four vectors; rings 1 and 2 hold one vector each. -/
def vecSt : State :=
  let q := fun r => { Queue.unbound with bound := true, kind := 1, ring := r, ends := 3, base := 8 * (r - 1), len := 4 }
  { (vatSt { runCore with queues := [(1, q 1), (2, q 2), (3, q 3), (4, q 4)] }).setVat 0
      { Vat.reset with rings := [(1, ⟨0, 1⟩), (2, ⟨0, 1⟩)] } with
    mem := [(2, 0x80), (3, 0x3F), (4098, 0x80), (4099, 0x3F)] }

def faddWord : CurdWord := { word0 with rep := 1, sa := 1, sb := 2, dd := 3, rd := 5 }
def faddXs : List (Src × Nat × List (List Byte)) := gotOr (seeSrcs vecSt 0 (curdEntry 0 0x10 faddWord vecSt))
def faddSt : State :=
  popSrcs 0 faddXs (floatCensus 0 (curdEntry 0 0x10 faddWord vecSt) faddXs (curdHeld 0 0x10 faddWord (cached 0x10 faddWord vecSt)))
def faddOut : List Byte := (unitOut 0 (fun _ => none) (floatRead (curdEntry 0 0x10 faddWord vecSt) faddXs).acc).1

def cmpWord : CurdWord := { faddWord with imm := 4 }
def cmpSt : State :=
  popSrcs 0 faddXs (floatCensus 0 (curdEntry 0 0x16 cmpWord vecSt) faddXs (curdHeld 0 0x16 cmpWord (cached 0x16 cmpWord vecSt)))
def cmpOut : List Byte := (floatRead (curdEntry 0 0x16 cmpWord vecSt) faddXs).acc.map (fun b => (BitVec.ofNat 8 b : Byte))

/-- What a push of one vector leaves. -/
def pushed (q : Nat) (v : List Byte) (s : State) : State :=
  match pushVec 0 0 q v s with
  | some (_, t) => t
  | none => s

/-- A push that was made is the one that `pushed` names. -/
theorem push_some (core n q : Nat) (v : List Byte) (s : State) (h : (pushVec core n q v s).any (fun r => r.1) = true) :
    pushVec core n q v s = some (true, match pushVec core n q v s with | some (_, t) => t | none => s) := by
  cases hp : pushVec core n q v s with
  | none => simp [hp] at h
  | some r => obtain ⟨b, t⟩ := r; simp [hp] at h; simp [h]

def iaddXs : List (Src × Nat × List (List Byte)) := gotOr (seeSrcs vecSt 0 (curdEntry 0 0x20 addWord vecSt))
def iaddOut : List Byte := (rawRead (curdEntry 0 0x20 addWord vecSt) [] iaddXs).1

def movWord : CurdWord := { word0 with rep := 1, sa := 1, dd := 3, de := 4, imm := 256 }
def movXs : List (Src × Nat × List (List Byte)) := gotOr (seeSrcs vecSt 0 (curdEntry 0 0x28 movWord vecSt))
def movS3 : State := pushed 3 (rawOf movXs 0) (popSrcs 0 movXs (curdHeld 0 0x28 movWord (cached 0x28 movWord vecSt)))

def compWord : CurdWord := { word0 with rep := 1, sa := 1, sc := 2, dd := 3, rd := 5, imm := 2 }
def compXs : List (Src × Nat × List (List Byte)) := gotOr (seeSrcs vecSt 0 (curdEntry 0 0x29 compWord vecSt))
def compS3 : State :=
  let l := (compactStep compWord (rawOf compXs 0) (rawOf compXs 1)).flatMap id
  pushed 3 (l ++ List.replicate (512 - l.length) 0) (popSrcs 0 compXs (curdHeld 0 0x29 compWord (cached 0x29 compWord vecSt)))

def scatWord : CurdWord := { word0 with rep := 1, sa := 1, sb := 2, imm := 2 }
def scatSt : State := { vecSt with mem := [(4098, 0x80), (4099, 0x3F)] }

/-- Inbound entry 7 names queue 1 of core 0, a STREAM_IN queue of two buffers. -/
def inbSt : State :=
  let q := { Queue.unbound with bound := true, kind := 3, len := 2 }
  (vatSt { runCore with queues := [(1, q)] }).wr (inbAt 7) 0x201

/-- A server on core 0 whose next call block names program `p`. -/
def libSt (p : Nat) : State :=
  { (vatSt { runCore with mask := 1 }).setFld (syncAt 0) synCnt_cnt 1 with mem := if p = 0 then [] else [(0, BitVec.ofNat 8 p)] }

/-- An open call, and a server with a packet in its intake. -/
def libCall : Call :=
  { off := 0, prog := 2, num := 0, failed := false, refused := false, fids := [], streams := [], rej := 0, dup := 0, late := 0, deadline := none,
    reserved := false, wheyHeld := [], poolHeld := [], overflow := 0, fetched := [] }
def libPktSt : State :=
  let q := { Queue.unbound with bound := true, kind := 3, len := 2, bufs := [⟨[], downPkt 0 1 0, none⟩] }
  { (vatSt { runCore with mask := 1, queues := [(1, q)] }).wr (inbAt 0) 0x201 with
    servers := [(0, { Server.none with active := true, call := some libCall })] }

/-- The same with a buffer whose handle is refused. -/
def libLostSt : State :=
  let q := { Queue.unbound with bound := true, kind := 3, len := 2, bufs := [⟨[], downPkt 0 1 0, some (2 ^ 24)⟩] }
  { (vatSt { runCore with mask := 1, queues := [(1, q)] }).wr (inbAt 0) 0x201 with
    servers := [(0, { Server.none with active := true, call := some libCall })] }

/-- A row stream of two rows of one and no entry in the local data area of Vat 0, and what a routine reads of it. -/
def rowX : RowStream := ⟨1, 2, 0, 0, 0, 64, 128, 192⟩
def rowSt : State := { vatSt runCore with mem := [(8, 1), (16, 1), (65, 0x3C)] }
def rowD : RowData :=
  match rowLook rowSt 0 rowX false with
  | .got d => d
  | _ => ⟨[], [], []⟩

/-- A STREAM_OUT push that waits for a buffer. -/
def waitSt : State := { State.reset with waiters := [⟨0, 0, repCore 0, .streamOut 0 1, 0⟩] }

/-- A module with Twin mode `m` in Twin state `st`, and a TWIN packet of `n` entries. -/
def twinSt (m st : Nat) : State := (State.reset.setFld pgTwin twnCfg_mode m).setFld pgTwin twnStat_state st
def twinPkt (kind n len : Nat) : Packet :=
  let p := rawPacket 1 ptTwin vcMgt 0 0 (twinAddr kind n 0) none (List.replicate len 0)
  { p with crc := e2eCrc p }

/-- A lane request of value `v` from a neighbour, and an idle port of two lanes that may park. -/
def laneReqPkt (v : Nat) : Packet :=
  let p := rawPacket 1 ptMgmt vcMgt 0xFFFFF 0xF000 laneReqAddr none (leBytes 8 v)
  { p with crc := e2eCrc p }
def parkSt : State := { withPort 0 { upPort with w := 2 } with regs := [(pgLane 0 + 0x240, 1)], cyc := 2 ^ 50 }

/-- Rind core 0 released; and with its EVC: class bits `c` (1 normal, 3 fast) for source 9, whose pin is high. -/
def runSt : State := State.reset.setFld (pgRind 0) evcCore_hold 0
def evcSt (c : Nat) : State :=
  let s := (runSt.setFld (pgRind 0) evcCtrl_normEn 1).setFld (pgRind 0) evcCtrl_fastEn (c / 2)
  { s.setFld (pgRind 0 + 8) (evcCfg_cfg 1) c with
    pins := { s.pins with pmbAlert := true }
    rinds := [(0, { Rind.reset with mstatus := 8, mie := 2048, fie := true })] }

theorem due1 : normalDue (evcSt 1) 0 = some 9 := by decide +kernel
theorem due3 : fastDue (evcSt 3) 0 = some 9 := by decide +kernel

/-- What a write leaves of a command of group 0, and of a start request of Vat 0. -/
def grpWr (n q : Nat) (s : State) : State :=
  plainWrite reqPcie locGrpCmd (grpWord 0 n q) (fun _ => false) (woTurn reqPcie (pgGrp + 0x100) s)
def startWr (d : Nat) (s : State) : State :=
  plainWrite reqPcie (locVat 0 0x110) (BitVec.ofNat 64 d) (fun _ => false) (woTurn reqPcie (pgVat 0 + 0x110) s)
def doneWr (k src : Nat) (s : State) : State :=
  plainWrite reqPcie (pageLoc .rind k (pgRind k) 0x110) (BitVec.ofNat 64 src) (fun _ => false)
    (woTurn reqPcie (pgRind k + 0x110) s)

theorem wit_StepRunsFront_1 : ∃ s : State, s.pending = [] := ⟨State.reset, rfl⟩
theorem wit_RegisterReadBack_1 : ∃ s : State, RegsOk s ∧ s.regs ≠ [] :=
  ⟨withReg (pgLane 0 + 0x110) 5, by decide +kernel⟩
theorem wit_MemoryReadBack_1 :
    ∃ (s : State) (b : Nat) (cell : List Byte) (data : List Byte),
    (Memory.wf s.mem = true) ∧
    (s.same.stores = []) ∧
    (b < 4 * 65536) ∧
    (handleOk s (bufHandle b) = true) ∧
    (cell.length ≤ 64) ∧
    (data.length ≤ 4096) :=
  ⟨State.reset, bufId 3 9, [1, 2], [3, 4, 5], by decide +kernel⟩

theorem wit_MemoryReadBack_2 :
    ∃ (s : State) (sp : Nat) (r1 : Nat) (r2 : Nat) (xs : List Byte) (ys : List Byte),
    (Memory.wf s.mem = true) ∧
    (sp ≠ spRom) ∧
    (s.same.stores = []) ∧
    (r2 < r1) ∧
    (xs.length = ys.length) :=
  ⟨State.reset, spHbm 2, 9, 8, [1, 2], [0, 7], by decide +kernel⟩

theorem wit_MemoryReadBack_3 : ∃ (s : State) (sp : Nat), Memory.wf s.mem = true ∧ s.mem ≠ [] ∧ sp ≠ spRom :=
  ⟨{ State.reset with mem := [(memKey (spHbm 0) 7, 1)] }, spHbm 3, by decide⟩
theorem wit_AbsentPagesReadZero_1 : ∃ (s : State) (addr : Nat) (x : Loc), locate addr = some x ∧
    present s.fuses x.kind x.inst = false :=
  ⟨{ State.reset with fuses := { Fuses.reset with grade := .xgl9216 } }, pgLane 256 + 0x100,
    ⟨.lane, 256, pgLane 256, 0x100⟩, by decide +kernel⟩
theorem wit_GradeXgl9216_1 : ∃ f : Fuses, f.grade = .xgl9216 := ⟨{ Fuses.reset with grade := .xgl9216 }, rfl⟩
theorem wit_AccessCodes_1 : ∃ (req : Nat) (x : Loc) (v : U64) (s : State), RegsOk s ∧
    lostRace s req (x.base + x.off) = false ∧ rsvWritten x.fields v = false ∧
    x.fields.any (fun f => f.acc == .rw) ∧ x.fields.any (fun f => f.acc == .cnt) :=
  ⟨reqPcie, ⟨.lane, 3, pgLane 3, 0x230⟩, 0x60, State.reset, by decide +kernel⟩
theorem wit_AccessCodes_w1c : ∃ (req : Nat) (x : Loc) (v : U64) (s : State), RegsOk s ∧
    lostRace s req (x.base + x.off) = false ∧ rsvWritten x.fields v = false ∧ s.rd (x.base + x.off) ≠ 0 ∧
    x.fields.any (fun f => f.acc == .w1c) :=
  ⟨reqPcie, ⟨.lane, 3, pgLane 3, 0x20⟩, 2, withReg (pgLane 3 + 0x20) 3, by decide +kernel⟩
theorem wit_RegisterWrites_1 :
    ∃ (s : State) (req : Nat),
    (pathOpen s req = false) :=
  ⟨{ State.reset with pins := { Pins.reset with poresetN := false } }, 0, by decide +kernel⟩

theorem wit_RegisterWrites_2 :
    ∃ (s : State) (req : Nat) (addr : Nat) (x : Loc),
    (pathOpen s req = true) ∧
    (presentLoc s addr = some x) ∧
    (x.kind.isWindow = false) ∧
    (x.off = 0x28) ∧
    (addr % 8 = 0) ∧
    (lostRace s req addr = false) :=
  ⟨State.reset, reqPcie, pgVat 31 + 0x28, ⟨.vat, 31, pgVat 31, 0x28⟩, by decide +kernel⟩

theorem wit_RegisterWrites_3 :
    ∃ (s : State) (req : Nat) (r : Nat) (v : U64),
    (pathOpen s req = true) ∧
    (r < 262144) ∧
    (lostRace s req (routeAt r) = false) ∧
    (v &&& 0x7000700070007000#64 = 0) ∧
    (s.rd (routeAt r) &&& 0x7000700070007000#64 = 0) ∧
    (s.same.oldReg = []) :=
  ⟨State.reset, reqPcie, 262143, 0x8FFF00008FFF0000#64, by decide +kernel⟩

theorem wit_RegisterWrites_4 :
    ∃ (s : State) (req : Nat) (vat : Nat) (v : U64),
    (pathOpen s req = true) ∧
    (vatPresent s.fuses vat = true) ∧
    (isDark s (puVat vat) = false) ∧
    (fieldOf v vatCnt_refused.l vatCnt_refused.w = 0) ∧
    (fieldOf v vatCnt_inb.l vatCnt_inb.w ≠ 0) ∧
    (fieldOf v vatCnt_rdisc.l vatCnt_rdisc.w ≠ 0) ∧
    (fieldOf v vatCnt_partial.l vatCnt_partial.w ≠ 0) :=
  ⟨State.reset, reqPcie, 31, 0x0001000100010000, by decide +kernel⟩

theorem wit_RegisterWrites_5 :
    ∃ (s : State) (req : Nat) (page : Nat) (x : Loc),
    (pathOpen s req = true) ∧
    (presentLoc s (page + 0x38) = some x) ∧
    (x.kind.isWindow = false) ∧
    (x.off = 0x38) ∧
    (x.base = page) ∧
    (s.same.errs.all (fun e => e.1 != page) = true) :=
  ⟨State.reset, reqPcie, pgTally, ⟨.tally, 0, pgTally, 0x38⟩, by decide +kernel⟩

theorem wit_RegisterWrites_6 :
    ∃ (s : State) (req : Nat) (page : Nat) (x : Loc),
    (pathOpen s req = true) ∧
    (presentLoc s (page + 0x38) = some x) ∧
    (x.kind.isWindow = false) ∧
    (x.off = 0x38) ∧
    (x.base = page) ∧
    (s.same.errs = [(page, 1)]) :=
  ⟨{ State.reset with same := { SameCycle.empty with errs := [(pgTally, 1)] } }, reqPcie, pgTally, ⟨.tally, 0, pgTally, 0x38⟩, by decide +kernel⟩

theorem wit_RegisterWrites_7 :
    ∃ (s : State) (req : Nat) (page : Nat) (k : Nat) (x : Loc),
    (pathOpen s req = true) ∧
    (presentLoc s (page + 0x30) = some x) ∧
    (x.kind.isWindow = false) ∧
    (x.base = page) ∧
    (k < 9) ∧
    (eventMask x.kind / 2 ^ k % 2 = 1) :=
  ⟨State.reset, reqPcie, pgLane 511, 8, ⟨.lane, 511, pgLane 511, 0x30⟩, by decide +kernel⟩

theorem wit_UnalignedAccess_1 :
    ∃ (s : State) (req : Nat) (addr : Nat) (size : Nat) (x : Loc),
    (pathOpen s req = true) ∧
    (presentLoc s addr = some x) ∧
    (¬(size = 8 ∧ addr % 8 = 0)) :=
  ⟨State.reset, reqPcie, pgTally + 4, 8, ⟨.tally, 0, pgTally, 4⟩, by decide +kernel⟩

theorem wit_CountedAccess_1 : ∃ (s : State) (off cause : Nat), RegsOk s ∧ off < 2 ^ blkErrCnt_lastOff.w ∧
    cause < 2 ^ blkErrCnt_cause.w ∧ off = 0xFFFF ∧ cause = 5 := ⟨State.reset, 0xFFFF, 5, by decide +kernel⟩
theorem wit_CountedAccess_2 : ∃ (s : State) (k : Nat), RegsOk s ∧ k < 64 ∧ k = 63 := ⟨State.reset, 63, by decide +kernel⟩
theorem wit_BlockControl_disabled : ∃ (s : State) (req page : Nat) (x : Loc), RegsOk s ∧ pathOpen s req = true ∧
    presentLoc s (page + 0x10) = some x ∧ x.kind.isWindow = false ∧ x.base = page ∧ x.off = 0x10 ∧
    drainOk x.kind = true ∧ lostRace s req (page + 0x10) = false ∧ isEnabled s page = false ∧
    isDrain s page = false ∧ holdsNothing s x = true :=
  ⟨withReg (pgVat 3 + 0x10) 0, reqPcie, pgVat 3, ⟨.vat, 3, pgVat 3, 0x10⟩, by decide +kernel⟩
theorem wit_BlockControl_enabled : ∃ (s : State) (req page : Nat) (x : Loc), RegsOk s ∧ pathOpen s req = true ∧
    presentLoc s (page + 0x10) = some x ∧ x.kind.isWindow = false ∧ x.base = page ∧ x.off = 0x10 ∧
    drainOk x.kind = true ∧ lostRace s req (page + 0x10) = false ∧ isEnabled s page = true ∧ isDrain s page = false :=
  ⟨State.reset, reqPcie, pgPress 31, ⟨.press, 31, pgPress 31, 0x10⟩, by decide +kernel⟩
theorem wit_BlockControl_draining : ∃ (s : State) (req page : Nat) (x : Loc), RegsOk s ∧ pathOpen s req = true ∧
    presentLoc s (page + 0x10) = some x ∧ x.kind.isWindow = false ∧ x.base = page ∧ x.off = 0x10 ∧
    drainOk x.kind = true ∧ lostRace s req (page + 0x10) = false ∧ isEnabled s page = true ∧ isDrain s page = true :=
  ⟨withReg (pgHbm 19 + 0x10) 3, reqPcie, pgHbm 19, ⟨.hbm, 19, pgHbm 19, 0x10⟩, by decide +kernel⟩
theorem wit_LinkBringup_1 :
    ∃ (s : State) (p : Nat),
    (inStep s p 1 = true) :=
  ⟨withPort 0 (bringPort 1), 0, by decide +kernel⟩

theorem wit_LinkBringup_2 :
    ∃ (s : State) (p : Nat),
    (inStep s p 2 = true) ∧
    ((s.port p).eth = false) ∧
    (s.ownFid ≠ 0) :=
  ⟨{ withPort 0 (bringPort 2) with regs := [(pgRoute + 0x100, 5)] }, 0, by decide +kernel⟩

theorem wit_LinkBringup_3 :
    ∃ (s : State) (p : Nat),
    (inStep s p 2 = true) ∧
    ((s.port p).eth = true) ∧
    (s.fld (pgLane p) prtEth_ethRtt ≤ 50) :=
  ⟨withPort 0 { bringPort 2 with eth := true }, 0, by decide +kernel⟩

theorem wit_LinkBringup_4 :
    ∃ (s : State) (p : Nat),
    (inStep s p 2 = true) ∧
    ((s.port p).eth = true) ∧
    (50 < s.fld (pgLane p) prtEth_ethRtt) :=
  ⟨{ withPort 0 { bringPort 2 with eth := true } with regs := [(pgLane 0 + 0x118, withField 1 12 28 51)] }, 0, by decide +kernel⟩

theorem wit_LinkBringup_5 :
    ∃ (s : State) (p : Nat) (t : Nat),
    ((s.port p).helloAt = some t) ∧
    (t ≤ s.cyc) ∧
    (inStep s p 3 = true ∨ inStep s p 4 = true) :=
  ⟨withPort 0 { bringPort 4 with helloAt := some 0 }, 0, 0, by decide +kernel⟩

theorem wit_LinkBringup_6 :
    ∃ (s : State) (p : Nat) (t : Nat),
    ((s.port p).st = .bringup) ∧
    ((s.port p).stepEnd = some t) ∧
    (t ≤ s.cyc) ∧
    ((s.port p).step = 2 ∨ (s.port p).step = 3 ∨ (s.port p).step = 4 ∨ (s.port p).step = 6) :=
  ⟨withPort 0 { bringPort 6 with stepEnd := some 0 }, 0, 0, by decide +kernel⟩

theorem wit_LinkBringup_7 :
    ∃ (s : State) (p : Nat) (t : Nat),
    ((s.port p).st = .down) ∧
    ((s.port p).retryAt = some t) ∧
    (t ≤ s.cyc) ∧
    (wantsUp s p = true) ∧
    (lanesFree s p (cfgWidth s p) = true) :=
  ⟨{ withPort 0 { Port.none with formed := true, retryAt := some 0 } with regs := [(pgLane 0 + 0x100, 0x20)] }, 0, 0, by decide +kernel⟩

theorem wit_PortRequests_1 :
    ∃ (s : State) (req : Nat) (l : Nat) (v : U64),
    (pathOpen s req = true) ∧
    (lanePresent s.fuses l = true) ∧
    (isMember s l = false) ∧
    (fieldOf v 5 1 = 1) ∧
    (fieldOf v 6 2 = 0) ∧
    ((s.port l).formed = false) ∧
    (lostRace s req (pgLane l + 0x100) = false) ∧
    (lanesFree s l (2 ^ fieldOf v 0 2) = true) :=
  ⟨State.reset, reqPcie, 8, 0x23, by decide +kernel⟩

theorem wit_PortRequests_2 :
    ∃ (s : State) (req : Nat) (l : Nat) (v : U64),
    (pathOpen s req = true) ∧
    (lanePresent s.fuses l = true) ∧
    (isMember s l = false) ∧
    (fieldOf v 5 1 = 1) ∧
    (lanesFree s l (2 ^ fieldOf v 0 2) = false) :=
  ⟨State.reset, reqPcie, 9, 0x23, by decide +kernel⟩

theorem wit_PortRequests_3 :
    ∃ (s : State) (req : Nat) (l : Nat) (v : U64),
    (pathOpen s req = true) ∧
    (lanePresent s.fuses l = true) ∧
    (isMember s l = false) ∧
    (fieldOf v 5 3 = 1) ∧
    ((s.port l).formed = true ∨ lostRace s req (pgLane l + 0x100) = true) ∧
    (lanesFree s l (2 ^ fieldOf v 0 2) = true) :=
  ⟨withPort 0 upPort, reqPcie, 0, 0x20, by decide +kernel⟩

theorem wit_PortRequests_4 :
    ∃ (s : State) (req : Nat) (l : Nat) (v : U64),
    (pathOpen s req = true) ∧
    (lanePresent s.fuses l = true) ∧
    (isMember s l = false) ∧
    (fieldOf v 5 3 = 0) ∧
    (lostRace s req (pgLane l + 0x100) = false) ∧
    ((s.port l).formed = true) ∧
    ((s.port l).st = .down) :=
  ⟨withPort 0 { Port.none with formed := true }, reqPcie, 0, 0, by decide +kernel⟩

theorem wit_PortRequests_5 :
    ∃ (s : State) (req : Nat) (l : Nat) (v : U64),
    (pathOpen s req = true) ∧
    (lanePresent s.fuses l = true) ∧
    (isMember s l = false) ∧
    (fieldOf v 5 3 = 0) ∧
    (lostRace s req (pgLane l + 0x100) = false) ∧
    ((s.port l).formed = true) ∧
    ((s.port l).st = .up) :=
  ⟨withPort 0 upPort, reqPcie, 0, 0, by decide +kernel⟩

theorem wit_LinkControlFrames_1 :
    ∃ (s : State) (p : Nat) (f : Lctl),
    (isNative (s.port p) = true) ∧
    (f.lcrc ≠ lctlCrc f ∨ f.ver ≠ 1 ∨ f.ptype ≠ ptLctl ∨ 5 < f.kind) :=
  ⟨withPort 0 upPort, 0, mkLctl upPort 6 [], by decide +kernel⟩

theorem wit_LinkControlFrames_2 :
    ∃ (s : State) (p : Nat) (f : Lctl),
    (inStep s p 3 = true) ∧
    ((s.port p).eth = false) ∧
    (f = withLcrc f) ∧
    (f.ver = 1) ∧
    (f.ptype = ptLctl) ∧
    (f.kind = 2) :=
  ⟨withPort 0 (bringPort 3), 0, mkLctl (bringPort 3) 2 (helloBody (withPort 0 (bringPort 3)) 0), by decide +kernel⟩

theorem wit_LinkControlFrames_3 :
    ∃ (s : State) (p : Nat) (f : Lctl),
    (isNative (s.port p) = true) ∧
    ((s.port p).st ≠ .down) ∧
    (3 ≤ (s.port p).step) ∧
    (f = withLcrc f) ∧
    (f.ver = 1) ∧
    (f.ptype = ptLctl) ∧
    (f.kind = 3) :=
  ⟨withPort 0 (bringPort 3), 0, mkLctl (bringPort 3) 3 (leBytes 8 5), by decide +kernel⟩

theorem wit_LinkControlFrames_4 :
    ∃ (s : State) (p : Nat) (f : Lctl),
    (inStep s p 4 = true) ∧
    ((s.port p).eth = false) ∧
    (f = withLcrc f) ∧
    (f.ver = 1) ∧
    (f.ptype = ptLctl) ∧
    (f.kind = 4) ∧
    ((s.port p).echoAt = some (leAt f.body 0 8)) ∧
    (s.aon ≤ leAt f.body 0 8 + 25000) :=
  ⟨withPort 0 { bringPort 4 with echoAt := some 0 }, 0, mkLctl (bringPort 4) 4 (leBytes 8 0), by decide +kernel⟩

theorem wit_LinkControlFrames_5 :
    ∃ (s : State) (p : Nat) (f : Lctl),
    (inStep s p 6 = true) ∧
    ((s.port p).eth = false) ∧
    (isDrain s (pgLane p) = false) ∧
    (f = withLcrc f) ∧
    (f.ver = 1) ∧
    (f.ptype = ptLctl) ∧
    (f.kind = 0) :=
  ⟨withPort 0 (bringPort 6), 0, mkLctl (bringPort 6) 0 [], by decide +kernel⟩

theorem wit_LinkControlFrames_6 :
    ∃ (s : State) (p : Nat) (f : Lctl),
    (isNative (s.port p) = true) ∧
    ((s.port p).st = .up) ∧
    (3 ≤ (s.port p).step) ∧
    (f = withLcrc f) ∧
    (f.ver = 1) ∧
    (f.ptype = ptLctl) ∧
    (f.kind = 0) ∧
    (unacked (s.port p) f.ackSeq = (s.port p).replay.length) :=
  ⟨withPort 0 upPort, 0, mkLctl upPort 0 [], by decide +kernel⟩

theorem wit_LinkControlFrames_7 :
    ∃ (s : State) (p : Nat) (f : Lctl),
    (isNative (s.port p) = true) ∧
    ((s.port p).st = .up) ∧
    (3 ≤ (s.port p).step) ∧
    (f = withLcrc f) ∧
    (f.ver = 1) ∧
    (f.ptype = ptLctl) ∧
    (f.kind = 0) ∧
    (unacked (s.port p) f.ackSeq < (s.port p).replay.length) :=
  ⟨withPort 0 { upPort with txSeq := 1, replay := [⟨0, rawPacket 1 1 0 2 0 0 none [], .none, false, 0⟩] }, 0, mkLctl { upPort with e := 1 } 0 [], by decide +kernel⟩

theorem wit_LinkControlFrames_8 :
    ∃ (s : State) (p : Nat) (f : Lctl),
    (isNative (s.port p) = true) ∧
    ((s.port p).st = .up) ∧
    ((s.port p).rxOn = true) ∧
    (3 ≤ (s.port p).step) ∧
    (f = withLcrc f) ∧
    (f.ver = 1) ∧
    (f.ptype = ptLctl) ∧
    (f.kind = 1) ∧
    (1 ≤ unacked (s.port p) f.ackSeq) ∧
    (unacked (s.port p) f.ackSeq = (s.port p).replay.length) ∧
    ((s.port p).replayAt ≠ some f.ackSeq ∨ (s.port p).replayRuns < 15) :=
  ⟨withPort 0 { upPort with txSeq := 1, replay := [⟨0, rawPacket 1 1 0 2 0 0 none [], .none, false, 0⟩] }, 0, mkLctl upPort 1 [], by decide +kernel⟩

theorem wit_LinkControlFrames_9 :
    ∃ (s : State) (p : Nat) (f : Lctl),
    (isNative (s.port p) = true) ∧
    ((s.port p).st ≠ .down) ∧
    (3 ≤ (s.port p).step) ∧
    (f = withLcrc f) ∧
    (f.ver = 1) ∧
    (f.ptype = ptLctl) ∧
    (f.kind = 5) :=
  ⟨withPort 0 upPort, 0, mkLctl upPort 5 [], by decide +kernel⟩

theorem wit_LinkDownEffect_1 :
    ∃ (s : State) (p : Nat),
    ((s.port p).eth = false) ∧
    ((s.port p).replay = []) ∧
    ((s.port p).egress = []) ∧
    ((s.port p).copying = []) ∧
    (RegsOk s) :=
  ⟨withPort 0 upPort, 0, by decide +kernel⟩

theorem wit_LinkDownEffect_4 :
    ∃ (s : State) (p : Nat) (k : Nat),
    (RegsOk s) ∧
    (p < 512) ∧
    (k < 9) :=
  ⟨withPort 511 (bringPort 3), 511, 5, by decide +kernel⟩

theorem wit_LinkRetry_1 :
    ∃ (s : State) (p : Nat) (q : Packet),
    (isNative (s.port p) = true) ∧
    ((s.port p).rxOn = true) ∧
    (q.linkSeq = (s.port p).e) ∧
    (headerOk q = true) ∧
    ((s.port p).longReach = false) ∧
    (q.vc = vcCup ∨ q.vc = vcCdn ∨ meterOf s p q.tc = none) ∧
    ((ingressBuf s p q.vc).all (fun b => handleOk s (bufHandle b)) = true) :=
  ⟨withPort 0 { upPort with credBufs := [(0, 3)] }, 0, rawPacket 1 1 0 2 0 0 none [], by decide +kernel⟩

theorem wit_LinkRetry_2 :
    ∃ (s : State) (p : Nat) (m : Nat) (q : Packet),
    (isNative (s.port p) = true) ∧
    ((s.port p).rxOn = true) ∧
    (q.linkSeq = (s.port p).e) ∧
    (headerOk q = true) ∧
    ((s.port p).longReach = false) ∧
    (q.vc ≠ vcCup ∧ q.vc ≠ vcCdn) ∧
    (meterOf s p q.tc = some m) ∧
    (actAbove s (.meter m) p = false) ∧
    ((ingressBuf s p q.vc).all (fun b => handleOk s (bufHandle b)) = true) :=
  ⟨(withPort 0 { upPort with credBufs := [(0, 3)] }).wr (pgLane 0 + 0x210) 0x1000, 0, 0, rawPacket 1 1 0 2 0 0 none [], by decide +kernel⟩

theorem wit_LinkRetry_3 :
    ∃ (s : State) (p : Nat) (c : RxClass) (n : RxFec) (q : Packet),
    (isNative (s.port p) = true) ∧
    ((s.port p).rxOn = true) ∧
    ((s.port p).nakSent = false) ∧
    (c = .corrupted ∨ 0 < n.uncorrectable ∨ q.linkSeq ≠ (s.port p).e) :=
  ⟨withPort 0 upPort, 0, .clean, ⟨0, 3⟩, rawPacket 1 1 0 2 0 0 none [], by decide +kernel⟩

theorem wit_LinkRetry_4 :
    ∃ (s : State) (p : Nat) (c : RxClass) (n : RxFec) (q : Packet),
    (isNative (s.port p) = true) ∧
    ((s.port p).rxOn = true) ∧
    ((s.port p).nakSent = true) ∧
    (c = .corrupted ∨ 0 < n.uncorrectable ∨ q.linkSeq ≠ (s.port p).e) :=
  ⟨withPort 0 { upPort with nakSent := true }, 0, .clean, ⟨3, 0⟩, { rawPacket 1 1 0 2 0 0 none [] with linkSeq := 4 }, by decide +kernel⟩

theorem wit_LinkRetry_5 :
    ∃ (s : State) (p : Nat) (q : Packet),
    (isNative (s.port p) = true) ∧
    ((s.port p).rxOn = true) ∧
    (q.linkSeq = (s.port p).e) :=
  ⟨withPort 0 { upPort with e := 16777215 }, 0, { rawPacket 1 1 0 2 0 0 none [] with linkSeq := 16777215 }, by decide +kernel⟩

theorem wit_LinkRetry_6 :
    ∃ (s : State) (p : Nat) (t : Nat),
    ((s.port p).nakAt = some t) ∧
    ((s.port p).nakSent = true) ∧
    (t ≤ s.cyc) :=
  ⟨withPort 0 { upPort with nakSent := true, nakAt := some 0 }, 0, 0, by decide +kernel⟩

theorem wit_LinkRetry_7 :
    ∃ (s : State) (p : Nat),
    ((s.port p).resend = some (s.port p).txSeq) :=
  ⟨withPort 0 { upPort with resend := some 7, txSeq := 7 }, 0, by decide +kernel⟩

theorem wit_LinkRetry_8 :
    ∃ (s : State) (p : Nat) (t : Nat) (e : Sent) (r : List Sent),
    ((s.port p).formed = true) ∧
    ((s.port p).ackAt = some t) ∧
    ((s.port p).replay = e :: r) ∧
    (t ≤ s.cyc) ∧
    ((s.port p).replayAt ≠ some e.linkSeq ∨ (s.port p).replayRuns < 15) :=
  ⟨withPort 0 { upPort with ackAt := some 0, replay := [⟨0, rawPacket 1 1 0 2 0 0 none [], .none, false, 0⟩] }, 0, 0, ⟨0, rawPacket 1 1 0 2 0 0 none [], .none, false, 0⟩, [], by decide +kernel⟩

theorem wit_LinkTimersAndCredit_1 :
    ∃ (s : State) (p : Nat),
    ((s.port p).rxOn = true) :=
  ⟨withPort 0 upPort, 0, by decide +kernel⟩

theorem wit_LinkTimersAndCredit_2 :
    ∃ (s : State) (p : Nat),
    (isNative (s.port p) = true) ∧
    ((s.port p).st = .up) ∧
    ((s.port p).lastLctl + 40000 ≤ s.cyc) :=
  ⟨{ withPort 0 upPort with cyc := 40000 }, 0, by decide +kernel⟩

theorem wit_LinkTimersAndCredit_4 :
    ∃ (s : State) (p : Nat) (vc : Nat),
    (stepIsDue s p vc = true) ∧
    ((s.port p).longReach = true) ∧
    (0 < landFree (s.port p)) ∧
    (∀ v, v < vc → stepIsDue s p v = false) :=
  ⟨withPort 0 { upPort with longReach := true, rtt := 100, lastIn := List.replicate 7 (some 0) }, 0, 0, by decide +kernel⟩

theorem wit_LinkTimersAndCredit_5 :
    ∃ (s : State) (p : Nat) (vc : Nat),
    (stepIsDue s p vc = true) ∧
    ((s.port p).longReach = true) :=
  ⟨withPort 0 { upPort with longReach := true, rtt := 100, lastIn := List.replicate 7 (some 0) }, 0, 2, by decide +kernel⟩

theorem wit_LinkTimersAndCredit_6 :
    ∃ (s : State) (p : Nat) (vc : Nat),
    (stepIsDue s p vc = true) ∧
    ((s.port p).longReach = false) ∧
    (s.waiters.any (fun w => w.purpose == .credit p vc) = false) :=
  ⟨withPort 0 { upPort with rtt := 10, lastIn := List.replicate 7 (some 0) }, 0, 6, by decide +kernel⟩

theorem wit_LinkTimersAndCredit_7 :
    ∃ (s : State) (p : Nat) (vc : Nat),
    ((s.port p).longReach = false) ∧
    (s.waiters.any (fun w => w.purpose == .credit p vc) = true) :=
  ⟨{ withPort 0 { upPort with rtt := 10, lastIn := List.replicate 7 (some 0) } with waiters := [⟨0, 6, 0, .credit 0 6, 0⟩] }, 0, 6, by decide +kernel⟩

theorem wit_SwitchEntry_1 :
    ∃ (s : State) (w : Waiting) (h : Packet) (u : Nat) (vc : Nat) (c : Nat) (p : Nat),
    (s.waiting.filter (fun x => x.unit == u && x.vc == vc) = [w]) ∧
    (needsBuf s w = false) ∧
    (needsMgmt s w = false) ∧
    (w.landed = false) ∧
    (refusedRef s w = none) ∧
    (w.org = .none) ∧
    (w.load = .jfp h) ∧
    (arrived w = true) ∧
    (addressedHere s h.dst = false) ∧
    (headerOk h = true) ∧
    (0 < h.ttl) ∧
    (h.ptype ≠ ptCresult ∧ h.ptype ≠ ptStatus) ∧
    (routeSet s h.dst = some c) ∧
    (choosePort s c h.vc = some p) ∧
    (s.flag (pgLane p) prtCfg_dateline = false) ∧
    (crcGood h = true) :=
  ⟨{ withPort 0 upPort with regs := [(candAt 0, 0x200), (routeAt 0, 0x800000000000)], waiting := [wtOf 3 0 (hopPkt) []] }, wtOf 3 0 (hopPkt) [], hopPkt, 3, 0, 0, 0, by decide +kernel⟩

theorem wit_SwitchEntry_2 :
    ∃ (s : State) (w : Waiting) (h : Packet) (u : Nat) (vc : Nat),
    (s.waiting.filter (fun x => x.unit == u && x.vc == vc) = [w]) ∧
    (needsBuf s w = false) ∧
    (needsMgmt s w = false) ∧
    (w.landed = false) ∧
    (refusedRef s w = none) ∧
    (w.org = .none) ∧
    (w.load = .jfp h) ∧
    (arrived w = true) ∧
    (addressedHere s h.dst = true) ∧
    (headerOk h = true) ∧
    (w.vc ≠ vcMgt) :=
  ⟨{ withPort 0 upPort with waiting := [wtOf 3 0 ({ hopPkt with dst := 0 }) []] }, wtOf 3 0 ({ hopPkt with dst := 0 }) [], { hopPkt with dst := 0 }, 3, 0, by decide +kernel⟩

theorem wit_SwitchEntry_3 :
    ∃ (s : State) (w : Waiting) (h : Packet) (u : Nat) (vc : Nat) (b : Nat),
    (s.waiting.filter (fun x => x.unit == u && x.vc == vc) = [w]) ∧
    (needsBuf s w = false) ∧
    (w.landed = false) ∧
    (refusedRef s w = none) ∧
    (w.org = .none) ∧
    (w.load = .jfp h) ∧
    (arrived w = true) ∧
    (addressedHere s h.dst = true) ∧
    (headerOk h = true) ∧
    (w.vc = vcMgt) ∧
    (w.bufs = [b]) :=
  ⟨{ withPort 0 upPort with waiting := [wtOf 3 6 (mgmtPkt) [7]] }, wtOf 3 6 (mgmtPkt) [7], mgmtPkt, 3, 6, 7, by decide +kernel⟩

theorem wit_SwitchEntry_4 :
    ∃ (s : State) (w : Waiting) (h : Packet) (u : Nat) (vc : Nat),
    (s.waiting.filter (fun x => x.unit == u && x.vc == vc) = [w]) ∧
    (needsBuf s w = false) ∧
    (needsMgmt s w = false) ∧
    (w.landed = false) ∧
    (refusedRef s w = none) ∧
    (w.org = .none) ∧
    (w.load = .jfp h) ∧
    (arrived w = true) ∧
    (addressedHere s h.dst = false) ∧
    (headerOk h = true) ∧
    (isReqVc h.vc = true) ∧
    (h.ptype ≠ ptCresult ∧ h.ptype ≠ ptStatus) :=
  ⟨{ State.reset with waiting := [wtOf 3 0 ({ hopPkt with ttl := 0 }) []] }, wtOf 3 0 ({ hopPkt with ttl := 0 }) [], { hopPkt with ttl := 0 }, 3, 0, by decide +kernel⟩

theorem wit_SwitchEntry_5 :
    ∃ (l : List InPkt),
    (l.Pairwise (fun a b => a.seq ≤ b.seq)) :=
  ⟨[inP 1 hopPkt], by decide +kernel⟩

theorem wit_SwitchEntry_6 :
    ∃ (s : State) (w : Waiting) (h : Packet) (r : ResultBlk) (q : Option MemberReq) (u : Nat) (vc : Nat) (c : Nat) (p : Nat),
    (s.waiting.filter (fun x => x.unit == u && x.vc == vc) = [w]) ∧
    (needsBuf s w = false) ∧
    (needsMgmt s w = false) ∧
    (w.landed = false) ∧
    (refusedRef s w = none) ∧
    ((match w.org with | .down _ _ _ | .none => true | _ => false) = true) ∧
    (w.load = .result h r q) ∧
    (w.credits = 0) ∧
    (r.form ≠ .masked) ∧
    (addressedHere s h.dst = false) ∧
    (h.dst ≠ 0xFFFFF) ∧
    (headerOk h = true) ∧
    (h.ptype = ptCresult) ∧
    (udpEntry s h.dst = none) ∧
    (routeSet s h.dst = some c) ∧
    (choosePort s c h.vc = some p) ∧
    (s.flag (pgLane p) prtCfg_dateline = false) :=
  ⟨{ withPort 0 upPort with regs := [(candAt 0, 0x200), (routeAt 0, 0x800000000000)], waiting := [resW] }, resW, resHdr, resBlk, none, repGrp, vcCdn, 0, 0, by decide +kernel⟩

theorem wit_SwitchEntry_7 :
    ∃ (h : Packet) (e : ExtHdr) (r : ResultBlk),
    (r.form ≠ .masked) ∧
    (h.ext = some e) :=
  ⟨resHdr, statusExt key0 0 0 0 0 0, resBlk, by decide +kernel⟩

theorem wit_SwitchEntry_8 :
    ∃ (r : ResultBlk),
    (r.form = .dense) :=
  ⟨resBlk, by decide +kernel⟩

theorem wit_PacketSend_1 :
    ∃ (s0 : State) (s : State) (p : Nat) (t : Nat) (q : Nat) (r : List (Nat × Nat)),
    (maySend s0 (s0.port p) = true) ∧
    (s = gateView s0 p) ∧
    ((s.port p).pfcDue = (t, q) :: r) :=
  ⟨withPort 0 { upPort with eth := true, pfcDue := [(3, 0)] }, gateView (withPort 0 { upPort with eth := true, pfcDue := [(3, 0)] }) 0, 0, 3, 0, [], by decide +kernel⟩

theorem wit_PacketSend_2 :
    ∃ (s0 : State) (s : State) (p : Nat) (r : Nat) (e : Sent),
    (maySend s0 (s0.port p) = true) ∧
    (s = gateView s0 p) ∧
    ((s.port p).pfcDue = []) ∧
    ((s.port p).resend = some r) ∧
    ((s.port p).replay.find? (fun x => x.linkSeq == r) = some e) ∧
    ((s.port p).longReach = false) :=
  ⟨withPort 0 { upPort with resend := some 0, replay := [⟨0, hopPkt, .none, false, 0⟩] }, gateView (withPort 0 { upPort with resend := some 0, replay := [⟨0, hopPkt, .none, false, 0⟩] }) 0, 0, 0, ⟨0, hopPkt, .none, false, 0⟩, by decide +kernel⟩

theorem wit_PacketSend_3 :
    ∃ (s0 : State) (s : State) (p : Nat) (y : Port) (e : EPkt) (h : Packet),
    (maySend s0 (s0.port p) = true) ∧
    (s = gateView s0 p) ∧
    ((s.port p).eth = false) ∧
    ((s.port p).pfcDue = []) ∧
    ((s.port p).resend = none) ∧
    (pickNew s p = (y, some e)) ∧
    (e.load = .jfp h) ∧
    (replayRoom (s.port p) (egressBytes e) = true) ∧
    ((s.port p).longReach = false) :=
  ⟨withPort 0 { upPort with gTx := List.replicate 7 65, egress := [⟨.jfp hopPkt, 0, 0, .none, [], 1024⟩] }, gateView (withPort 0 { upPort with gTx := List.replicate 7 65, egress := [⟨.jfp hopPkt, 0, 0, .none, [], 1024⟩] }) 0, 0, (pickNew (gateView (withPort 0 { upPort with gTx := List.replicate 7 65, egress := [⟨.jfp hopPkt, 0, 0, .none, [], 1024⟩] }) 0) 0).1, ⟨.jfp hopPkt, 0, 0, .none, [], 1024⟩, hopPkt, by decide +kernel⟩

theorem wit_PacketSend_4 :
    ∃ (s : State) (p : Nat) (e : EPkt) (r : List EPkt),
    ((s.port p).copying = e :: r) ∧
    ((s.port p).eth = false) :=
  ⟨withPort 0 { upPort with copying := [⟨.jfp hopPkt, 0, 0, .none, [], 1024⟩] }, 0, ⟨.jfp hopPkt, 0, 0, .none, [], 1024⟩, [], by decide +kernel⟩

theorem wit_PacketSend_5 :
    ∃ (s0 : State) (s : State) (p : Nat) (y : Port) (e : EPkt) (h : Packet),
    (maySend s0 (s0.port p) = true) ∧
    (s = gateView s0 p) ∧
    ((s.port p).eth = false) ∧
    ((s.port p).pfcDue = []) ∧
    ((s.port p).resend = none) ∧
    (pickNew s p = (y, some e)) ∧
    (e.load = .jfp h) ∧
    (replayRoom (s.port p) (egressBytes e) = true) ∧
    ((s.port p).longReach = true) ∧
    (askPieces s (p / 128) (replayBase (s.port p)) (replaySpans (s.port p) (replayPos (s.port p)) (egressBytes e)) = .ready) :=
  ⟨longSt, gateView longSt 0, 0, (pickNew (gateView longSt 0) 0).1, ⟨.jfp hopPkt, 0, 0, .none, [], 1024⟩, hopPkt, by decide +kernel⟩

theorem wit_PacketSend_6 :
    ∃ (s0 : State) (s : State) (p : Nat) (y : Port) (e : EPkt) (h : Packet),
    (maySend s0 (s0.port p) = true) ∧
    (s = gateView s0 p) ∧
    ((s.port p).eth = false) ∧
    ((s.port p).pfcDue = []) ∧
    ((s.port p).resend = none) ∧
    (pickNew s p = (y, some e)) ∧
    (e.load = .jfp h) :=
  ⟨longSt, gateView longSt 0, 0, (pickNew (gateView longSt 0) 0).1, ⟨.jfp hopPkt, 0, 0, .none, [], 1024⟩, hopPkt, by decide +kernel⟩

theorem wit_PacketSend_7 :
    ∃ (s0 : State) (s : State) (p : Nat) (r : Nat) (e : Sent),
    (maySend s0 (s0.port p) = true) ∧
    (s = gateView s0 p) ∧
    ((s.port p).pfcDue = []) ∧
    ((s.port p).resend = some r) ∧
    ((s.port p).replay.find? (fun x => x.linkSeq == r) = some e) ∧
    ((s.port p).longReach = true) :=
  ⟨{ longSt with ports := [(0, { longPort with resend := some 0, replay := [⟨0, hopPkt, .none, false, 0⟩] })] }, gateView ({ longSt with ports := [(0, { longPort with resend := some 0, replay := [⟨0, hopPkt, .none, false, 0⟩] })] }) 0, 0, 0, ⟨0, hopPkt, .none, false, 0⟩, by decide +kernel⟩

theorem wit_PacketSend_8 :
    ∃ (s0 : State) (s : State) (p : Nat) (y : Port) (e : EPkt) (f : EthFrame),
    (maySend s0 (s0.port p) = true) ∧
    (s = gateView s0 p) ∧
    ((s.port p).eth = true) ∧
    ((s.port p).pfcDue = []) ∧
    ((s.port p).resend = none) ∧
    (pickNew s p = (y, some e)) ∧
    (e.load = .eth f) ∧
    ((s.port p).copying = []) :=
  ⟨ethSt, gateView ethSt 0, 0, (pickNew (gateView ethSt 0) 0).1, ⟨.eth ⟨1, 2, none, 0x800, [], true⟩, 0, 0, .bridge 0, [], 1024⟩, ⟨1, 2, none, 0x800, [], true⟩, by decide +kernel⟩

theorem wit_PacketSend_9 :
    ∃ (s0 : State) (s : State) (p : Nat) (y : Port) (e : EPkt) (f : EthFrame),
    (maySend s0 (s0.port p) = true) ∧
    (s = gateView s0 p) ∧
    ((s.port p).eth = true) ∧
    ((s.port p).pfcDue = []) ∧
    ((s.port p).resend = none) ∧
    (pickNew s p = (y, some e)) ∧
    (e.load = .eth f) ∧
    ((s.port p).copying ≠ []) :=
  ⟨{ ethSt with ports := [(0, { ethPort with copying := [⟨.eth ⟨1, 2, none, 0x800, [], true⟩, 0, 0, .bridge 0, [], 1024⟩] })] }, gateView ({ ethSt with ports := [(0, { ethPort with copying := [⟨.eth ⟨1, 2, none, 0x800, [], true⟩, 0, 0, .bridge 0, [], 1024⟩] })] }) 0, 0, (pickNew (gateView ({ ethSt with ports := [(0, { ethPort with copying := [⟨.eth ⟨1, 2, none, 0x800, [], true⟩, 0, 0, .bridge 0, [], 1024⟩] })] }) 0) 0).1, ⟨.eth ⟨1, 2, none, 0x800, [], true⟩, 0, 0, .bridge 0, [], 1024⟩, ⟨1, 2, none, 0x800, [], true⟩, by decide +kernel⟩

theorem wit_PacketSend_10 :
    ∃ (s0 : State) (s : State) (p : Nat) (y : Port) (e : EPkt) (h : Packet),
    (maySend s0 (s0.port p) = true) ∧
    (s = gateView s0 p) ∧
    ((s.port p).eth = false) ∧
    ((s.port p).pfcDue = []) ∧
    ((s.port p).resend = none) ∧
    (pickNew s p = (y, some e)) ∧
    (e.load = .jfp h) ∧
    (replayRoom (s.port p) (egressBytes e) = true) ∧
    ((s.port p).longReach = false) :=
  ⟨withPort 0 { upPort with gTx := List.replicate 7 65, egress := [⟨.jfp hopPkt, 0, 0, .none, [], 1024⟩] }, gateView (withPort 0 { upPort with gTx := List.replicate 7 65, egress := [⟨.jfp hopPkt, 0, 0, .none, [], 1024⟩] }) 0, 0, (pickNew (gateView (withPort 0 { upPort with gTx := List.replicate 7 65, egress := [⟨.jfp hopPkt, 0, 0, .none, [], 1024⟩] }) 0) 0).1, ⟨.jfp hopPkt, 0, 0, .none, [], 1024⟩, hopPkt, by decide +kernel⟩

theorem wit_ManagementRequests_1 :
    ∃ (s : State) (port : Nat) (p : Packet) (i : InPkt),
    (isMgmtRequest p = true) ∧
    (s.inbox.find? (fun x => x.port == port && x.pkt == p) = some i) ∧
    (crcGood p = true) ∧
    (port < 512) ∧
    (s.flag (pgLane port) prtCfg_mgmtEn = true) ∧
    (s.pins.poresetN = true ∧ s.pins.pwrgood = true) ∧
    (keptReply s p.src p.seq = none) :=
  ⟨{ withPort 0 upPort with regs := [(pgLane 0 + 0x100, 0x10)], inbox := [inP 0 (mgmtPkt)] }, 0, mgmtPkt, inP 0 (mgmtPkt), by decide +kernel⟩

theorem wit_ManagementRequests_2 :
    ∃ (s : State) (port : Nat) (p : Packet) (q : Packet) (i : InPkt),
    (isMgmtRequest p = true) ∧
    (p.plen = 8) ∧
    (s.inbox.find? (fun x => x.port == port && x.pkt == p) = some i) ∧
    (crcGood p = true) ∧
    (keptReply s p.src p.seq = some q) :=
  ⟨{ withPort 0 upPort with inbox := [inP 0 (mgmtPktW)], mgmtKept := [⟨1, 0, mgmtPkt⟩] }, 0, mgmtPktW, mgmtPkt, inP 0 (mgmtPktW), by decide +kernel⟩

theorem wit_ManagementRequests_3 :
    ∃ (s : State) (port : Nat) (p : Packet) (i : InPkt),
    (isMgmtRequest p = true) ∧
    (s.inbox.find? (fun x => x.port == port && x.pkt == p) = some i) ∧
    (crcGood p = true) ∧
    (port < 512) ∧
    (s.flag (pgLane port) prtCfg_mgmtEn = false) ∧
    (keptReply s p.src p.seq = none) :=
  ⟨{ withPort 0 upPort with inbox := [inP 0 (mgmtPkt)] }, 0, mgmtPkt, inP 0 (mgmtPkt), by decide +kernel⟩

theorem wit_ManagementRequests_4 :
    ∃ (s : State) (port : Nat) (p : Packet) (i : InPkt),
    (isReply p = true) ∧
    (s.inbox.find? (fun x => x.port == port && x.pkt == p) = some i) :=
  ⟨{ withPort 0 upPort with inbox := [inP 0 (rawPacket 1 4 1 0 7 0 none [])] }, 0, rawPacket 1 4 1 0 7 0 none [], inP 0 (rawPacket 1 4 1 0 7 0 none []), by decide +kernel⟩

theorem wit_Telemetry_1 :
    ∃ (s : State) (req : Nat) (p : Nat),
    (pathOpen s req = true) ∧
    (lanePresent s.fuses p = true) ∧
    (isMember s p = false) :=
  ⟨withPort 511 upPort, reqPcie, 511, by decide +kernel⟩

theorem wit_Telemetry_2 :
    ∃ (s : State) (req : Nat) (p : Nat),
    (pathOpen s req = true) ∧
    (lanePresent s.fuses p = true) ∧
    (isMember s p = false) :=
  ⟨withPort 511 upPort, reqPcie, 511, by decide +kernel⟩

theorem wit_Telemetry_3 :
    ∃ (s : State) (req : Nat) (p : Nat) (vc : Nat),
    (pathOpen s req = true) ∧
    (lanePresent s.fuses p = true) ∧
    (isMember s p = false) ∧
    (vc < 7) :=
  ⟨withPort 511 upPort, reqPcie, 511, 6, by decide +kernel⟩

theorem wit_EthernetPorts_1 :
    ∃ (s : State) (p : Nat),
    (ethUp s p = true) :=
  ⟨withPort 0 { upPort with eth := true }, 0, by decide +kernel⟩

theorem wit_EthernetPorts_2 :
    ∃ (s : State) (p : Nat) (vid : Nat) (f : EthFrame),
    (ethUp s p = true) ∧
    (64 ≤ frameLen f ∧ frameLen f ≤ 9216) ∧
    (f.fcsOk = true) ∧
    (f.etype ≠ etMacControl) ∧
    (frameVid s p f = some vid) ∧
    (isSolicit (macLearn vid f.smac p s) f = false) ∧
    (f.dmac ≠ portMac (macLearn vid f.smac p s) p) :=
  ⟨withPort 0 { upPort with eth := true }, 0, 1, ⟨1, 2, none, 0x800, List.replicate 50 0, true⟩, by decide +kernel⟩

theorem wit_EthernetPorts_4 :
    ∃ (s : State) (p : Nat) (t : Nat),
    (ethUp s p = true) ∧
    (t ≠ s.fld (pgLane p) prtPfc_cdnPcp) :=
  ⟨withPort 0 { upPort with eth := true }, 0, 0, by decide +kernel⟩

theorem wit_EthernetPorts_5 :
    ∃ (s : State) (p : Nat) (t : Nat) (c : Nat),
    (at0 none (s.port p).pausedTo t = some c) ∧
    (c ≤ s.cyc) ∧
    (t ≠ s.fld (pgLane p) prtPfc_cdnPcp) :=
  ⟨withPort 0 { upPort with eth := true, pausedTo := List.replicate 8 (some 0) }, 0, 7, 0, by decide +kernel⟩

theorem wit_EthernetPorts_6 :
    ∃ (s : State) (p : Nat) (t : Nat) (c : Nat),
    (at0 none (s.port p).refreshAt t = some c) ∧
    (c ≤ s.cyc) ∧
    (pfcOn s p t = true) ∧
    (s.fld (pgLane p) prtPfcTh_xon < heldBytes s p t) :=
  ⟨{ withPort 0 { upPort with eth := true, refreshAt := List.replicate 8 (some 0) } with regs := [(pgLane 0 + 0x238, 0)], waiting := [{ unit := 0, vc := 0, load := .eth ⟨1, 2, none, 0x800, [], true⟩, landed := false, org := .bridge 1, credits := 0, bufs := [], frame := 1, tc := 5, spots := [], flen := 100 }] }, 0, 5, 0, by decide +kernel⟩

theorem wit_EthernetPorts_7 :
    ∃ (s : State) (p : Nat) (c : Nat),
    ((s.port p).cdnSince = some c) ∧
    (c + s.fld (pgLane p) prtPfc_cdnPauseLimit * 80 < s.cyc) ∧
    (paused s (s.port p) (s.fld (pgLane p) prtPfc_cdnPcp) = true) :=
  ⟨{ withPort 0 { upPort with eth := true, cdnSince := some 0, pausedTo := List.replicate 8 (some 10000000), egress := [⟨.eth ⟨1, 2, none, 0x800, [], true⟩, 0, 6, .down ⟨0, 0, 0, 0⟩ 0 0, [], 512⟩, ⟨.eth ⟨1, 2, none, 0x800, [], true⟩, 0, 6, .bridge 0, [], 512⟩] } with cyc := 9999999 }, 0, 0, by decide +kernel⟩

theorem wit_EthernetPorts_8 :
    ∃ (s : State) (p : Nat) (vid : Nat) (f : EthFrame),
    (ethUp s p = true) ∧
    (64 ≤ frameLen f ∧ frameLen f ≤ 9216) ∧
    (f.fcsOk = true) ∧
    (f.etype ≠ etMacControl) ∧
    (frameVid s p f = some vid) :=
  ⟨withPort 0 { upPort with eth := true }, 0, 1, ⟨0, 2, none, 0x800, List.replicate 50 0, true⟩, by decide +kernel⟩

theorem wit_EthernetPorts_10 :
    ∃ (s : State) (p : Nat) (m : Nat) (f : EthFrame),
    (meterOf s p (frameTc f) = some m) ∧
    (actAbove s (.meter m) p = false) ∧
    ((meterColour m (frameLen f) s).1 = true) :=
  ⟨withPort 0 { upPort with eth := true } |>.wr (pgLane 0 + 0x210) 0x1000, 0, 0, ⟨1, 2, none, 0x800, List.replicate 50 0, true⟩, by decide +kernel⟩

theorem wit_DuplicateInput_1 :
    ∃ (s : State) (cn : Bool) (port : Nat) (p : Packet) (i : InPkt) (e : ExtHdr) (y : ScopeE × Nat) (x : Slot),
    (s.inbox.find? (fun z => z.port == port && z.pkt == p) = some i) ∧
    (p.ext = some e) ∧
    (InputPasses (inputSeen s i (extKey e)) cn p e y) ∧
    ((inputSeen s i (extKey e)).slotOf (extKey e) = some x) ∧
    (x.maskWait = none) ∧
    (x.accepted.contains y.2 = true) :=
  ⟨withInbox { grpSt 0 9 with slots := [{ slot0 with accepted := [0] }] } (contrib false), false, 5, contrib false, inP 5 (contrib false), statusExt key0 0 0 0 0 0, (⟨0, 0, 0, 3, 0⟩, 0), { slot0 with accepted := [0] }, by decide +kernel⟩

theorem wit_Contributions_1 :
    ∃ (s : State) (port : Nat) (p : Packet) (i : InPkt) (e : ExtHdr),
    (s.inbox.find? (fun z => z.port == port && z.pkt == p) = some i) ∧
    (p.ext = some e) :=
  ⟨withInbox (grpSt 0 9) (contrib false), 5, contrib false, inP 5 (contrib false), statusExt key0 0 0 0 0 0, by decide +kernel⟩

theorem wit_Contributions_2 :
    ∃ (s : State) (cn : Bool) (port : Nat) (p : Packet) (i : InPkt) (e : ExtHdr) (y : ScopeE × Nat),
    (s.inbox.find? (fun z => z.port == port && z.pkt == p) = some i) ∧
    (p.ext = some e) ∧
    (InputPasses (inputSeen s i (extKey e)) cn p e y) :=
  ⟨withInbox (grpSt 1 9) (contrib true), true, 5, contrib true, inP 5 (contrib true), statusExt key0 0 0 0 0 0, (⟨0, 0, 1, 3, 0⟩, 0), by decide +kernel⟩

theorem wit_SlotPlacement_1 :
    ∃ (s : State) (u : State) (src : Option InPkt) (e : ExtHdr) (b : Nat) (sram : Bool) (x : Slot),
    (s.slotOf (extKey e) = some x) ∧
    (x.k = extKey e) ∧
    (claimBuf src x s = (some (sram, b), u)) ∧
    (sram = true → bufRefused u b = false) ∧
    ((scopeEmits (slotScope s x)).any (fun z => z.lo == e.lo && z.hi == e.hiIncl) = false) :=
  ⟨{ grpSt 0 9 with slots := [slot0] }, (claimBuf none slot0 { grpSt 0 9 with slots := [slot0] }).2, none, statusExt key0 0 0 0 0 0, (match (claimBuf none slot0 { grpSt 0 9 with slots := [slot0] }).1 with | some z => z.2 | none => 0), true, slot0, by decide +kernel⟩

theorem wit_PressAndAccumulator_1 :
    ∃ (s : State) (k : Key) (x : Slot) (i : Nat) (p : Packet) (e : ExtHdr),
    (s.slotOf k = some x) ∧
    (x.maskWait = some (i, p)) ∧
    (p.ext = some e) :=
  ⟨{ grpSt 0 9 with slots := [{ slot0 with maskWait := some (0, contrib false) }] }, key0, { slot0 with maskWait := some (0, contrib false) }, 0, contrib false, statusExt key0 0 0 0 0 0, by decide +kernel⟩

theorem wit_PressAndAccumulator_2 :
    ∃ (s : State) (a : Nat) (x : Slot) (l : Partial) (r : Partial),
    (readyAdd s a = some (x, l, r)) :=
  ⟨{ ((grpSt 0 9).setFld (grpAt 0) grpCfg_nM1 1).setFld (grpAt 0) grpScope_scopeLen 0 with slots := [{ slot0 with parts := [part 0 0, part 1 1] }] }, 0, { slot0 with parts := [part 0 0, part 1 1] }, part 0 0, part 1 1, by decide +kernel⟩

theorem wit_PressAndAccumulator_3 :
    ∃ (s : State) (x : Slot) (l : Partial) (r : Partial),
    ((scopeEmits (slotScope s x)).any (fun z => z.lo == l.lo && z.hi == r.hi) = false) ∧
    (s.slotOf x.k = some x) ∧
    (operandRefused s [l, r] = none) :=
  ⟨{ ((grpSt 0 9).setFld (grpAt 0) grpCfg_nM1 1).setFld (grpAt 0) grpScope_scopeLen 0 with slots := [{ slot0 with parts := [part 0 0, part 1 1] }] }, { slot0 with parts := [part 0 0, part 1 1] }, part 0 0, part 1 1, by decide +kernel⟩

theorem wit_PressAndAccumulator_4 :
    ∃ (s : State) (g : Nat) (b : Nat) (x : Slot) (pt : Partial),
    (waitingSum s g b = some x) ∧
    (x.parts.find? (fun p => p.lo == 0 && p.hi + 1 == groupN s g) = some pt) ∧
    ((x.k.epoch + 65536 - tagSettled s g b) % 65536 = 1) ∧
    (accumAsk s g b = [.ready, .ready]) :=
  ⟨{ ((grpSt 0 0).setFld (grpAt 0) grpCfg_accum 1).setFld (grpAt 0) grpEpoch_curEpoch 1 with slots := [{ slot0 with k := ⟨0, 1, 0, 0⟩, sumWait := true, parts := [part 0 0] }] }, 0, 0, { slot0 with k := ⟨0, 1, 0, 0⟩, sumWait := true, parts := [part 0 0] }, part 0 0, by decide +kernel⟩

theorem wit_PressAndAccumulator_5 :
    ∃ (s : State) (x : Slot),
    ((x.k.epoch + 65536 - grpF s x.k.group grpEpoch_curEpoch) % 65536 = 1) :=
  ⟨grpSt 0 0, { slot0 with k := ⟨0, 1, 0, 0⟩, sumWait := true, parts := [part 0 0] }, by decide +kernel⟩

theorem wit_ParentOnly_1 :
    ∃ (s : State) (port : Nat) (p : Packet) (i : InPkt) (e : ExtHdr),
    (s.inbox.find? (fun z => z.port == port && z.pkt == p) = some i) ∧
    (i.org = .none) ∧
    (p.ext = some e) ∧
    (crcGood p = true) ∧
    (p.src ≠ grpF s e.group grpLink_parentFid) :=
  ⟨withInbox (grpSt 0 9) (downPkt 8 7 0), 5, downPkt 8 7 0, inP 5 (downPkt 8 7 0), statusExt key0 0 0 0 0 0, by decide +kernel⟩

theorem wit_FailureFromParent_1 :
    ∃ (s : State) (port : Nat) (p : Packet) (i : InPkt) (e : ExtHdr),
    (s.inbox.find? (fun z => z.port == port && z.pkt == p) = some i) ∧
    (i.org = .none) ∧
    (p.ext = some e) ∧
    (crcGood p = true) ∧
    (p.src = grpF s e.group grpLink_parentFid) ∧
    (reservedExt { e with status := 0 } = false) ∧
    (statusSuccess e.status = false) ∧
    (isSweep e = false) :=
  ⟨withInbox (grpSt 0 9) (downPkt 9 9 0x10), 5, downPkt 9 9 0x10, inP 5 (downPkt 9 9 0x10), statusExt key0 0 0 0 0x10 0, by decide +kernel⟩

theorem wit_FailureFromParent_2 :
    ∃ (s : State) (port : Nat) (p : Packet) (i : InPkt) (e : ExtHdr),
    (s.inbox.find? (fun z => z.port == port && z.pkt == p) = some i) ∧
    (i.org = .none) ∧
    (p.ext = some e) ∧
    (crcGood p = true) ∧
    (p.src = grpF s e.group grpLink_parentFid) ∧
    (reservedExt { e with status := 0 } = false) ∧
    (e.window = 0x3FF ∧ e.block = 0xFFFFFF ∧ e.status = 0x11) :=
  ⟨withInbox { grpSt 0 9 with slots := [slot0] } (sweepPkt 9), 5, sweepPkt 9, inP 5 (sweepPkt 9), statusExt sweepKey 0 0 0 0x11 0, by decide +kernel⟩

theorem wit_FailureFromParent_3 :
    ∃ (s : State) (port : Nat) (lo : Nat) (hi : Nat) (k : Key) (p : Packet) (i : InPkt) (e : ExtHdr),
    (s.inbox.find? (fun z => z.port == port && z.pkt == p) = some i) ∧
    (i.org = .down k lo hi) ∧
    (p.ext = some e) ∧
    (crcGood p = true) ∧
    (e.window = 0x3FF ∧ e.block = 0xFFFFFF ∧ e.status = 0x11) :=
  ⟨{ withInbox { grpSt 0 9 with members := [(0, 0, 3)] } (sweepPkt 9) with inbox := [{ inP 5 (sweepPkt 9) with org := .down key0 0 0 }] }, 5, 0, 0, key0, sweepPkt 9, { inP 5 (sweepPkt 9) with org := .down key0 0 0 }, statusExt sweepKey 0 0 0 0x11 0, by decide +kernel⟩

theorem wit_ResultFromParent_1 :
    ∃ (s : State) (port : Nat) (p : Packet) (i : InPkt) (e : ExtHdr),
    (s.inbox.find? (fun z => z.port == port && z.pkt == p) = some i) ∧
    (i.org = .none) ∧
    (p.ext = some e) ∧
    (crcGood p = true) ∧
    (p.src = grpF s e.group grpLink_parentFid) ∧
    (statusSuccess e.status = true) ∧
    (resultOk s p e = true) :=
  ⟨withInbox { grpSt 0 9 with slots := [{ slot0 with st := .held }] } (downPkt 8 9 0), 5, downPkt 8 9 0, inP 5 (downPkt 8 9 0), statusExt key0 0 0 0 0 0, by decide +kernel⟩

theorem wit_ResultFromParent_2 :
    ∃ (s : State) (x : Slot) (b : Nat) (u : State),
    (takeBuf x.qd vcCdn (repPress x.array) s = some (b, u)) ∧
    (bufRefused u b = false) :=
  ⟨grpSt 0 9, slot0, ((takeBuf 0 5 (repPress 0) (grpSt 0 9)).getD (0, State.reset)).1, ((takeBuf 0 5 (repPress 0) (grpSt 0 9)).getD (0, State.reset)).2, by decide +kernel⟩

theorem wit_ResultFromParent_3 :
    ∃ (s : State) (x : Slot),
    (takeBuf x.qd vcCdn (repPress x.array) s = none) :=
  ⟨{ grpSt 0 9 with waiters := [⟨0, 5, 0, .credit 0 5, 0⟩] }, slot0, by decide +kernel⟩

theorem wit_ResultFromParent_4 :
    ∃ (s : State) (c : Nat) (n : Nat) (i : Item),
    ((s.core c).items.find? (fun z => z.n == n) = some i) ∧
    (i.deadline ≤ s.cyc) :=
  ⟨{ State.reset with cores := [(3, { Core.idle with items := [⟨4, 0, key0, 0, contrib false, 2, 0⟩] })] }, 3, 4, ⟨4, 0, key0, 0, contrib false, 2, 0⟩, by decide +kernel⟩

theorem wit_GroupControl_1 :
    ∃ (s : State) (req : Nat) (g : Nat) (v : U64),
    (pathOpen s req = true) ∧
    (fieldOf v 0 1 = 1) ∧
    (warmPrimary s g = false) :=
  ⟨State.reset, reqPcie, 4095, 1, by decide +kernel⟩

theorem wit_GroupControl_2 :
    ∃ (s : State) (g : Nat) (t : Nat),
    ((s.grp g).validAt = some t) ∧
    (t ≤ s.cyc) ∧
    (groupFailure s g = none) :=
  ⟨{ ((((grpSt 0 9).setFld (grpAt 0) grpCfg_enabled 0).setFld (grpAt 0) grpLink_wCredits 1).setFld (grpAt 0) grpScope_scopeBase openBase) with cyc := 5, mem := [(memKey (spCellar 0) (openBase + 4), 0x30), (memKey (spCellar 0) (openBase + 12), 0x08)], grps := [(0, { Grp.reset with validAt := some 0, scan := some ⟨0, openBase, 2, 1, false, 0, []⟩ })] }.setFld (grpAt 0) grpScope_scopeLen 2, 0, 0, by decide +kernel⟩

theorem wit_GroupControl_3 :
    ∃ (s : State) (g : Nat) (t : Nat) (i : Nat) (c : Nat),
    ((s.grp g).validAt = some t) ∧
    (groupFailure s g = some (i, c)) :=
  ⟨{ State.reset with grps := [(5, { Grp.reset with validAt := some 0, cfgBad := true })] }, 5, 0, 0, 7, by decide +kernel⟩

theorem wit_GroupControl_4 :
    ∃ (s : State) (req : Nat) (v : U64),
    (pathOpen s req = true) ∧
    (fieldOf v 0 1 = 0) :=
  ⟨grpSt 0 9, reqPcie, 0, by decide +kernel⟩

theorem wit_EpochControl_1 :
    ∃ (s : State) (w : State) (req : Nat) (g : Nat),
    (pathOpen s req = true) ∧
    (g < 4096) ∧
    (w = plainWrite req locGrpCmd (grpWord g 1 0) (fun _ => false) (woTurn req (pgGrp + 0x100) s)) ∧
    (grpFlag w g grpCfg_enabled = true) ∧
    ((w.grp g).lastBoundary ≠ some w.aon) :=
  ⟨{ grpSt 0 9 with cyc := 20000 }, grpWr 1 0 { grpSt 0 9 with cyc := 20000 }, reqPcie, 0, by decide +kernel⟩

theorem wit_EpochControl_2 :
    ∃ (s : State) (w : State) (req : Nat) (g : Nat) (n : Nat),
    (pathOpen s req = true) ∧
    (g < 4096) ∧
    (w = plainWrite req locGrpCmd (grpWord g 1 0) (fun _ => false) (woTurn req (pgGrp + 0x100) s)) ∧
    (grpFlag w g grpCfg_enabled = true) ∧
    ((w.grp g).lastBoundary = some w.aon) ∧
    (expiredNow w g = some n) :=
  ⟨{ grpSt 0 9 with grps := [(0, { Grp.reset with lastBoundary := some 0 })], same := { SameCycle.empty with acts := [(.expired 0, 1)] } }, grpWr 1 0 { grpSt 0 9 with grps := [(0, { Grp.reset with lastBoundary := some 0 })], same := { SameCycle.empty with acts := [(.expired 0, 1)] } }, reqPcie, 0, 1, by decide +kernel⟩

theorem wit_EpochControl_3 :
    ∃ (s : State) (w : State) (req : Nat) (g : Nat),
    (pathOpen s req = true) ∧
    (g < 4096) ∧
    (w = plainWrite req locGrpCmd (grpWord g 2 0) (fun _ => false) (woTurn req (pgGrp + 0x100) s)) ∧
    (grpFlag w g grpCfg_enabled = true) :=
  ⟨grpSt 0 9, grpWr 2 0 (grpSt 0 9), reqPcie, 0, by decide +kernel⟩

theorem wit_EpochControl_4 :
    ∃ (s : State) (w : State) (req : Nat) (g : Nat) (qd : Nat),
    (pathOpen s req = true) ∧
    (g < 4096) ∧
    (qd < 4) ∧
    (w = plainWrite req locGrpCmd (grpWord g 3 qd) (fun _ => false) (woTurn req (pgGrp + 0x100) s)) ∧
    (grpFlag w g grpCfg_enabled = true) :=
  ⟨grpSt 0 9, grpWr 3 3 (grpSt 0 9), reqPcie, 0, 3, by decide +kernel⟩

theorem wit_EpochControl_5 :
    ∃ (s : State) (req : Nat) (g : Nat) (qd : Nat),
    (pathOpen s req = true) ∧
    (g < 4096) ∧
    (qd < 4) :=
  ⟨State.reset, reqPcie, 4095, 0, by decide +kernel⟩

theorem wit_EpochControl_6 :
    ∃ (s : State) (g : Nat),
    (grpFlag s g grpCfg_enabled = true) :=
  ⟨grpSt 0 9, 0, by decide +kernel⟩

theorem wit_EpochControl_7 :
    ∃ (s : State) (g : Nat) (q : Nat),
    ((s.grp g).mig = .copying q) :=
  ⟨{ grpSt 0 9 with grps := [(0, { Grp.reset with mig := .copying 3 })] }, 0, 3, by decide +kernel⟩

theorem wit_BoundaryEffect_1 :
    ∃ (s : State) (g : Nat),
    (RegsOk s) ∧
    (g < 4096) ∧
    (grpFlag s g grpCfg_accum = false) ∧
    (groupSlots s g = []) ∧
    ((s.grp g).mig = .idle) ∧
    (warmPrimary s g = false) ∧
    (s.twin.digests = []) :=
  ⟨grpSt 0 9, 0, by decide +kernel⟩

theorem wit_BoundaryEffect_2 :
    ∃ (s : State) (g : Nat),
    (grpFlag s g grpCfg_accum = false) ∧
    ((s.grp g).mig = .idle) ∧
    (warmPrimary s g = false) ∧
    (s.twin.digests = []) :=
  ⟨{ (((grpSt 0 9).setFld (grpAt 0) grpCfg_nM1 1).setFld (grpAt 0) grpScope_scopeLen 2) with mem := [(memKey (spCellar 0) 4, 0x30), (memKey (spCellar 0) 8, 1), (memKey (spCellar 0) 10, 2), (memKey (spCellar 0) 12, 0x30)], slots := [slot0, { slot0 with k := ⟨0, 1, 0, 0⟩ }, { slot0 with k := ⟨1, 0, 0, 0⟩ }] }, 0, by decide +kernel⟩

theorem wit_ChainsAndSync_1 :
    ∃ (s : State) (q : Nat) (d : Nat),
    (s.chainQ.find? (fun x => x.1 == q) = some (q, d)) ∧
    ((s.chains.filter (fun c => c.qd == q)).length < 256) :=
  ⟨{ State.reset with chainQ := [(3, 4095)] }, 3, 4095, by decide +kernel⟩

theorem wit_ChainsAndSync_2 :
    ∃ (s : State) (c : Chain),
    (s.chains.find? (fun x => x.id == c.id) = some c) ∧
    (c.sending = true) ∧
    (chainPending s c.id = false) :=
  ⟨{ State.reset with chains := [⟨7, 1, 5, true⟩] }, ⟨7, 1, 5, true⟩, by decide +kernel⟩

theorem wit_ChainsAndSync_4 :
    ∃ (s : State) (k : Nat),
    (RegsOk s) ∧
    (k < 65536) ∧
    (s.fld (syncAt k) synCfg_armed = 0) ∧
    (quadPresent s.fuses (k / 16384) = true) ∧
    (upsetIn s (syncQuad k) (syncOff k) 32 = false) :=
  ⟨State.reset, 65535, by decide +kernel⟩

theorem wit_ChainsAndSync_5 :
    ∃ (s : State) (k : Nat),
    (RegsOk s) ∧
    (k < 65536) ∧
    (quadPresent s.fuses (k / 16384) = true) ∧
    (upsetIn s (syncQuad k) (syncOff k) 32 = false) ∧
    (s.fires = []) :=
  ⟨State.reset, 65535, by decide +kernel⟩

theorem wit_TimeGates_1 :
    ∃ (s0 : State) (s : State) (req : Nat) (p : Nat) (v : U64),
    (pathOpen s0 req = true) ∧
    (lanePresent s0.fuses p = true) ∧
    (isMember s0 p = false) ∧
    (fieldOf v 0 1 = 1) ∧
    (s = orNext (gateLingers s0 p) s0) ∧
    (lostRace s req (pgLane p + 0x218) = false) :=
  ⟨State.reset, State.reset, reqPcie, 511, 1, by decide +kernel⟩

theorem wit_TimeGates_2 :
    ∃ (s0 : State) (s : State) (req : Nat) (p : Nat) (v : U64),
    (pathOpen s0 req = true) ∧
    (lanePresent s0.fuses p = true) ∧
    (isMember s0 p = false) ∧
    (fieldOf v 0 1 = 0) ∧
    (lostRace s0 req (pgLane p + 0x218) = false) ∧
    (s = orNext (gateOn s0 p && gatesApply s0 p && s0.same.oldReg.any (fun r => r.1 == pgLane p + 0x218)) s0) ∧
    (s.flag (pgLane p) prtGateCfg_gateEn = true) :=
  ⟨withReg (pgLane 3 + 0x218) 1, withReg (pgLane 3 + 0x218) 1, reqPcie, 3, 0, by decide +kernel⟩

theorem wit_TimeGates_3 :
    ∃ (s : State) (req : Nat) (p : Nat) (v : U64),
    (pathOpen s req = true) ∧
    (lanePresent s.fuses p = true) ∧
    (isMember s p = false) ∧
    (lostRace s req (pgLane p + 0x218) = true) ∧
    (fieldOf v 0 1 = 0 ∨ gateLingers s p = false) :=
  ⟨noteWrite reqI3c (pgLane 3 + 0x218) State.reset, reqPcie, 3, 1, by decide +kernel⟩

theorem wit_TimeGates_4 :
    ∃ (s : State) (p : Nat) (e : Nat),
    ((s.port p).gateEnd = some e) ∧
    (gateOn s p = true) ∧
    (e ≤ s.cyc) ∧
    ((s.port p).gateIdx + 1 < gclLen s p) ∧
    ((s.port p).sendTc = none) :=
  ⟨{ withPort 0 { upPort with gateEnd := some 0 } with regs := [(pgLane 0 + 0x218, 0xB)] }, 0, 0, by decide +kernel⟩

theorem wit_ProgramLife_1 :
    ∃ (s : State) (w : State) (req : Nat) (vat : Nat) (d : Nat),
    (pathOpen s req = true) ∧
    (vatPresent s.fuses vat = true) ∧
    (isDark s (puVat vat) = false) ∧
    (d < 2 ^ 24) ∧
    (w = plainWrite req (locVat vat 0x110) (BitVec.ofNat 64 d) (fun _ => false) (woTurn req (pgVat vat + 0x110) s)) ∧
    (vatPresent w.fuses vat = true) ∧
    (isDark w (puVat vat) = false) ∧
    (isEnabled w (pgVat vat) = true) ∧
    (isDrain w (pgVat vat) = false) :=
  ⟨vatSt Core.idle, startWr 5 (vatSt Core.idle), reqPcie, 0, 5, by decide +kernel⟩

theorem wit_ProgramLife_2 :
    ∃ (s : State) (vat : Nat) (r : StartReq) (rest : List StartReq),
    ((s.vat vat).startQ = r :: rest) ∧
    (isGold s (puVat vat) = true) ∧
    (r.desc < storeWords s vat) ∧
    (((List.range 8).filter (fun k => (startDesc s vat r.desc).mask / 2 ^ k % 2 == 1)).all
(fun k => (s.core (vat * 8 + k)).st == .idle) = true) :=
  ⟨startSt, 0, ⟨0, false⟩, [], by decide +kernel⟩

theorem wit_ProgramLife_3 :
    ∃ (s : State) (core : Nat) (d : StartDesc),
    (bindExc s core d = none) ∧
    (d.qcount = 0) :=
  ⟨startSt, 0, ⟨7 + 2 ^ 24, 1, 2, 2 ^ 30⟩, by decide +kernel⟩

theorem wit_ProgramLife_5 :
    ∃ (s : State) (req : Nat) (vat : Nat),
    (pathOpen s req = true) ∧
    (vatPresent s.fuses vat = true) ∧
    (isDark s (puVat vat) = false) :=
  ⟨State.reset, reqPcie, 31, by decide +kernel⟩

theorem wit_ProgramLife_6 :
    ∃ (s : State) (core : Nat),
    ((s.core core).st = .ending) ∧
    ((s.core core).sb = []) ∧
    ((s.core core).items = []) :=
  ⟨vatSt { runCore with st := .ending, doneEn := true }, 0, by decide +kernel⟩

theorem wit_ProgramLife_7 :
    ∃ (s : State) (core : Nat) (t : Nat),
    ((s.core core).budgetAt = some t) ∧
    (t ≤ s.cyc) ∧
    (coreActive (s.core core) = true) :=
  ⟨vatSt { runCore with budgetAt := some 0 }, 0, 0, by decide +kernel⟩

theorem wit_ProgramLife_8 :
    ∃ (s : State) (req : Nat) (vat : Nat) (m : Nat),
    (pathOpen s req = true) ∧
    (vatPresent s.fuses vat = true) ∧
    (isDark s (puVat vat) = false) ∧
    (m < 256) :=
  ⟨vatSt runCore, reqPcie, 0, 255, by decide +kernel⟩

theorem wit_ProgramLife_9 :
    ∃ (s : State) (req : Nat) (vat : Nat) (k : Nat),
    (pathOpen s req = true) ∧
    (vatPresent s.fuses vat = true) ∧
    (isDark s (puVat vat) = false) ∧
    (k < 8) ∧
    ((s.core (vat * 8 + k)).st = .running) ∧
    (lostRace s req (pgVat vat + 0x120) = false) :=
  ⟨vatSt runCore, reqPcie, 0, 0, by decide +kernel⟩

theorem wit_ProgramLife_10 :
    ∃ (s : State) (req : Nat) (vat : Nat) (k : Nat),
    (pathOpen s req = true) ∧
    (vatPresent s.fuses vat = true) ∧
    (isDark s (puVat vat) = false) ∧
    (k < 8) ∧
    ((s.core (vat * 8 + k)).st = .faulted) ∧
    (lostRace s req (pgVat vat + 0x120) = false) ∧
    ((s.core (vat * 8 + k)).items = []) :=
  ⟨vatSt { runCore with st := .faulted }, reqPcie, 0, 0, by decide +kernel⟩

theorem wit_ProgramLife_11 :
    ∃ (s : State) (core : Nat),
    ((s.core core).queues = []) ∧
    (s.setServer core Server.none = s) ∧
    (s.waiters.all (fun w => w.purpose != .pgather core) = true) :=
  ⟨vatSt runCore, 0, by decide +kernel⟩

theorem wit_CurdIssue_1 :
    ∃ (s : State) (core : Nat) (op : Nat) (w : CurdWord) (i : Instr),
    (curdInstr core op w = some i) ∧
    ((s.core core).st ≠ .running ∨ 32 ≤ (s.core core).sb.length ∨ (s.core core).fetching = true ∨
  issueBlocked (s.core core) = true) :=
  ⟨State.reset, 0, 0x50, word0, .cSadd 0 word0, by decide +kernel⟩

theorem wit_CurdIssue_2 :
    ∃ (s : State) (core : Nat) (op : Nat) (w : CurdWord) (i : Instr),
    (curdInstr core op w = some i) ∧
    ((s.core core).st = .running) ∧
    ((s.core core).sb = []) ∧
    ((s.core core).fetching = false) :=
  ⟨vatSt runCore, 0, 0x10, word0, .cAdd 0 word0, by decide +kernel⟩

theorem wit_CurdIssue_3 :
    ∃ (s : State) (core : Nat) (op : Nat) (w : CurdWord) (i : Instr),
    (curdInstr core op w = some i) ∧
    (isBranch op = false) ∧
    (CurdIssues core op w s) ∧
    ((s.core core).cmode = false) ∧
    ((regionsNow (s.core core) w).all (regionGood s (vatOf core)) = false) :=
  ⟨fetchSt 0x00 { word0 with rg0 := 2 + 32 } { runCore with cmode := false, s := [(1, 1)] }, 0, 0x00, { word0 with rg0 := 2 + 32 }, .cNop 0 { word0 with rg0 := 2 + 32 }, by decide +kernel⟩

theorem wit_CurdIssue_4 :
    ∃ (s : State) (core : Nat) (op : Nat) (w : CurdWord) (i : Instr),
    (curdInstr core op w = some i) ∧
    (isBranch op = true) ∧
    (CurdIssues core op w s) ∧
    ((s.core core).cmode = false) ∧
    ((regionsNow (s.core core) w).all (regionGood s (vatOf core)) = false) :=
  ⟨fetchSt 0x68 { word0 with rg0 := 2 + 32 } { runCore with cmode := false, s := [(1, 1)] }, 0, 0x68, { word0 with rg0 := 2 + 32 }, .cBr 0 { word0 with rg0 := 2 + 32 }, by decide +kernel⟩

theorem wit_CurdIssue_5 :
    ∃ (s : State) (core : Nat) (op : Nat) (w : CurdWord) (i : Instr),
    (curdInstr core op w = some i) ∧
    (isBranch op = false) ∧
    (CurdReady core op w s) ∧
    (¬ CurdGuard core w s) :=
  ⟨fetchSt 0x46 { word0 with pn := 1 } runCore, 0, 0x46, { word0 with pn := 1 }, .cEnd 0 { word0 with pn := 1 }, by decide +kernel⟩

theorem wit_CurdIssue_6 :
    ∃ (s : State) (core : Nat) (op : Nat) (w : CurdWord) (i : Instr),
    (curdInstr core op w = some i) ∧
    (isBranch op = false) ∧
    (CurdReady core op w s) ∧
    (CurdGuard core w s) ∧
    (bindingOk (s.core core) (curdEntry core op w s) = false) :=
  ⟨fetchSt 0x20 addWord runCore, 0, 0x20, addWord, .cIadd 0 addWord, by decide +kernel⟩

theorem wit_CurdIssue_7 :
    ∃ (s : State) (core : Nat) (op : Nat) (w : CurdWord) (i : Instr),
    (curdInstr core op w = some i) ∧
    (CurdFetched core op w s) ∧
    ((s.core core).st = .running ∧ (s.core core).sb = [] ∧ (s.core core).fetching = false) ∧
    ((s.core core).pc < storeWords s (vatOf core)) ∧
    (legal (s.core core).cmode op w = true) ∧
    (((s.core core).issueFrom ≤ s.cyc ∧ (acted s (.issued core) = true ∨ issueHeldNow s core = true)) ∨
  (s.core core).issueFrom = s.cyc + 1 ∨ (s.core core).issueFrom = s.cyc + 2) ∧
    ((s.core core).pc < storeWords (nextCycle s) (vatOf core)) :=
  ⟨curdSent 0 (fetchSt 0x00 word0 runCore), 0, 0x00, word0, .cNop 0 word0, by decide +kernel⟩

theorem wit_CurdScalar_1 :
    ∃ (s : State) (core : Nat) (op : Nat) (w : CurdWord) (i : Instr),
    (curdInstr core op w = some i) ∧
    (isAlu op = true) ∧
    (isCompare op = false) ∧
    (CurdReady core op w s) ∧
    (CurdGuard core w s) :=
  ⟨cached 0x51 { word0 with rd := 3, rs1 := 1, rs2 := 2, imm := 1 } (vatSt { runCore with s := [(1, 5), (2, 7)] }), 0, 0x51, { word0 with rd := 3, rs1 := 1, rs2 := 2, imm := 1 }, .cSsub 0 { word0 with rd := 3, rs1 := 1, rs2 := 2, imm := 1 }, by decide +kernel⟩

theorem wit_CurdScalar_2 :
    ∃ (s : State) (core : Nat) (op : Nat) (w : CurdWord) (i : Instr),
    (curdInstr core op w = some i) ∧
    (isCompare op = true) ∧
    (CurdReady core op w s) ∧
    (CurdGuard core w s) :=
  ⟨cached 0x5C { word0 with rd := 7, rs1 := 2, rs2 := 1 } (vatSt { runCore with s := [(1, 5), (2, 7)], p := 0xFE }), 0, 0x5C, { word0 with rd := 7, rs1 := 2, rs2 := 1 }, .cSclts 0 { word0 with rd := 7, rs1 := 2, rs2 := 1 }, by decide +kernel⟩

theorem wit_CurdScalar_3 :
    ∃ (s : State) (core : Nat) (w : CurdWord),
    (CurdReady core 0x60 w s) ∧
    (CurdGuard core w s) :=
  ⟨cached 0x60 { word0 with rd := 3, rs1 := 1, imm := 8 } (vatSt { runCore with s := [(1, 16)] }), 0, { word0 with rd := 3, rs1 := 1, imm := 8 }, by decide +kernel⟩

theorem wit_CurdScalar_4 :
    ∃ (s : State) (core : Nat) (w : CurdWord),
    (CurdReady core 0x61 w s) ∧
    (CurdGuard core w s) :=
  ⟨cached 0x61 { word0 with rs1 := 1, rs2 := 2, imm := 8, rg0 := 3 + 32 } (vatSt { runCore with cmode := false, s := [(1, 4096), (2, 258)] }), 0, { word0 with rs1 := 1, rs2 := 2, imm := 8, rg0 := 3 + 32 }, by decide +kernel⟩

theorem wit_CurdScalar_5 :
    ∃ (s : State) (core : Nat) (w : CurdWord),
    (CurdReady core 0x6A w s) ∧
    (CurdGuard core w s) :=
  ⟨cached 0x6A { word0 with rd := 31 } (vatSt runCore), 0, { word0 with rd := 31 }, by decide +kernel⟩

theorem wit_CurdScalar_6 :
    ∃ (s : State) (core : Nat) (w : CurdWord),
    (CurdReady core 0x00 w s) :=
  ⟨cached 0x00 word0 (vatSt runCore), 0, word0, by decide +kernel⟩

theorem wit_CurdScalar_7 :
    ∃ (s : State) (core : Nat) (w : CurdWord),
    (CurdReady core 0x44 w s) :=
  ⟨cached 0x44 { word0 with imm := 2 ^ 64 - 1 } (vatSt runCore), 0, { word0 with imm := 2 ^ 64 - 1 }, by decide +kernel⟩

theorem wit_CurdScalar_8 :
    ∃ (s : State) (core : Nat) (w : CurdWord),
    (CurdReady core 0x46 w s) ∧
    (CurdGuard core w s) :=
  ⟨cached 0x46 word0 (vatSt runCore), 0, word0, by decide +kernel⟩

theorem wit_CurdSync_1 :
    ∃ (s : State) (core : Nat) (w : CurdWord),
    (CurdReady core 0x42 w s) ∧
    (CurdGuard core w s) :=
  ⟨cached 0x42 { word0 with rs1 := 1, rs2 := 1, imm := 2 ^ 32 + 3 } (vatSt { runCore with s := [(1, 5)] }), 0, { word0 with rs1 := 1, rs2 := 1, imm := 2 ^ 32 + 3 }, by decide +kernel⟩

theorem wit_CurdSync_2 :
    ∃ (s : State) (core : Nat) (w : CurdWord),
    (CurdReady core 0x43 w s) ∧
    (CurdGuard core w s) :=
  ⟨cached 0x43 { word0 with rs1 := 1, rs2 := 1 } (vatSt { runCore with s := [(1, 5)] }), 0, { word0 with rs1 := 1, rs2 := 1 }, by decide +kernel⟩

theorem wit_CurdSync_3 :
    ∃ (s : State) (core : Nat) (e : Sb),
    ((s.core core).sb = [e]) ∧
    (e.op = 0x43) ∧
    (e.started = true) ∧
    (quadPresent s.fuses (syncQuad (syncObj e)) = true) ∧
    (storedBefore s core e.ord = false) :=
  ⟨vatSt { runCore with sb := [swaitSb] }, 0, swaitSb, by decide +kernel⟩

theorem wit_CurdSync_4 :
    ∃ (s : State) (core : Nat) (w : CurdWord),
    (CurdReady core 0x41 w s) ∧
    (CurdGuard core w s) :=
  ⟨cached 0x41 { word0 with rd := 28 } { vatSt { runCore with crgTail := 1 } with mem := [(memKey 0 0, 7), (memKey 0 31, 9)] }, 0, { word0 with rd := 28 }, by decide +kernel⟩

theorem wit_CurdSync_5 :
    ∃ (s : State) (core : Nat) (w : CurdWord),
    (CurdReady core 0x45 w s) ∧
    (CurdGuard core w s) ∧
    (((s.core core).queue (w.dd % 64)).bound = true) ∧
    (((s.core core).queue (w.dd % 64)).kind = 4) ∧
    (((s.core core).queue (w.dd % 64)).hdr = false) :=
  ⟨cached 0x45 { word0 with dd := 5, imm := 64 } (vatSt { runCore with queues := [(5, { Queue.unbound with bound := true, kind := 4 })] }), 0, { word0 with dd := 5, imm := 64 }, by decide +kernel⟩

theorem wit_CurdSync_6 :
    ∃ (s : State) (core : Nat) (w : CurdWord),
    (CurdReady core 0x68 w s) :=
  ⟨cached 0x68 { word0 with imm := 127 } (vatSt runCore), 0, { word0 with imm := 127 }, by decide +kernel⟩

theorem wit_CurdSync_7 :
    ∃ (s : State) (core : Nat) (w : CurdWord),
    (CurdReady core 0x69 w s) ∧
    (CurdGuard core w s) ∧
    (w.rd ≠ 0) :=
  ⟨cached 0x69 { word0 with rd := 4, imm := 9 } (vatSt { runCore with s := [(4, 2)] }), 0, { word0 with rd := 4, imm := 9 }, by decide +kernel⟩

theorem wit_CurdSync_8 :
    ∃ (s : State) (core : Nat) (w : CurdWord),
    (CurdReady core 0x69 w s) ∧
    (w.rd = 0 ∨ ¬ CurdGuard core w s) :=
  ⟨cached 0x69 { word0 with imm := 9 } (vatSt runCore), 0, { word0 with imm := 9 }, by decide +kernel⟩

theorem wit_CurdVectorRun_1 :
    ∃ (s : State) (core : Nat) (op : Nat) (w : CurdWord) (i : Instr),
    (curdInstr core op w = some i) ∧
    (isVector op = true ∨ op = 0x32) ∧
    (CurdReady core op w s) ∧
    (CurdGuard core w s) ∧
    (bindingOk (s.core core) (curdEntry core op w s) = true) :=
  ⟨cached 0x20 addWord vecSt, 0, 0x20, addWord, .cIadd 0 addWord, by decide +kernel⟩

theorem wit_CurdVectorRun_2 :
    ∃ (s : State) (core : Nat) (e : Sb) (xs : List (Src × Nat × List (List Byte))),
    (isFloat e.op = true) ∧
    (e.acc.length < unitSize e) ∧
    (e.steps < e.w.rep) ∧
    (seeSrcs s core e = .got xs) ∧
    (readsOk (s.core core) e xs = true) ∧
    (roomNext s core (floatRead e xs) = true) :=
  ⟨vecSt, 0, curdEntry 0 0x10 faddWord vecSt, gotOr (seeSrcs vecSt 0 (curdEntry 0 0x10 faddWord vecSt)), by decide +kernel⟩

theorem wit_CurdVectorRun_3 :
    ∃ (e : Sb),
    (isVector e.op = true) ∧
    (e.op ≠ 0x40) ∧
    (e.acc.length < unitSize e) ∧
    (e.steps < e.w.rep) :=
  ⟨curdEntry 0 0x28 { addWord with sa := 3, sb := 0, imm := 0 } vecSt, by decide +kernel⟩

theorem wit_CurdVectorRun_4 :
    ∃ (s : State) (core : Nat) (e : Sb) (xs : List (Src × Nat × List (List Byte))),
    (isLane e.op = true ∨ e.op = 0x28 ∨ e.op = 0x30 ∨ e.op = 0x31) ∧
    (e.acc.length < 512) ∧
    (e.steps < e.w.rep) ∧
    (seeSrcs s core e = .got xs) ∧
    (readsOk (s.core core) e xs = true) ∧
    (roomNext s core { e with acc := e.acc ++ (rawRead e [] xs).1.map (fun b => b.toNat) } = true) :=
  ⟨vecSt, 0, curdEntry 0 0x20 addWord vecSt, gotOr (seeSrcs vecSt 0 (curdEntry 0 0x20 addWord vecSt)), by decide +kernel⟩

theorem wit_CurdVectorRun_5 :
    ∃ (e : Sb),
    (isVector e.op = true) ∧
    (e.op ≠ 0x40) ∧
    (e.acc = []) ∧
    (e.w.rep ≤ e.steps) :=
  ⟨{ curdEntry 0 0x10 faddWord vecSt with steps := 1, flag := 3 }, by decide +kernel⟩

theorem wit_CurdFloatRows_1 :
    ∃ (s : State) (s3 : State) (core : Nat) (op : Nat) (w : CurdWord) (i : Instr) (xs : List (Src × Nat × List (List Byte))),
    (curdInstr core op w = some i) ∧
    (isFloat op = true) ∧
    (op ≠ 0x16) ∧
    (w.rep = 1) ∧
    (unitVecs (dstOf w.dd).fmt = 1) ∧
    (CurdReady core op w s) ∧
    (CurdGuard core w s) ∧
    (bindingOk (s.core core) (curdEntry core op w s) = true) ∧
    (seeSrcs (curdHeld core op w s) core (curdEntry core op w s) = .got xs) ∧
    (readsOk ((curdHeld core op w s).core core) (curdEntry core op w s) xs = true) ∧
    (roomNext (curdHeld core op w s) core (floatRead (curdEntry core op w s) xs) = true) ∧
    ((floatRead (curdEntry core op w s) xs).acc.length ≤ unitElems (dstOf w.dd).fmt) ∧
    (let e := curdEntry core op w s
let s2 := popSrcs core xs (floatCensus core e xs (curdHeld core op w s))
let out := (unitOut (dstOf w.dd).fmt (floatRnd e) (floatRead e xs).acc).1
windowOk (s2.core core) e (dstOf w.dd).q true 1 = true ∧ hasRoomFor s2 core (dstOf w.dd).q 1 out = true ∧
pushVec core e.ord (dstOf w.dd).q out s2 = some (true, s3)) :=
  ⟨cached 0x10 faddWord vecSt, pushed 3 faddOut faddSt, 0, 0x10, faddWord, .cAdd 0 faddWord, gotOr (seeSrcs vecSt 0 (curdEntry 0 0x10 faddWord vecSt)), (by refine ⟨?_, ?_, ?_, ?_, ?_, ?_, ?_, ?_, ?_, ?_, ?_, ?_, ?_, ?_, ?_⟩ <;> first | set_option maxRecDepth 20000 in exact push_some _ _ _ _ _ (by decide +kernel) | decide +kernel)⟩

theorem wit_CurdFloatRows_2 :
    ∃ (s : State) (s3 : State) (core : Nat) (w : CurdWord) (xs : List (Src × Nat × List (List Byte))),
    (w.rep = 1) ∧
    (CurdReady core 0x16 w s) ∧
    (CurdGuard core w s) ∧
    (bindingOk (s.core core) (curdEntry core 0x16 w s) = true) ∧
    (seeSrcs (curdHeld core 0x16 w s) core (curdEntry core 0x16 w s) = .got xs) ∧
    (readsOk ((curdHeld core 0x16 w s).core core) (curdEntry core 0x16 w s) xs = true) ∧
    (roomNext (curdHeld core 0x16 w s) core (floatRead (curdEntry core 0x16 w s) xs) = true) ∧
    (let e := curdEntry core 0x16 w s
let s2 := popSrcs core xs (floatCensus core e xs (curdHeld core 0x16 w s))
let out := (floatRead e xs).acc.map (fun b => (BitVec.ofNat 8 b : Byte))
windowOk (s2.core core) e (dstOf w.dd).q true 1 = true ∧ hasRoomFor s2 core (dstOf w.dd).q 1 out = true ∧
pushVec core e.ord (dstOf w.dd).q out s2 = some (true, s3)) :=
  ⟨cached 0x16 cmpWord vecSt, pushed 3 cmpOut cmpSt, 0, cmpWord, gotOr (seeSrcs vecSt 0 (curdEntry 0 0x16 { faddWord with imm := 4 } vecSt)), (by refine ⟨?_, ?_, ?_, ?_, ?_, ?_, ?_, ?_, ?_, ?_⟩ <;> first | set_option maxRecDepth 20000 in exact push_some _ _ _ _ _ (by decide +kernel) | decide +kernel)⟩

theorem wit_CurdFloatRows_3 :
    ∃ (e : Sb),
    (isFloat e.op = true) ∧
    (e.op ≠ 0x16 ∧ e.op ≠ 0x17 ∧ e.op ≠ 0x19 ∧ e.op ≠ 0x1A) :=
  ⟨curdEntry 0 0x10 faddWord vecSt, by decide +kernel⟩

theorem wit_CurdFloatRows_4 :
    ∃ (e : Sb),
    (e.op = 0x19 ∨ e.op = 0x1A) :=
  ⟨curdEntry 0 0x19 faddWord vecSt, by decide +kernel⟩

theorem wit_CurdFloatRows_5 :
    ∃ (x : Val),
    ((match x with | .fin _ _ e => -2048 ≤ e ∧ e < 2048 | _ => True)) :=
  ⟨.fin true 5 (-3), by decide +kernel⟩

theorem wit_CurdRawRows_1 :
    ∃ (s : State) (s3 : State) (core : Nat) (op : Nat) (w : CurdWord) (i : Instr) (xs : List (Src × Nat × List (List Byte))),
    (curdInstr core op w = some i) ∧
    (isLane op = true ∨ op = 0x30 ∨ op = 0x31 ∨ (op = 0x28 ∧ w.imm / 256 % 2 = 0)) ∧
    (w.rep = 1) ∧
    (CurdReady core op w s) ∧
    (CurdGuard core w s) ∧
    (bindingOk (s.core core) (curdEntry core op w s) = true) ∧
    (seeSrcs (curdHeld core op w s) core (curdEntry core op w s) = .got xs) ∧
    ((rawOf xs 0).length = 512 ∧ (isLane op = true → (rawOf xs 1).length = 512)) ∧
    (readsOk ((curdHeld core op w s).core core) (curdEntry core op w s) xs = true) ∧
    (let e := curdEntry core op w s
let t := curdHeld core op w s
let s2 := popSrcs core xs t
let out := (rawRead e [] xs).1
hasRoomFor t core (dstOf w.dd).q 1 out = true ∧ hasRoomFor s2 core (dstOf w.dd).q 1 out = true ∧
windowOk (s2.core core) e (dstOf w.dd).q true 1 = true ∧ pushVec core e.ord (dstOf w.dd).q out s2 = some (true, s3)) :=
  ⟨cached 0x20 addWord vecSt, pushed 3 iaddOut (popSrcs 0 iaddXs (curdHeld 0 0x20 addWord (cached 0x20 addWord vecSt))), 0, 0x20, addWord, .cIadd 0 addWord, iaddXs, (by refine ⟨?_, ?_, ?_, ?_, ?_, ?_, ?_, ?_, ?_, ?_, ?_, ?_, ?_⟩ <;> first | set_option maxRecDepth 20000 in exact push_some _ _ _ _ _ (by decide +kernel) | decide +kernel)⟩

theorem wit_CurdRawRows_2 :
    ∃ (w : CurdWord) (a : List Byte) (b : List Byte) (op : Nat) (n : Nat),
    (op = 0x20 ∨ op = 0x21 ∨ op = 0x25 ∨ op = 0x26) ∧
    (a.length = 512) ∧
    (b.length = 512) ∧
    (n < 512 / laneBytes w) :=
  ⟨{ addWord with imm := 3 }, List.replicate 512 7, List.replicate 512 0xFF, 0x21, 63, by decide +kernel⟩

theorem wit_CurdRawRows_3 :
    ∃ (a : List Byte) (b : List Byte) (op : Nat) (n : Nat),
    (op = 0x22 ∨ op = 0x23 ∨ op = 0x24) ∧
    (a.length = 512) ∧
    (b.length = 512) ∧
    (n < 512) :=
  ⟨List.replicate 512 7, List.replicate 512 0xFF, 0x24, 511, by decide +kernel⟩

theorem wit_CurdRawRows_5 :
    ∃ (s : State) (s3 : State) (s4 : State) (core : Nat) (w : CurdWord) (xs : List (Src × Nat × List (List Byte))),
    (w.imm / 256 % 2 = 1) ∧
    (w.rep = 1) ∧
    (CurdReady core 0x28 w s) ∧
    (CurdGuard core w s) ∧
    (bindingOk (s.core core) (curdEntry core 0x28 w s) = true) ∧
    (seeSrcs (curdHeld core 0x28 w s) core (curdEntry core 0x28 w s) = .got xs) ∧
    ((rawOf xs 0).length = 512) ∧
    (readsOk ((curdHeld core 0x28 w s).core core) (curdEntry core 0x28 w s) xs = true) ∧
    (let t := curdHeld core 0x28 w s
let s2 := popSrcs core xs t
let e := curdEntry core 0x28 w s
let d := (dstOf w.dd).q
let d2 := (dstOf w.de).q
hasRoomFor t core d 1 (rawOf xs 0) = true ∧ hasRoomFor t core d2 1 (rawOf xs 0) = true ∧
hasRoomFor s2 core d 1 (rawOf xs 0) = true ∧ hasRoomFor s2 core d2 1 (rawOf xs 0) = true ∧
windowOk (s2.core core) e d true 1 = true ∧ windowOk (s2.core core) e d2 true 1 = true ∧
pushVec core e.ord d (rawOf xs 0) s2 = some (true, s3) ∧ pushVec core e.ord d2 (rawOf xs 0) s3 = some (true, s4)) :=
  ⟨cached 0x28 movWord vecSt, movS3, pushed 4 (rawOf movXs 0) movS3, 0, movWord, movXs, (by refine ⟨?_, ?_, ?_, ?_, ?_, ?_, ?_, ?_, ?_, ?_, ?_, ?_, ?_, ?_, ?_, ?_⟩ <;> first | set_option maxRecDepth 20000 in exact push_some _ _ _ _ _ (by decide +kernel) | decide +kernel)⟩

theorem wit_CurdRawRows_6 :
    ∃ (s : State) (s3 : State) (core : Nat) (w : CurdWord) (xs : List (Src × Nat × List (List Byte))),
    (w.rep = 1) ∧
    (CurdReady core 0x29 w s) ∧
    (CurdGuard core w s) ∧
    (bindingOk (s.core core) (curdEntry core 0x29 w s) = true) ∧
    (seeSrcs (curdHeld core 0x29 w s) core (curdEntry core 0x29 w s) = .got xs) ∧
    ((rawOf xs 0).length = 512) ∧
    (readsOk ((curdHeld core 0x29 w s).core core) (curdEntry core 0x29 w s) xs = true) ∧
    (let e := curdEntry core 0x29 w s
let t := curdHeld core 0x29 w s
let s2 := popSrcs core xs t
let l := (compactStep w (rawOf xs 0) (rawOf xs 1)).flatMap id
let out := l ++ List.replicate (512 - l.length) 0
if l = [] then s3 = s2
else hasRoomFor t core (dstOf w.dd).q 1 out = true ∧ hasRoomFor s2 core (dstOf w.dd).q 1 out = true ∧
  windowOk (s2.core core) e (dstOf w.dd).q true 1 = true ∧ pushVec core e.ord (dstOf w.dd).q out s2 = some (true, s3)) :=
  ⟨cached 0x29 compWord vecSt, compS3, 0, compWord, compXs, by decide +kernel⟩

theorem wit_CurdRawRows_7 :
    ∃ (s : State) (core : Nat) (w : CurdWord) (xs : List (Src × Nat × List (List Byte))),
    (w.rep = 1) ∧
    (CurdReady core 0x2B w s) ∧
    (CurdGuard core w s) ∧
    (bindingOk (s.core core) (curdEntry core 0x2B w s) = true) ∧
    (seeSrcs (curdHeld core 0x2B w s) core (curdEntry core 0x2B w s) = .got xs) ∧
    (readsOk ((curdHeld core 0x2B w s).core core) (curdEntry core 0x2B w s) xs = true) :=
  ⟨cached 0x2B scatWord scatSt, 0, scatWord, gotOr (seeSrcs scatSt 0 (curdEntry 0 0x2B scatWord scatSt)), by decide +kernel⟩

theorem wit_CurdRawRows_8 :
    ∃ (s : State) (core : Nat) (e : Sb) (xs : List (Src × Nat × List (List Byte))),
    (e.op = 0x2A) ∧
    (e.acc.length < 512) ∧
    (e.steps < e.w.rep) ∧
    (seeSrcs s core e = .got xs) ∧
    (readsOk (s.core core) e xs = true) :=
  ⟨vecSt, 0, curdEntry 0 0x2A { addWord with sb := 0, imm := 2 } vecSt, gotOr (seeSrcs vecSt 0 (curdEntry 0 0x2A { addWord with sb := 0, imm := 2 } vecSt)), by decide +kernel⟩

theorem wit_CurdMergeAsend_1 :
    ∃ (s : State) (core : Nat) (e : Sb) (va : List (List Byte)) (vb : List (List Byte)),
    (e.op = 0x32) ∧
    (e.acc.length < 512) ∧
    (e.sent < e.rs1) ∧
    (e.steps - e.sent < e.rs2) ∧
    (peekVecs s core (srcOf e.w.sa).q 1 = .got va) ∧
    (peekVecs s core (srcOf e.w.sb).q 1 = .got vb) ∧
    (windowOk (s.core core) e (srcOf e.w.sa).q false 1 = true) ∧
    (windowOk (s.core core) e (srcOf e.w.sb).q false 1 = true) :=
  ⟨vecSt, 0, { curdEntry 0 0x32 { addWord with imm := 3 } vecSt with cap := [9, 9] }, gotOr (peekVecs vecSt 0 1 1), gotOr (peekVecs vecSt 0 2 1), by decide +kernel⟩

theorem wit_CurdMergeAsend_2 :
    ∃ (e : Sb),
    (e.op = 0x40) ∧
    (e.acc ≠ []) ∧
    (e.steps % 8 = 0 ∨ e.steps = e.w.rep) :=
  ⟨{ curdEntry 0 0x40 { addWord with de := 3 } vecSt with acc := [0], steps := 1 }, by decide +kernel⟩

theorem wit_CurdMergeAsend_3 :
    ∃ (s : State) (core : Nat) (e : Sb) (xs : List (Src × Nat × List (List Byte))),
    (e.op = 0x40) ∧
    (e.acc = [] ∨ (e.steps % 8 ≠ 0 ∧ e.steps ≠ e.w.rep)) ∧
    (e.steps < e.w.rep) ∧
    (seeSrcs s core e = .got xs) ∧
    (readsOk (s.core core) e xs = true) :=
  ⟨vecSt, 0, curdEntry 0 0x40 { addWord with dd := 0, de := 3, imm := 1 } vecSt, gotOr (seeSrcs vecSt 0 (curdEntry 0 0x40 { addWord with dd := 0, de := 3, imm := 1 } vecSt)), by decide +kernel⟩

theorem wit_CurdMergeAsend_4 :
    ∃ (e : Sb),
    (e.op = 0x40) ∧
    (e.acc = []) ∧
    (e.w.rep ≤ e.steps) :=
  ⟨{ curdEntry 0 0x40 addWord vecSt with steps := 1 }, by decide +kernel⟩

theorem wit_CurdStartComplete_1 :
    ∃ (s : State) (core : Nat) (e : Sb),
    (coreActive (s.core core) = true) ∧
    ((s.core core).sb.find? (canStart s core) = some e) :=
  ⟨vatSt { runCore with sb := [freshSb 0 0x50 0 word0] }, 0, freshSb 0 0x50 0 word0, by decide +kernel⟩

theorem wit_CurdStartComplete_2 :
    ∃ (s : State) (core : Nat) (w : CurdWord) (n : Nat) (op : Nat) (pc : Nat),
    (coreActive (s.core core) = true) ∧
    ((s.core core).sb = [freshSb n op pc w]) ∧
    (retiredNow s core = []) ∧
    ((s.core core).cmode = true) ∧
    (CurdGuard core w s) ∧
    (bindingOk (s.core core) (freshSb n op pc w) = true) ∧
    (op ≠ 0x32) :=
  ⟨vatSt { runCore with sb := [freshSb 0 0x50 4 word0] }, 0, word0, 0, 0x50, 4, by decide +kernel⟩

theorem wit_CurdStartComplete_3 :
    ∃ (s : State) (core : Nat) (e : Sb),
    (coreActive (s.core core) = true) ∧
    ((s.core core).sb = [e]) ∧
    (e.started = true) ∧
    (storedBefore s core e.ord = false) :=
  ⟨vatSt { runCore with sb := [swaitSb] }, 0, swaitSb, by decide +kernel⟩

theorem wit_CurdStartComplete_5 :
    ∃ (s : State) (x : InPkt) (b : Nat) (s1 : State),
    (inbKind x.pkt = true) ∧
    ((inbEntry s (x.pkt.tag % 4096)).valid = true) ∧
    (x.pkt.tag < 4096) ∧
    (let core := (inbEntry s x.pkt.tag).core
let q := (s.core core).queue (inbEntry s x.pkt.tag).queue
vatPresent s.fuses (vatOf core) = true ∧ isGold s (puVat (vatOf core)) = true ∧ coreActive (s.core core) = true ∧
q.bound = true ∧ q.kind = 3 ∧ q.bufs.length < q.len) ∧
    (isDup s x.pkt = false) ∧
    (earlierIn s x = false) ∧
    (x.pool = none) ∧
    (takeBuf (unitQuad x.port) (x.pkt.vc % 7) x.port s = some (b, s1)) :=
  ⟨inbSt, inP 0 (hopPkt), ((takeBuf 0 0 0 inbSt).elim 0 (fun x => x.1)), ((takeBuf 0 0 0 inbSt).elim inbSt (fun x => x.2)), by decide +kernel⟩

theorem wit_CurdStartComplete_6 :
    ∃ (s : State) (x : InPkt),
    (inbKind x.pkt = true) ∧
    ((inbEntry s (x.pkt.tag % 4096)).valid = true) ∧
    (x.pkt.tag < 4096) ∧
    (let core := (inbEntry s x.pkt.tag).core
let q := (s.core core).queue (inbEntry s x.pkt.tag).queue
vatPresent s.fuses (vatOf core) = true ∧ isGold s (puVat (vatOf core)) = true ∧ coreActive (s.core core) = true ∧
q.bound = true ∧ q.kind = 3) :=
  ⟨inbSt, inP 0 (hopPkt), by decide +kernel⟩

theorem wit_CurdStartComplete_7 :
    ∃ (s : State) (x : InPkt),
    (inbKind x.pkt = false ∨ 4096 ≤ x.pkt.tag ∨ (inbEntry s (x.pkt.tag % 4096)).valid = false) ∧
    (isEnabled s (pgVat (vatOf (inbEntry s (x.pkt.tag % 4096)).core)) = true) ∧
    (isDark s (puVat (vatOf (inbEntry s (x.pkt.tag % 4096)).core)) = false) ∧
    (isDrain s (pgVat (vatOf (inbEntry s (x.pkt.tag % 4096)).core)) = false) :=
  ⟨vatSt runCore, inP 0 (hopPkt), by decide +kernel⟩

theorem wit_LibraryCalls_1 :
    ∃ (s : State) (core : Nat) (p : Nat) (i : Instr),
    ((p, i) ∈ [(1, Instr.callAgather core), (2, .callSort core), (3, .callFilter core), (4, .callTopk core),
  (5, .callDispatch core), (6, .callCombine core), (7, .callLsemerge core), (8, .callPgather core)]) ∧
    (serving s core = true) ∧
    ((serverOf s core).call = none) ∧
    (swaitMet s (serverOf s core).obj (((serverOf s core).next + 1) % 2 ^ 64) = true) ∧
    ((readBlk s core (nextOff (serverOf s core))).prog = p) ∧
    ((callData core s).all (fun y => upsetIn s (upLocal (vatOf core)) y.1 y.2 = false) = true) :=
  ⟨libSt 2, 0, 2, .callSort 0, by decide +kernel⟩

theorem wit_LibraryCalls_2 :
    ∃ (s : State) (core : Nat) (c : Call) (p : Packet) (s1 : State),
    ((serverOf s core).call = some c) ∧
    (serving s core = true) ∧
    (c.waits = false) ∧
    (intakeRefused s core (intakeQs s core (readBlk s core c.off) c.num) = none) ∧
    (popIntake core (intakeQs s core (readBlk s core c.off) c.num) s = some (p, s1)) :=
  ⟨libPktSt, 0, libCall, downPkt 0 1 0, ((popIntake 0 (intakeQs libPktSt 0 (readBlk libPktSt 0 0) 0) libPktSt).elim libPktSt (fun x => x.2)), by decide +kernel⟩

theorem wit_LibraryCalls_3 :
    ∃ (s : State) (core : Nat) (x : Nat) (c : Call),
    ((serverOf s core).call = some c) ∧
    (serving s core = true) ∧
    (c.waits = false) ∧
    (intakeRefused s core (intakeQs s core (readBlk s core c.off) c.num) = some x) :=
  ⟨libLostSt, 0, 2 ^ 24, libCall, by decide +kernel⟩

theorem wit_LibraryCalls_4 :
    ∃ (s : State) (core : Nat) (t : Nat) (c : Call),
    ((serverOf s core).call = some c) ∧
    (serving s core = true) ∧
    (c.deadline = some t) :=
  ⟨{ libPktSt with servers := [(0, { Server.none with active := true, call := some { libCall with deadline := some 0 } })] }, 0, 0, { libCall with deadline := some 0 }, by decide +kernel⟩

theorem wit_LibraryCalls_5 :
    ∃ (s : State) (core : Nat) (c : Call),
    ((serverOf s core).call = some c) ∧
    (serving s core = true) ∧
    (c.waits = true) :=
  ⟨{ libPktSt with servers := [(0, { Server.none with active := true, call := some { libCall with prog := 8 } })] }, 0, { libCall with prog := 8 }, by decide +kernel⟩

theorem wit_LibraryCalls_6 :
    ∃ (s : State) (core : Nat),
    (serving s core = true) ∧
    ((serverOf s core).call = none) ∧
    (swaitMet s (serverOf s core).obj (((serverOf s core).next + 1) % 2 ^ 64) = true) ∧
    ((readBlk s core (nextOff (serverOf s core))).prog = 0) :=
  ⟨libSt 0, 0, by decide +kernel⟩

theorem wit_LibraryResults_1 :
    ∃ (s : State) (core : Nat) (b : CallBlk) (c : Call) (st : Nat) (n : Nat) (len : Nat → Nat),
    (c.poolHeld = []) ∧
    (c.wheyHeld = []) ∧
    (b.doneEn = false) ∧
    (s.same.stores.all (fun x => x.sp != spLocal (vatOf core)) = true) ∧
    (Memory.wf (forAll (fun r s => endRecord core b c r (len r) st n s) (receivers s b) s).mem = true) :=
  ⟨libPktSt, 0, readBlk libPktSt 0 0, libCall, 3, 9, fun _ => 0, by decide +kernel⟩

theorem wit_LibraryResults_4 :
    ∃ (s : State) (b : CallBlk),
    (b.prog = 2) ∧
    (b.outMode = 2) ∧
    (0 < callN s b) :=
  ⟨State.reset, ⟨2, 2 ^ 35, 0, 0, 0, []⟩, by decide +kernel⟩

theorem wit_LibraryResults_6 :
    ∃ (x : LseV) (y : LseV),
    (x.m = .inf true) ∧
    (y.m = .inf true) :=
  ⟨⟨.inf true, .zero false, []⟩, ⟨.inf true, .nan, []⟩, by decide +kernel⟩

theorem wit_RowRoutines_1 :
    ∃ (s : State) (core : Nat),
    ((s.core core).st = .running) :=
  ⟨rowSt, 0, by decide +kernel⟩

theorem wit_RowRoutines_2 :
    ∃ (s : State) (core : Nat) (r : Nat) (x : RowStream) (d : RowData),
    (Canon s) ∧
    ((s.core core).st = .running) ∧
    (x.space = 0) ∧
    (s.same.stores.all (fun y => y.sp != spLocal (vatOf core)) = true) ∧
    (rowLook s (vatOf core) x false = .got d) ∧
    (r < x.rows) :=
  ⟨rowSt, 0, 0, rowX, rowD, by decide +kernel⟩

theorem wit_MemoryCommands_1 :
    ∃ (s : State) (qd : Nat) (pool : Nat) (w : Waiter),
    (poolHead s qd pool = some w) ∧
    (canAllocate s qd pool = true) ∧
    (headTurn s w = true) :=
  ⟨waitSt, 0, 0, ⟨0, 0, repCore 0, .streamOut 0 1, 0⟩, by decide +kernel⟩

theorem wit_MemoryCommands_3 :
    ∃ (s : State) (req : Nat) (q : Nat),
    (pathOpen s req = true) ∧
    (quadPresent s.fuses q = true) ∧
    (s.same.oldReg.find? (fun r => r.1 == pgCellar q + 0x110) = none) :=
  ⟨withReg (pgCellar 3 + 0x108) 9, reqPcie, 3, by decide +kernel⟩

theorem wit_MemoryCommands_4 :
    ∃ (s : State) (req : Nat) (q : Nat) (r : Nat × U64),
    (pathOpen s req = true) ∧
    (quadPresent s.fuses q = true) ∧
    (s.same.oldReg.find? (fun r => r.1 == pgCellar q + 0x110) = some r) :=
  ⟨{ State.reset with same := { SameCycle.empty with oldReg := [(pgCellar 3 + 0x110, 7)] } }, reqPcie, 3, (pgCellar 3 + 0x110, 7), by decide +kernel⟩

theorem wit_MemoryCommands_5 :
    ∃ (s : State) (req : Nat) (q : Nat),
    (pathOpen s req = true) ∧
    (quadPresent s.fuses q = true) ∧
    (s.flag (pgCellar q) celIndAddr_inc = false) :=
  ⟨withReg (pgCellar 3 + 0x108) 0x80000, reqPcie, 3, by decide +kernel⟩

theorem wit_MemoryCommands_6 :
    ∃ (s : State) (req : Nat) (q : Nat) (p : Nat),
    (pathOpen s req = true) ∧
    (quadPresent s.fuses q = true) ∧
    (p < 7) :=
  ⟨State.reset, reqPcie, 0, 6, by decide +kernel⟩

theorem wit_MemoryCommands_7 :
    ∃ (s : State) (req : Nat) (q : Nat),
    (pathOpen s req = true) ∧
    (quadPresent s.fuses q = true) :=
  ⟨State.reset, reqPcie, 0, by decide +kernel⟩

theorem wit_MemoryCommands_8 :
    ∃ (s : State) (q : Nat) (pg : Nat) (line : Nat) (u : HbmUse),
    ((useQuad s u).all (fun z => z == q) = true) ∧
    (pg < quadPages s q) ∧
    (stackOn s (hbmPlace s q pg (line % 64)).1 = true) ∧
    (isGold s (puPc (hbmPlace s q pg (line % 64)).1 (hbmPlace s q pg (line % 64)).2) = true) :=
  ⟨State.reset, 3, 0, 63, .rindLoad 0, by decide +kernel⟩

theorem wit_MemoryCommands_9 :
    ∃ (s : State) (q : Nat),
    (quadPresent s.fuses q = true) :=
  ⟨State.reset, 0, by decide +kernel⟩

theorem wit_MemoryCommands_11 :
    ∃ (f : Nat) (q : HbmQ) (r : HbmQ) (lc : Bool),
    (q.next f = some (lc, r)) :=
  ⟨1, ⟨1, 1, 1, 0⟩, ⟨0, 1, 1, 1⟩, true, by decide +kernel⟩

theorem wit_MemoryCommands_13 :
    ∃ (s : State) (st : Nat) (pc : Nat),
    (pc < 32) ∧
    (stackOn s st = true) ∧
    (isGold s (puPc st pc) = true) ∧
    (s.flag (pgHbm st) hbmCfg_scrubEn = true) ∧
    ((scrubOf s (32 * st + pc)).at_ + usCycles (max 1 (s.fld (pgHbm st) hbmCfg_scrubUs)) ≤ s.cyc) :=
  ⟨{ State.reset with cyc := 2 ^ 50 }, 19, 31, by decide +kernel⟩

theorem wit_MemoryCommands_14 :
    ∃ (s : State) (st : Nat) (pc : Nat) (lc : Bool) (q : HbmQ),
    (st < 20 ∧ pc < 32) ∧
    (isGold s (puPc st pc) = true) ∧
    (stackOn s st = true) ∧
    ((hbmQueue s (puPc st pc)).next (s.fld (pgHbm st) hbmCfg_floor) = some (lc, q)) :=
  ⟨{ State.reset with hbmQ := [(puPc 19 31, ⟨0, 1, 1, 0⟩)] }, 19, 31, true, ⟨0, 0, 1, 1⟩, by decide +kernel⟩

theorem wit_TwinCommands_1 :
    ∃ (s : State) (req : Nat) (v : U64),
    (pathOpen s req = true) ∧
    (twinPresent s.fuses = true) ∧
    (fieldOf v 0 2 ≠ 0) ∧
    (RegsOk s) ∧
    (lostRace s req (pgTwin + 0x100) = false) :=
  ⟨State.reset, reqPcie, 1, by decide +kernel⟩

theorem wit_TwinCommands_2 :
    ∃ (s : State) (req : Nat) (v : U64),
    (pathOpen s req = true) ∧
    (twinPresent s.fuses = true) ∧
    (fieldOf v 0 2 = 0) ∧
    (RegsOk s) ∧
    (lostRace s req (pgTwin + 0x100) = false) :=
  ⟨twinSt 1 1, reqPcie, 0, by decide +kernel⟩

theorem wit_TwinCommands_3 :
    ∃ (s : State) (req : Nat),
    (pathOpen s req = true) ∧
    (twinPresent s.fuses = true) :=
  ⟨twinSt 3 3, reqPcie, by decide +kernel⟩

theorem wit_TwinCommands_4 :
    ∃ (s : State),
    (twinPresent s.fuses = true) ∧
    (twMode s ≠ 0) ∧
    (s.twin.heartAt ≤ s.cyc) :=
  ⟨twinSt 1 1, by decide +kernel⟩

theorem wit_TwinCommands_5 :
    ∃ (s : State) (n : Nat),
    (s.twin.lastRx = some n) ∧
    (twinPresent s.fuses = true) ∧
    (twState s = 1) ∧
    (n + usCycles (s.fld pgTwin twnTime_lostUs) ≤ s.cyc) ∧
    (twMode s = 1 ∨ twMode s = 2) :=
  ⟨{ twinSt 1 1 with cyc := 2 ^ 50, twin := { Twin.reset with lastRx := some 0 } }, 0, by decide +kernel⟩

theorem wit_TwinCommands_6 :
    ∃ (s : State),
    (twinPresent s.fuses = true) ∧
    (twMode s ≠ 0) :=
  ⟨twinSt 1 1, by decide +kernel⟩

theorem wit_TwinCommands_7 :
    ∃ (s : State) (k : Key) (x : Slot) (n : Nat),
    (s.slotOf k = some x) ∧
    (x.twinAt = some n) ∧
    (n + s.fld pgTwin twnTime_digWait * 80 ≤ s.cyc) :=
  ⟨{ grpSt 0 9 with slots := [{ slot0 with twinAt := some 0 }], cyc := 2 ^ 40 }, key0, { slot0 with twinAt := some 0 }, 0, by decide +kernel⟩

theorem wit_TwinEntries_1 :
    ∃ (s : State) (p : Packet),
    (crcGood p = true) ∧
    (twinPresent s.fuses = true) ∧
    (twMode s ≠ 0) ∧
    (s.inbox = []) :=
  ⟨twinSt 3 1, twinPkt 4 1 16, by decide +kernel⟩

theorem wit_TwinEntries_2 :
    ∃ (s : State),
    (twMode s = 3) :=
  ⟨twinSt 3 1, by decide +kernel⟩

theorem wit_TwinEntries_3 :
    ∃ (s : State),
    (twMode s = 1) :=
  ⟨twinSt 1 1, by decide +kernel⟩

theorem wit_TwinEntries_4 :
    ∃ (s : State) (e : TwinEntry),
    (s.twin.held = [e]) ∧
    (e.tseq = s.twin.rxNext) ∧
    ((applyEntry e s).1 = true) ∧
    ((applyEntry e s).2.twin.held = [e]) ∧
    ((applyEntry e s).2.twin.rxNext = s.twin.rxNext) :=
  ⟨{ twinSt 3 1 with twin := { Twin.reset with held := [⟨0, 5, [], 0⟩] } }, ⟨0, 5, [], 0⟩, by decide +kernel⟩

theorem wit_TallyCommands_1 :
    ∃ (s : State) (e : TEntry),
    (s.tally.entries.find? (fun x => x.subj == e.subj && x.cls == e.cls) = some e) ∧
    (e.cls ≠ clsStorm) ∧
    (e.closeAt < s.aon) ∧
    (s.fld pgTally tlyRing_ringPg * 4096 + s.fld pgTally tlyHead_head % 2 ^ tallyLog2 s * 32 + 32 ≤ quadPages s 0 * 4096) :=
  ⟨{ State.reset with cyc := 2 ^ 30, tally := ⟨[⟨5, 3, 0, 0, 0, 1, 0, 0, 1⟩], none⟩ }, ⟨5, 3, 0, 0, 0, 1, 0, 0, 1⟩, by decide +kernel⟩

theorem wit_TallyCommands_2 :
    ∃ (s : State) (req : Nat),
    (pathOpen s req = true) :=
  ⟨State.reset, reqPcie, by decide +kernel⟩

theorem wit_TallyCommands_3 :
    ∃ (s : State) (cls : Nat),
    (s.fld pgTally tlyCfg_en = 1) ∧
    (clsValid cls = true) ∧
    (s.tally.entries = []) ∧
    (s.tally.storm = none) ∧
    (s.same.reports = []) ∧
    (s.same.tally0 = none) ∧
    (RegsOk s) :=
  ⟨State.reset, clsProto, by decide +kernel⟩

theorem wit_TallyCommands_4 :
    ∃ (s : State) (e : TEntry),
    (s.fld pgTally tlyCfg_en = 1) ∧
    (clsValid e.cls = true) ∧
    (s.tally.entries = [e]) ∧
    (s.aon ≤ e.closeAt) ∧
    (s.tally.storm = none) ∧
    (s.same.reports = []) ∧
    (s.same.tally0 = none) ∧
    (RegsOk s) :=
  ⟨{ State.reset with tally := ⟨[⟨5, 8, 1, 1, 0, 1, 0, 0, 1⟩], none⟩ }, ⟨5, 8, 1, 1, 0, 1, 0, 0, 1⟩, by decide +kernel⟩

theorem wit_TallyCommands_5 :
    ∃ (s : State) (r : Report) (q : Report) (e : TEntry),
    (s.tally.storm = none) ∧
    (s.same.reports = []) ∧
    (s.same.tally0 = none) ∧
    (s.tally.entries = [e]) ∧
    (r.subj = e.subj ∧ q.subj = e.subj) ∧
    (r.cls = e.cls ∧ q.cls = e.cls) ∧
    (r.rep < q.rep) :=
  ⟨{ State.reset with tally := ⟨[⟨5, 8, 1, 1, 0, 1, 0, 0, 1⟩], none⟩ }, ⟨3, 5, 8, 0, 0⟩, ⟨4, 5, 8, 0, 0⟩, ⟨5, 8, 1, 1, 0, 1, 0, 0, 1⟩, by decide +kernel⟩

theorem wit_TelemetrySnapshot_1 :
    ∃ (s : State) (req : Nat),
    (pathOpen s req = true) :=
  ⟨State.reset, reqPcie, by decide +kernel⟩

theorem wit_TestsAndLanes_1 :
    ∃ (s0 : State) (s : State) (req : Nat) (kind : Nat) (v : U64) (i : Instr),
    ((kind, i) ∈ [(1, Instr.vatBist req v), (2, .pressBist req v), (3, .laneRecal req v)]) ∧
    (fieldOf v 0 4 = kind) ∧
    (fieldOf v 13 1 = 1) ∧
    (pathOpen s0 req = true) ∧
    (s = woTurn req (pgTally + 0x130) s0) :=
  ⟨State.reset, State.reset, reqPcie, 2, 0x2002, .pressBist reqPcie 0x2002, by decide +kernel⟩

theorem wit_TestsAndLanes_3 :
    ∃ (s : State) (x : TestRun),
    (s.test = some x) ∧
    (x.kind = 1 ∨ x.kind = 2) ∧
    (x.running = true) ∧
    (x.deadline ≤ s.cyc) :=
  ⟨{ State.reset with test := some ⟨1, 3, none, true, 0⟩ }, ⟨1, 3, none, true, 0⟩, by decide +kernel⟩

theorem wit_TestsAndLanes_4 :
    ∃ (s : State) (x : TestRun),
    (s.test = some x) ∧
    (x.running = false) ∧
    (x.deadline ≤ s.cyc) :=
  ⟨{ State.reset with test := some ⟨2, 3, none, false, 0⟩ }, ⟨2, 3, none, false, 0⟩, by decide +kernel⟩

theorem wit_TestsAndLanes_6 :
    ∃ (s : State) (p : Nat),
    (testsPort s p = true) ∧
    (recalBusy s p = false) ∧
    ((s.port p).st = .up) ∧
    ((s.port p).egress = []) ∧
    ((s.port p).copying = []) ∧
    ((s.port p).replay = []) ∧
    ((s.port p).idleSince + 200000 ≤ s.cyc) ∧
    (farIdle s (s.port p) = true) :=
  ⟨{ withPort 0 upPort with cyc := 200000, test := some ⟨3, 0, none, false, 0⟩ }, 0, by decide +kernel⟩

theorem wit_TestsAndLanes_7 :
    ∃ (s : State) (p : Nat),
    ((s.port p).recalTo.isSome = true) ∧
    (testsPort s p = true) :=
  ⟨{ withPort 0 { upPort with recalTo := some 0 } with test := some ⟨3, 0, none, false, 0⟩ }, 0, by decide +kernel⟩

theorem wit_TestsAndLanes_8 :
    ∃ (s : State) (port : Nat) (p : Packet),
    (isLaneReq p = true) ∧
    ((s.port port).formed = true) ∧
    (s.inbox = []) ∧
    (crcGood p = true) :=
  ⟨withPort 0 { upPort with w := 2 }, 0, laneReqPkt 9, by decide +kernel⟩

theorem wit_TestsAndLanes_11 :
    ∃ (s : State) (port : Nat) (q : LaneReq),
    ((s.port port).laneReqs = [q]) ∧
    (q.answered = false) ∧
    (q.deadline ≤ s.cyc) :=
  ⟨withPort 0 { upPort with w := 2, laneReqs := [⟨1, true, false, 0, false⟩] }, 0, ⟨1, true, false, 0, false⟩, by decide +kernel⟩

theorem wit_TestsAndLanes_12 :
    ∃ (s : State) (port : Nat) (l : Nat),
    (isNative (s.port port) = true) ∧
    ((s.port port).st = .up) ∧
    (2 ≤ (s.port port).w) ∧
    (s.flag (pgLane port) prtPark_parkEn = true) ∧
    ((s.port port).egress = []) ∧
    ((s.port port).copying = []) ∧
    ((s.port port).laneReqs = []) ∧
    ((s.port port).idleSince + usCycles (s.fld (pgLane port) prtPark_parkUs) ≤ s.cyc) ∧
    (nextPark (s.port port) = some l) ∧
    ((s.port port).dropped.contains l = false) :=
  ⟨parkSt, 0, 1, by decide +kernel⟩

theorem wit_EventControllers_1 :
    ∃ (s : State) (k : Nat) (i : Nat),
    (normalDue s k = some i) :=
  ⟨evcSt 1, 0, 9, due1⟩

theorem wit_EventControllers_2 :
    ∃ (s : State) (k : Nat) (i : Nat),
    (fastDue s k = some i) :=
  ⟨evcSt 3, 0, 9, due3⟩

theorem wit_EventControllers_4 :
    ∃ (n : Nat),
    (1 ≤ n ∧ n < 32) :=
  ⟨5, by decide +kernel⟩

theorem wit_EventControllers_7 :
    ∃ (s : State) (w : State) (req : Nat) (k : Nat) (src : Nat),
    (pathOpen s req = true) ∧
    (rindPresent s.fuses k = true) ∧
    (isDark s (puRind k) = false) ∧
    (src < 1024) ∧
    (w = plainWrite req (pageLoc .rind k (pgRind k) 0x110) (BitVec.ofNat 64 src) (fun _ => false)
  (woTurn req (pgRind k + 0x110) s)) ∧
    (acted w (.delivered k) = false) :=
  ⟨State.reset, doneWr 15 1023 (State.reset), reqPcie, 15, 1023, by decide +kernel⟩

theorem wit_EventControllers_9 :
    ∃ (s : State) (req : Nat) (k : Nat) (src : Nat),
    (pathOpen s req = true) ∧
    (rindPresent s.fuses k = true) ∧
    (isDark s (puRind k) = false) ∧
    (src < 1024) :=
  ⟨State.reset, reqPcie, 15, 512, by decide +kernel⟩

theorem wit_EventControllers_10 :
    ∃ (s : State) (req : Nat) (k : Nat),
    (pathOpen s req = true) ∧
    (rindPresent s.fuses k = false) :=
  ⟨State.reset, reqPcie, 16, by decide +kernel⟩

theorem wit_EventControllers_11 :
    ∃ (s : State) (req : Nat) (k : Nat),
    (pathOpen s req = true) ∧
    (rindPresent s.fuses k = true) ∧
    (isDark s (puRind k) = false) ∧
    (acted s (.orderFault k) = false) :=
  ⟨State.reset, reqPcie, 0, by decide +kernel⟩

theorem wit_EventControllers_12 :
    ∃ (s : State) (req : Nat) (k : Nat) (v : U64),
    (pathOpen s req = true) ∧
    (rindPresent s.fuses k = true) ∧
    (isDark s (puRind k) = false) ∧
    (s.flag (pgRind k) evcCore_hold = true) ∧
    (fieldOf v 0 1 = 0) :=
  ⟨State.reset, reqPcie, 5, 0x1000, by decide +kernel⟩

theorem wit_EventControllers_13 :
    ∃ (s : State) (req : Nat) (k : Nat) (v : U64),
    (pathOpen s req = true) ∧
    (rindPresent s.fuses k = true) ∧
    (isDark s (puRind k) = false) ∧
    (s.flag (pgRind k) evcCore_hold = false) ∧
    (fieldOf v 0 1 = 1) ∧
    (s.flag pgRennet rntBoot_halted = false) :=
  ⟨runSt, reqPcie, 0, 1, by decide +kernel⟩

theorem wit_EventControllers_14 :
    ∃ (s : State) (k : Nat),
    (rindRuns s k = true) :=
  ⟨{ runSt with rinds := [(0, { Rind.reset with active := true, mfepc := 8 })] }, 0, by decide +kernel⟩

theorem wit_EventControllers_15 :
    ∃ (s : State) (k : Nat),
    (rindRuns s k = true) ∧
    (s.flag (pgRind k) evcCore_wfi = false) :=
  ⟨runSt, 0, by decide +kernel⟩

theorem wit_EventControllers_16 :
    ∃ (s : State) (k : Nat) (i : Nat),
    (rindRuns s k = true) ∧
    (i < 1024) ∧
    (evcEn s k i = true) ∧
    (evcLevel s k i = true) ∧
    (s.flag (pgRind k) evcCore_wfi = true) :=
  ⟨(evcSt 1).setFld (pgRind 0) evcCore_wfi 1, 0, 9, by decide +kernel⟩

theorem wit_EventControllers_17 :
    ∃ (pa : Nat) (q : Nat) (off : Nat),
    (rvPlace pa = .hbm q off) :=
  ⟨2 ^ 38 + 8, 0, 8, by decide +kernel⟩

theorem wit_EventControllers_18 :
    ∃ (s : State),
    (s.rlines = []) :=
  ⟨runSt, by decide +kernel⟩

theorem wit_EventControllers_19 :
    ∃ (s : State) (k : Nat) (q : Nat) (off : Nat) (x : RLine),
    (s.rline (rvLine q off) = x) ∧
    (x.caches = [dcacheOf k, l2Of k]) :=
  ⟨{ runSt with rlines := [(0, ⟨List.replicate 64 7, [16, 32]⟩)] }, 0, 0, 8, ⟨List.replicate 64 7, [16, 32]⟩, by decide +kernel⟩

theorem wit_EventSelection_1 :
    ∃ (s : State) (k : Nat) (i : Nat) (fast : Bool),
    (evcSelect s k fast = some i) :=
  ⟨evcSt 1, 0, 9, false, by decide +kernel⟩

theorem wit_EventSelection_2 :
    ∃ (s : State) (k : Nat) (j : Nat) (fast : Bool),
    (evcSelect s k fast = none) ∧
    (j < 1024) ∧
    (evcFast s k j = fast) :=
  ⟨State.reset, 0, 1023, false, by decide +kernel⟩

theorem wit_EventSelection_3 :
    ∃ (s : State) (k : Nat) (i : Nat),
    (normalDue s k = some i) :=
  ⟨evcSt 1, 0, 9, due1⟩

theorem wit_EventSelection_4 :
    ∃ (s : State) (k : Nat) (i : Nat),
    (fastDue s k = some i) :=
  ⟨evcSt 3, 0, 9, due3⟩

theorem wit_PowerControl_1 :
    ∃ (s : State) (u : Nat),
    (s.flag pgPwr pwrCtrl_autoPark = true) ∧
    (unitHere s u = true) ∧
    ((s.pu u).st = .gold) ∧
    ((s.pu u).until_ = none) ∧
    (held s u = false) ∧
    (unitIdle s u = true) ∧
    (classIdle s u ≠ 0) ∧
    ((s.pu u).idleSince + classIdle s u ≤ s.cyc) :=
  ⟨{ withReg (pgPwr + 0x100) 1 with cyc := 2 ^ 50 }, 63, by decide +kernel⟩

theorem wit_PowerControl_2 :
    ∃ (s : State) (u : Nat) (n : Nat),
    ((s.pu u).until_ = some n) :=
  ⟨{ State.reset with pwr := [(3, ⟨.amber, some 9, 0, none⟩)] }, 3, 9, by decide +kernel⟩

theorem wit_PowerControl_3 :
    ∃ (s : State) (req : Nat) (u : Nat),
    (isDarkUnit u = true) ∧
    (pathOpen s req = true) ∧
    (s.fld pgPwr (darkFd u) ≠ 1) ∧
    (lostRace s req (pgPwr + (darkFd u).off) = false) :=
  ⟨State.reset, reqPcie, 111, by decide +kernel⟩

theorem wit_PowerControl_4 :
    ∃ (s : State) (req : Nat) (u : Nat),
    (isDarkUnit u = true) ∧
    (pathOpen s req = true) ∧
    ((s.pu u).st = .dark) ∧
    ((s.pu u).until_ = none) ∧
    (lostRace s req (pgPwr + (darkFd u).off) = false) :=
  ⟨{ State.reset with pwr := [(3, ⟨.dark, none, 0, none⟩)] }, reqPcie, 3, by decide +kernel⟩

theorem wit_PowerControl_5 :
    ∃ (s : State) (qd : Nat),
    (quadPresent s.fuses qd = true) :=
  ⟨State.reset, 3, by decide +kernel⟩

theorem wit_PowerControl_6 :
    ∃ (s0 : State) (s : State) (req : Nat) (v : U64),
    (pathOpen s0 req = true) ∧
    (fieldOf v 19 1 = 1) ∧
    (s = woTurn req (pgPwr + 0x1C0) s0) :=
  ⟨State.reset, State.reset, reqPcie, 0xE4120, by decide +kernel⟩

theorem wit_PowerControl_7 :
    ∃ (s : State) (rd : Bool) (len : Nat),
    (s.ifc.pmb = some (rd, len)) :=
  ⟨{ State.reset with ifc := { Iface.reset with pmb := some (true, 2) } }, true, 2, by decide +kernel⟩

theorem wit_ResetsAndBoot_6 :
    ∃ (s : State),
    (s.pins.perstN = true) :=
  ⟨State.reset, by decide +kernel⟩

theorem wit_RennetAndInterfaces_1 :
    ∃ (s0 : State) (s : State) (req : Nat) (n : Nat) (v : U64) (i : Instr),
    ((n, i) ∈ [(1, Instr.extend req v), (2, .attest req v), (3, .unlock req v), (4, .svnAdv req v), (5, .revoke req v),
  (6, .recGo req v)]) ∧
    (fieldOf v 0 3 = n) ∧
    (pathOpen s0 req = true) ∧
    (s = woTurn req (pgRennet + 0x118) s0) ∧
    (s.rennet.cmd = none) ∧
    (lowerCame s req (pgRennet + 0x118) = false) :=
  ⟨State.reset, State.reset, reqPcie, 1, 0x21, .extend reqPcie 0x21, by decide +kernel⟩

theorem wit_RennetAndInterfaces_2 :
    ∃ (s : State) (req : Nat) (v : U64),
    (pathOpen s req = true) ∧
    (s.rennet.cmd.isSome = true ∨ lowerCame s req (pgRennet + 0x118) = true) ∧
    (lostRace s req (pgRennet + 0x118) = false) ∧
    (fieldOf v 0 3 = 1) :=
  ⟨{ State.reset with rennet := { Rennet.reset with cmd := some ⟨4, 0, 0, 3, [], []⟩ } }, reqPcie, 1, by decide +kernel⟩

theorem wit_RennetAndInterfaces_3 :
    ∃ (s : State) (c : RCmd),
    (s.rennet.cmd = some c) ∧
    (c.cmd ≠ 6 ∨ s.pins.sysresetN = true) :=
  ⟨{ State.reset with rennet := { Rennet.reset with cmd := some ⟨4, 0, 0, 3, [], []⟩ } }, ⟨4, 0, 0, 3, [], []⟩, by decide +kernel⟩

theorem wit_RennetAndInterfaces_4 :
    ∃ (s : State) (req : Nat),
    (pathOpen s req = true) :=
  ⟨State.reset, reqPcie, by decide +kernel⟩

theorem wit_RennetAndInterfaces_5 :
    ∃ (s : State) (req : Nat) (op : Nat) (v : U64) (i : Instr),
    ((op, i) ∈ [(1, Instr.xspiRead req v), (2, .xspiProgram req v), (3, .xspiErase req v)]) ∧
    (fieldOf v 0 2 = op) ∧
    (pathOpen s req = true) :=
  ⟨State.reset, reqPcie, 3, 3, .xspiErase reqPcie 3, by decide +kernel⟩

theorem wit_RennetAndInterfaces_6 :
    ∃ (s : State) (c : XCmd),
    (s.ifc.xspi = some c) :=
  ⟨{ State.reset with ifc := { Iface.reset with xspi := some ⟨2, 8, 16⟩ } }, ⟨2, 8, 16⟩, by decide +kernel⟩

theorem wit_RennetAndInterfaces_7 :
    ∃ (s : State) (target : Nat),
    (pathOpen s reqI3c = true) ∧
    (target = i3cAddress s) :=
  ⟨State.reset, i3cAddress State.reset, by decide +kernel⟩

theorem wit_RennetAndInterfaces_8 :
    ∃ (da : Nat),
    (da < 128) :=
  ⟨127, by decide +kernel⟩

theorem wit_RennetAndInterfaces_9 :
    ∃ (s : State),
    (pathOpen s reqJtag = true) :=
  ⟨State.reset.setFld pgRennet rntStat_levels 2, by decide +kernel⟩

theorem wit_CurdRoundTrip_1 : ∃ (core op : Nat) (w : CurdWord) (i : Instr), curdOk w = true ∧
    curdInstr core op w = some i ∧ w.imm = 2 ^ 64 - 1 ∧ w.de = 2047 :=
  ⟨255, 0x6A, { word0 with imm := 2 ^ 64 - 1, de := 2047 }, _, by decide +kernel, rfl, rfl, rfl⟩
theorem wit_CurdRoundTrip_2 : ∃ (core x : Nat) (i : Instr), x < 2 ^ 256 ∧ decodeCurd core x = some i :=
  ⟨3, 2 ^ 256 - 2 ^ 8 + 0x10, _, by decide +kernel, rfl⟩
theorem wit_PacketRoundTrip_1 : ∃ p : Packet, packetOk p = true ∧ p.ext.isSome ∧ p.payload ≠ [] := 
  ⟨rawPacket 3 ptCwrite vcCup 0 0 0 (some (statusExt key0 0 0 0 0 0)) [1, 2, 3], by decide +kernel⟩
theorem wit_StepKeepsCanon_1 : ∃ s t : State, Canon s ∧ s.regs ≠ [] ∧ step s = .next t :=
  ⟨withReg (pgLane 0 + 0x110) 5, tick (withReg (pgLane 0 + 0x110) 5), by decide +kernel, by decide +kernel, rfl⟩

/-! ### Ill-formed terms, one for each check of WellFormed -/

def okExt : ExtHdr := statusExt key0 0 0 0 0 0
def okPkt : Packet := rawPacket 3 ptCwrite vcCup 0 0 0 (some okExt) [1]
def okLctl : Lctl := ⟨1, 0, 1, 0, 0, 0, List.replicate 7 0, List.replicate 24 0, 0⟩
def okEth : EthFrame := ⟨1, 2, some (3, 4), 0x88B5, [], true⟩

theorem test_reqOk : reqOk 1687 = true ∧ reqOk 1688 = false := by decide
theorem test_pageOk : pageOk 0x04008000 = true ∧ pageOk 0x04008100 = false ∧ pageOk 0x0F00A000 = false := by decide
theorem test_unitOk : unitOk 83 = true ∧ unitOk 84 = false ∧ unitOk 1536 = false := by decide
theorem test_keyOk : keyOk key0 = true ∧ keyOk { key0 with window := 1024 } = false := by decide
theorem test_extOk : extOk okExt = true ∧ extOk { okExt with hiIncl := 2 ^ 17 } = false := by decide
theorem test_packetOk : packetOk okPkt = true ∧ packetOk { okPkt with plen := 2 } = false ∧
    packetOk { okPkt with ext := some { okExt with rsvA := 8 } } = false := by decide
theorem test_lctlOk : lctlOk okLctl = true ∧ lctlOk { okLctl with body := [] } = false ∧
    lctlOk { okLctl with credit := List.replicate 7 (2 ^ 32) } = false := by decide
theorem test_ethOk : ethOk okEth = true ∧ ethOk { okEth with tag := some (8, 0) } = false := by decide
theorem test_curdOk : curdOk addWord = true ∧ curdOk { addWord with dd := 2048 } = false := by decide
theorem test_rowsOk : rowsOk ⟨2, 1, 0, 0, 0, 0, 0, 0⟩ = true ∧ rowsOk ⟨3, 1, 0, 0, 0, 0, 0, 0⟩ = false ∧
    rowsOk ⟨2, 1, 3, 0, 0, 0, 0, 0⟩ = false ∧ rowsOk ⟨2, 1, 0, 4, 0, 0, 0, 0⟩ = false := by decide
theorem test_operands : (Instr.cAdd 255 addWord).wf = true ∧ (Instr.cAdd 256 addWord).wf = false ∧
    (Instr.fecLock 512).wf = false ∧ (Instr.creditGrant 0 7).wf = false ∧ (Instr.groupEnable 0 4096 0).wf = false := by
  decide

/-! ### Worked examples of the spec -/

/-- 07_curd_instructions.md, "Worked example: EXP2 of −1.5": FP16 and FP32. -/
theorem test_exp2 : toCode 1 (sfuApply sfuExp2 1 (ofCode 1 0xBE00)).1 = 0x35A8 ∧
    toCode 0 (sfuApply sfuExp2 0 (ofCode 0 0xBFC00000)).1 = 0x3EB504F3 := by decide +kernel

/-- 07_curd_instructions.md, "Worked example: encoding a word". -/
def exampleWord : CurdWord :=
  { word0 with rep := 512, afmt := 2, sa := 3 + 2 * 2 ^ 7, sb := 5 + 2 * 2 ^ 7, dd := 8 + 5 * 2 ^ 6 + 2 ^ 10, rd := 5 }
theorem test_word : decodeCurd 3 (0x00020A40E0200010 + 0x0000000000A002A4 * 2 ^ 64) = some (.cAdd 3 exampleWord) := by decide
theorem test_word_encoded : encodeCurd (.cAdd 3 exampleWord) = some (0x00020A40E0200010 + 0x0000000000A002A4 * 2 ^ 64) := by decide

/-- Opcodes of R241, one word of each group. -/
theorem test_opcodes : decodeCurd 0 0x1A = some (.cRmax 0 word0) ∧ decodeCurd 0 0x2B = some (.cScat 0 word0) ∧
    decodeCurd 0 0x32 = some (.cMerge 0 word0) ∧ decodeCurd 0 0x46 = some (.cEnd 0 word0) ∧
    decodeCurd 0 0x58 = some (.cSsra 0 word0) ∧ decodeCurd 0 0x6A = some (.cScyc 0 word0) ∧ decodeCurd 0 0x1F = none := by decide

/-- 04_canonical_reduction.md, "Worked example: eleven ranks, three switches": the whole tree, and its nodes of Topology A. -/
def ranks11 : List Nat := [0x6800, 0x3C00, 0x3C00, 0x3C00, 0x3800, 0x3800, 0xC200, 0x3400, 0x3E00, 0x3A00, 0x4200]
theorem test_tree : canonFold (addCodes 1) 20 ranks11 = some 0x6803 := by decide +kernel
theorem test_tree_nodes : canonFold (addCodes 1) 20 (ranks11.take 4) = some 0x6801 ∧
    canonFold (addCodes 1) 20 ((ranks11.drop 4).take 2) = some 0x3C00 ∧
    canonFold (addCodes 1) 20 ((ranks11.drop 6).take 2) = some 0xC180 ∧
    canonFold (addCodes 1) 20 (ranks11.drop 8) = some 0x4540 := by decide +kernel

/-- 03_number_formats.md, R96's example: XG-T2 byte 0xB4 with scale 0x7E decodes as +0, +0.5, −0.5 and +0. -/
theorem test_xgT2 : (decodeElems 7 4 (0xB4 :: List.replicate 7 0 ++ [0x7E])).map (toCode 0) =
    [0, 0x3F000000, 0xBF000000, 0] ∧ (censusOf 0 255 7 4 (0xB4 :: List.replicate 7 0 ++ [0x7E])).rsv = 1 := by decide +kernel

/-- 03_number_formats.md, "Worked example: an escape decision": codes, scale byte, and the decision for shifts 2 and 3. -/
def escGroup : List (Val × Option Nat) :=
  ([0x4D00, 0x4200, 0xC700, 0x3A00, 0x4A80] ++ List.replicate 27 0).map (fun c => (ofCode 1 c, none))
theorem test_escape : (encodeGroup 5 escGroup).codes.take 5 = [6, 2, 0xC, 0, 5] ∧ (encodeGroup 5 escGroup).scale = 0x81 ∧
    (encodeElems 5 escGroup).1.take 3 = [0x26, 0x0C, 0x05] ∧ isEscape 5 2 escGroup = false ∧ isEscape 5 3 escGroup = true := by
  decide +kernel

/-- 08_stream_programs.md, "Worked example" of LSEMERGE. -/
def lseNode : LseV := lseMerge 0 ⟨ofCode 0 0x40000000, ofCode 0 0x3F800000, [ofCode 0 0x3F800000]⟩
  ⟨ofCode 0 0x40600000, ofCode 0 0x40000000, [ofCode 0 0x40800000]⟩
theorem test_lse : toCode 0 lseNode.m = 0x40600000 ∧ toCode 0 lseNode.l = 0x4016A09E ∧
    lseNode.a.map (toCode 0) = [0x408B504F] := by decide +kernel
theorem test_lse_absent : let r := lseMerge 0 lseNode ⟨.inf true, .zero false, [.zero false]⟩
    toCode 0 r.l = 0x4016A09E ∧ r.a.map (toCode 0) = [0x408B504F] := by decide +kernel

/-- 15_registers.md, "Worked example: addresses in the rail cluster". -/
theorem test_addresses : grpAt 679 + 0x18 = 0x0F04A9D8 ∧ syncAt 40000 + 0x10 = 0x0F538810 ∧ pgPress 8 + 0x100 = 0x04080100 ∧
    pgLane 136 + 0x240 = 0x04008240 ∧ routeAt 0x48D1 = 0x0F224688 := by decide

/-- 15_registers.md, R459: the capability registers of an XGL-9216. -/
theorem test_cap9216 : let f := { Fuses.reset with grade := .xgl9216 }
    capReg f 0x800 = 0xE400 ∧ capReg f 0x808 = 0xFFFFFFFFFFFFFFFF ∧ capReg f 0x828 = 0 ∧
    capReg f 0x848 = 0x0000FFFF0000FFFF ∧ capReg f 0x850 = 0x0FF003FF := by decide +kernel
/-- And of an XGL-9228. -/
theorem test_cap9228 : let f := { Fuses.reset with grade := .xgl9228 }
    capReg f 0x800 = 0x7E40C ∧ capReg f 0x810 = 0xFFFFFFFF ∧ capReg f 0x848 = 0x3F3F3F3FFFFFFFFF ∧
    capReg f 0x850 = 0xFFFF7BDEF := by decide +kernel

/-- R55: a good packet has its e2e_crc, and one with a payload byte added fails. -/
theorem test_crc : crcGood ({ hopPkt with payload := [1], plen := 1 }) = false ∧ crcGood hopPkt = true := by decide +kernel

end Sys2Proof.Tests
end

/-!
PROOFS. 00_scope.md: the registers of an absent unit (R6), the units absent in an XGL-9216 (R4) and the accesses that are
not naturally aligned 64-bit ones (R12). R6 and R12 go by where an access lands: `presentLoc` answers no location for a
page of an absent unit, and every register command asks it first.
-/
section
namespace Sys2Proof.Machine

/-! ### The meaning of each command used here -/

section Arms
variable (req addr page size : Nat) (isWrite : Bool) (v : U64) (s : State)

theorem exec_registerWrite : exec (.registerWrite req addr v) s = execRegisterWrite req addr v s :=
  rfl
theorem exec_unalignedAccess :
    exec (.unalignedAccess req addr size isWrite) s = execUnalignedAccess req addr size isWrite s :=
  rfl
theorem exec_counterClear : exec (.counterClear req addr v) s = execCounterClear req addr v s :=
  rfl
theorem exec_eventTest : exec (.eventTest req page v) s = execEventTest req page v s :=
  rfl
theorem exec_errCntClear : exec (.errCntClear req page) s = execErrCntClear req page s :=
  rfl
theorem exec_unitEnable : exec (.unitEnable req page) s = execUnitEnable req page s :=
  rfl
theorem exec_drainUnit : exec (.drainUnit req page) s = execDrainUnit req page s :=
  rfl
theorem exec_drainCancel : exec (.drainCancel req page) s = execDrainCancel req page s :=
  rfl
theorem exec_forcedDisable : exec (.forcedDisable req page) s = execForcedDisable req page s :=
  rfl
theorem exec_blockReset : exec (.blockReset req page) s = execBlockReset req page s :=
  rfl

end Arms

/-! ### The access path -/

/-- An effect that would change nothing changes nothing over any path, open or closed. -/
theorem onPath_eq_self (req : Nat) (f : State → State) (s : State) (h : f s = s) : onPath req f s = s := by
  unfold onPath
  split
  · exact h
  · rfl

theorem onPath_of_open (req : Nat) (f : State → State) (s : State) (h : pathOpen s req = true) :
    onPath req f s = f s := by
  rw [onPath, if_pos h]

/-! ### The page of an absent unit (R6) -/

/-- The page of an absent unit holds no location. -/
theorem presentLoc_of_absent {s : State} {addr : Nat} {x : Loc} (hx : locate addr = some x)
    (ha : present s.fuses x.kind x.inst = false) : presentLoc s addr = none := by
  simp [presentLoc, hx, ha]

section Absent
variable {s : State} {addr : Nat}

theorem busRead_of_absent (h : presentLoc s addr = none) : busRead addr s = (0, s) := by
  simp [busRead, h]

theorem busWrite_of_absent (req : Nat) (v : U64) (h : presentLoc s addr = none) : busWrite req addr v s = s := by
  simp [busWrite, h]

theorem narrowAccess_of_absent (h : presentLoc s addr = none) : narrowAccess addr s = s := by
  simp [narrowAccess, h]

theorem execRegisterWrite_of_absent (req : Nat) (v : U64) (h : presentLoc s addr = none) :
    execRegisterWrite req addr v s = .next s :=
  congrArg Host.Outcome.next (onPath_eq_self _ _ _ (busWrite_of_absent req v h))

/-- No register lies there, so there is no counter to clear. -/
theorem clearsCounter_of_absent (v : U64) (h : presentLoc s addr = none) : clearsCounter s addr v = false := by
  simp [clearsCounter, h]

theorem execCounterClear_of_absent (req : Nat) (v : U64) (h : presentLoc s addr = none) :
    execCounterClear req addr v s = .next s := by
  simp [execCounterClear, clearsCounter_of_absent v h]

/-- The write is ignored whatever its alignment; an unaligned one is not counted either. -/
theorem execUnalignedAccess_write_of_absent (req size : Nat) (h : presentLoc s addr = none) :
    execUnalignedAccess req addr size true s = .next s := by
  refine congrArg Host.Outcome.next (onPath_eq_self _ _ _ ?_)
  split
  · rfl
  · exact narrowAccess_of_absent h

end Absent

section AbsentPage
variable {s : State} {page : Nat}

theorem execEventTest_of_absent (req : Nat) (v : U64) (h : presentLoc s (page + 0x30) = none) :
    execEventTest req page v s = .next s :=
  congrArg Host.Outcome.next (onPath_eq_self _ _ _ (by simp [h]))

theorem execErrCntClear_of_absent (req : Nat) (h : presentLoc s (page + 0x38) = none) :
    execErrCntClear req page s = .next s :=
  congrArg Host.Outcome.next (onPath_eq_self _ _ _ (by simp [h]))

/-- Every BLK_CTRL command, whatever bits it would write. -/
theorem ctrlRow_of_absent (req : Nat) (f : U64 → U64) (h : presentLoc s (page + 0x10) = none) :
    ctrlRow req page f s = .next s :=
  congrArg Host.Outcome.next (onPath_eq_self _ _ _ (by simp [h]))

end AbsentPage

/-- Settles O5: the page has no present location, and each command changes nothing where there is none. -/
theorem absentPagesReadZero : Obligations.AbsentPagesReadZero := by
  intro s addr x hx ha
  have hnone : presentLoc s addr = none := presentLoc_of_absent hx ha
  refine ⟨busRead_of_absent hnone, fun req v => ?_, fun req size => ?_, fun req v => ?_, ?_, ?_, ?_⟩
  · rw [exec_registerWrite, execRegisterWrite_of_absent req v hnone]
  · rw [exec_unalignedAccess, execUnalignedAccess_write_of_absent req size hnone]
  · rw [exec_counterClear, execCounterClear_of_absent req v hnone]
  · rintro req page v rfl
    rw [exec_eventTest, execEventTest_of_absent req v hnone]
  · rintro req page rfl
    rw [exec_errCntClear, execErrCntClear_of_absent req hnone]
  · rintro req page rfl
    have hctrl : ∀ f, ctrlRow req page f s = .next s := fun f => ctrlRow_of_absent req f hnone
    exact ⟨(exec_unitEnable req page s).trans (hctrl _), (exec_drainUnit req page s).trans (hctrl _),
      (exec_drainCancel req page s).trans (hctrl _), (exec_forcedDisable req page s).trans (hctrl _),
      (exec_blockReset req page s).trans (hctrl _)⟩

/-! ### Grade XGL-9216 (R4) -/

section Grade
variable {f : Fuses}

theorem lanePresent_xgl9216 (hf : f.grade = .xgl9216) (l : Nat) : lanePresent f l = true ↔ l < 256 := by
  simp only [lanePresent, hf, Bool.and_eq_true, decide_eq_true_eq]
  omega

theorem quadPresent_xgl9216 (hf : f.grade = .xgl9216) (q : Nat) : quadPresent f q = true ↔ q < 2 := by
  simp [quadPresent, hf]

theorem twinPresent_xgl9216 (hf : f.grade = .xgl9216) : twinPresent f = false := by
  simp [twinPresent, hf]

end Grade

/-- Settles O6: the grade has lanes 0 to 255 and quadrants 0 and 1, and no Twin interface. -/
theorem gradeXgl9216 : Obligations.GradeXgl9216 := by
  intro f hf
  have hquad : ∀ q, 2 ≤ q → quadPresent f q = false := fun q hq =>
    Bool.eq_false_iff.mpr (mt (quadPresent_xgl9216 hf q).mp (by omega))
  refine ⟨fun l hl _ => ?_, hquad 2 le_rfl, hquad 3 (by omega), twinPresent_xgl9216 hf⟩
  exact Bool.eq_false_iff.mpr (mt (lanePresent_xgl9216 hf l).mp (by omega))

/-! ### Narrow and unaligned accesses (R12) -/

/-- The access is counted at the location it addresses, with cause 1. -/
theorem narrowAccess_of_present {s : State} {addr : Nat} {x : Loc} (h : presentLoc s addr = some x) :
    narrowAccess addr s = errCount x.owner x.lastOff 1 s := by
  simp [narrowAccess, h, errAt]

/-- Over an open path the count is all that a write does, and a read answers 0 besides. -/
theorem execUnalignedAccess_of_open {s : State} {req addr size : Nat} (isWrite : Bool)
    (hp : pathOpen s req = true) (hn : ¬(size = 8 ∧ addr % 8 = 0)) :
    execUnalignedAccess req addr size isWrite s =
      .next (if isWrite then narrowAccess addr s else (narrowAccess addr s).emit (.readData req addr 0)) := by
  rw [execUnalignedAccess, onPath_of_open _ _ _ hp, if_neg hn]

/-- Settles O9: over an open path the access is counted at its page, and no more happens to a write. -/
theorem unalignedAccess : Obligations.UnalignedAccess := by
  intro s req addr size x hp hx hn
  have hcount : narrowAccess addr s = errCount x.owner x.lastOff 1 s := narrowAccess_of_present hx
  constructor
  · rw [exec_unalignedAccess, execUnalignedAccess_of_open true hp hn, if_pos rfl, hcount]
  · rw [exec_unalignedAccess, execUnalignedAccess_of_open false hp hn, if_neg Bool.false_ne_true, hcount]

end Sys2Proof.Machine
end

/-!
PROOFS. 04_canonical_reduction.md: an input whose bit is set already in its slot's input bitmap (R128). Each stage that a
delivered CWRITE or CNODE passes has one lemma for the way through it: the inbox, the checks of R60 and R150, the epoch and
the scope entry (R155, R345), the retained results (R170), and the slot. Where the input belongs to the next cycle (R130),
the slots are still as they were, since `nextCycle` touches none.
-/
section
namespace Sys2Proof.Machine

/-! ### The meaning of the commands, and the delivered packet -/

section Inbox
variable {s : State} {port : Nat} {p : Packet} {i : InPkt}

/-- CWRITE and CNODE differ in the kind of input alone. -/
theorem exec_input (cn : Bool) (port : Nat) (p : Packet) (s : State) :
    (if cn then exec (.cnode port p) s else exec (.cwrite port p) s) =
      .next (contribute cn (takeInbox port p s).1 (takeInbox port p s).2) := by
  cases cn <;> rfl

theorem takeInbox_of_find (h : s.inbox.find? (fun z => z.port == port && z.pkt == p) = some i) :
    takeInbox port p s = (i, { s with inbox := s.inbox.erase i }) := by
  simp [takeInbox, h]

/-- What is found in the inbox is the packet that the command names. -/
theorem pkt_of_find_inbox (h : s.inbox.find? (fun z => z.port == port && z.pkt == p) = some i) : i.pkt = p := by
  have hmatch : i.port = port ∧ i.pkt = p := by simpa using List.find?_some h
  exact hmatch.2

end Inbox

/-! ### The slots when a command belongs to the next cycle -/

section NextCycle
variable (s : State)

/-- An update that leaves the slots alone does so for every element in turn. -/
theorem forAll_slots {α : Type} {f : α → State → State} (hf : ∀ x s, (f x s).slots = s.slots) (l : List α) (s : State) :
    (forAll f l s).slots = s.slots := by
  induction l generalizing s with
  | nil => rfl
  | cons x xs ih => exact (ih (f x s)).trans (hf x s)

@[simp] theorem leavePool_slots (x : Nat) : (leavePool x s).slots = s.slots := by
  unfold leavePool
  dsimp only
  split <;> simp

@[simp] theorem teleAdd_slots (port off n : Nat) : (teleAdd port off n s).slots = s.slots := by
  unfold teleAdd
  split <;> simp

@[simp] theorem stallPort_slots (p : Nat) (x : Port) : (stallPort p x s).slots = s.slots := by
  unfold stallPort
  split
  · refine forAll_slots (fun vc s => ?_) _ s
    split <;> simp
  · rfl

@[simp] theorem addLines_slots (st pc n : Nat) (lc : Bool) : (addLines st pc n lc s).slots = s.slots := by
  simp [addLines, touchUnit, State.addWrap]

@[simp] theorem serveBurst_slots (u : Nat) : (serveBurst u s).slots = s.slots := by
  unfold serveBurst
  dsimp only
  split
  · split <;> simp
  · rfl

@[simp] theorem serveHbm_slots : (serveHbm s).slots = s.slots := by
  unfold serveHbm
  split
  · exact forAll_slots (fun (x : Nat × HbmQ) s => serveBurst_slots s x.1) _ s
  · rfl

/-- What passes from one cycle to the next touches no slot. -/
@[simp] theorem nextCycle_slots : (nextCycle s).slots = s.slots := by
  simp [nextCycle, forAll_slots]

@[simp] theorem orNext_slots (late : Bool) : (orNext late s).slots = s.slots := by
  cases late
  · rfl
  · exact nextCycle_slots s

/-- An input is judged with every slot as it was when its command came. -/
@[simp] theorem inputSeen_slots (i : InPkt) (k : Key) : (inputSeen s i k).slots = s.slots :=
  orNext_slots { s with inbox := s.inbox.erase i } _

end NextCycle

/-! ### The way through the checks -/

section Checks
variable {s s1 : State} {cn : Bool} {p : Packet} {e : ExtHdr} {i : InPkt} {y : ScopeE × Nat}

theorem headCheck_of_groupCheck (h : groupCheck s cn p e = true) : headCheck s cn p e = true :=
  (Bool.and_eq_true_iff.mp h).1

/-- An input that passes every check goes on to the epoch check, in the state in which it is judged. -/
theorem contribute_of_passes (hext : i.pkt.ext = some e) (h : InputPasses (inputSeen s i (extKey e)) cn i.pkt e y) :
    contribute cn i { s with inbox := s.inbox.erase i } = takeChecked cn i i.pkt e (inputSeen s i (extKey e)) := by
  obtain ⟨hcrc, hask, hgroup, -⟩ := h
  have hseen : orNext (actAbove { s with inbox := s.inbox.erase i } (.input (extKey e)) i.port ||
      acted { s with inbox := s.inbox.erase i } (.freed (extKey e))) { s with inbox := s.inbox.erase i } =
      inputSeen s i (extKey e) := rfl
  simp [contribute, hext, hseen, hcrc, headCheck_of_groupCheck hgroup, hask, hgroup]

/-- An input whose key has a slot and that is dealt with there is consumed, and noted for the order of the cycle's inputs. -/
theorem takeChecked_of_dealt {x : Slot} (hp : InputPasses s cn p e y) (hslot : s.slotOf (extKey e) = some x)
    (htake : takeInput (some i) cn p e y.2 s = (true, s1)) :
    takeChecked cn i p e s = consumed i (noteAct (.input (extKey e)) i.port s1) := by
  obtain ⟨-, -, -, hepoch, hentry, -, hsound⟩ := hp
  simp [takeChecked, hepoch, hentry, hsound, htake, hslot]

end Checks

/-! ### The retained results and the slot -/

section Place
variable {s : State} {e : ExtHdr} {x : Slot} {i : Nat} (src : Option InPkt) (cn : Bool) (p : Packet)

/-- A key that is not retained leaves its input to the slots. -/
theorem takeInput_of_not_retained (h : findRetained s (extKey e) = none) :
    takeInput src cn p e i s = placeOrOpen src cn p e i s := by
  simp [takeInput, retainedAt, h]

/-- The bit is set already: the slot's array counts the input, and that is all (R128). -/
theorem placeOrOpen_of_accepted (hslot : s.slotOf (extKey e) = some x) (hmask : x.maskWait = none)
    (hacc : x.accepted.contains i = true) :
    placeOrOpen src cn p e i s = (true, s.addFld (pgPress x.array) prsDupCnt_dup 1) := by
  simp only [placeOrOpen, hslot, hmask, hacc, Option.isSome_none, Bool.false_eq_true, if_false, true_or, if_true]

end Place

/-- Settles O23: the input passes every check, meets the bit of its index set, and is counted and consumed. -/
theorem duplicateInput : Obligations.DuplicateInput := by
  intro s cn port p i e y x hfind hext hpass hslot hmask hacc
  obtain rfl : i.pkt = p := pkt_of_find_inbox hfind
  have ⟨_, _, _, _, _, hfree, _⟩ := hpass
  have hplace := (takeInput_of_not_retained (some i) cn i.pkt hfree).trans
    (placeOrOpen_of_accepted (some i) cn i.pkt hslot hmask hacc)
  refine ⟨?_, (addFld_slots ..).trans (inputSeen_slots ..)⟩
  rw [exec_input, takeInbox_of_find hfind, contribute_of_passes hext hpass, takeChecked_of_dealt hpass hslot hplace]

end Sys2Proof.Machine
end

/-!
PROOFS. 05_collective_operation.md: a CRESULT or a STATUS with ext 1 whose source is not the parent (R152). Both commands
take the packet from the inbox and check its e2e_crc; a packet that carries no place of this switch's own goes on as one
from the parent, and there its source is the first thing asked.
-/
section
namespace Sys2Proof.Machine

/-! ### The way of a packet that comes down to this switch -/

section Down
variable {s : State} {port : Nat} {p : Packet} {i : InPkt} {e : ExtHdr}

/-- What a CRESULT for this switch as a child comes to. -/
theorem exec_cresult_of_delivered (hfind : s.inbox.find? (fun z => z.port == port && z.pkt == p) = some i)
    (horg : i.org = .none) (hext : p.ext = some e) (hcrc : crcGood p = true) :
    exec (.cresult port p) s = .next (consumed i (resultFromParent p e { s with inbox := s.inbox.erase i })) := by
  have harm : exec (.cresult port p) s = execCresult port p s := rfl
  simp [harm, execCresult, takeInbox_of_find hfind, hext, hcrc, horg]

/-- What a STATUS with ext 1 for this switch as a child comes to. -/
theorem exec_failureStatus_of_delivered (hfind : s.inbox.find? (fun z => z.port == port && z.pkt == p) = some i)
    (horg : i.org = .none) (hext : p.ext = some e) (hcrc : crcGood p = true) :
    exec (.failureStatus port p) s = .next (consumed i (failFromParent p e { s with inbox := s.inbox.erase i })) := by
  have harm : exec (.failureStatus port p) s = execFailureStatus port p s := rfl
  simp [harm, execFailureStatus, takeInbox_of_find hfind, hext, hcrc, horg]

end Down

/-! ### The source of the packet (R152) -/

section Source
variable {s : State} {p : Packet} {e : ExtHdr}

theorem resultFromParent_of_src_ne (hsrc : p.src ≠ grpF s e.group grpLink_parentFid) :
    resultFromParent p e s = discardChk s := by
  rw [resultFromParent, if_pos hsrc]

theorem failFromParent_of_src_ne (hsrc : p.src ≠ grpF s e.group grpLink_parentFid) :
    failFromParent p e s = discardChk s := by
  rw [failFromParent, if_pos hsrc]

end Source

/-- Settles O27: either packet is taken from the inbox, which holds no register, and meets a parent_fid that is not its src. -/
theorem parentOnly : Obligations.ParentOnly := by
  intro s port p i e hfind horg hext hcrc hsrc
  have hsrc' : p.src ≠ grpF { s with inbox := s.inbox.erase i } e.group grpLink_parentFid := hsrc
  constructor
  · rw [exec_cresult_of_delivered hfind horg hext hcrc, resultFromParent_of_src_ne hsrc', discardChk]
  · rw [exec_failureStatus_of_delivered hfind horg hext hcrc, failFromParent_of_src_ne hsrc', discardChk]

end Sys2Proof.Machine
end

/-!
PROOFS. 12_twin_faults_determinism.md: TALLY_SNAP (R385). `teleSnap` copies a port's telemetry as it stood before the copy;
a write of a register leaves every live value, so copying the value of the moment, register after register, is the same.
-/
section
namespace Sys2Proof.Machine

/-- An invariant that `g` keeps, and under which `f` and `g` do the same, carries over a whole list. -/
theorem forAll_congr_of_invariant {α : Type} {f g : α → State → State} (P : State → Prop)
    (hkeep : ∀ x s, P s → P (g x s)) (heq : ∀ x s, P s → f x s = g x s) (l : List α) (s : State) (h : P s) :
    forAll f l s = forAll g l s := by
  induction l generalizing s with
  | nil => rfl
  | cons x l ih => rw [forAll, forAll, heq x s h, ih _ (hkeep x s h)]

/-- The live telemetry stands in the ports and in the telemetry table, not in a register. -/
theorem liveTele_wr (s : State) (a : Nat) (v : U64) : liveTele (s.wr a v) = liveTele s :=
  rfl

/-- The copy of a port, each register with the live value of the moment. -/
theorem teleSnap_eq_forAll_live (p : Nat) (s : State) :
    teleSnap p s = forAll (fun o t => t.wr (pgLane p + o) (BitVec.ofNat 64 (liveTele t p o))) teleOffsets s := by
  rw [teleSnap]
  refine forAll_congr_of_invariant (fun t => liveTele t = liveTele s) (fun o t ht => ?_) (fun o t ht => ?_) _ _ rfl
  · exact (liveTele_wr ..).trans ht
  · rw [ht]

/-- A write of 1 to TLY_SNAP: the write itself, the copy of every port, the time. -/
theorem tallySnapWrite_one (req : Nat) (s : State) :
    tallySnapWrite req 1 s =
      let w := plainWrite req (locTally 0x138) 1 (fun _ => false) s
      (forAll teleSnap (telemetryLanes w) w).setFld pgTally tlySnapTime_time w.aon := by
  have hsnap : fieldOf 1 0 1 = 1 := by decide
  rw [tallySnapWrite, if_pos hsnap]

theorem exec_tallySnap_of_open {s : State} {req : Nat} (h : pathOpen s req = true) :
    exec (.tallySnap req) s = .next (tallySnapWrite req 1 s) :=
  congrArg Host.Outcome.next (onPath_of_open req _ s h)

/-- Settles O51: over an open path it is the write of 1, whose copies are those of `teleSnap_eq_forAll_live`. -/
theorem telemetrySnapshot : Obligations.TelemetrySnapshot := by
  intro s req hopen w lanes
  have hcopy : teleSnap = fun p t =>
      forAll (fun o t => t.wr (pgLane p + o) (BitVec.ofNat 64 (liveTele t p o))) teleOffsets t :=
    funext₂ teleSnap_eq_forAll_live
  have hlanes : telemetryLanes w = lanes := rfl
  rw [exec_tallySnap_of_open hopen, tallySnapWrite_one, ← hcopy, ← hlanes]
  rfl

end Sys2Proof.Machine
end

/-!
PROOFS. 15_registers.md, 11_cellar_and_memory.md: every step keeps registers and memory in canonical form. Each command and the
tick of a cycle have their lemma under Laws/; a step is one of the two.
-/
section
namespace Sys2Proof.Machine

/-- The queue is no part of the registers or the memory. -/
theorem kept_setPending {s : State} (cs : List Instr) (h : Kept s) : Kept { s with pending := cs } :=
  canon_mk.mpr h

/-- A command that answers a next state keeps the form, row by row of the opcode table. -/
theorem exec_canon (c : Instr) (s : State) (h : Kept s) : ResCanon (exec c s) :=
  match c with
  | .registerWrite req addr v => execRegisterWrite_canon req addr v s h
  | .unalignedAccess req addr size isWrite => execUnalignedAccess_canon req addr size isWrite s h
  | .counterClear req addr v => execCounterClear_canon req addr v s h
  | .errCntClear req page => execErrCntClear_canon req page s h
  | .eventTest req page v => execEventTest_canon req page v s h
  | .blockReset req page => execBlockReset_canon req page s h
  | .unitEnable req page => execUnitEnable_canon req page s h
  | .drainUnit req page => execDrainUnit_canon req page s h
  | .drainCancel req page => execDrainCancel_canon req page s h
  | .forcedDisable req page => execForcedDisable_canon req page s h
  | .portUpReq req lane v => execPortUpReq_canon req lane v s h
  | .portDownReq req lane v => execPortDownReq_canon req lane v s h
  | .pmdTrainingDone port ok => execPmdTrainingDone_canon port ok s h
  | .fecLock port => execFecLock_canon port s h
  | .helloTimer port => execHelloTimer_canon port s h
  | .helloFrame port f => execHelloFrame_canon port f s h
  | .echoReqFrame port f => execEchoReqFrame_canon port f s h
  | .echoRspFrame port f => execEchoRspFrame_canon port f s h
  | .bringupStepTimeout port => execBringupStepTimeout_canon port s h
  | .bringupRetry port => execBringupRetry_canon port s h
  | .stateFrame port f => execStateFrame_canon port f s h
  | .stateSend port => execStateSend_canon port s h
  | .packetArrive port cls fec p => execPacketArrive_canon port cls fec p s h
  | .nakTimerExpire port => execNakTimerExpire_canon port s h
  | .nakFrame port f => execNakFrame_canon port f s h
  | .replayDone port => execReplayDone_canon port s h
  | .ackTimerExpire port => execAckTimerExpire_canon port s h
  | .lctlSilenceTimeout port => execLctlSilenceTimeout_canon port s h
  | .downFrame port f => execDownFrame_canon port f s h
  | .lrefclkLoss clock => execLrefclkLoss_canon clock s h
  | .creditGrant port vc => execCreditGrant_canon port vc s h
  | .switchEntry unit vc n par => execSwitchEntry_canon unit vc n par s h
  | .packetSend port abort => execPacketSend_canon port abort s h
  | .replayCopyDone port => execReplayCopyDone_canon port s h
  | .mgmtRead port p => execMgmtRead_canon port p s h
  | .mgmtWrite port p => execMgmtWrite_canon port p s h
  | .responseDelivery port p => execResponseDelivery_canon port p s h
  | .portSnapshot req port => execPortSnapshot_canon req port s h
  | .telemetryClear req port => execTelemetryClear_canon req port s h
  | .highWaterReset req port vc => execHighWaterReset_canon req port vc s h
  | .ethernetFrame port f => execEthernetFrame_canon port f s h
  | .macAgeOut vid mac => execMacAgeOut_canon vid mac s h
  | .pfcFrame port prio quanta => execPfcFrame_canon port prio quanta s h
  | .pfcPauseExpire port prio => execPfcPauseExpire_canon port prio s h
  | .pfcRefresh port prio => execPfcRefresh_canon port prio s h
  | .cdnPauseLimit port => execCdnPauseLimit_canon port s h
  | .cwrite port p => execCwrite_canon port p s h
  | .cnode port p => execCnode_canon port p s h
  | .maskReadDone k ok => execMaskReadDone_canon k ok s h
  | .pressAdd array par => execPressAdd_canon array par s h
  | .accumAdd group block => execAccumAdd_canon group block s h
  | .cresult port p => execCresult_canon port p s h
  | .failureStatus port p => execFailureStatus_canon port p s h
  | .itemTimeout core n => execItemTimeout_canon core n s h
  | .groupEnable req group v => execGroupEnable_canon req group v s h
  | .scopeValidationDone group => execScopeValidationDone_canon group s h
  | .groupDisable req group v => execGroupDisable_canon req group v s h
  | .epochClose req group => execEpochClose_canon req group s h
  | .accumRelease req group => execAccumRelease_canon req group s h
  | .migrate req group qd => execMigrate_canon req group qd s h
  | .migrateCopyDone group => execMigrateCopyDone_canon group s h
  | .syncInEdge => execSyncInEdge_canon s h
  | .deferredBoundary group => execDeferredBoundary_canon group s h
  | .epochMaxTimeout group => execEpochMaxTimeout_canon group s h
  | .chainStart qd par => execChainStart_canon qd par s h
  | .chainSendDone chain => execChainSendDone_canon chain s h
  | .vatStart req vat desc => execVatStart_canon req vat desc s h
  | .programStart vat => execProgramStart_canon vat s h
  | .cacheFillDone core par => execCacheFillDone_canon core par s h
  | .cacheInvalidate req vat v => execCacheInvalidate_canon req vat v s h
  | .instructionStart core par => execInstructionStart_canon core par s h
  | .instructionComplete core => execInstructionComplete_canon core s h
  | .budgetExhausted core => execBudgetExhausted_canon core s h
  | .programEnd core => execProgramEnd_canon core s h
  | .coreStop req vat mask => execCoreStop_canon req vat mask s h
  | .coreClear req vat mask => execCoreClear_canon req vat mask s h
  | .inboundDelivery port p => execInboundDelivery_canon port p s h
  | .swaitWake core => execSwaitWake_canon core s h
  | .cAdd core w => execCAdd_canon core w s h
  | .cSub core w => execCSub_canon core w s h
  | .cMul core w => execCMul_canon core w s h
  | .cFma core w => execCFma_canon core w s h
  | .cMax core w => execCMax_canon core w s h
  | .cMin core w => execCMin_canon core w s h
  | .cCmp core w => execCCmp_canon core w s h
  | .cSel core w => execCSel_canon core w s h
  | .cCvt core w => execCCvt_canon core w s h
  | .cRsum core w => execCRsum_canon core w s h
  | .cRmax core w => execCRmax_canon core w s h
  | .cExp2 core w => execCExp2_canon core w s h
  | .cLog2 core w => execCLog2_canon core w s h
  | .cRcp core w => execCRcp_canon core w s h
  | .cRsq core w => execCRsq_canon core w s h
  | .cIadd core w => execCIadd_canon core w s h
  | .cIsub core w => execCIsub_canon core w s h
  | .cAnd core w => execCAnd_canon core w s h
  | .cOr core w => execCOr_canon core w s h
  | .cXor core w => execCXor_canon core w s h
  | .cShl core w => execCShl_canon core w s h
  | .cShr core w => execCShr_canon core w s h
  | .cIcmp core w => execCIcmp_canon core w s h
  | .cMov core w => execCMov_canon core w s h
  | .cCompact core w => execCCompact_canon core w s h
  | .cGath core w => execCGath_canon core w s h
  | .cScat core w => execCScat_canon core w s h
  | .cKeyx core w => execCKeyx_canon core w s h
  | .cSortv core w => execCSortv_canon core w s h
  | .cMerge core w => execCMerge_canon core w s h
  | .cNop core w => execCNop_canon core w s h
  | .cAsend core w => execCAsend_canon core w s h
  | .cCpop core w => execCCpop_canon core w s h
  | .cSinc core w => execCSinc_canon core w s h
  | .cSwait core w => execCSwait_canon core w s h
  | .cBarrier core w => execCBarrier_canon core w s h
  | .cOhdr core w => execCOhdr_canon core w s h
  | .cEnd core w => execCEnd_canon core w s h
  | .cSadd core w => execCSadd_canon core w s h
  | .cSsub core w => execCSsub_canon core w s h
  | .cSmul core w => execCSmul_canon core w s h
  | .cSand core w => execCSand_canon core w s h
  | .cSor core w => execCSor_canon core w s h
  | .cSxor core w => execCSxor_canon core w s h
  | .cSshl core w => execCSshl_canon core w s h
  | .cSshr core w => execCSshr_canon core w s h
  | .cSsra core w => execCSsra_canon core w s h
  | .cSceq core w => execCSceq_canon core w s h
  | .cScne core w => execCScne_canon core w s h
  | .cScltu core w => execCScltu_canon core w s h
  | .cSclts core w => execCSclts_canon core w s h
  | .cScgeu core w => execCScgeu_canon core w s h
  | .cScges core w => execCScges_canon core w s h
  | .cSld core w => execCSld_canon core w s h
  | .cSst core w => execCSst_canon core w s h
  | .cBr core w => execCBr_canon core w s h
  | .cLoop core w => execCLoop_canon core w s h
  | .cScyc core w => execCScyc_canon core w s h
  | .callAgather core => execCallAgather_canon core s h
  | .callSort core => execCallSort_canon core s h
  | .callFilter core => execCallFilter_canon core s h
  | .callTopk core => execCallTopk_canon core s h
  | .callDispatch core => execCallDispatch_canon core s h
  | .callCombine core => execCallCombine_canon core s h
  | .callLsemerge core => execCallLsemerge_canon core s h
  | .callPgather core => execCallPgather_canon core s h
  | .serverStop core => execServerStop_canon core s h
  | .libraryPacket core => execLibraryPacket_canon core s h
  | .callLimitExpire core => execCallLimitExpire_canon core s h
  | .pgatherReserve core => execPgatherReserve_canon core s h
  | .rowScale core rs => execRowScale_canon core rs s h
  | .rowSum core rs => execRowSum_canon core rs s h
  | .gateEnable req port v => execGateEnable_canon req port v s h
  | .gateDisable req port v => execGateDisable_canon req port v s h
  | .gateEntry port => execGateEntry_canon port s h
  | .bufferAllocate qd pool => execBufferAllocate_canon qd pool s h
  | .celIndDataRead req qd => execCelIndDataRead_canon req qd s h
  | .celIndDataWrite req qd v => execCelIndDataWrite_canon req qd v s h
  | .poolWrite req qd pool v => execPoolWrite_canon req qd pool v s h
  | .openPagesWrite req qd v => execOpenPagesWrite_canon req qd v s h
  | .hbmReadDone qd page line use outcome => execHbmReadDone_canon qd page line use outcome s h
  | .scrub stack pc outcome => execScrub_canon stack pc outcome s h
  | .twinModeSet req v => execTwinModeSet_canon req v s h
  | .twinUnpair req v => execTwinUnpair_canon req v s h
  | .takeover req => execTakeover_canon req s h
  | .solo req => execSolo_canon req s h
  | .rejoin req => execRejoin_canon req s h
  | .heartTimer => execHeartTimer_canon s h
  | .heart port p => execHeart_canon port p s h
  | .digest port p => execDigest_canon port p s h
  | .twinCfg port p => execTwinCfg_canon port p s h
  | .twinEpoch port p => execTwinEpoch_canon port p s h
  | .twinOpen port p => execTwinOpen_canon port p s h
  | .twinDone port p => execTwinDone_canon port p s h
  | .twinAbort port p => execTwinAbort_canon port p s h
  | .twinResend => execTwinResend_canon s h
  | .twinLost => execTwinLost_canon s h
  | .digWaitExpire k => execDigWaitExpire_canon k s h
  | .tallyEntryClose subject cls => execTallyEntryClose_canon subject cls s h
  | .tallyTailWrite req v => execTallyTailWrite_canon req v s h
  | .tallySnap req => execTallySnap_canon req s h
  | .vatBist req v => execVatBist_canon req v s h
  | .pressBist req v => execPressBist_canon req v s h
  | .laneRecal req v => execLaneRecal_canon req v s h
  | .bistDone pass => execBistDone_canon pass s h
  | .testWaitExpire => execTestWaitExpire_canon s h
  | .laneRequest port p => execLaneRequest_canon port p s h
  | .laneReqTimeout port => execLaneReqTimeout_canon port s h
  | .recalDone port lane => execRecalDone_canon port lane s h
  | .idleRecal port => execIdleRecal_canon port s h
  | .normalDelivery core => execNormalDelivery_canon core s h
  | .fastDelivery core => execFastDelivery_canon core s h
  | .evcDone req core src => execEvcDone_canon req core src s h
  | .evcSset req core src => execEvcSset_canon req core src s h
  | .evcSclr req core src => execEvcSclr_canon req core src s h
  | .unwind req core => execUnwind_canon req core s h
  | .mretFast core => execMretFast_canon core s h
  | .wfiWake core => execWfiWake_canon core s h
  | .coreRelease req core v => execCoreRelease_canon req core v s h
  | .rindHold req core v => execRindHold_canon req core v s h
  | .autoPark unit => execAutoPark_canon unit s h
  | .wakeComplete unit => execWakeComplete_canon unit s h
  | .darkRequest req unit => execDarkRequest_canon req unit s h
  | .darkExit req unit => execDarkExit_canon req unit s h
  | .lanePark port => execLanePark_canon port s h
  | .avsUpdate qd mv temp => execAvsUpdate_canon qd mv temp s h
  | .pmbusGo req v => execPmbusGo_canon req v s h
  | .pmbusDone ok data => execPmbusDone_canon ok data s h
  | .pmbAlert level => execPmbAlert_canon level s h
  | .poresetAssert => execPoresetAssert_canon s h
  | .pwrgoodFall => execPwrgoodFall_canon s h
  | .poresetRelease env => execPoresetRelease_canon env s h
  | .sysresetRelease env => execSysresetRelease_canon env s h
  | .pciePerstAssert => execPciePerstAssert_canon s h
  | .pciePerstRelease => execPciePerstRelease_canon s h
  | .pcieLink up speed width => execPcieLink_canon up speed width s h
  | .pcieFlr => execPcieFlr_canon s h
  | .thermTrip stack temp => execThermTrip_canon stack temp s h
  | .extend req v => execExtend_canon req v s h
  | .attest req v => execAttest_canon req v s h
  | .unlock req v => execUnlock_canon req v s h
  | .svnAdv req v => execSvnAdv_canon req v s h
  | .revoke req v => execRevoke_canon req v s h
  | .recGo req v => execRecGo_canon req v s h
  | .recData req v => execRecData_canon req v s h
  | .rennetCmdDone bodyOk => execRennetCmdDone_canon bodyOk s h
  | .xspiRead req v => execXspiRead_canon req v s h
  | .xspiProgram req v => execXspiProgram_canon req v s h
  | .xspiErase req v => execXspiErase_canon req v s h
  | .xspiDone => execXspiDone_canon s h
  | .i3cPrivateWrite target addr v => execI3cPrivateWrite_canon target addr v s h
  | .i3cPrivateRead target => execI3cPrivateRead_canon target s h
  | .i3cDynamicAddress da => execI3cDynamicAddress_canon da s h
  | .mgmtPortFrame received frame => execMgmtPortFrame_canon received frame s h
  | .jtagAccess isWrite addr v => execJtagAccess_canon isWrite addr v s h
  | .pwrgoodRise env => execPwrgoodRise_canon env s h
  | .sysresetAssert => execSysresetAssert_canon s h
  | .synchronousException core cause tval => execSynchronousException_canon core cause tval s h

/-- A step, from whatever queue. -/
theorem step_canon {s : State} (h : Kept s) : ResCanon (step s) := by
  cases hq : s.pending with
  | nil =>
    rw [step, hq]
    exact resCanon_next (tick_canon s h)
  | cons c cs =>
    rw [step, hq]
    exact exec_canon c _ (kept_setPending cs h)

/-- Settles O60: a step is one command or the tick of a cycle, and each keeps the form. -/
theorem stepKeepsCanon : Obligations.StepKeepsCanon :=
  fun _ t h hstep => step_canon h t hstep

end Sys2Proof.Machine
end

/-!
PROOFS. 00_scope.md, 15_registers.md: the register file. What a write to one register leaves (R8), what a counted access and an
event leave in BLK_ERR_CNT and BLK_EV_STAT (R456, R458), and the access codes (R9, R11).
-/
section
namespace Sys2Proof.Machine

/-! ### One register -/

section Wr
variable {s : State}

theorem rd_wr_self (h : RegsOk s) (a : Nat) (v : U64) : (s.wr a v).rd a = v :=
  tget_tset_ok _ none s.regs a v h

theorem rd_wr_of_ne (h : RegsOk s) {a b : Nat} (hb : b ≠ a) (v : U64) : (s.wr a v).rd b = s.rd b :=
  tget_tset_other_ok _ none s.regs a b v h hb

theorem regsOk_wr (h : RegsOk s) (a : Nat) (v : U64) : RegsOk (s.wr a v) :=
  tabOk_tset _ none s.regs a v h (by simp)

end Wr

/-- Settles O3: a register file is a canonical table, and its Reset values are what an unlisted register reads as. -/
theorem registerReadBack : Obligations.RegisterReadBack :=
  fun _ a v h => ⟨rd_wr_self h a v, fun _ hb => rd_wr_of_ne h hb v, regsOk_wr h a v, rfl⟩

/-! ### One field of a register -/

section Fld
variable {s : State}

theorem regsOk_setFld (h : RegsOk s) (base : Nat) (f : Fd) (x : Nat) : RegsOk (s.setFld base f x) :=
  regsOk_wr h _ _

theorem rd_setFld_of_ne (h : RegsOk s) {base b : Nat} {f : Fd} (hb : b ≠ base + f.off) (x : Nat) :
    (s.setFld base f x).rd b = s.rd b :=
  rd_wr_of_ne h hb _

theorem fld_setFld_self (h : RegsOk s) (base : Nat) (f : Fd) (x : Nat) (hf : f.l + f.w ≤ 64) :
    (s.setFld base f x).fld base f = x % 2 ^ f.w := by
  rw [State.fld, State.setFld, rd_wr_self h, fieldOf_withField _ _ _ _ hf]

/-- Two fields of one register that do not overlap. -/
theorem fld_setFld_of_disjoint (h : RegsOk s) (base : Nat) {f g : Fd} (x : Nat) (hoff : g.off = f.off)
    (hf : f.l + f.w ≤ 64) (hg : g.l + g.w ≤ 64) (hd : g.l + g.w ≤ f.l ∨ f.l + f.w ≤ g.l) :
    (s.setFld base f x).fld base g = s.fld base g := by
  rw [State.fld, State.fld, State.setFld, hoff, rd_wr_self h, fieldOf_withField_other _ _ _ _ _ _ hf hg hd]

end Fld

/-! ### Events -/

section Event
variable {s : State}

theorem rd_raiseEv_self (h : RegsOk s) (page k : Nat) :
    (raiseEv page k s).rd (page + 0x20) = s.rd (page + 0x20) ||| BitVec.ofNat 64 (2 ^ k) :=
  rd_wr_self h _ _

theorem rd_raiseEv_of_ne (h : RegsOk s) {page b : Nat} (hb : b ≠ page + 0x20) (k : Nat) :
    (raiseEv page k s).rd b = s.rd b :=
  rd_wr_of_ne h hb _

theorem regsOk_raiseEv (h : RegsOk s) (page k : Nat) : RegsOk (raiseEv page k s) :=
  regsOk_wr h _ _

theorem getLsbD_rd_raiseEv (h : RegsOk s) (page k : Nat) {i : Nat} (hi : i < 64) :
    ((raiseEv page k s).rd (page + 0x20)).getLsbD i = ((s.rd (page + 0x20)).getLsbD i || decide (i = k)) := by
  rw [rd_raiseEv_self h, BitVec.getLsbD_or, BitVec.getLsbD_ofNat, Nat.testBit_two_pow]
  simp [hi, eq_comm]

end Event

/-! ### Counted accesses -/

section Count
variable {s : State}

/-- BLK_ERR_CNT once an access is counted, before the event: three fields of one register are written. -/
def countFields (page off cause : Nat) (s : State) : State :=
  ((s.addFld page blkErrCnt_count 1).setFld page blkErrCnt_lastOff off).setFld page blkErrCnt_cause cause

theorem regsOk_countFields (h : RegsOk s) (page off cause : Nat) : RegsOk (countFields page off cause s) :=
  regsOk_setFld (regsOk_setFld (regsOk_setFld h _ _ _) _ _ _) _ _ _

theorem rd_countFields_of_ne (h : RegsOk s) {page b : Nat} (hb : b ≠ page + 0x38) (off cause : Nat) :
    (countFields page off cause s).rd b = s.rd b := by
  have h1 : RegsOk (s.addFld page blkErrCnt_count 1) := regsOk_setFld h _ _ _
  rw [countFields, rd_setFld_of_ne (regsOk_setFld h1 _ _ _) hb, rd_setFld_of_ne h1 hb]
  exact rd_setFld_of_ne h hb _

theorem count_countFields (h : RegsOk s) (page off cause : Nat) :
    (countFields page off cause s).fld page blkErrCnt_count =
      min (s.fld page blkErrCnt_count + 1) (2 ^ blkErrCnt_count.w - 1) := by
  have h1 : RegsOk (s.addFld page blkErrCnt_count 1) := regsOk_setFld h _ _ _
  have hcause := fld_setFld_of_disjoint (regsOk_setFld h1 page blkErrCnt_lastOff off) page (f := blkErrCnt_cause)
    (g := blkErrCnt_count) cause rfl (by decide) (by decide) (by decide)
  have hoff := fld_setFld_of_disjoint h1 page (f := blkErrCnt_lastOff) (g := blkErrCnt_count) off rfl (by decide)
    (by decide) (by decide)
  rw [countFields, hcause, hoff, State.addFld, fld_setFld_self h _ _ _ (by decide), satAdd]
  exact Nat.mod_eq_of_lt (Nat.lt_of_le_of_lt (Nat.min_le_right _ _) (by decide))

theorem lastOff_countFields (h : RegsOk s) (page cause : Nat) {off : Nat} (hoff : off < 2 ^ blkErrCnt_lastOff.w) :
    (countFields page off cause s).fld page blkErrCnt_lastOff = off := by
  have h1 : RegsOk (s.addFld page blkErrCnt_count 1) := regsOk_setFld h _ _ _
  have hcause := fld_setFld_of_disjoint (regsOk_setFld h1 page blkErrCnt_lastOff off) page (f := blkErrCnt_cause)
    (g := blkErrCnt_lastOff) cause rfl (by decide) (by decide) (by decide)
  rw [countFields, hcause, fld_setFld_self h1 _ _ _ (by decide), Nat.mod_eq_of_lt hoff]

theorem cause_countFields (h : RegsOk s) (page off : Nat) {cause : Nat} (hcause : cause < 2 ^ blkErrCnt_cause.w) :
    (countFields page off cause s).fld page blkErrCnt_cause = cause := by
  have h1 : RegsOk (s.addFld page blkErrCnt_count 1) := regsOk_setFld h _ _ _
  rw [countFields, fld_setFld_self (regsOk_setFld h1 _ _ _) _ _ _ (by decide), Nat.mod_eq_of_lt hcause]

/-- A counted access is its fields and event 0 of the page. -/
theorem rd_errCount_self (h : RegsOk s) (page off cause : Nat) :
    (errCount page off cause s).rd (page + 0x38) = (countFields page off cause s).rd (page + 0x38) :=
  rd_raiseEv_of_ne (regsOk_countFields h page off cause) (by omega) 0

theorem fld_errCount (h : RegsOk s) (page off cause : Nat) {f : Fd} (hf : f.off = 0x38) :
    (errCount page off cause s).fld page f = (countFields page off cause s).fld page f := by
  rw [State.fld, State.fld, hf, rd_errCount_self h]

theorem rd_errCount_event (h : RegsOk s) (page off cause : Nat) :
    (errCount page off cause s).rd (page + 0x20) = s.rd (page + 0x20) ||| 1 := by
  have hev := rd_raiseEv_self (regsOk_countFields h page off cause) page 0
  rw [rd_countFields_of_ne h (by omega)] at hev
  exact hev

theorem rd_errCount_of_ne (h : RegsOk s) {page b : Nat} (hcnt : b ≠ page + 0x38) (hev : b ≠ page + 0x20)
    (off cause : Nat) : (errCount page off cause s).rd b = s.rd b :=
  (rd_raiseEv_of_ne (regsOk_countFields h page off cause) hev 0).trans (rd_countFields_of_ne h hcnt off cause)

end Count

/-- Settles O10: a counted access writes the fields of BLK_ERR_CNT and raises event 0; an event sets its bit. -/
theorem countedAccess : Obligations.CountedAccess := by
  refine ⟨fun s page off cause h hoff hcause => ?_, fun s page k h _ => ?_⟩
  · refine ⟨?_, ?_, ?_, rd_errCount_event h .., fun b hcnt hev => rd_errCount_of_ne h hcnt hev .., rfl⟩
    · rw [fld_errCount h _ _ _ rfl, count_countFields h]
    · rw [fld_errCount h _ _ _ rfl, lastOff_countFields h _ _ hoff]
    · rw [fld_errCount h _ _ _ rfl, cause_countFields h _ _ hcause]
  · exact ⟨fun i hi => getLsbD_rd_raiseEv h page k hi, fun b hb => rd_raiseEv_of_ne h hb k, rfl⟩

/-! ### The access codes -/

/-- BLK_EV_STAT of lane 0 with event 0 set, in a cycle that has noted an event 64, which no register of 64 bits has a bit for. -/
def strayEvent : State :=
  { State.reset with regs := [(pgLane 0 + 0x20, 1)], same := { State.reset.same with evSet := [(pgLane 0, 64)] } }

/-- Refutes O7: `setNow` of a cycle with a noted event 64 is 2 ^ 64, beside which the mask of the bits that a write may
clear is 0, so that a 1 written to event 0 does not clear it. Its premises do not bound the noted events. -/
theorem not_accessCodes : ¬ Obligations.AccessCodes := by
  intro hall
  have h := (hall 0 (pageLoc .lane 0 (pgLane 0) 0x20) 1 strayEvent (by decide +kernel) rfl (by decide +kernel)).1
  have hfields : ∃ f ∈ (pageLoc .lane 0 (pgLane 0) 0x20).fields, f.acc = .w1c ∧ f.fd.l = 0 ∧ 0 < f.fd.w := by
    decide +kernel
  obtain ⟨f, hf, hacc, hl, hw⟩ := hfields
  have hbit := h f hf
  rw [hacc] at hbit
  have hclear := hbit 0 hw
  rw [hl] at hclear
  revert hclear
  decide +kernel

end Sys2Proof.Machine
end

/-!
PROOFS. 06_curd_execution.md, 11_cellar_and_memory.md, 01_architecture.md: the byte memory. A run of bytes that is written reads
back and leaves every other byte; a write of one cycle counts by its requester (R245, R352); a buffer's header cell and data
stand where R335 places them.
-/
section
namespace Sys2Proof.Machine

/-! ### One byte -/

section Byte
variable {s : State}

theorem rdByte_congr {t : State} (h : t.mem = s.mem) (sp off : Nat) : rdByte t sp off = rdByte s sp off := by
  rw [rdByte, rdByte, h]

theorem rdByte_wrByte_self (hm : Memory.wf s.mem = true) {sp : Nat} (hsp : sp ≠ spRom) (off : Nat) (b : Byte) :
    rdByte (wrByte s sp off b) sp off = b := by
  rw [rdByte, if_neg hsp]
  exact tget_tset_ok (fun _ => memDefault) none s.mem (memKey sp off) b hm

theorem rdByte_wrByte_of_ne (hm : Memory.wf s.mem = true) {sp off sp' off' : Nat}
    (hne : memKey sp' off' ≠ memKey sp off) (b : Byte) : rdByte (wrByte s sp off b) sp' off' = rdByte s sp' off' := by
  rw [rdByte, rdByte, wrByte, tget_tset_other_ok (fun _ => memDefault) none s.mem _ _ b hm hne]

end Byte

/-- Two places of one memory are two keys. -/
theorem memKey_ne {sp off off' : Nat} (h : off' ≠ off) : memKey sp off' ≠ memKey sp off :=
  fun he => h (Nat.add_left_cancel he)

/-- Places of two memories, each within the 2 ^ 40 bytes of its space. -/
theorem memKey_ne_of_space_ne {sp sp' off off' : Nat} (hsp : sp' ≠ sp) (h : off < 2 ^ 40) (h' : off' < 2 ^ 40) :
    memKey sp' off' ≠ memKey sp off := by
  unfold memKey
  omega

/-! ### A run of bytes -/

section Run
variable {s : State}

theorem rdBytes_congr {t : State} (sp : Nat) {off n : Nat} (h : ∀ i, i < n → rdByte t sp (off + i) = rdByte s sp (off + i)) :
    rdBytes t sp off n = rdBytes s sp off n := by
  induction n generalizing off with
  | zero => rfl
  | succ n ih =>
    have hhead : rdByte t sp off = rdByte s sp off := h 0 (Nat.succ_pos n)
    have htail := ih (off := off + 1) fun i hi => by
      have hi' := h (i + 1) (Nat.succ_lt_succ hi)
      rwa [Nat.add_comm i 1, ← Nat.add_assoc] at hi'
    rw [rdBytes, rdBytes, hhead, htail]

theorem wrBytes_same (s : State) (sp off : Nat) (bs : List Byte) : (wrBytes s sp off bs).same = s.same := by
  induction bs generalizing s off with
  | nil => rfl
  | cons b bs ih => exact ih (wrByte s sp off b) (off + 1)

/-- What a write leaves in memory depends on memory alone. -/
theorem wrBytes_mem_congr {t : State} (h : t.mem = s.mem) (sp off : Nat) (bs : List Byte) :
    (wrBytes t sp off bs).mem = (wrBytes s sp off bs).mem := by
  induction bs generalizing s t off with
  | nil => exact h
  | cons b bs ih => exact ih (by rw [wrByte, wrByte, h]) (off + 1)

theorem rdByte_wrBytes_of_ne (hm : Memory.wf s.mem = true) {sp off sp' off' : Nat} {bs : List Byte}
    (hne : ∀ i, i < bs.length → memKey sp' off' ≠ memKey sp (off + i)) :
    rdByte (wrBytes s sp off bs) sp' off' = rdByte s sp' off' := by
  induction bs generalizing s off with
  | nil => rfl
  | cons b bs ih =>
    have htail := ih (s := wrByte s sp off b) (off := off + 1) (wrByte_wf _ _ _ _ hm) fun i hi => by
      have hi' := hne (i + 1) (Nat.succ_lt_succ hi)
      rwa [Nat.add_comm i 1, ← Nat.add_assoc] at hi'
    have hhead : memKey sp' off' ≠ memKey sp off := hne 0 (Nat.succ_pos _)
    rw [wrBytes, htail, rdByte_wrByte_of_ne hm hhead]

theorem rdBytes_wrBytes (hm : Memory.wf s.mem = true) {sp : Nat} (hsp : sp ≠ spRom) (off : Nat) (bs : List Byte) :
    rdBytes (wrBytes s sp off bs) sp off bs.length = bs := by
  induction bs generalizing s off with
  | nil => rfl
  | cons b bs ih =>
    have hm1 : Memory.wf (wrByte s sp off b).mem = true := wrByte_wf _ _ _ _ hm
    have hhead : rdByte (wrBytes (wrByte s sp off b) sp (off + 1) bs) sp off = b :=
      (rdByte_wrBytes_of_ne hm1 fun i _ => memKey_ne (by omega)).trans (rdByte_wrByte_self hm hsp off b)
    rw [wrBytes, List.length_cons, rdBytes, hhead, ih hm1]

end Run

/-! ### Two writes of one cycle (R245, R352) -/

section Store
variable {s : State}

/-- The stores of this cycle by requesters above `req` that meet the `n` bytes from `off`. -/
def higherStores (s : State) (sp off req n : Nat) : List Store :=
  s.same.stores.filter (fun x => x.sp == sp && decide (req < x.req) && decide (x.off < off + n)
    && decide (off < x.off + x.len))

theorem higherStores_eq_nil {req : Nat} (h : ∀ x ∈ s.same.stores, x.req ≤ req) (sp off n : Nat) :
    higherStores s sp off req n = [] := by
  simp only [higherStores, List.filter_eq_nil_iff, Bool.and_eq_true, decide_eq_true_eq]
  rintro x hx ⟨⟨⟨-, hlt⟩, -⟩, -⟩
  exact Nat.not_lt_of_le (h x hx) hlt

/-- Where no requester of a higher number has written in the cycle, a store writes every byte. -/
theorem storeBytes_of_highest {req : Nat} (h : ∀ x ∈ s.same.stores, x.req ≤ req) (sp off : Nat) (old bs : List Byte) :
    storeBytes sp off req old bs s =
      { wrBytes s sp off bs with same := { s.same with stores := ⟨sp, off, bs.length, req, old⟩ :: s.same.stores } } := by
  have hnone := higherStores_eq_nil h sp off bs.length
  rw [higherStores] at hnone
  simp only [storeBytes, hnone, List.isEmpty_nil, if_true, wrBytes_same]

theorem storeBytes_mem_of_highest {req : Nat} (h : ∀ x ∈ s.same.stores, x.req ≤ req) (sp off : Nat) (old bs : List Byte) :
    (storeBytes sp off req old bs s).mem = (wrBytes s sp off bs).mem := by
  rw [storeBytes_of_highest h]

theorem storeBytes_stores {req : Nat} (h : ∀ x ∈ s.same.stores, x.req ≤ req) (sp off : Nat) (old bs : List Byte) :
    (storeBytes sp off req old bs s).same.stores = ⟨sp, off, bs.length, req, old⟩ :: s.same.stores := by
  rw [storeBytes_of_highest h]

/-- An update that does nothing to any element of a list does nothing. -/
theorem forAll_eq_self {α : Type} {f : α → State → State} {l : List α} (h : ∀ x ∈ l, ∀ t, f x t = t) (t : State) :
    forAll f l t = t := by
  induction l generalizing t with
  | nil => rfl
  | cons x l ih =>
    rw [forAll, h x List.mem_cons_self, ih fun y hy => h y (List.mem_cons_of_mem x hy)]

/-- A store to a run that a requester of a higher number has just written leaves memory as it is. -/
theorem storeBytes_mem_of_overtaken {sp off req req' : Nat} {old old' bs : List Byte} {l : List Store}
    (hst : s.same.stores = ⟨sp, off, bs.length, req', old'⟩ :: l) (hreq : req < req') :
    (storeBytes sp off req old bs s).mem = s.mem := by
  by_cases hbs : bs = []
  · subst hbs
    simp [storeBytes, wrBytes, forAll]
  · have hlen : 0 < bs.length := List.length_pos_of_ne_nil hbs
    set higher := higherStores s sp off req bs.length with hhigher
    have hmem : (⟨sp, off, bs.length, req', old'⟩ : Store) ∈ higher := by
      rw [hhigher, higherStores, hst]
      simp [hreq, hlen]
    have hne : higher.isEmpty = false := by
      cases hh : higher with
      | nil => rw [hh] at hmem; cases hmem
      | cons _ _ => rfl
    have hskip : ∀ b ∈ bs.zipIdx, ∀ t : State,
        (if higher.any (fun x => decide (x.off ≤ off + b.2) && decide (off + b.2 < x.off + x.len)) then t
          else wrByte t sp (off + b.2) b.1) = t := by
      intro b hb t
      have hlt : b.2 < bs.length := by
        have := List.snd_lt_of_mem_zipIdx hb
        omega
      exact if_pos (List.any_eq_true.mpr ⟨⟨sp, off, bs.length, req', old'⟩, hmem, by simp [hlt]⟩)
    rw [higherStores] at hhigher
    simp only [storeBytes, ← hhigher, hne, Bool.false_eq_true, if_false]
    rw [forAll_eq_self hskip]

end Store

/-! ### A buffer of a slice (R335) -/

section Buffer
variable {s : State}

theorem cellWrite_mem {req : Nat} (h : ∀ x ∈ s.same.stores, x.req ≤ req) (q off : Nat) (bs : List Byte) :
    (cellWrite q off req bs s).mem = (wrBytes s (spCellar q) off bs).mem :=
  (storeBytes_mem_of_highest (s := scanTables q off bs.length s) h _ _ [] _).trans
    (wrBytes_mem_congr (s := s) (t := scanTables q off bs.length s) rfl _ _ _)

theorem cellWrite_stores {req : Nat} (h : ∀ x ∈ s.same.stores, x.req ≤ req) (q off : Nat) (bs : List Byte) :
    (cellWrite q off req bs s).same.stores = ⟨spCellar q, off, bs.length, req, []⟩ :: s.same.stores :=
  storeBytes_stores (s := scanTables q off bs.length s) h _ _ _ _

theorem cellWrite_regs {req : Nat} (h : ∀ x ∈ s.same.stores, x.req ≤ req) (q off : Nat) (bs : List Byte) :
    (cellWrite q off req bs s).regs = s.regs ∧ (cellWrite q off req bs s).fuses = s.fuses := by
  rw [cellWrite, storeBytes_of_highest (s := scanTables q off bs.length s) h]
  exact wrBytes_regs (scanTables q off bs.length s) (spCellar q) off bs

/-- A buffer of a slice is no whey buffer, and its handle is good where the buffer lies in the buffer area. -/
theorem isWhey_of_lt {b : Nat} (hb : b < 4 * 65536) : isWhey b = false := by
  simp only [isWhey, decide_eq_false_iff_not]
  omega

theorem bufIndex_lt_of_handleOk {b : Nat} (hb : b < 4 * 65536) (h : handleOk s (bufHandle b) = true) :
    bufIndex b < nBufs s (bufQuad b) := by
  have hlow : b < 2 ^ 20 := by omega
  obtain ⟨q, hq⟩ : ∃ q, q = bufQuad b := ⟨_, rfl⟩
  obtain ⟨k, hk⟩ : ∃ k, k = bufIndex b := ⟨_, rfl⟩
  have hq4 : q < 4 := by rw [hq, bufQuad, if_pos hlow]; omega
  have hk16 : k < 65536 := by rw [hk, bufIndex, if_pos hlow]; omega
  have hhandle : bufHandle b = q * 536870912 + k * 65 := by
    rw [bufHandle, isWhey_of_lt hb, ← hq, ← hk]; simp [bit01]
  have hdiv : bufHandle b / 2 ^ 29 = q := by omega
  have hquad : bufHandle b / 2 ^ 29 % 4 = q := by rw [hdiv, Nat.mod_eq_of_lt hq4]
  have hoff : bufHandle b % 2 ^ 29 = k * 65 := by omega
  have hdiv31 : bufHandle b / 2 ^ 31 = 0 := by omega
  have hspace : bufHandle b / 2 ^ 31 % 2 ≠ 1 := by rw [hdiv31]; decide
  simp only [handleOk, hquad, hoff, if_neg hspace, Bool.and_eq_true, decide_eq_true_eq] at h
  rw [← hq, ← hk]
  omega

/-- A buffer lies inside its slice. -/
theorem bufOff_lt {b : Nat} (hb : b < 4 * 65536) (h : handleOk s (bufHandle b) = true) :
    bufOff s b + bufBytes ≤ sliceBytes := by
  have hidx := bufIndex_lt_of_handleOk hb h
  have hbound : (sliceBytes - openEnd s (bufQuad b)) / bufBytes * bufBytes ≤ sliceBytes - openEnd s (bufQuad b) :=
    Nat.div_mul_le_self _ _
  rw [nBufs] at hidx
  simp only [bufOff, isWhey_of_lt hb, Bool.false_eq_true, if_false]
  simp only [bufBytes] at hidx hbound ⊢
  omega

/-- Where a buffer begins depends on the registers alone. -/
theorem bufOff_congr {t : State} (hr : t.regs = s.regs ∧ t.fuses = s.fuses) (b : Nat) : bufOff t b = bufOff s b := by
  simp only [bufOff, openEnd, State.fld, State.rd, hr]

/-- A filled buffer of a slice: the header cell, then the data 64 bytes further. -/
theorem fillBuf_mem {b req : Nat} (cell data : List Byte) (hst : s.same.stores = []) (hb : b < 4 * 65536)
    (h : handleOk s (bufHandle b) = true) :
    (fillBuf b req cell data s).mem =
      (wrBytes (wrBytes s (spCellar (bufQuad b)) (bufOff s b) cell) (spCellar (bufQuad b)) (bufOff s b + 64) data).mem := by
  have hnone : ∀ x ∈ s.same.stores, x.req ≤ req := by simp [hst]
  set u := cellWrite (bufQuad b) (bufOff s b) req cell s with hu
  have hfill : fillBuf b req cell data s = cellWrite (bufQuad b) (bufOff u b + 64) req data u := by
    simp only [fillBuf, onHandle, h, if_true, putBuf, isWhey_of_lt hb, Bool.false_eq_true, if_false, Nat.add_zero, hu]
  have hnone' : ∀ x ∈ u.same.stores, x.req ≤ req := by
    rw [hu, cellWrite_stores hnone, hst]; simp
  rw [hfill, cellWrite_mem hnone', bufOff_congr (cellWrite_regs hnone _ _ _)]
  exact wrBytes_mem_congr (cellWrite_mem hnone _ _ _) _ _ _

end Buffer

/-- The boot ROM is no slice of a present quadrant. -/
theorem spCellar_ne_spRom {b : Nat} (hb : b < 4 * 65536) : spCellar (bufQuad b) ≠ spRom := by
  have hlow : b < 2 ^ 20 := by omega
  simp only [spCellar, bufQuad, if_pos hlow, spRom]
  omega

/-- Settles O4: runs of bytes, the two runs that fill a buffer, and the order of two stores to one run. -/
theorem memoryReadBack : Obligations.MemoryReadBack := by
  refine ⟨fun s sp off bs hm hsp => ?_, fun s b req cell data hm hst hb hh hcell hdata => ?_,
    fun s sp off r1 r2 o1 o2 xs ys hm hsp hst hr hlen => ?_⟩
  · exact ⟨rdBytes_wrBytes hm hsp off bs, fun _ _ hne => rdByte_wrBytes_of_ne hm hne, wrBytes_wf _ _ _ _ hm⟩
  · intro t sp o
    have hin : o + 4160 ≤ 0x6000000 := bufOff_lt hb hh
    have hrom : sp ≠ spRom := spCellar_ne_spRom hb
    have hmem := fillBuf_mem (req := req) cell data hst hb hh
    have hread : ∀ sp' a, rdByte t sp' a = rdByte (wrBytes (wrBytes s sp o cell) sp (o + 64) data) sp' a :=
      fun sp' a => rdByte_congr hmem sp' a
    have hm1 : Memory.wf (wrBytes s sp o cell).mem = true := wrBytes_wf _ _ _ _ hm
    refine ⟨?_, ?_, fun sp' a ha hout => ?_⟩
    · calc rdBytes t sp o cell.length = rdBytes (wrBytes s sp o cell) sp o cell.length :=
            rdBytes_congr sp fun i hi => (hread _ _).trans
              (rdByte_wrBytes_of_ne hm1 fun j _ => memKey_ne (by omega))
        _ = cell := rdBytes_wrBytes hm hrom o cell
    · exact (rdBytes_congr sp fun i _ => hread _ _).trans (rdBytes_wrBytes hm1 hrom (o + 64) data)
    · have hkey : ∀ c, o ≤ c → c < o + 64 + data.length → memKey sp' a ≠ memKey sp c := by
        intro c hlo hhi
        by_cases hsp : sp' = sp
        · subst hsp
          exact memKey_ne (by omega)
        · exact memKey_ne_of_space_ne hsp (by omega) ha
      rw [hread, rdByte_wrBytes_of_ne hm1 fun i hi => hkey _ (by omega) (by omega),
        rdByte_wrBytes_of_ne hm fun i hi => hkey _ (by omega) (by omega)]
  · have hnone : ∀ r, ∀ x ∈ s.same.stores, x.req ≤ r := by simp [hst]
    have hfirst := storeBytes_mem_of_highest (hnone r1) sp off o1 xs
    have hread : rdBytes (wrBytes s sp off xs) sp off xs.length = xs := rdBytes_wrBytes hm hsp off xs
    refine ⟨?_, ?_⟩
    · have hst1 : (storeBytes sp off r1 o1 xs s).same.stores = ⟨sp, off, ys.length, r1, o1⟩ :: s.same.stores := by
        rw [storeBytes_stores (hnone r1), hlen]
      have hskip := storeBytes_mem_of_overtaken (old := o2) hst1 hr
      exact (rdBytes_congr sp fun i _ => rdByte_congr (hskip.trans hfirst) _ _).trans hread
    · set u := storeBytes sp off r2 o2 ys s with hu
      have hlow : ∀ x ∈ u.same.stores, x.req ≤ r1 := by
        rw [hu, storeBytes_stores (hnone r2), hst]
        simp [Nat.le_of_lt hr]
      have hmu : Memory.wf u.mem = true := by
        rw [hu, storeBytes_mem_of_highest (hnone r2)]
        exact wrBytes_wf _ _ _ _ hm
      exact (rdBytes_congr sp fun i _ => rdByte_congr (storeBytes_mem_of_highest hlow _ _ _ _) _ _).trans
        (rdBytes_wrBytes hmu hsp off xs)

end Sys2Proof.Machine
end

/-!
PROOFS. 13_control_and_power.md: which source of a class the EVC of a core selects (R401), and what a delivery asks for
(R402, R403, R408, R409). The selection goes once through the pending sources in ascending order and keeps the best so far.
-/
section
namespace Sys2Proof.Machine

/-! ### The best of a list -/

/-- The better of the best so far and the next one: a higher priority alone takes its place. -/
def betterOf (prio : Nat → Nat) (best : Option Nat) (i : Nat) : Option Nat :=
  match best with
  | some b => if prio b < prio i then some i else some b
  | none => some i

/-- `m` comes before `j`: a higher priority, or the same and no higher number. -/
def Precedes (prio : Nat → Nat) (m j : Nat) : Prop := prio j < prio m ∨ (prio j = prio m ∧ m ≤ j)

theorem Precedes.refl (prio : Nat → Nat) (m : Nat) : Precedes prio m m := .inr ⟨rfl, le_rfl⟩

theorem Precedes.trans {prio : Nat → Nat} {a b c : Nat} (h : Precedes prio a b) (h' : Precedes prio b c) :
    Precedes prio a c := by
  unfold Precedes at *
  omega

/-- What the pass over an ascending list keeps, from a best `b` that lies below the list. -/
theorem foldl_betterOf_some (prio : Nat → Nat) {l : List Nat} {b : Nat} (hsorted : (b :: l).Pairwise (· < ·)) :
    ∃ m ∈ b :: l, l.foldl (betterOf prio) (some b) = some m ∧ ∀ j ∈ b :: l, Precedes prio m j := by
  induction l generalizing b with
  | nil => exact ⟨b, by simp, rfl, by simp [Precedes.refl]⟩
  | cons i l ih =>
    obtain ⟨hb, hil⟩ := List.pairwise_cons.mp hsorted
    have hbi : b < i := hb i List.mem_cons_self
    by_cases hlt : prio b < prio i
    · obtain ⟨m, hm, hfold, hbest⟩ := ih hil
      refine ⟨m, List.mem_cons_of_mem b hm, by simpa [betterOf, hlt] using hfold, fun j hj => ?_⟩
      rcases List.mem_cons.mp hj with rfl | hj
      · exact (hbest i List.mem_cons_self).trans (.inl hlt)
      · exact hbest j hj
    · have hbl : (b :: l).Pairwise (· < ·) :=
        List.pairwise_cons.mpr ⟨fun x hx => hb x (List.mem_cons_of_mem i hx), (List.pairwise_cons.mp hil).2⟩
      obtain ⟨m, hm, hfold, hbest⟩ := ih hbl
      have hmem : m ∈ b :: i :: l := by
        rcases List.mem_cons.mp hm with rfl | hm
        · exact List.mem_cons_self
        · exact List.mem_cons_of_mem b (List.mem_cons_of_mem i hm)
      refine ⟨m, hmem, by simpa [betterOf, hlt] using hfold, fun j hj => ?_⟩
      have hmb : Precedes prio m b := hbest b List.mem_cons_self
      rcases List.mem_cons.mp hj with rfl | hj
      · exact hmb
      rcases List.mem_cons.mp hj with rfl | hj
      · have hbj : Precedes prio b j := by unfold Precedes; omega
        exact hmb.trans hbj
      · exact hbest j (List.mem_cons_of_mem b hj)

/-- The pass answers an element that comes before every other, or finds the list empty. -/
theorem foldl_betterOf_none (prio : Nat → Nat) {l : List Nat} (hsorted : l.Pairwise (· < ·)) :
    (∀ m, l.foldl (betterOf prio) none = some m → m ∈ l ∧ ∀ j ∈ l, Precedes prio m j) ∧
      (l.foldl (betterOf prio) none = none → l = []) := by
  cases l with
  | nil => simp
  | cons i l =>
    obtain ⟨m, hm, hfold, hbest⟩ := foldl_betterOf_some prio hsorted
    have hstart : (i :: l).foldl (betterOf prio) none = some m := hfold
    constructor
    · rintro m' hm'
      obtain rfl : m = m' := Option.some.inj (hstart.symm.trans hm')
      exact ⟨hm, hbest⟩
    · intro hnone
      rw [hstart] at hnone
      cases hnone

/-! ### The sources of an EVC -/

section Evc
variable {s : State} {k : Nat} {fast : Bool}

/-- The pending sources of a class, in ascending order. -/
def evcCandidates (s : State) (k : Nat) (fast : Bool) : List Nat :=
  (List.range 1024).filter (fun i => evcEn s k i && evcFast s k i == fast && evcLevel s k i)

theorem evcSelect_eq_foldl :
    evcSelect s k fast = (evcCandidates s k fast).foldl (betterOf (evcPrio s k)) none :=
  rfl

theorem evcCandidates_sorted : (evcCandidates s k fast).Pairwise (· < ·) :=
  List.pairwise_lt_range.filter _

theorem mem_evcCandidates {i : Nat} :
    i ∈ evcCandidates s k fast ↔ i < 1024 ∧ evcPending s k i = true ∧ evcFast s k i = fast := by
  simp only [evcCandidates, evcPending, List.mem_filter, List.mem_range, Bool.and_eq_true, beq_iff_eq]
  tauto

theorem fastDue_eq_some {i : Nat} (h : fastDue s k = some i) :
    rindRuns s k = true ∧ s.flag (pgRind k) evcCtrl_fastEn = true ∧ fValid s k = false ∧ (s.rindOf k).fie = true ∧
      evcSelect s k true = some i := by
  unfold fastDue at h
  split at h
  next hcond =>
    simp only [Bool.and_eq_true, Bool.not_eq_true'] at hcond
    obtain ⟨⟨⟨hruns, hen⟩, hfree⟩, hfie⟩ := hcond
    exact ⟨hruns, hen, hfree, hfie, h⟩
  next => cases h

theorem normalDue_eq_some {i : Nat} (h : normalDue s k = some i) :
    rindRuns s k = true ∧ s.flag (pgRind k) evcCtrl_normEn = true ∧ nValid s k = false ∧ fValid s k = false ∧
      s.flag (pgRind k) evcCur_order = false ∧ fastDue s k = none ∧ evcSelect s k false = some i ∧
      ((msMie (s.rindOf k).mstatus = 1 ∧ fieldOf (s.rindOf k).mie 11 1 = 1) ∨ (s.rindOf k).priv < 3) := by
  unfold normalDue at h
  dsimp only at h
  split at h
  next hcond =>
    simp only [Bool.and_eq_true, Bool.not_eq_true', Bool.or_eq_true, beq_iff_eq, decide_eq_true_eq,
      Option.isNone_iff_eq_none] at hcond
    obtain ⟨⟨⟨⟨⟨⟨hruns, hen⟩, hn⟩, hf⟩, hopen⟩, horder⟩, hfast⟩ := hcond
    exact ⟨hruns, hen, hn, hf, horder, hfast, h, hopen⟩
  next => cases h

end Evc

/-- Settles O54: the selection is the pass over the pending sources of the class; a delivery needs all its conditions. -/
theorem eventSelection : Obligations.EventSelection := by
  refine ⟨fun s k i fast h => ?_, fun s k j fast h hj hfast => ?_, fun s k i h => normalDue_eq_some h,
    fun s k i h => fastDue_eq_some h⟩
  · obtain ⟨hmem, hbest⟩ := (foldl_betterOf_none (evcPrio s k) evcCandidates_sorted).1 i (evcSelect_eq_foldl.symm.trans h)
    obtain ⟨hi, hpend, hclass⟩ := mem_evcCandidates.mp hmem
    exact ⟨hi, hpend, hclass, fun j hj hp hc => hbest j (mem_evcCandidates.mpr ⟨hj, hp, hc⟩)⟩
  · have hempty : evcCandidates s k fast = [] :=
      (foldl_betterOf_none (evcPrio s k) evcCandidates_sorted).2 (evcSelect_eq_foldl.symm.trans h)
    refine Bool.eq_false_iff.mpr fun hp => ?_
    have hmem : j ∈ evcCandidates s k fast := mem_evcCandidates.mpr ⟨hj, hp, hfast⟩
    rw [hempty] at hmem
    cases hmem

end Sys2Proof.Machine
end

/-!
PROOFS. 07_curd_instructions.md, 02_fabric_transport.md: the encodings that the spec prints. A word is a row of fields, each in
its width (`packFields`); it reads back field by field. The Curd word (R225), the words of the packet headers, and the bytes
of a packet (R41, R55) are such rows.
-/
section
namespace Sys2Proof

/-! ### A row of fields -/

/-- The value of a row of fields, each a value with its width, the first at bit 0. -/
def packFields : List (Nat × Nat) → Nat
  | [] => 0
  | (v, n) :: r => v + 2 ^ n * packFields r

/-- The fields of the widths `ns` in `x`, the first at bit `l`. -/
def unpackAt (x : Nat) : Nat → List Nat → List Nat
  | _, [] => []
  | l, n :: ns => x / 2 ^ l % 2 ^ n :: unpackAt x (l + n) ns

/-- Every value is in its width. -/
def FieldsFit (fs : List (Nat × Nat)) : Prop := ∀ f ∈ fs, f.1 < 2 ^ f.2

theorem fieldsFit_cons {v n : Nat} {fs : List (Nat × Nat)} : FieldsFit ((v, n) :: fs) ↔ v < 2 ^ n ∧ FieldsFit fs := by
  simp [FieldsFit]

theorem fieldsFit_nil : FieldsFit [] := by simp [FieldsFit]

theorem packFields_lt {fs : List (Nat × Nat)} (h : FieldsFit fs) : packFields fs < 2 ^ (fs.map Prod.snd).sum := by
  induction fs with
  | nil => simp [packFields]
  | cons f fs ih =>
    obtain ⟨v, n⟩ := f
    obtain ⟨hv, hfs⟩ := fieldsFit_cons.mp h
    have hr := ih hfs
    rw [packFields, List.map_cons, List.sum_cons, Nat.pow_add]
    calc v + 2 ^ n * packFields fs < 2 ^ n + 2 ^ n * packFields fs := by omega
      _ = 2 ^ n * (packFields fs + 1) := by ring
      _ ≤ 2 ^ n * 2 ^ (fs.map Prod.snd).sum := Nat.mul_le_mul_left _ hr

theorem packFields_lt_of_width {fs : List (Nat × Nat)} {n : Nat} (h : FieldsFit fs) (hn : (fs.map Prod.snd).sum = n) :
    packFields fs < 2 ^ n :=
  hn ▸ packFields_lt h

/-- A row reads back as its values, wherever in a word it stands. -/
theorem unpackAt_of_div {x l : Nat} {fs : List (Nat × Nat)} (hfit : FieldsFit fs) (hx : x / 2 ^ l = packFields fs) :
    unpackAt x l (fs.map Prod.snd) = fs.map Prod.fst := by
  induction fs generalizing l with
  | nil => rfl
  | cons f fs ih =>
    obtain ⟨v, n⟩ := f
    obtain ⟨hv, hfs⟩ := fieldsFit_cons.mp hfit
    have hhead : x / 2 ^ l % 2 ^ n = v := by
      rw [hx, packFields, Nat.add_mul_mod_self_left, Nat.mod_eq_of_lt hv]
    have hrest : x / 2 ^ (l + n) = packFields fs := by
      rw [Nat.pow_add, ← Nat.div_div_eq_div_mul, hx, packFields, Nat.add_mul_div_left _ _ (Nat.two_pow_pos n),
        Nat.div_eq_of_lt hv, Nat.zero_add]
    rw [List.map_cons, List.map_cons, unpackAt, hhead, ih hfs hrest]

theorem unpackAt_packFields {fs : List (Nat × Nat)} (hfit : FieldsFit fs) :
    unpackAt (packFields fs) 0 (fs.map Prod.snd) = fs.map Prod.fst :=
  unpackAt_of_div hfit (by simp)

/-- A word as wide as its fields is the row of them. -/
theorem packFields_unpackAt (x l : Nat) (ns : List Nat) (hx : x / 2 ^ l < 2 ^ ns.sum) :
    packFields ((unpackAt x l ns).zip ns) = x / 2 ^ l := by
  induction ns generalizing l with
  | nil =>
    have : x / 2 ^ l = 0 := by simpa using hx
    rw [this]; rfl
  | cons n ns ih =>
    have hdiv : x / 2 ^ (l + n) = x / 2 ^ l / 2 ^ n := by rw [Nat.pow_add, ← Nat.div_div_eq_div_mul]
    have hrest : x / 2 ^ (l + n) < 2 ^ ns.sum := by
      rw [hdiv]
      refine Nat.div_lt_of_lt_mul ?_
      rwa [← Nat.pow_add, ← List.sum_cons]
    rw [unpackAt, List.zip_cons_cons, packFields, ih (l + n) hrest, hdiv]
    exact Nat.mod_add_div _ _

/-! ### The Curd word (R225) -/

/-- The row of an instruction word. -/
def curdRow (op : Nat) (w : CurdWord) : List (Nat × Nat) :=
  [(op, 8), (w.pr, 3), (w.pn, 1), (w.rep, 16), (w.afmt, 2), (w.sa, 11), (w.sb, 11), (w.sc, 11), (w.dd, 11), (w.de, 11),
    (w.rd, 5), (w.rs1, 5), (w.rs2, 5), (w.rg0, 23), (w.rg1, 23), (w.rg2, 23), (w.rg3, 23), (w.imm, 64)]

def curdWidths : List Nat := [8, 3, 1, 16, 2, 11, 11, 11, 11, 11, 5, 5, 5, 23, 23, 23, 23, 64]

theorem curdWidths_sum : curdWidths.sum = 256 := rfl

theorem curdBits_eq_packFields (op : Nat) (w : CurdWord) : curdBits op w = packFields (curdRow op w) := by
  simp only [curdBits, curdRow, packFields]
  ring

theorem curdRow_fit {op : Nat} {w : CurdWord} (hop : op < 256) (hw : curdOk w = true) : FieldsFit (curdRow op w) := by
  simp only [curdOk, Bool.and_eq_true, decide_eq_true_eq, and_assoc] at hw
  obtain ⟨h1, h2, h3, h4, h5, h6, h7, h8, h9, h10, h11, h12, h13, h14, h15, h16, h17⟩ := hw
  simp only [curdRow, fieldsFit_cons]
  exact ⟨hop, h1, h2, h3, h4, h5, h6, h7, h8, h9, h10, h11, h12, h13, h14, h15, h16, h17, fieldsFit_nil⟩

/-- The opcode and the fields of a word, in their order. -/
theorem curdRow_of_word (x : Nat) :
    curdRow (bitsAt x 0 8) (curdFields x) = (unpackAt x 0 curdWidths).zip curdWidths :=
  rfl

/-- The word of an opcode and fields in their widths reads back. -/
theorem curdFields_curdBits {op : Nat} {w : CurdWord} (hop : op < 256) (hw : curdOk w = true) :
    bitsAt (curdBits op w) 0 8 = op ∧ curdFields (curdBits op w) = w := by
  have hread := unpackAt_packFields (curdRow_fit hop hw)
  rw [← curdBits_eq_packFields] at hread
  generalize curdBits op w = x at hread
  simp only [curdRow, List.map_cons, List.map_nil, unpackAt, List.cons.injEq, and_true] at hread
  obtain ⟨h0, h1, h2, h3, h4, h5, h6, h7, h8, h9, h10, h11, h12, h13, h14, h15, h16, h17⟩ := hread
  refine ⟨h0, ?_⟩
  cases w
  simp only [curdFields, bitsAt, CurdWord.mk.injEq]
  exact ⟨h1, h2, h3, h4, h5, h6, h7, h8, h9, h10, h11, h12, h13, h14, h15, h16, h17⟩

/-- Every 256-bit word is the word of its opcode and its fields. -/
theorem curdBits_curdFields {x : Nat} (hx : x < 2 ^ 256) : curdBits (bitsAt x 0 8) (curdFields x) = x := by
  have hfull : x / 2 ^ 0 < 2 ^ curdWidths.sum := by rwa [Nat.pow_zero, Nat.div_one, curdWidths_sum]
  rw [curdBits_eq_packFields, curdRow_of_word, packFields_unpackAt x 0 curdWidths hfull, Nat.pow_zero, Nat.div_one]

/-- What R241 has under an opcode is encoded under that opcode, which is one byte. -/
theorem encodeCurd_of_curdInstr {core op : Nat} {w : CurdWord} {i : Instr} (h : curdInstr core op w = some i) :
    encodeCurd i = some (curdBits op w) ∧ op < 256 := by
  unfold curdInstr at h
  split at h
  case h_59 => cases h
  all_goals (cases h; exact ⟨rfl, by decide⟩)

/-- Settles O58: the word is a row of fields as wide as itself, read and written field by field. -/
theorem curdRoundTrip : Obligations.CurdRoundTrip := by
  refine ⟨fun core op w i hw hi => ?_, fun core x i hx hi => ?_⟩
  · obtain ⟨henc, hop⟩ := encodeCurd_of_curdInstr hi
    obtain ⟨hbits, hfields⟩ := curdFields_curdBits hop hw
    refine ⟨henc, ?_, by rw [decodeCurd, hbits, hfields, hi]⟩
    rw [curdBits_eq_packFields]
    exact packFields_lt_of_width (curdRow_fit hop hw) curdWidths_sum
  · rw [decodeCurd] at hi
    rw [(encodeCurd_of_curdInstr hi).1, curdBits_curdFields hx]

end Sys2Proof

namespace Sys2Proof.Machine

/-! ### Little-endian bytes -/

theorem length_leBytes (n x : Nat) : (leBytes n x).length = n := by
  induction n generalizing x with
  | zero => rfl
  | succ n ih => rw [leBytes, List.length_cons, ih]

theorem leVal_leBytes (n x : Nat) : leVal (leBytes n x) = x % 256 ^ n := by
  induction n generalizing x with
  | zero => rw [leBytes, leVal, Nat.pow_zero, Nat.mod_one]
  | succ n ih =>
    have hbyte : (BitVec.ofNat 8 (x % 256)).toNat = x % 256 := by
      rw [BitVec.toNat_ofNat]
      exact Nat.mod_mod_of_dvd _ (dvd_refl _)
    rw [leBytes, leVal, ih, hbyte, Nat.pow_succ, Nat.mul_comm _ 256, Nat.mod_mul]

/-- A number at the front of a run of bytes. -/
theorem leAt_zero_leBytes {n x : Nat} (hx : x < 2 ^ (8 * n)) (r : List Byte) : leAt (leBytes n x ++ r) 0 n = x := by
  have hpow : (256 : Nat) ^ n = 2 ^ (8 * n) := (Nat.pow_mul 2 8 n).symm
  have hlen : (leBytes n x).length = n := length_leBytes n x
  rw [leAt, List.drop_zero, List.take_append_of_le_length hlen.ge, List.take_of_length_le hlen.le, leVal_leBytes,
    hpow, Nat.mod_eq_of_lt hx]

/-- A number behind the first bytes of a run. -/
theorem leAt_leBytes_append (m y : Nat) (r : List Byte) (off n : Nat) :
    leAt (leBytes m y ++ r) (m + off) n = leAt r off n := by
  have hlen : (leBytes m y).length = m := length_leBytes m y
  rw [leAt, leAt, List.drop_append, hlen, List.drop_of_length_le (by omega), Nat.add_sub_cancel_left, List.nil_append]

/-! ### The words of the headers -/

theorem bit01_lt (b : Bool) : bit01 b < 2 ^ 1 := by cases b <;> decide

theorem bit01_beq_one (b : Bool) : (bit01 b == 1) = b := by cases b <;> rfl

/-- Each field of the common header is in its width. -/
def HeaderFits (p : Packet) : Prop :=
  (p.ver < 16 ∧ p.ptype < 16 ∧ p.vc < 8 ∧ p.tc < 8 ∧ p.ttl < 64 ∧ p.plen < 8192 ∧ p.rsv0 < 8 ∧ p.dst < 2 ^ 20 ∧ p.rsv1 < 16) ∧
    (p.src < 2 ^ 20 ∧ p.seq < 2 ^ 24 ∧ p.tag < 65536 ∧ p.rsv2 < 16) ∧ (p.addr < 2 ^ 56 ∧ p.rsv3 < 256) ∧
    (p.linkSeq < 2 ^ 24 ∧ p.rsv4 < 256 ∧ p.crc < 2 ^ 32)

theorem packetOk_iff {p : Packet} : packetOk p = true ↔ HeaderFits p ∧ p.payload.length = p.plen ∧ ∀ e ∈ p.ext, extOk e = true := by
  simp only [packetOk, HeaderFits, Bool.and_eq_true, decide_eq_true_eq]
  cases p.ext with
  | none => simp; tauto
  | some e => simp; tauto

section Header
variable {p : Packet}

def word0Row (p : Packet) : List (Nat × Nat) :=
  [(p.ver, 4), (p.ptype, 4), (p.vc, 3), (p.tc, 3), (bit01 p.ce, 1), (bit01 p.dm, 1), (p.ttl, 6), (bit01 p.last, 1),
    (bit01 p.ext.isSome, 1), (p.plen, 13), (p.rsv0, 3), (p.dst, 20), (p.rsv1, 4)]

def word1Row (p : Packet) : List (Nat × Nat) := [(p.src, 20), (p.seq, 24), (p.tag, 16), (p.rsv2, 4)]

def word2Row (p : Packet) : List (Nat × Nat) := [(p.addr, 56), (p.rsv3, 8)]

/-- Bytes 24 to 27 of the common header. -/
def pktWord3 (p : Packet) : Nat := p.linkSeq % 2 ^ 24 + p.rsv4 % 256 * 2 ^ 24

def word3Row (p : Packet) : List (Nat × Nat) := [(p.linkSeq, 24), (p.rsv4, 8)]

theorem word0Row_fit (h : HeaderFits p) : FieldsFit (word0Row p) := by
  obtain ⟨⟨h1, h2, h3, h4, h5, h6, h7, h8, h9⟩, -⟩ := h
  simp only [word0Row, fieldsFit_cons]
  exact ⟨h1, h2, h3, h4, bit01_lt _, bit01_lt _, h5, bit01_lt _, bit01_lt _, h6, h7, h8, h9, fieldsFit_nil⟩

theorem word1Row_fit (h : HeaderFits p) : FieldsFit (word1Row p) := by
  obtain ⟨-, ⟨h1, h2, h3, h4⟩, -⟩ := h
  simp only [word1Row, fieldsFit_cons]
  exact ⟨h1, h2, h3, h4, fieldsFit_nil⟩

theorem word2Row_fit (h : HeaderFits p) : FieldsFit (word2Row p) := by
  obtain ⟨-, -, ⟨h1, h2⟩, -⟩ := h
  simp only [word2Row, fieldsFit_cons]
  exact ⟨h1, h2, fieldsFit_nil⟩

theorem word3Row_fit (h : HeaderFits p) : FieldsFit (word3Row p) := by
  obtain ⟨-, -, -, h1, h2, -⟩ := h
  simp only [word3Row, fieldsFit_cons]
  exact ⟨h1, h2, fieldsFit_nil⟩

theorem pktWord0_eq (h : HeaderFits p) : pktWord0 p = packFields (word0Row p) := by
  obtain ⟨⟨h1, h2, h3, h4, h5, h6, h7, h8, h9⟩, -⟩ := h
  simp only [pktWord0, word0Row, packFields, Nat.mod_eq_of_lt h1, Nat.mod_eq_of_lt h2, Nat.mod_eq_of_lt h3,
    Nat.mod_eq_of_lt h4, Nat.mod_eq_of_lt h5, Nat.mod_eq_of_lt h6, Nat.mod_eq_of_lt h7, Nat.mod_eq_of_lt h8,
    Nat.mod_eq_of_lt h9]
  ring

theorem pktWord1_eq (h : HeaderFits p) : pktWord1 p = packFields (word1Row p) := by
  obtain ⟨-, ⟨h1, h2, h3, h4⟩, -⟩ := h
  simp only [pktWord1, word1Row, packFields, Nat.mod_eq_of_lt h1, Nat.mod_eq_of_lt h2, Nat.mod_eq_of_lt h3,
    Nat.mod_eq_of_lt h4]
  ring

theorem pktWord2_eq (h : HeaderFits p) : pktWord2 p = packFields (word2Row p) := by
  obtain ⟨-, -, ⟨h1, h2⟩, -⟩ := h
  simp only [pktWord2, word2Row, packFields, Nat.mod_eq_of_lt h1, Nat.mod_eq_of_lt h2]
  ring

theorem pktWord3_eq (h : HeaderFits p) : pktWord3 p = packFields (word3Row p) := by
  obtain ⟨-, -, -, h1, h2, -⟩ := h
  simp only [pktWord3, word3Row, packFields, Nat.mod_eq_of_lt h1, Nat.mod_eq_of_lt h2]
  ring

theorem word0_fields (h : HeaderFits p) : let a := pktWord0 p
    [bitsOf a 0 4, bitsOf a 4 4, bitsOf a 8 3, bitsOf a 11 3, bitsOf a 14 1, bitsOf a 15 1, bitsOf a 16 6, bitsOf a 22 1,
      bitsOf a 23 1, bitsOf a 24 13, bitsOf a 37 3, bitsOf a 40 20, bitsOf a 60 4] = (word0Row p).map Prod.fst := by
  rw [pktWord0_eq h]
  exact unpackAt_packFields (word0Row_fit h)

theorem word1_fields (h : HeaderFits p) : let a := pktWord1 p
    [bitsOf a 0 20, bitsOf a 20 24, bitsOf a 44 16, bitsOf a 60 4] = (word1Row p).map Prod.fst := by
  rw [pktWord1_eq h]
  exact unpackAt_packFields (word1Row_fit h)

theorem word2_fields (h : HeaderFits p) : let a := pktWord2 p
    [bitsOf a 0 56, bitsOf a 56 8] = (word2Row p).map Prod.fst := by
  rw [pktWord2_eq h]
  exact unpackAt_packFields (word2Row_fit h)

theorem word3_fields (h : HeaderFits p) : let a := pktWord3 p
    [bitsOf a 0 24, bitsOf a 24 8] = (word3Row p).map Prod.fst := by
  rw [pktWord3_eq h]
  exact unpackAt_packFields (word3Row_fit h)

/-- The words of the common header are in their width. -/
theorem pktWords_lt (h : HeaderFits p) :
    pktWord0 p < 2 ^ 64 ∧ pktWord1 p < 2 ^ 64 ∧ pktWord2 p < 2 ^ 64 ∧ pktWord3 p < 2 ^ 32 := by
  rw [pktWord0_eq h, pktWord1_eq h, pktWord2_eq h, pktWord3_eq h]
  exact ⟨packFields_lt_of_width (word0Row_fit h) rfl, packFields_lt_of_width (word1Row_fit h) rfl,
    packFields_lt_of_width (word2Row_fit h) rfl, packFields_lt_of_width (word3Row_fit h) rfl⟩

end Header

/-! ### The extension header -/

section Extension
variable {e : ExtHdr}

def extWord0 (e : ExtHdr) : Nat :=
  e.group % 4096 + e.epoch % 65536 * 2 ^ 12 + e.window % 1024 * 2 ^ 28 + e.block % 2 ^ 24 * 2 ^ 38 + e.accFmt % 4 * 2 ^ 62

def extWord1 (e : ExtHdr) : Nat :=
  e.lo % 2 ^ 17 + e.hiIncl % 2 ^ 17 * 2 ^ 17 + e.pgen % 16 * 2 ^ 34 + e.wfmt % 16 * 2 ^ 38 + e.rfmt % 16 * 2 ^ 42
    + e.spfmt % 4 * 2 ^ 46 + bit01 e.denseRx * 2 ^ 48 + bit01 e.esc * 2 ^ 49 + bit01 e.srnd * 2 ^ 50
    + bit01 e.accum * 2 ^ 51 + bit01 e.eow * 2 ^ 52 + e.rsvA % 8 * 2 ^ 53 + e.status % 256 * 2 ^ 56

def extWord2 (e : ExtHdr) : Nat :=
  e.nelem % 65536 + e.cNan % 256 * 2 ^ 16 + e.cInf % 256 * 2 ^ 24 + e.cRsv % 256 * 2 ^ 32 + e.cScale % 256 * 2 ^ 40
    + e.cSat % 256 * 2 ^ 48 + e.rsvB % 256 * 2 ^ 56

def ext0Row (e : ExtHdr) : List (Nat × Nat) :=
  [(e.group, 12), (e.epoch, 16), (e.window, 10), (e.block, 24), (e.accFmt, 2)]

def ext1Row (e : ExtHdr) : List (Nat × Nat) :=
  [(e.lo, 17), (e.hiIncl, 17), (e.pgen, 4), (e.wfmt, 4), (e.rfmt, 4), (e.spfmt, 2), (bit01 e.denseRx, 1), (bit01 e.esc, 1),
    (bit01 e.srnd, 1), (bit01 e.accum, 1), (bit01 e.eow, 1), (e.rsvA, 3), (e.status, 8)]

def ext2Row (e : ExtHdr) : List (Nat × Nat) :=
  [(e.nelem, 16), (e.cNan, 8), (e.cInf, 8), (e.cRsv, 8), (e.cScale, 8), (e.cSat, 8), (e.rsvB, 8)]

theorem extBytes_eq (e : ExtHdr) : extBytes e =
    leBytes 8 (extWord0 e) ++ leBytes 8 (extWord1 e) ++ leBytes 8 (extWord2 e) ++ leBytes 8 (e.digest % 2 ^ 64) :=
  rfl

/-- Each word of the extension header is its row of fields, and the row fits. -/
theorem extWords_eq (h : extOk e = true) :
    (extWord0 e = packFields (ext0Row e) ∧ FieldsFit (ext0Row e)) ∧ (extWord1 e = packFields (ext1Row e) ∧ FieldsFit (ext1Row e)) ∧
      (extWord2 e = packFields (ext2Row e) ∧ FieldsFit (ext2Row e)) ∧ e.digest < 2 ^ 64 := by
  simp only [extOk, Bool.and_eq_true, decide_eq_true_eq, and_assoc] at h
  obtain ⟨h1, h2, h3, h4, h5, h6, h7, h8, h9, h10, h11, h12, h13, h14, h15, h16, h17, h18, h19, h20, hdig⟩ := h
  refine ⟨⟨?_, ?_⟩, ⟨?_, ?_⟩, ⟨?_, ?_⟩, hdig⟩
  · simp only [extWord0, ext0Row, packFields, Nat.mod_eq_of_lt h1, Nat.mod_eq_of_lt h2, Nat.mod_eq_of_lt h3,
      Nat.mod_eq_of_lt h4, Nat.mod_eq_of_lt h5]
    ring
  · simp only [ext0Row, fieldsFit_cons]
    exact ⟨h1, h2, h3, h4, h5, fieldsFit_nil⟩
  · simp only [extWord1, ext1Row, packFields, Nat.mod_eq_of_lt h6, Nat.mod_eq_of_lt h7, Nat.mod_eq_of_lt h8,
      Nat.mod_eq_of_lt h9, Nat.mod_eq_of_lt h10, Nat.mod_eq_of_lt h11, Nat.mod_eq_of_lt h12, Nat.mod_eq_of_lt h13]
    ring
  · simp only [ext1Row, fieldsFit_cons]
    exact ⟨h6, h7, h8, h9, h10, h11, bit01_lt _, bit01_lt _, bit01_lt _, bit01_lt _, bit01_lt _, h12, h13, fieldsFit_nil⟩
  · simp only [extWord2, ext2Row, packFields, Nat.mod_eq_of_lt h14, Nat.mod_eq_of_lt h15, Nat.mod_eq_of_lt h16,
      Nat.mod_eq_of_lt h17, Nat.mod_eq_of_lt h18, Nat.mod_eq_of_lt h19, Nat.mod_eq_of_lt h20]
    ring
  · simp only [ext2Row, fieldsFit_cons]
    exact ⟨h14, h15, h16, h17, h18, h19, h20, fieldsFit_nil⟩

theorem extWord0_fields (h : extOk e = true) : let a := extWord0 e
    [bitsOf a 0 12, bitsOf a 12 16, bitsOf a 28 10, bitsOf a 38 24, bitsOf a 62 2] = (ext0Row e).map Prod.fst := by
  obtain ⟨⟨heq, hfit⟩, -⟩ := extWords_eq h
  rw [heq]
  exact unpackAt_packFields hfit

theorem extWord1_fields (h : extOk e = true) : let a := extWord1 e
    [bitsOf a 0 17, bitsOf a 17 17, bitsOf a 34 4, bitsOf a 38 4, bitsOf a 42 4, bitsOf a 46 2, bitsOf a 48 1, bitsOf a 49 1,
      bitsOf a 50 1, bitsOf a 51 1, bitsOf a 52 1, bitsOf a 53 3, bitsOf a 56 8] = (ext1Row e).map Prod.fst := by
  obtain ⟨-, ⟨heq, hfit⟩, -⟩ := extWords_eq h
  rw [heq]
  exact unpackAt_packFields hfit

theorem extWord2_fields (h : extOk e = true) : let a := extWord2 e
    [bitsOf a 0 16, bitsOf a 16 8, bitsOf a 24 8, bitsOf a 32 8, bitsOf a 40 8, bitsOf a 48 8, bitsOf a 56 8] =
      (ext2Row e).map Prod.fst := by
  obtain ⟨-, -, ⟨heq, hfit⟩, -⟩ := extWords_eq h
  rw [heq]
  exact unpackAt_packFields hfit

theorem extWords_lt (h : extOk e = true) : extWord0 e < 2 ^ 64 ∧ extWord1 e < 2 ^ 64 ∧ extWord2 e < 2 ^ 64 := by
  obtain ⟨⟨heq0, hfit0⟩, ⟨heq1, hfit1⟩, ⟨heq2, hfit2⟩, -⟩ := extWords_eq h
  rw [heq0, heq1, heq2]
  exact ⟨packFields_lt_of_width hfit0 rfl, packFields_lt_of_width hfit1 rfl, packFields_lt_of_width hfit2 rfl⟩

theorem length_extBytes (e : ExtHdr) : (extBytes e).length = 32 := by
  simp [extBytes_eq, length_leBytes]

/-- The extension header reads back. -/
theorem parseExt_extBytes (h : extOk e = true) : parseExt (extBytes e) = e := by
  obtain ⟨hlt0, hlt1, hlt2⟩ := extWords_lt h
  obtain ⟨-, -, -, hdig⟩ := extWords_eq h
  have hform : extBytes e = leBytes 8 (extWord0 e) ++ (leBytes 8 (extWord1 e) ++ (leBytes 8 (extWord2 e) ++
      (leBytes 8 e.digest ++ []))) := by
    rw [extBytes_eq, Nat.mod_eq_of_lt hdig, List.append_assoc, List.append_assoc, List.append_nil]
  have ha : leAt (extBytes e) 0 8 = extWord0 e := by rw [hform, leAt_zero_leBytes hlt0]
  have hb : leAt (extBytes e) 8 8 = extWord1 e := by
    rw [hform, leAt_leBytes_append 8 _ _ 0 8, leAt_zero_leBytes hlt1]
  have hc : leAt (extBytes e) 16 8 = extWord2 e := by
    rw [hform, leAt_leBytes_append 8 _ _ 8 8, leAt_leBytes_append 8 _ _ 0 8, leAt_zero_leBytes hlt2]
  have hd : leAt (extBytes e) 24 8 = e.digest := by
    rw [hform, leAt_leBytes_append 8 _ _ 16 8, leAt_leBytes_append 8 _ _ 8 8, leAt_leBytes_append 8 _ _ 0 8,
      leAt_zero_leBytes hdig]
  have h0 := extWord0_fields h
  have h1 := extWord1_fields h
  have h2 := extWord2_fields h
  simp only [ext0Row, ext1Row, ext2Row, List.map_cons, List.map_nil, List.cons.injEq, and_true] at h0 h1 h2
  simp only [parseExt, ha, hb, hc, hd, h0, h1, h2, bit01_beq_one]

end Extension

/-! ### The bytes of a packet (R41, R55) -/

section Image
variable {p : Packet}

theorem pktImage_eq (p : Packet) : pktImage p =
    leBytes 8 (pktWord0 p) ++ (leBytes 8 (pktWord1 p) ++ (leBytes 8 (pktWord2 p) ++ (leBytes 4 (pktWord3 p) ++
      (leBytes 4 p.crc ++ (extPart p ++ p.payload))))) := by
  simp only [pktImage, hdrBytes, pktWord3, List.append_assoc]

theorem length_extPart (p : Packet) : (extPart p).length = 32 * bit01 p.ext.isSome := by
  cases hext : p.ext with
  | none => simp [extPart, hext, bit01]
  | some e => simp [extPart, hext, bit01, length_extBytes]

/-- What follows the common header. -/
theorem drop_pktImage (p : Packet) (n : Nat) :
    (pktImage p).drop (32 + n) = (extPart p ++ p.payload).drop n := by
  have hhead : (leBytes 8 (pktWord0 p) ++ leBytes 8 (pktWord1 p) ++ leBytes 8 (pktWord2 p) ++ leBytes 4 (pktWord3 p) ++
      leBytes 4 p.crc).length = 32 := by
    simp [length_leBytes]
  rw [pktImage_eq, ← List.append_assoc, ← List.append_assoc, ← List.append_assoc, ← List.append_assoc,
    List.drop_append, hhead, List.drop_of_length_le (by omega), Nat.add_sub_cancel_left, List.nil_append]

theorem length_pktImage (hlen : p.payload.length = p.plen) : (pktImage p).length = pktBytes p := by
  simp only [pktImage, hdrBytes, List.length_append, length_leBytes, length_extPart, hlen, pktBytes]

/-- A packet whose fields fit reads back from its bytes. -/
theorem parsePacket_pktImage (h : packetOk p = true) : parsePacket (pktImage p) = p := by
  obtain ⟨hfit, hlen, hext⟩ := packetOk_iff.mp h
  obtain ⟨hlt0, hlt1, hlt2, hlt3⟩ := pktWords_lt hfit
  have hcrc : p.crc < 2 ^ 32 := hfit.2.2.2.2.2
  have ha : leAt (pktImage p) 0 8 = pktWord0 p := by rw [pktImage_eq, leAt_zero_leBytes hlt0]
  have hb : leAt (pktImage p) 8 8 = pktWord1 p := by
    rw [pktImage_eq, leAt_leBytes_append 8 _ _ 0 8, leAt_zero_leBytes hlt1]
  have hc : leAt (pktImage p) 16 8 = pktWord2 p := by
    rw [pktImage_eq, leAt_leBytes_append 8 _ _ 8 8, leAt_leBytes_append 8 _ _ 0 8, leAt_zero_leBytes hlt2]
  have hd : leAt (pktImage p) 24 4 = pktWord3 p := by
    rw [pktImage_eq, leAt_leBytes_append 8 _ _ 16 4, leAt_leBytes_append 8 _ _ 8 4, leAt_leBytes_append 8 _ _ 0 4,
      leAt_zero_leBytes hlt3]
  have hk : leAt (pktImage p) 28 4 = p.crc := by
    rw [pktImage_eq, leAt_leBytes_append 8 _ _ 20 4, leAt_leBytes_append 8 _ _ 12 4, leAt_leBytes_append 8 _ _ 4 4,
      leAt_leBytes_append 4 _ _ 0 4, leAt_zero_leBytes hcrc]
  have h0 := word0_fields hfit
  have h1 := word1_fields hfit
  have h2 := word2_fields hfit
  have h3 := word3_fields hfit
  simp only [word0Row, word1Row, word2Row, word3Row, List.map_cons, List.map_nil, List.cons.injEq, and_true] at h0 h1 h2 h3
  have hparts : (if p.ext.isSome = true then some (parseExt (((pktImage p).drop 32).take 32)) else none) = p.ext ∧
      ((pktImage p).drop (if p.ext.isSome = true then 64 else 32)).take p.plen = p.payload := by
    rw [drop_pktImage p 0, List.drop_zero]
    cases hx : p.ext with
    | none =>
      have hpart : extPart p = [] := by simp [extPart, hx]
      simp [drop_pktImage p 0, hpart, ← hlen]
    | some e =>
      have hpart : extPart p = extBytes e := by simp [extPart, hx]
      have h32 : (extBytes e).length = 32 := length_extBytes e
      have htake : (extBytes e ++ p.payload).take 32 = extBytes e := by
        rw [List.take_append_of_le_length h32.ge, List.take_of_length_le h32.le]
      have hdrop : (extBytes e ++ p.payload).drop 32 = p.payload := by
        rw [List.drop_append, h32, List.drop_of_length_le h32.le, Nat.sub_self, List.drop_zero, List.nil_append]
      have hread : parseExt (extBytes e) = e := parseExt_extBytes (hext e hx)
      simp [drop_pktImage p 32, hpart, htake, hdrop, hread, ← hlen]
  obtain ⟨hpart, hpay⟩ := hparts
  simp only [parsePacket, ha, hb, hc, hd, hk, h0, h1, h2, h3, bit01_beq_one, hpart, hpay]

end Image

/-- Settles O59: the headers and the payload read back one after the other; e2e_crc takes the hop fields as 0 (R55). -/
theorem packetRoundTrip : Obligations.PacketRoundTrip :=
  ⟨fun _ h => ⟨parsePacket_pktImage h, length_pktImage (packetOk_iff.mp h).2.1⟩, fun _ _ _ _ _ _ _ _ => rfl⟩

end Sys2Proof.Machine
end

/-!
PROOFS. Statements that some state fails: O15 (02_fabric_transport.md), O25 (04_canonical_reduction.md), O36
(06_curd_execution.md), O45 (08_stream_programs.md) and O8 (15_registers.md). Each refutation writes out its state, and the kernel evaluates the model on it.
-/
section
namespace Sys2Proof.Machine

/-! ### O15: a table of ports with three entries of one number -/

/-- A port that is UP and carries nothing. -/
def upPort : Port := { Port.none with formed := true, st := .up }

/-- The table of ports lists port 0 three times; the first entry, which a read finds, is a port that is down and not formed, and
so equal to what an unlisted port reads as. A store of that value takes out the first entry only. -/
def triplePorts : State := { State.reset with ports := [(0, Port.none), (0, Port.none), (0, upPort)] }

/-- Refutes O15: on a table of ports that is not canonical the port that goes down is not DOWN afterwards, because each store of
the empty port takes out one entry and the last entry, a port that is UP, shows. -/
theorem not_linkDownEffect : ¬ Obligations.LinkDownEffect := by
  rintro ⟨hdown, -⟩
  have hcanon : RegsOk triplePorts := by decide +kernel
  obtain ⟨hst, -⟩ := hdown triplePorts 0 (by decide +kernel) (by decide +kernel) (by decide +kernel) (by decide +kernel) hcanon
  have hup : ((linkDown 0 triplePorts).port 0).st ≠ .down := by decide +kernel
  exact hup hst

/-! ### O25: an input whose ingress buffer is a spill buffer -/

def spillKey : Key := ⟨0, 0, 0, 0⟩

/-- An open slot without an input, with room for one partial in the slice. -/
def spillSlot : Slot :=
  { k := spillKey, st := .opened, pgen := 0, nelem := 4, accFmt := 0, spfmt := 0, latch := ⟨0, 0, 0, 0, 0⟩, array := 0, qd := 0,
    accepted := [], emitted := [], parts := [], cen := Census.zero, reqs := [], reserved := 0, sramQuota := 1, sends := 0,
    result := none, resBuf := none, maskWait := none, values := none, twinAt := none, sumWait := false, downs := 0 }

def spillExt : ExtHdr := { statusExt spillKey 0 0 0 0 0 with nelem := 4 }
def spillPacket : Packet := rawPacket 1 ptCwrite vcCup 0 0 0 (some spillExt) (List.replicate 16 1)

/-- The input stands alone in buffer 2^20, which is none of a slice. -/
def spillInput : InPkt :=
  { port := 0, pkt := spillPacket, buf := none, org := .none, held := false, seq := 0, pool := none, frame := 0, tc := 0,
    home := some (2 ^ 20) }

def spillState : State :=
  { State.reset with
    slots := [spillSlot], regs := [(pgCellar 0 + 0x118, 0x4000000)],
    ports := [(0, { Port.none with formed := true, credBufs := [(vcCup, 2 ^ 20)] })] }

/-- The place of the partial that the statement names. -/
def spillStart : Nat := memKey (spCellar (bufQuad (2 ^ 20))) (bufOff spillState (2 ^ 20))

/-- Refutes O25: an input whose own ingress buffer has a number beyond the buffers of the slices keeps it as its partial's buffer,
and the partial is written to HBM, outside the place that the statement computes. -/
theorem not_slotPlacement : ¬ Obligations.SlotPlacement := by
  intro h
  have hbuf : (claimBuf (some spillInput) spillSlot spillState).1 = some (true, 2 ^ 20) := by decide +kernel
  have houtside : spillStart + bufBytes ≤ memKey (spHbm 0) 64 := by decide +kernel
  have hwritten : tget memDefault (placeInput (some spillInput) false spillPacket spillExt 0 spillState).mem (memKey (spHbm 0) 64)
      ≠ tget memDefault spillState.mem (memKey (spHbm 0) 64) := by decide +kernel
  have hclaim : claimBuf (some spillInput) spillSlot spillState
      = (some (true, 2 ^ 20), (claimBuf (some spillInput) spillSlot spillState).2) :=
    Prod.ext hbuf rfl
  obtain ⟨-, -, -, -, -, -, hmem⟩ := h spillState _ (some spillInput) false spillPacket spillExt 0 (2 ^ 20) true spillSlot
    (by decide +kernel) (by decide +kernel) hclaim (by decide +kernel) (by decide +kernel)
  exact hwritten (hmem (by decide +kernel) (by decide +kernel) _ (.inr houtside))

/-! ### O36: an illegal word 2 cycles after a branch -/

/-- NOP with rep 1: an illegal word of a known opcode (R228, R240). -/
def repNop : CurdWord := curdFields (2 ^ 12)

/-- Core 0 runs, and its next instruction, the illegal NOP, may issue in the next cycle at the earliest. -/
def afterBranch : State :=
  { State.reset with
    regs := (State.reset.setFld (pgVat 0) vatPstore_psPages 1).regs
    vats := [(0, { State.reset.vat 0 with icache := [⟨0, 0, leBytes 256 (2 ^ 12)⟩] })]
    cores := [(0, { Core.idle with st := .running, issueFrom := 1 })] }

/-- The cycle in which the state after a result stands. -/
def nextCyc : Result → Option Nat
  | .next s => some s.cyc
  | _ => none

/-- Refutes O36: the clause about an illegal word does not ask that the 2 cycles after a branch have passed, and in a state in
which they have not the exception is taken one cycle later. -/
theorem not_curdIssue : ¬ Obligations.CurdIssue := by
  rintro ⟨-, hword, -⟩
  obtain ⟨-, -, -, -, hillegal⟩ := hword afterBranch 0 0 repNop (.cNop 0 repNop) rfl (by decide +kernel) (by decide +kernel)
    (by decide +kernel)
  have hexec : exec (.cNop 0 repNop) afterBranch = .next (curdExc 0 1 0 0 afterBranch) :=
    hillegal (by decide +kernel) (by decide +kernel) (by decide +kernel)
  have hcyc : nextCyc (exec (.cNop 0 repNop) afterBranch) = some 1 := by decide +kernel
  have hexc : (curdExc 0 1 0 0 afterBranch).cyc = 0 := by decide +kernel
  rw [hexec, nextCyc, hexc] at hcyc
  simp at hcyc

/-! ### O45: the local memory of a Vat whose number is the boot ROM's space -/

/-- A SORT call that no rank of its group receives. -/
def romBlk : CallBlk := ⟨2, 2 ^ 17, 0, 0, 0, []⟩

def romCall : Call :=
  { off := 0, prog := 2, num := 0, failed := false, refused := false, fids := [], streams := [], rej := 0, dup := 0, late := 0,
    deadline := none, reserved := false, wheyHeld := [], poolHeld := [], overflow := 0, fetched := [] }

/-- A core of Vat 41, whose local memory has the number of the boot ROM's space. -/
def romCore : Nat := 328

theorem spLocal_romCore : spLocal (vatOf romCore) = spRom := by decide

theorem rdBytes_rom (s t : State) (off n : Nat) : rdBytes s spRom off n = rdBytes t spRom off n := by
  induction n generalizing off with
  | zero => rfl
  | succ n ih => simp only [rdBytes, ih (off + 1), rdByte, if_true]

/-- Refutes O45: what a call of a core of Vat 41 leaves at bytes 40 to 47 of its block is the boot ROM's, whatever its status. -/
theorem not_libraryResults : ¬ Obligations.LibraryResults := by
  rintro ⟨hend, -⟩
  have hread : ∀ st, rdLe (endCall romCore romBlk romCall st 0 (fun _ => 0) State.reset) spRom 40 8 = st % 2 ^ 64 := by
    intro st
    have hwf : Memory.wf (forAll (fun r s => endRecord romCore romBlk romCall r 0 st 0 s) (receivers State.reset romBlk)
        State.reset).mem = true := by
      have hnone : receivers State.reset romBlk = [] := by decide +kernel
      rw [hnone]
      rfl
    obtain ⟨-, -, hst, -⟩ := hend State.reset romCore romBlk romCall st 0 (fun _ => 0) rfl rfl (by decide) rfl hwf
    rw [spLocal_romCore] at hst
    simpa [romCall] using hst
  have hzero := hread 0
  have hone := hread 1
  rw [rdLe, rdBytes_rom _ State.reset] at hzero hone
  rw [hzero] at hone
  exact absurd hone (by decide)

/-! ### O8: a register file with two entries of one address -/

/-- The register file lists a route entry twice. -/
def twiceRoute : State := { State.reset with regs := [(routeAt 0, 1), (routeAt 0, 2)] }

/-- Requester of the writes here: a Rind core. -/
def rindReq : Nat := 600

/-- What a result's next state reads at an address. -/
def nextRd (addr : Nat) : Result → Option U64
  | .next s => some (s.rd addr)
  | _ => none

/-- Refutes O8: on a register file that is not canonical a route entry is written field by field; the field that makes the entry
equal to its Reset value takes it out, and the fields after it are written to the second entry. -/
theorem not_registerWrites : ¬ Obligations.RegisterWrites := by
  rintro ⟨-, -, hroute, -⟩
  have hexec := hroute twiceRoute rindReq 0 0x10000 (by decide +kernel) (by decide) (by decide +kernel) (by decide +kernel)
    (by decide +kernel) rfl
  have hrd : nextRd (routeAt 0) (exec (.registerWrite rindReq (routeAt 0) 0x10000) twiceRoute) = some 0x10002 := by
    decide +kernel
  rw [hexec] at hrd
  exact absurd hrd (by decide +kernel)

end Sys2Proof.Machine
end

/-!
PROOFS. 01_architecture.md, 15_registers.md, 02_fabric_transport.md: the step itself, the state after reset, and the telemetry of
a port.
-/
section
namespace Sys2Proof.Machine

/-! ### The step -/

/-- Settles O1: each clause is the step's own equation for a queue of that shape. -/
theorem stepRunsFront : Obligations.StepRunsFront := by
  refine ⟨fun c cs s => rfl, fun s hp => ?_, fun n w s => ⟨rfl, rfl⟩⟩
  rw [step, hp]

/-! ### Reset -/

theorem State.rd_reset (addr : Nat) : State.reset.rd addr = regReset Fuses.reset addr := rfl

/-- A register of a group's window entry. -/
theorem locate_grpAt {g o : Nat} (hg : g < 4096) (ho : o < 0x40) :
    locate (grpAt g + o) = some ⟨.wGrp, g, grpAt g, o⟩ := by
  have hpage : ¬ grpAt g + o < 0x0F000000 := by unfold grpAt; omega
  have hchip : ¬ grpAt g + o < 0x0F040000 := by unfold grpAt; omega
  have hwin : windows.find? (fun r => r.2.1 ≤ grpAt g + o && grpAt g + o < r.2.1 + r.2.2.1)
      = some (.wGrp, 0x0F040000, 0x40000, 0x40) := by
    apply List.find?_cons_of_pos
    simp only [Bool.and_eq_true, decide_eq_true_eq]
    unfold grpAt
    omega
  have hdiv : (grpAt g + o - 0x0F040000) / 0x40 = g := by unfold grpAt; omega
  have hmod : (grpAt g + o - 0x0F040000) % 0x40 = o := by unfold grpAt; omega
  rw [locate, if_neg hpage, if_neg hchip, hwin]
  simp only [hdiv, hmod]
  rfl

/-- The first register of every group holds the Reset value of its table. -/
theorem rd_reset_grpAt {g : Nat} (hg : g < 4096) : State.reset.rd (grpAt g) = State.reset.rd (grpAt 0) := by
  have hloc : ∀ {g}, g < 4096 → locate (grpAt g) = some ⟨.wGrp, g, grpAt g, 0⟩ := fun hg =>
    locate_grpAt (o := 0) hg (by decide)
  rw [State.rd_reset, State.rd_reset, regReset, regReset, hloc hg, hloc (g := 0) (by decide)]
  rfl

/-! ### Telemetry of a port -/

section
variable {s : State} {p : Nat}

/-- A write to a lane page of a port that is present and no member is the write itself. -/
theorem laneWrite_of_port (hp : lanePresent s.fuses p = true) (hm : isMember s p = false) (off : Nat)
    (f : Loc → State → State) : laneWrite p off f s = f (pageLoc .lane p (pgLane p) off) s := by
  simp [laneWrite, hp, hm]

theorem exec_telemetryClear_eq (req p : Nat) (s : State) :
    exec (.telemetryClear req p) s = .next (onPath req (laneWrite p 0x100 (fun _ s => teleClear p s)) s) := rfl

/-- The offset of a high-water mark, which is a gauge and stays (R461). -/
abbrev isHighWater (o : Nat) : Prop := o < 0x5C0 ∧ (o - 0x400) % 0x40 = 0x28

/-- One register of the clear. -/
def clearOne (p o : Nat) (s : State) : State := if isHighWater o then s else teleSet p o 0 s

theorem teleClear_eq (p : Nat) (s : State) : teleClear p s = forAll (clearOne p) teleOffsets s := rfl

/-- The table of the live telemetry is canonical. -/
abbrev TeleOk (s : State) : Prop := tabOk (fun _ => (0 : U64)) none s.tele = true

theorem teleOk_teleSet {q o v : Nat} (h : TeleOk s) : TeleOk (teleSet q o v s) :=
  tabOk_tset (fun _ => 0) none _ _ _ h (by simp)

theorem teleOf_teleSet_zero {o o' : Nat} (h : TeleOk s) :
    teleOf (teleSet p o' 0 s) p o = if pgLane p + o = pgLane p + o' then 0 else teleOf s p o := by
  split
  · rename_i heq
    rw [teleOf, heq]
    exact congrArg BitVec.toNat (tget_tset_ok (fun _ => (0 : U64)) none _ _ 0 h)
  · rename_i hne
    exact congrArg BitVec.toNat (tget_tset_other_ok (fun _ => (0 : U64)) none _ _ _ 0 h hne)

theorem teleOk_clearOne {o : Nat} (h : TeleOk s) : TeleOk (clearOne p o s) := by
  unfold clearOne
  split
  · exact h
  · exact teleOk_teleSet h

theorem teleOf_clearOne_zero {o o' : Nat} (h : TeleOk s) (hz : teleOf s p o = 0) : teleOf (clearOne p o' s) p o = 0 := by
  unfold clearOne
  split
  · exact hz
  · rw [teleOf_teleSet_zero h, hz, ite_self]

theorem teleOf_clearOne_self {o : Nat} (h : TeleOk s) (ho : ¬ isHighWater o) : teleOf (clearOne p o s) p o = 0 := by
  rw [clearOne, if_neg ho, teleOf_teleSet_zero h, if_pos rfl]

/-- Each register that the clear names and that is no high-water mark is 0 after it. -/
theorem teleOf_forAll_clearOne (os : List Nat) : ∀ {s : State}, TeleOk s → ∀ {o : Nat}, ¬ isHighWater o →
    (o ∈ os ∨ teleOf s p o = 0) → teleOf (forAll (clearOne p) os s) p o = 0 := by
  induction os with
  | nil => intro s _ o _ hz; simpa [forAll] using hz
  | cons o' os ih =>
    intro s hok o ho hz
    refine ih (teleOk_clearOne hok) ho ?_
    by_cases heq : o = o'
    · exact .inr (heq ▸ teleOf_clearOne_self hok ho)
    · rcases hz with hmem | hz
      · exact .inl ((List.mem_cons.mp hmem).resolve_left heq)
      · exact .inr (teleOf_clearOne_zero hok hz)

theorem forAll_clearOne_frame (os : List Nat) : ∀ s : State,
    ∃ u, forAll (clearOne p) os s = { s with tele := u } := by
  induction os with
  | nil => exact fun s => ⟨s.tele, rfl⟩
  | cons o os ih =>
    intro s
    have hone : ∃ u, clearOne p o s = { s with tele := u } := by
      unfold clearOne
      split
      · exact ⟨s.tele, rfl⟩
      · exact ⟨_, rfl⟩
    obtain ⟨u, hu⟩ := hone
    obtain ⟨w, hw⟩ := ih (clearOne p o s)
    exact ⟨w, hw.trans (by rw [hu])⟩

/-- Settles O21: over an open path each command is its own effect; the clear goes register by register. -/
theorem telemetry : Obligations.Telemetry := by
  refine ⟨fun s req p hopen hp hm => ?_, fun s req p hopen hp hm => ?_, fun s req p vc hopen hp hm hvc => ?_⟩
  · show Host.Outcome.next (onPath req (laneWrite p 0x100 (fun _ s => teleSnap p s)) s) = _
    rw [onPath_of_open _ _ _ hopen, laneWrite_of_port hp hm]
    rfl
  · obtain ⟨u, hu⟩ := forAll_clearOne_frame (p := p) teleOffsets s
    refine ⟨forAll (clearOne p) teleOffsets s, ?_, by rw [hu], fun hok o hmem ho => ?_⟩
    · rw [exec_telemetryClear_eq, onPath_of_open _ _ _ hopen, laneWrite_of_port hp hm, teleClear_eq]
    · exact teleOf_forAll_clearOne _ hok ho (.inl hmem)
  · have hmark : isHighWater (telVc vc 5) := by unfold isHighWater telVc; omega
    show Host.Outcome.next (onPath req (teleWrite p (telVc vc 5) 0) s) = _
    rw [onPath_of_open _ _ _ hopen, teleWrite, laneWrite_of_port hp hm, if_pos ⟨hmark.1, hmark.2, rfl⟩]

end

end Sys2Proof.Machine

namespace Sys2Proof
open Machine

/-- Settles O2: nothing is listed in any table, and each register named is one Reset value. -/
theorem resetState : Obligations.ResetState := by
  have hgroup : ∀ g, g < 4096 → grpFlag State.reset g grpCfg_enable = false ∧ grpFlag State.reset g grpCfg_enabled = false := by
    intro g hg
    have hrd : State.reset.rd (grpAt g + 0) = State.reset.rd (grpAt 0) := rd_reset_grpAt hg
    have henable : (fieldOf (State.reset.rd (grpAt 0)) 0 1 != 0) = false := by decide +kernel
    have henabled : (fieldOf (State.reset.rd (grpAt 0)) 1 1 != 0) = false := by decide +kernel
    refine ⟨?_, ?_⟩
    · rw [grpFlag, State.flag, State.fld]; exact hrd ▸ henable
    · rw [grpFlag, State.flag, State.fld]; exact hrd ▸ henabled
  have hcanon : Canon State.reset := by decide +kernel
  refine ⟨State.rd_reset, rfl, rfl, hcanon, fun p => ⟨rfl, rfl⟩, fun c => ⟨rfl, rfl⟩, hgroup, rfl, rfl, rfl, rfl, ?_, ?_, ?_, ?_⟩
  all_goals decide +kernel

end Sys2Proof
end

/-!
PROOFS. Further statements that some state fails: O11 and O30 (12_twin_faults_determinism.md, 05_collective_operation.md), O16
(02_fabric_transport.md), O19 (10_traffic_control.md) and O26 (04_canonical_reduction.md). Each refutation writes out its state, and the kernel
evaluates the model on it.
-/
section
namespace Sys2Proof.Machine

/-! ### O11: a BLK_CTRL that holds a 1 in its reset bit -/

/-- BLK_CTRL of Press array 0 holds enable and reset. -/
def resetHeld : State := { State.reset with regs := [(pgPress 0 + 0x10, 5)] }

/-- Press array 0's BLK_CTRL. -/
def pressCtrl : Loc := ⟨.press, 0, pgPress 0, 0x10⟩

/-- Refutes O11: where the register file lists a 1 in the reset bit of BLK_CTRL, a write of drain writes that bit again, which an
enabled unit counts with cause 2; the statement's next state does not. -/
theorem not_blockControl : ¬ Obligations.BlockControl := by
  intro h
  obtain ⟨-, hdrain, -⟩ := h resetHeld rindReq (pgPress 0) pressCtrl (by decide +kernel) (by decide +kernel) (by decide +kernel)
    (by decide) rfl rfl (by decide) (by decide +kernel)
  obtain ⟨hexec, -⟩ := hdrain (by decide +kernel) (by decide +kernel)
  have hrd : nextRd (pgPress 0 + 0x38) (exec (.drainUnit rindReq (pgPress 0)) resetHeld) = some 144115256795332609 := by
    decide +kernel
  rw [hexec] at hrd
  exact absurd hrd (by decide +kernel)

/-! ### O30: a group whose accumulator tags still have to settle -/

/-- Group 0 is enabled and holds no slot, and a block of an earlier epoch has still to settle. -/
def settlingGroup : State :=
  { State.reset with
    regs := (State.reset.setFld (grpAt 0) grpCfg_enabled 1).regs, grps := [(0, { Grp.reset with settles := [(0, 0)] })] }

/-- The blocks that a group of a result's next state has to settle. -/
def nextSettles (g : Nat) : Result → Option (List (Nat × Nat))
  | .next s => some (s.grp g).settles
  | _ => none

/-- Refutes O30: a write of enable 0 also gives up the blocks that wait to settle, which the statement's next state keeps. -/
theorem not_groupControl : ¬ Obligations.GroupControl := by
  rintro ⟨-, -, -, hoff⟩
  obtain ⟨t, hexec, rfl⟩ := hoff settlingGroup rindReq 0 0 (by decide +kernel) (by decide) (by decide +kernel) (by decide +kernel)
    (by decide +kernel) (by decide +kernel)
  have hsettles : nextSettles 0 (exec (.groupDisable rindReq 0 0) settlingGroup) = some [] := by decide +kernel
  rw [hexec] at hsettles
  exact absurd hsettles (by decide +kernel)

/-! ### O16: an ingress buffer whose bytes lie beyond the stacks -/

/-- A port that receives, and whose one ingress buffer is a spill buffer behind a spill area that starts beyond the stacks. -/
def spillPort : State :=
  { State.reset with
    regs := [(pgCellar 0 + 0x118, 0x6D00000)],
    ports := [(0, { Port.none with formed := true, rxOn := true, credBufs := [(vcCup, 2 ^ 20)] })] }

/-- The register file of a result's next state. -/
def nextRegs : Result → Option (List (Nat × U64))
  | .next s => some s.regs
  | _ => none

/-- Refutes O16: a packet that takes a buffer whose bytes lie beyond the stacks is written to a refused page, which is counted in
the Cellar's registers. -/
theorem not_linkRetry : ¬ Obligations.LinkRetry := by
  rintro ⟨hclean, -⟩
  obtain ⟨t, hexec, -, -, -, -, -, -, -, hregs, -⟩ := hclean spillPort 0 0 spillPacket (by decide +kernel) (by decide +kernel)
    (by decide +kernel) (by decide +kernel) (by decide +kernel) (.inl rfl) (by decide +kernel)
  have hcounted : nextRegs (exec (.packetArrive 0 .clean ⟨0, 0⟩ spillPacket) spillPort) ≠ some spillPort.regs := by
    decide +kernel
  apply hcounted
  rw [hexec, nextRegs, hregs]

/-! ### O19: a gate list of entries without length -/

/-- The frame that the port has to send. -/
def gatePkt : EPkt := { load := .jfp spillPacket, vc := vcCup, tc := 0, org := .none, bufs := [], unit := 600 }

/-- The registers of port 0 with its gates on and two entries that open every class for no time. -/
def zeroGateRegs : State :=
  (((State.reset.setFld (pgLane 0) prtGateCfg_gateOn 1).setFld (pgLane 0) prtGateCfg_lenM1 1).setFld (pgLane 0)
    prtGcl_open 255).setFld (pgLane 0 + 8) prtGcl_open 255

/-- Port 0 is UP, and the first entry of its list ends now. -/
def zeroGates : State :=
  { zeroGateRegs with
    ports := [(0, { Port.none with
      formed := true, st := .up, egress := [gatePkt], gateEnd := some 0, gTx := List.replicate 7 1000 })] }

/-- The place of port `p` in its gate list in a result's next state. -/
def nextGate (p : Nat) : Result → Option Nat
  | .next s => some (s.port p).gateIdx
  | _ => none

/-- Refutes O19: with entries of interval 0 a port stands one entry further each time its list is brought up to date, and the
clause about a packet that has arrived whole brings it up to date once on one side and twice on the other. -/
theorem not_packetSend : ¬ Obligations.PacketSend := by
  rintro ⟨-, -, -, -, -, -, -, -, -, habort, -⟩
  have hpick : (pickNew (gateView zeroGates 0) 0).2 = some gatePkt := by decide +kernel
  have hgate : nextGate 0 (exec (.packetSend 0 true) zeroGates) = some 1 := by decide +kernel
  have hview : nextGate 0 (exec (.packetSend 0 false) (gateView zeroGates 0)) = some 0 := by decide +kernel
  obtain ⟨hwhole, -⟩ := habort zeroGates _ 0 (pickNew (gateView zeroGates 0) 0).1 gatePkt spillPacket (by decide +kernel) rfl
    (by decide +kernel) (by decide +kernel) (by decide +kernel) (Prod.ext rfl hpick) rfl (by decide +kernel)
    (by decide +kernel)
  rw [hwhole rfl, hview] at hgate
  exact absurd hgate (by decide)

/-! ### O26: a parent formed in a spill buffer -/

/-- Two siblings of a slot: the left one in the spill buffer 2^20, the right one without a buffer. -/
def spillLeft : Partial := ⟨0, 0, .dense, [(0, 0x3F800000)], Census.zero, true, some (2 ^ 20), 0⟩
def spillRight : Partial := ⟨1, 1, .dense, [], Census.zero, false, none, 0⟩

def pairSlot : Slot := { spillSlot with parts := [spillLeft, spillRight] }
def pairState : State := { spillState with slots := [pairSlot] }

/-- Refutes O26: a parent whose buffer has a number beyond the buffers of the slices is written to HBM, outside the place that
the statement computes. -/
theorem not_pressAndAccumulator : ¬ Obligations.PressAndAccumulator := by
  rintro ⟨-, -, hform, -⟩
  have hwritten : tget memDefault (formNode pairSlot spillLeft spillRight pairState).mem (memKey (spHbm 0) 66)
      ≠ tget memDefault pairState.mem (memKey (spHbm 0) 66) := by decide +kernel
  have houtside : memKey (spCellar (bufQuad (2 ^ 20))) (bufOff pairState (2 ^ 20)) + bufBytes ≤ memKey (spHbm 0) 66 := by
    decide +kernel
  obtain ⟨-, -, -, hmem⟩ := hform pairState pairSlot spillLeft spillRight (by decide +kernel) (by decide +kernel) (by decide +kernel)
  exact hwritten
    (hmem (by decide +kernel) (by decide +kernel) (2 ^ 20) rfl (fun h => nomatch h) _ (.inr houtside))

end Sys2Proof.Machine
end

/-!
PROOFS. 02_fabric_transport.md: bring-up (O12), link control frames (O14), and timers and credit (O17). A port's record is
written in several steps; each of them leaves a record that is listed in the table, so the last one stands.
-/
section
namespace Sys2Proof.Machine

/-! ### The table of ports -/

theorem ne_none_of_formed {x : Port} (h : x.formed = true) : x ≠ Port.none := by
  rintro rfl
  exact absurd h (by decide)

theorem ne_none_of_rxOn {x : Port} (h : x.rxOn = true) : x ≠ Port.none := by
  rintro rfl
  exact absurd h (by decide)

theorem port_setPort {x : Port} (h : x ≠ Port.none) (s : State) (p : Nat) : (s.setPort p x).port p = x :=
  tget_tset_self _ _ _ _ h

theorem setPort_setPort {x : Port} (h : x ≠ Port.none) (s : State) (p : Nat) (y : Port) :
    (s.setPort p x).setPort p y = s.setPort p y := by
  simp only [State.setPort, tset_tset _ _ _ _ _ h]

/-- A second update of a record that is listed. -/
theorem updPort_setPort {x : Port} (h : x ≠ Port.none) (s : State) (p : Nat) (f : Port → Port) :
    (s.setPort p x).updPort p f = s.setPort p (f x) := by
  rw [State.updPort, port_setPort h, setPort_setPort h]

/-- A frame that leaves acknowledges what the port has received (R41). -/
theorem sendLctl_setPort {x : Port} (h : x ≠ Port.none) (s : State) (p kind : Nat) (body : List Byte) :
    sendLctl p kind body (s.setPort p x) =
      ((s.setPort p x).emit (.lctl p (mkLctl x kind body))).setPort p { x with acked := x.e } := by
  rw [sendLctl, port_setPort h]
  show ((s.setPort p x).emit _).setPort p _ = _
  rw [show ((s.setPort p x).emit (.lctl p (mkLctl x kind body))).port p = x from port_setPort h s p]

theorem inStep_iff (s : State) (p n : Nat) :
    inStep s p n = true ↔ (s.port p).formed = true ∧ (s.port p).st = .bringup ∧ (s.port p).step = n := by
  simp [inStep, and_assoc]

theorem isNative_iff (x : Port) : isNative x = true ↔ x.formed = true ∧ x.eth = false := by simp [isNative]

/-! ### O12 -/

theorem fecLock_startStep3 {s : State} {p : Nat} (hf : (s.port p).formed = true) (hfid : s.ownFid ≠ 0) :
    let y := { s.port p with step := 3, stepAt := s.cyc, stepEnd := some (s.cyc + 4000000) }
    startStep3 p s = ((s.setPort p y).emit (.lctl p (mkLctl y 2 (helloBody (s.setPort p y) p)))).setPort p
        { y with helloAt := some (s.cyc + 20000), acked := y.e } := by
  intro y
  have hy : y ≠ Port.none := ne_none_of_formed hf
  have hbody : helloBody s p = helloBody (s.setPort p y) p := by
    rw [helloBody, helloBody, port_setPort hy]
    rfl
  rw [startStep3, if_neg hfid, hbody]
  show (sendLctl p 2 _ (s.setPort p y)).updPort p _ = _
  rw [sendLctl_setPort hy]
  exact updPort_setPort (ne_none_of_formed (by exact hf)) _ _ _

/-- The record of a port that comes UP (R40 step 7). -/
def upped (x : Port) (cyc : Nat) : Port :=
  { x with st := .up, step := 7, stepEnd := none, helloAt := none, lastLctl := cyc, idleSince := cyc }

theorem linkUp_setPort {x : Port} (h : x.formed = true) (s : State) (p : Nat) :
    linkUp p (s.setPort p x) = drainedDown p (raiseEv (pgLane p) 8
      (if x.eth then fillHeadroom p (s.setPort p (upped x s.cyc)) else s.setPort p (upped x s.cyc))) := by
  have hup : (s.setPort p x).updPort p (fun x => upped x s.cyc) = s.setPort p (upped x s.cyc) :=
    updPort_setPort (ne_none_of_formed h) _ _ _
  have hport : (s.setPort p (upped x s.cyc)).port p = upped x s.cyc := port_setPort (ne_none_of_formed (by exact h)) _ _
  show drainedDown p (raiseEv (pgLane p) 8 (if (State.port ((s.setPort p x).updPort p (fun x => upped x s.cyc)) p).eth then
    fillHeadroom p ((s.setPort p x).updPort p (fun x => upped x s.cyc)) else (s.setPort p x).updPort p (fun x => upped x s.cyc))) = _
  rw [hup, hport]
  rfl

/-- Settles O12, clause by clause: each command is one step of R40 on the port's record. -/
theorem linkBringup : Obligations.LinkBringup := by
  unfold Obligations.LinkBringup
  refine ⟨?_, ?_, ?_, ?_, ?_, ?_, ?_⟩
  · intro s p h
    constructor <;> show Host.Outcome.next (if _ then _ else _) = _ <;> rw [if_pos h] <;> rfl
  · intro s p h heth hfid
    obtain ⟨hf, -, -⟩ := (inStep_iff ..).1 h
    show Host.Outcome.next (if _ then _ else _) = _
    rw [if_pos h, fecLocked, if_neg (by simp [heth]), fecLock_startStep3 hf hfid]
  · intro s p h heth hrtt
    obtain ⟨hf, -, -⟩ := (inStep_iff ..).1 h
    show Host.Outcome.next (if _ then _ else _) = _
    rw [if_pos h, fecLocked, if_pos heth, if_pos hrtt]
    show Host.Outcome.next (linkUp p (s.setPort p { s.port p with rtt := _ })) = _
    rw [linkUp_setPort (by exact hf), if_pos (by exact heth)]
    rfl
  · intro s p h heth hrtt
    show Host.Outcome.next (if _ then _ else _) = _
    rw [if_pos h, fecLocked, if_pos heth, if_neg (by omega)]
    rfl
  · intro s p t hat ht hstep
    show Host.Outcome.next (match (s.port p).helloAt with | some t => _ | none => _) = _
    have hf : (s.port p).formed = true := hstep.elim (fun h => ((inStep_iff ..).1 h).1) (fun h => ((inStep_iff ..).1 h).1)
    simp only [hat]
    rw [if_pos ⟨hstep, ht⟩]
    exact congrArg Host.Outcome.next (updPort_setPort (ne_none_of_formed (by exact hf)) _ _ _)
  · intro s p t hst hend ht hstep
    show Host.Outcome.next (match (s.port p).stepEnd with | some t => _ | none => _) = _
    simp only [hend]
    rw [if_pos ⟨hst, ht⟩]
    rcases hstep with h | h | h | h <;> simp [h]
  · intro s p t hst hat ht hup hfree
    have hf : (s.port p).formed = true := by
      simp only [wantsUp, Bool.and_eq_true] at hup
      exact hup.1.1.1
    show Host.Outcome.next (match (s.port p).retryAt with | some t => _ | none => _) = _
    simp only [hat]
    rw [if_pos ⟨hst, ht, hup⟩, startBringup, if_pos hfree]
    exact congrArg Host.Outcome.next (updPort_setPort (ne_none_of_formed (by exact hf)) _ _ _)

/-! ### O14 -/

/-- BLK_EV_STAT of a port's page has Reset value 0, and so has an address beyond the BAR. -/
theorem regReset_lane_evStat (f : Fuses) (p : Nat) : regReset f (pgLane p + 0x20) = 0 := by
  by_cases hp : p < 512
  · have hq : (pgLane p + 0x20) / 0x4000000 = p / 128 := by unfold pgLane; omega
    have ho : (pgLane p + 0x20) % 0x4000000 = p % 128 * 0x1000 + 0x20 := by unfold pgLane; omega
    have hlane : (p % 128 * 0x1000 + 0x20) / 0x1000 < 128 := by omega
    have hoff : (p % 128 * 0x1000 + 0x20) % 0x1000 = 0x20 := by omega
    rw [regReset, locate, if_pos (by unfold pgLane; omega), hq, ho, locateQuad, if_pos hlane, hoff]
    rfl
  · have hwin : windows.find? (fun r => r.2.1 ≤ pgLane p + 0x20 && pgLane p + 0x20 < r.2.1 + r.2.2.1) = none := by
      apply List.find?_eq_none.2
      have hbar : 0x10000000 ≤ pgLane p := by unfold pgLane; omega
      simp only [windows, List.forall_mem_cons, Bool.and_eq_true, decide_eq_true_eq]
      refine ⟨?_, ?_, ?_, ?_, ?_, ?_, ?_, ?_, fun _ h => nomatch h⟩ <;> omega
    rw [regReset, locate, if_neg (by unfold pgLane; omega), if_neg (by unfold pgLane; omega), hwin]

/-- Writing a value that is listed leaves every other key alone, whatever an unlisted one reads as. -/
theorem tget_tset_of_ne {α : Type} [DecidableEq α] (d e : α) (t : Tab α) {k j : Nat} {v : α} (hv : v ≠ d) (hj : j ≠ k) :
    tget e (tset d t k v) j = tget e t j := by
  induction t with
  | nil => simp [tset, tget, hv, hj]
  | cons x r ih =>
    obtain ⟨a, y⟩ := x
    by_cases hlt : k < a
    · have hja : j < a → j ≠ a := Nat.ne_of_lt
      by_cases hjk : j < k
      · have hja' : j < a := by omega
        simp [tset, tget, hv, hlt, hj, hjk, hja', hja hja']
      · simp [tset, tget, hv, hlt, hj, hjk]
    · by_cases heq : k = a
      · subst heq; simp [tset, tget, hv, hj]
      · simp [tset, tget, hlt, heq, ih]

/-- Raising an event of a port leaves every other register alone, in any register file. -/
theorem rd_raiseEv_lane_of_ne (s : State) (p k : Nat) (hk : k < 64) {b : Nat} (hb : b ≠ pgLane p + 0x20) :
    (raiseEv (pgLane p) k s).rd b = s.rd b := by
  refine tget_tset_of_ne _ _ _ ?_ hb
  intro h
  have hbit := congrArg (BitVec.getLsbD · k) h
  have hreset : regReset s.fuses (pgLane p + 0x20) = 0 := regReset_lane_evStat s.fuses p
  simp only [hreset, BitVec.getLsbD_or, BitVec.getLsbD_ofNat, Nat.testBit_two_pow, hk] at hbit
  simp at hbit

/-- What the FEC decoder counted changes the live telemetry only. -/
theorem fecSeen_eq (p : Nat) (c : RxFec) (s : State) : ∃ m, fecSeen p c s = { s with tele := m } := by
  unfold fecSeen teleAdd
  split_ifs
  all_goals first | exact ⟨_, rfl⟩
  
@[simp] theorem fecSeen_port (s : State) (p q : Nat) (c : RxFec) : (fecSeen p c s).port q = s.port q := by
  obtain ⟨m, hm⟩ := fecSeen_eq p c s
  rw [hm]
  rfl

@[simp] theorem fecSeen_cyc (s : State) (p : Nat) (c : RxFec) : (fecSeen p c s).cyc = s.cyc := by
  obtain ⟨m, hm⟩ := fecSeen_eq p c s
  rw [hm]

/-- The record of a port that has heard a valid frame (R46). -/
def heard (x : Port) (cyc : Nat) : Port := { x with lastLctl := cyc }

/-- A valid frame of a port from step 3 on: its arrival is noted, and its kind is obeyed (R41). -/
theorem lctlIn_of_valid {s : State} {p : Nat} {c : RxFec} {f : Lctl} (hn : isNative (s.port p) = true)
    (hst : (s.port p).st ≠ .down) (hstep : 3 ≤ (s.port p).step) (hf : f = withLcrc f) (hver : f.ver = 1)
    (htype : f.ptype = ptLctl) (hkind : f.kind ≤ 5) :
    let s0 := fecSeen p c s
    let s1 := s0.setPort p (heard (s0.port p) s0.cyc)
    lctlIn p c f s = (match f.kind with
      | 0 => takeState p f s1
      | 1 => if (s0.port p).rxOn then takeNak p f s1 else s1
      | 2 => takeHello p f s1
      | 3 => sendLctl p 4 (f.body.take 8) s1
      | 4 => takeEcho p f s1
      | _ => linkDown p s1) := by
  have hcrc : f.lcrc = lctlCrc f := congrArg Lctl.lcrc hf
  have hgood : ¬(f.lcrc ≠ lctlCrc f ∨ f.ver ≠ 1 ∨ f.ptype ≠ ptLctl ∨ 5 < f.kind) := by
    rintro (h | h | h | h)
    exacts [h hcrc, h hver, h htype, absurd h (Nat.not_lt.2 hkind)]
  have hon : ¬(((fecSeen p c s).port p).st = .down ∨ ((fecSeen p c s).port p).step < 3) := by
    rw [fecSeen_port]
    rintro (h | h)
    exacts [hst h, absurd h (Nat.not_lt.2 hstep)]
  have hnat : ¬ isNative ((fecSeen p c s).port p) = false := by simp [hn]
  unfold lctlIn
  dsimp only
  rw [if_neg hnat, if_neg hgood, if_neg hon] <;> rfl

/-- A native port in one of the steps 3 to 6 takes valid frames. -/
theorem inStep_hears {s : State} {p n : Nat} (h : inStep s p n = true) (heth : (s.port p).eth = false) (hn : 3 ≤ n) :
    isNative (s.port p) = true ∧ (s.port p).st ≠ .down ∧ 3 ≤ (s.port p).step := by
  obtain ⟨hf, hst, hstep⟩ := (inStep_iff ..).1 h
  exact ⟨(isNative_iff _).2 ⟨hf, heth⟩, by simp [hst], by omega⟩

/-- The next ECHO_REQ of a port (R490). -/
theorem sendEcho_setPort {x : Port} (h : x.formed = true) (s : State) (p : Nat) :
    sendEcho p (s.setPort p x) = ((s.setPort p x).emit (.lctl p (mkLctl x 3 (leBytes 8 s.aon)))).setPort p
      { x with echoAt := some s.aon, stepEnd := some (s.cyc + 2000000), acked := x.e } := by
  rw [sendEcho, sendLctl_setPort (ne_none_of_formed h)]
  exact updPort_setPort (ne_none_of_formed (by exact h)) _ _ _

/-- The record of a port that starts step 4 (R490). -/
def measuring (x : Port) (cyc : Nat) : Port :=
  { x with step := 4, stepAt := cyc, stepEnd := some (cyc + 2000000), echoDone := 0, rtt := 0 }

theorem startStep4_setPort {x : Port} (h : x.formed = true) (s : State) (p : Nat) :
    startStep4 p (s.setPort p x) = sendEcho p (s.setPort p (measuring x s.cyc)) := by
  have hlimit : stepLimit p 4 (s.setPort p x) (some 2000000) =
      s.setPort p { x with step := 4, stepAt := s.cyc, stepEnd := some (s.cyc + 2000000) } :=
    updPort_setPort (ne_none_of_formed h) _ _ _
  rw [startStep4, hlimit]
  exact congrArg _ (updPort_setPort (ne_none_of_formed (by exact h)) _ _ _)

/-- An acknowledgement of packets that are still kept, or of none (R45). -/
theorem takeAck_setPort {x : Port} (h : x ≠ Port.none) (s : State) (p a : Nat) :
    (unacked x a = x.replay.length → takeAck p a (s.setPort p x) = s.setPort p x) ∧
    (unacked x a < x.replay.length → takeAck p a (s.setPort p x) = drainedDown p (twinDones (s.setPort p { x with
      replay := x.replay.drop (x.replay.length - unacked x a),
      resend := x.resend.map (fun r => if unacked x a < unacked x r then a else r),
      ackAt := if unacked x a = 0 then none else some (s.cyc + retryTime x) }))) := by
  constructor <;> intro hk <;> unfold takeAck <;> rw [port_setPort h] <;> dsimp only
  · rw [if_neg (by omega), if_pos hk]
  · rw [if_neg (by omega), if_neg (by omega), setPort_setPort h]
    rfl

/-- STATE in UP (R41). -/
theorem takeState_up {x : Port} (h : x ≠ Port.none) (hup : x.st = .up) (s : State) (p : Nat) (f : Lctl) :
    takeState p f (s.setPort p x) = takeAck p f.ackSeq (s.setPort p { x with gTx := f.credit }) := by
  unfold takeState
  rw [port_setPort h]
  dsimp only
  rw [if_pos hup]
  exact congrArg _ (updPort_setPort h _ _ _)

/-- STATE in step 6 makes a port of native mode that does not drain UP (R40). -/
theorem takeState_step6 {x : Port} (hf : x.formed = true) (heth : x.eth = false) (hst : x.st ≠ .up) (hstep : x.step = 6)
    (s : State) (p : Nat) (f : Lctl) (hdrain : isDrain s (pgLane p) = false) :
    takeState p f (s.setPort p x) =
      (raiseEv (pgLane p) 8 (s.setPort p (upped x s.cyc))).setPort p { upped x s.cyc with gTx := f.credit } := by
  have hx : x ≠ Port.none := ne_none_of_formed hf
  have hu : upped x s.cyc ≠ Port.none := ne_none_of_formed (by exact hf)
  have hev : isDrain (raiseEv (pgLane p) 8 (s.setPort p (upped x s.cyc))) (pgLane p) = false := by
    rw [← hdrain]
    unfold isDrain State.flag State.fld
    rw [rd_raiseEv_lane_of_ne _ _ _ (by decide) (by simp [blkCtrl_drain])]
    rfl
  unfold takeState
  rw [port_setPort hx]
  dsimp only
  rw [if_neg hst, if_pos hstep, linkUp_setPort hf, heth, if_neg Bool.false_ne_true, drainedDown, if_neg (by simp [hev])]
  exact congrArg (State.setPort _ p) (congrArg (fun x => { x with gTx := f.credit }) (port_setPort hu s p))

/-- A replay that is not the sixteenth in a row from one link_seq (R45, R46). -/
theorem startReplay_setPort {x : Port} (h : x ≠ Port.none) (s : State) (p a : Nat)
    (hruns : x.replayAt ≠ some a ∨ x.replayRuns < 15) :
    startReplay p a (s.setPort p x) = s.setPort p { x with
      resend := some a, replayAt := some a, replayRuns := if x.replayAt = some a then x.replayRuns + 1 else 1 } := by
  have hn : ¬ 16 ≤ if x.replayAt = some a then x.replayRuns + 1 else 1 := by
    split_ifs with hat
    · have := hruns.resolve_left (not_not.2 hat)
      omega
    · omega
  unfold startReplay
  rw [port_setPort h]
  dsimp only
  rw [if_neg hn, setPort_setPort h]

theorem teleAdd_setPort (q off n : Nat) (s : State) (p : Nat) (x : Port) :
    teleAdd q off n (s.setPort p x) = (teleAdd q off n s).setPort p x := by
  unfold teleAdd
  split_ifs <;> rfl

/-- A NAK that names the oldest packet still kept starts a replay of them all (R45). -/
theorem takeNak_setPort {x : Port} (h : x ≠ Port.none) {f : Lctl} (hone : 1 ≤ unacked x f.ackSeq)
    (hlast : unacked x f.ackSeq = x.replay.length) (hruns : x.replayAt ≠ some f.ackSeq ∨ x.replayRuns < 15) (s : State) (p : Nat)
    (hc : { x with gTx := f.credit } ≠ Port.none) :
    takeNak p f (s.setPort p x) = (teleAdd p telNakRx 1 s).setPort p { x with
      gTx := f.credit, resend := some f.ackSeq, replayAt := some f.ackSeq,
      replayRuns := if x.replayAt = some f.ackSeq then x.replayRuns + 1 else 1 } := by
  have hcredits : takeCredits p f ((teleAdd p telNakRx 1 s).setPort p x) =
      (teleAdd p telNakRx 1 s).setPort p { x with gTx := f.credit } := updPort_setPort h _ _ _
  unfold takeNak
  rw [teleAdd_setPort]
  dsimp only
  rw [port_setPort h, if_pos ⟨hone, hlast.le⟩, hcredits, (takeAck_setPort hc ..).1 hlast, startReplay_setPort hc _ _ _ hruns]

/-- Settles O14, kind by kind: a valid frame is noted and obeyed (R41), and each kind is one step on the port's record. -/
theorem linkControlFrames : Obligations.LinkControlFrames := by
  unfold Obligations.LinkControlFrames
  refine ⟨?_, ?_, ?_, ?_, ?_, ?_, ?_, ?_, ?_⟩
  · intro s p c f hn hbad
    have hin : lctlIn p c f s = teleAdd p telProto 1 (fecSeen p c s) := by
      unfold lctlIn
      dsimp only
      rw [fecSeen_port, if_neg (by simp [hn]), if_pos hbad, protoErr]
    exact ⟨congrArg _ hin, congrArg _ hin, congrArg _ hin, congrArg _ hin, congrArg _ hin, congrArg _ hin⟩
  · intro s p c f h heth hf hver htype hkind s0 y z
    obtain ⟨hn, hst, hstep⟩ := inStep_hears h heth le_rfl
    have hin : lctlIn p c f s = takeHello p f (s0.setPort p y) := by
      rw [lctlIn_of_valid hn hst hstep hf hver htype (by omega), hkind] <;> rfl
    obtain ⟨hyf, hbring, hstep3⟩ := (inStep_iff ..).1 h
    rw [← fecSeen_port s p p c] at hyf hbring hstep3
    have hport : (s0.setPort p y).port p = y := port_setPort (ne_none_of_formed (by exact hyf)) _ _
    have h3 : inStep (s0.setPort p y) p 3 = true := by
      rw [inStep_iff, hport]
      exact ⟨hyf, hbring, hstep3⟩
    constructor
    · intro hw heth'
      show Host.Outcome.next (lctlIn p c f s) = _
      rw [hin, takeHello, if_pos h3, hport, if_pos ⟨hw, heth'⟩, startStep4_setPort (by exact hyf), sendEcho_setPort (by exact hyf)]
      rfl
    · intro hbad
      show Host.Outcome.next (lctlIn p c f s) = _
      rw [hin, takeHello, if_pos h3, hport, if_neg hbad]
  · intro s p c f hn hst hstep hf hver htype hkind s0 y
    have hin : lctlIn p c f s = sendLctl p 4 (f.body.take 8) (s0.setPort p y) := by
      rw [lctlIn_of_valid hn hst hstep hf hver htype (by omega), hkind] <;> rfl
    have hyf : y ≠ Port.none := by
      obtain ⟨hyf, -⟩ := (isNative_iff _).1 hn
      rw [← fecSeen_port s p p c] at hyf
      exact ne_none_of_formed hyf
    show Host.Outcome.next (lctlIn p c f s) = _
    rw [hin, sendLctl_setPort hyf]
  · intro s p c f h heth hf hver htype hkind hecho haon s0 r x y
    obtain ⟨hn, hst, hstep⟩ := inStep_hears h heth (by decide)
    have hin : lctlIn p c f s = takeEcho p f (s0.setPort p (heard x s0.cyc)) := by
      rw [lctlIn_of_valid hn hst hstep hf hver htype (by omega), hkind] <;> rfl
    obtain ⟨hyf, hbring, hstep4⟩ := (inStep_iff ..).1 h
    rw [← fecSeen_port s p p c] at hyf hbring hstep4 hecho
    have hx : heard x s0.cyc ≠ Port.none := ne_none_of_formed (by exact hyf)
    have h4 : inStep (s0.setPort p (heard x s0.cyc)) p 4 ∧ (heard x s0.cyc).echoAt = some (leAt f.body 0 8) := by
      rw [inStep_iff, port_setPort hx]
      exact ⟨⟨hyf, hbring, hstep4⟩, hecho⟩
    have hr : ¬ 25000 < (s0.setPort p (heard x s0.cyc)).aon - leAt f.body 0 8 := by
      have : (s0.setPort p (heard x s0.cyc)).aon = s.aon := by
        show s0.cyc / 80 = _
        rw [fecSeen_cyc]
        rfl
      omega
    have htake : takeEcho p f (s0.setPort p (heard x s0.cyc)) =
        if y.echoDone < 8 then sendEcho p (s0.setPort p y) else step5 p (s0.setPort p y) := by
      rw [takeEcho, port_setPort hx]
      dsimp only
      rw [if_pos h4, if_neg hr, setPort_setPort hx] <;> rfl
    constructor
    · intro hdone
      show Host.Outcome.next (lctlIn p c f s) = _
      rw [hin, htake, if_pos hdone, sendEcho_setPort (by exact hyf)]
    · intro hdone
      show Host.Outcome.next (lctlIn p c f s) = _
      rw [hin, htake, if_neg (Nat.not_lt.2 hdone)]
  · intro s p c f h heth hdrain hf hver htype hkind s0
    obtain ⟨hn, hst, hstep⟩ := inStep_hears h heth (by decide)
    have hin : lctlIn p c f s = takeState p f (s0.setPort p (heard (s0.port p) s0.cyc)) := by
      rw [lctlIn_of_valid hn hst hstep hf hver htype (by omega), hkind] <;> rfl
    obtain ⟨hyf, hbring, hstep6⟩ := (inStep_iff ..).1 h
    rw [← fecSeen_port s p p c] at hyf hbring hstep6 heth
    have hdrain0 : isDrain s0 (pgLane p) = false := by
      rw [← hdrain]
      obtain ⟨m, hm⟩ := fecSeen_eq p c s
      show isDrain (fecSeen p c s) (pgLane p) = _
      rw [hm]
      rfl
    have hnup : (heard (s0.port p) s0.cyc).st ≠ .up := by
      show ((fecSeen p c s).port p).st ≠ _
      rw [hbring]
      decide
    have htake := takeState_step6 (x := heard (s0.port p) s0.cyc) hyf heth hnup hstep6 s0 p f hdrain0
    exact ⟨_, congrArg Host.Outcome.next (hin.trans htake), port_setPort (ne_none_of_formed (by exact hyf)) _ _, rfl, rfl, rfl⟩
  · intro s p c f hn hup hstep hf hver htype hkind hlast s0
    obtain ⟨hyf, -⟩ := (isNative_iff _).1 hn
    have hin : lctlIn p c f s = takeState p f (s0.setPort p (heard (s0.port p) s0.cyc)) := by
      rw [lctlIn_of_valid hn (by simp [hup]) hstep hf hver htype (by omega), hkind] <;> rfl
    rw [← fecSeen_port s p p c] at hyf hup hlast
    have hy : heard (s0.port p) s0.cyc ≠ Port.none := ne_none_of_formed (by exact hyf)
    show Host.Outcome.next (lctlIn p c f s) = _
    rw [hin, takeState_up hy (by exact hup)]
    exact congrArg Host.Outcome.next ((takeAck_setPort (ne_none_of_formed (by exact hyf)) s0 p f.ackSeq).1 hlast)
  · intro s p c f hn hup hstep hf hver htype hkind hlast s0 x k
    obtain ⟨hyf, -⟩ := (isNative_iff _).1 hn
    have hin : lctlIn p c f s = takeState p f (s0.setPort p (heard (s0.port p) s0.cyc)) := by
      rw [lctlIn_of_valid hn (by simp [hup]) hstep hf hver htype (by omega), hkind] <;> rfl
    rw [← fecSeen_port s p p c] at hyf hup hlast
    have hy : heard (s0.port p) s0.cyc ≠ Port.none := ne_none_of_formed (by exact hyf)
    show Host.Outcome.next (lctlIn p c f s) = _
    rw [hin, takeState_up hy (by exact hup)]
    exact congrArg Host.Outcome.next ((takeAck_setPort (ne_none_of_formed (by exact hyf)) s0 p f.ackSeq).2 hlast)
  · intro s p c f hn hup hrx hstep hf hver htype hkind hone hlast hruns s0 x
    obtain ⟨hyf, -⟩ := (isNative_iff _).1 hn
    rw [← fecSeen_port s p p c] at hyf hrx hone hlast hruns
    have hin : lctlIn p c f s = takeNak p f (s0.setPort p (heard x s0.cyc)) := by
      rw [lctlIn_of_valid hn (by simp [hup]) hstep hf hver htype (by omega), hkind]
      exact if_pos hrx
    have hy : heard x s0.cyc ≠ Port.none := ne_none_of_formed (by exact hyf)
    show Host.Outcome.next (lctlIn p c f s) = _
    rw [hin]
    exact congrArg Host.Outcome.next (takeNak_setPort hy hone hlast hruns s0 p (ne_none_of_formed (by exact hyf)))
  · intro s p c f hn hst hstep hf hver htype hkind s0
    show Host.Outcome.next (lctlIn p c f s) = _
    rw [lctlIn_of_valid hn hst hstep hf hver htype (by omega), hkind] <;> rfl

/-! ### O17 -/

/-- The VCs below `vc` are not due a step, so `vc` is the first that takes one. -/
theorem forAll_grantLanding {s : State} {p : Nat} (l : List Nat) (h : ∀ v ∈ l, stepIsDue s p v = false) :
    forAll (grantLanding p) l s = s := by
  induction l with
  | nil => rfl
  | cons v l ih =>
    have hv : grantLanding p v s = s := by simp [grantLanding, h v (by simp)]
    rw [forAll, hv, ih (fun w hw => h w (by simp [hw]))]

theorem forAll_append {α : Type} (f : α → State → State) (xs ys : List α) (s : State) :
    forAll f (xs ++ ys) s = forAll f ys (forAll f xs s) := by
  induction xs generalizing s with
  | nil => rfl
  | cons x xs ih => exact ih _

/-- Settles O17, clause by clause. -/
theorem linkTimersAndCredit : Obligations.LinkTimersAndCredit := by
  unfold Obligations.LinkTimersAndCredit
  refine ⟨?_, ?_, fun _ _ => rfl, ?_, ?_, ?_, ?_⟩
  · intro s p hrx
    show Host.Outcome.next (if _ then _ else _) = _
    rw [if_pos hrx]
    exact congrArg Host.Outcome.next (updPort_setPort (ne_none_of_rxOn (by exact hrx)) _ _ _)
  · intro s p hn hup hlast
    show Host.Outcome.next (if _ then _ else _) = _
    exact congrArg Host.Outcome.next (if_pos ⟨hn, hup, hlast⟩)
  · intro s p vc hdue hlong hfree hbelow x
    show Host.Outcome.next (if _ then _ else _) = _
    rw [if_neg (by simp [hdue]), if_pos hlong, List.range_succ, forAll_append,
      forAll_grantLanding _ (fun v hv => hbelow v (List.mem_range.1 hv))]
    exact congrArg Host.Outcome.next (if_pos (by simp [hdue, hfree]))
  · intro s p vc hdue hlong
    show Host.Outcome.next (if _ then _ else _) = _
    rw [if_neg (by simp [hdue]), if_pos hlong]
  · intro s p vc hdue hlong hwait
    have hgrant : exec (.creditGrant p vc) s = .next (match takeBuf (p / 128) vc p s with
        | some (b, s1) => grantStep p vc b s1
        | none => waitBuf (p / 128) vc p (.credit p vc) s) := by
      show Host.Outcome.next (if _ then _ else if _ then _ else if _ then _ else _) = _
      rw [if_neg (by simp [hdue]), if_neg (by simp [hlong]), if_neg (by simp [hwait])] <;> rfl
    constructor
    · intro b u hbuf
      rw [hgrant, hbuf]
      rfl
    · intro hbuf
      rw [hgrant, hbuf]
  · intro s p vc hlong hwait
    show Host.Outcome.next (if stepIsDue s p vc = false then s else if _ then _ else if _ then _ else _) = _
    rw [if_neg (c := (s.port p).longReach = true) (by simp [hlong]), if_pos hwait, ite_self]

end Sys2Proof.Machine
end

/-!
PROOFS. 02_fabric_transport.md and 10_traffic_control.md: entry into the switching core (O18) and management requests (O20).
-/
section
namespace Sys2Proof.Machine

section Entry
variable {s : State} {w : Waiting} {h : Packet} {u vc : Nat}

/-- The only packet that waits at a unit on a VC tries to enter the core, where nothing has to be fetched for it first. -/
theorem exec_switchEntry_single (hw : s.waiting.filter (fun x => x.unit == u && x.vc == vc) = [w]) (hbuf : needsBuf s w = false)
    (hmgmt : needsMgmt s w = false) (hland : w.landed = false) (hexp : expandEntry s w.load = none) :
    exec (.switchEntry u vc 0 .good) s = .next (enterCore w .good s) := by
  show Host.Outcome.next (match (s.waiting.filter (fun x => x.unit == u && x.vc == vc))[0]? with | none => _ | some w => _) = _
  have hat : waitingAt s u vc 0 = some w := by rw [waitingAt, hw]; rfl
  have hexpanded : enterExpanded w .good s = enterCore w .good s := by
    unfold enterExpanded
    rw [if_neg (by decide), hexp]
  rw [hw]
  simp [hbuf, hmgmt, hat, hland, hexpanded]

theorem unit_of_single (hw : s.waiting.filter (fun x => x.unit == u && x.vc == vc) = [w]) : w.unit = u := by
  have hmem : w ∈ s.waiting.filter (fun x => x.unit == u && x.vc == vc) := by simp [hw]
  have := (List.mem_filter.1 hmem).2
  simp only [Bool.and_eq_true, beq_iff_eq] at this
  exact this.1

/-- A JFP packet that is not the module's own goes by its header: to the switch's units or on its way. -/
theorem enterCore_jfp (hrefused : refusedRef s w = none) (horg : w.org = .none) (hload : w.load = .jfp h) (harr : arrived w = true)
    (hok : headerOk h = true) :
    enterCore w .good s = if addressedHere s h.dst then deliverLocal w s else forward w h s := by
  by_cases haddr : addressedHere s h.dst = true <;> unfold enterCore <;>
    simp [hrefused, horg, hload, loadHdr, hok, harr, countParity, haddr]

/-- A packet with a route and an eligible port enters toward that port (R64). -/
theorem forward_toward {c p : Nat} (httl : ¬ (arrived w = true ∧ h.ttl = 0))
    (hudp : (if h.ptype = ptCresult ∨ h.ptype = ptStatus then udpEntry s h.dst else none) = none)
    (hroute : routeSet s h.dst = some c) (hport : choosePort s c h.vc = some p) :
    forward w h s = enterNative p (some c) w h s := by
  unfold forward
  rw [if_neg httl, hudp]
  simp [hroute, hport]

/-- Away from a dateline a packet whose own check is good joins the egress of its VC, or stays for want of room (R24). -/
theorem enterNative_toward {p : Nat} (c : Nat) {q : Packet} {e : EPkt} (hload : loadPacket s w.load = some q)
    (hdate : s.flag (pgLane p) prtCfg_dateline = false) (hpass : passCheck w s = s)
    (he : e = ⟨.jfp (hopHdr s w p h.vc q), h.vc, (hopHdr s w p h.vc q).tc, w.org, w.bufs, w.unit⟩) :
    (hasRoom s.cyc (s.port p) h.vc e.tc (egressBytes e) = true → enterNative p (some c) w h s =
      joinEgress p e (takeOut w { s with candPos := tset 0 s.candPos c ((tget 0 s.candPos c + 1) % 16) })) ∧
    (hasRoom s.cyc (s.port p) h.vc e.tc (egressBytes e) = false → enterNative p (some c) w h s = s) := by
  subst he
  constructor <;> intro hroom <;> unfold enterNative <;> simp [hdate, hload, hpass, hroom]

end Entry

/-! ### The order of the inbox -/

theorem insertIn_perm (x : InPkt) (l : List InPkt) : (insertIn x l).Perm (x :: l) := by
  induction l with
  | nil => exact List.Perm.refl _
  | cons y ys ih =>
    unfold insertIn
    split_ifs
    · exact List.Perm.refl _
    · exact (ih.cons y).trans (List.Perm.swap x y ys)

theorem insertIn_pairwise (x : InPkt) {l : List InPkt} (hl : l.Pairwise (fun a b => a.seq ≤ b.seq)) :
    (insertIn x l).Pairwise (fun a b => a.seq ≤ b.seq) := by
  induction l with
  | nil => simp [insertIn]
  | cons y ys ih =>
    obtain ⟨hy, hys⟩ := List.pairwise_cons.1 hl
    unfold insertIn
    split_ifs with hlt
    · refine List.pairwise_cons.2 ⟨fun z hz => ?_, hl⟩
      rcases List.mem_cons.1 hz with rfl | hz
      · exact hlt.le
      · exact hlt.le.trans (hy z hz)
    · refine List.pairwise_cons.2 ⟨fun z hz => ?_, ih hys⟩
      rcases List.mem_cons.1 ((insertIn_perm x ys).mem_iff.1 hz) with rfl | hz
      · exact Nat.le_of_not_lt hlt
      · exact hy z hz

/-! ### Results -/

/-- The header of a result filled for the form `f` in which it is sent. -/
def sealedResult (h : Packet) (r : ResultBlk) (f : SentForm) : Packet :=
  let fill := fun (e : ExtHdr) =>
    { e with wfmt := f.fmt, esc := f.esc, cSat := f.csat, status := if f.esc then stEscaped else r.status }
  let p := { h with payload := f.bytes, plen := f.bytes.length, ext := h.ext.map fill }
  { p with crc := e2eCrc p }

/-- A result without a mask is sent without the positions of one. -/
theorem encodeResult_of_plain {s : State} {h : Packet} {r : ResultBlk} {q : Option MemberReq} (hform : r.form ≠ .masked) :
    encodeResult s h r q = sealedResult h r (sendForm r q []) := by
  show sealedResult h r (sendForm r q (if r.form = .masked then _ else [])) = _
  rw [if_neg hform]

/-- Settles O18: one packet that waits alone at its unit, traced through the core's cases, and the laws of the inbox and of a
result's header. -/
theorem switchEntry : Obligations.SwitchEntry := by
  unfold Obligations.SwitchEntry
  refine ⟨?_, ?_, ?_, ?_, ?_, ?_, ?_, ?_⟩
  · intro s w h u vc c p hw hbuf hmgmt hland hrefused horg hload harr haddr hok httl htype hroute hport hdate hcrc e
    have hu := unit_of_single hw
    have hkeep : (hopHdr s w p h.vc h).tc = h.tc := by simp [hopHdr, keepsTc, harr]
    have hgo := enterNative_toward (e := e) c (by rw [hload]; rfl) hdate (by simp [passCheck, hload, hcrc]) (by rw [hkeep, horg, hu])
    rw [exec_switchEntry_single hw hbuf hmgmt hland (by rw [hload]; rfl), enterCore_jfp hrefused horg hload harr hok,
      if_neg (by simp [haddr]), forward_toward (by omega) (by simp [htype]) hroute hport]
    exact ⟨by simp [hopHdr, harr], fun hroom => congrArg _ (hgo.1 hroom), fun hroom => congrArg _ (hgo.2 hroom)⟩
  · intro s w h u vc hw hbuf hmgmt hland hrefused horg hload harr haddr hok hvc
    rw [exec_switchEntry_single hw hbuf hmgmt hland (by rw [hload]; rfl), enterCore_jfp hrefused horg hload harr hok, if_pos haddr,
      deliverLocal, hload]
    simp [loadPacket, hok, hvc]
  · intro s w h u vc b hw hbuf hland hrefused horg hload harr haddr hok hvc hbufs
    have hmgmt : needsMgmt s w = false := by simp [needsMgmt, hbufs]
    rw [exec_switchEntry_single hw hbuf hmgmt hland (by rw [hload]; rfl), enterCore_jfp hrefused horg hload harr hok, if_pos haddr,
      deliverLocal, hload]
    simp [loadPacket, hok, hvc, harr, hbufs]
  · intro s w h u vc hw hbuf hmgmt hland hrefused horg hload harr haddr hok hreq htype
    have hu := unit_of_single hw
    rw [exec_switchEntry_single hw hbuf hmgmt hland (by rw [hload]; rfl), enterCore_jfp hrefused horg hload harr hok,
      if_neg (by simp [haddr])]
    constructor
    · intro httl
      rw [forward, if_pos ⟨harr, httl⟩, ttlExpired, hu]
      simp [hreq]
    · intro httl hroute
      rw [forward, if_neg (by omega), if_neg (by simp [htype]), hroute]
      simp [unreachable, noCandidate, hreq, hu, htype.1]
  · exact fun x l hl => ⟨insertIn_pairwise x hl, insertIn_perm x l⟩
  · intro s w h r q u vc c p hw hbuf hmgmt hland hrefused horg hload hcred hform haddr hdst hok htype hudp hroute hport hdate k e
    have hu := unit_of_single hw
    have harr : arrived w = false := by simp [arrived, hcred]
    have hexp : expandEntry s w.load = none := by
      rw [hload]
      cases q <;> simp [expandEntry, hform]
    have henter : enterCore w .good s = forward w h s := by
      unfold enterCore
      revert horg
      rcases w.org <;> simp [hrefused, hload, loadHdr, hok, harr, countParity, haddr, hdst]
    have hgo := enterNative_toward (e := e) c (by rw [hload]; rfl) hdate (by simp [passCheck, hload]) (by rw [hu])
    rw [exec_switchEntry_single hw hbuf hmgmt hland hexp, henter,
      forward_toward (by simp [harr]) (by simp [hudp]) hroute hport]
    exact ⟨fun hroom => congrArg _ (hgo.1 hroom), fun hroom => congrArg _ (hgo.2 hroom)⟩
  · intro s h e r q hform hext k f
    rw [show k = sealedResult h r f from encodeResult_of_plain hform]
    exact ⟨rfl, rfl, rfl, rfl, rfl, rfl, by simp [sealedResult, hext]⟩
  · intro r m hform
    constructor
    · rfl
    · simp [sendForm, hform]

/-! ### Management requests -/

section Mgmt
variable {s : State} {port : Nat} {p : Packet} {i : InPkt}

/-- A request with a good check that has no kept reply is applied, and its packet consumed (R60, R74). -/
theorem mgmtRequest_new (hfind : s.inbox.find? (fun x => x.port == port && x.pkt == p) = some i) (hcrc : crcGood p = true)
    (hkept : keptReply s p.src p.seq = none) :
    mgmtRequest port p s = consumed i (mgmtApply port p { s with inbox := s.inbox.erase i }) := by
  have hkept' : keptReply { s with inbox := s.inbox.erase i } p.src p.seq = none := hkept
  unfold mgmtRequest
  rw [takeInbox_of_find hfind]
  simp [hcrc, hkept']

/-- The same request again is answered by the kept reply (R74). -/
theorem mgmtRequest_again {q : Packet} (hfind : s.inbox.find? (fun x => x.port == port && x.pkt == p) = some i)
    (hcrc : crcGood p = true) (hkept : keptReply s p.src p.seq = some q) :
    mgmtRequest port p s = consumed i (mgmtAgain port q { s with inbox := s.inbox.erase i }) := by
  have hkept' : keptReply { s with inbox := s.inbox.erase i } p.src p.seq = some q := hkept
  unfold mgmtRequest
  rw [takeInbox_of_find hfind]
  simp [hcrc, hkept']

theorem exec_mgmtRead (hreq : isMgmtRequest p = true) (hlen : p.plen ≠ 8) :
    exec (.mgmtRead port p) s = .next (mgmtRequest port p s) :=
  congrArg Host.Outcome.next (if_pos ⟨hreq, hlen⟩)

theorem exec_mgmtWrite (hreq : isMgmtRequest p = true) (hlen : p.plen = 8) :
    exec (.mgmtWrite port p) s = .next (mgmtRequest port p s) :=
  congrArg Host.Outcome.next (if_pos ⟨hreq, hlen⟩)

/-- In-band access is open exactly where mgmt_en of the port is set, outside power-on reset (R453, R461). -/
theorem mgmtOpen_iff (hport : port < 512) : mgmtOpen s port = true ↔
    (s.pins.poresetN = true ∧ s.pins.pwrgood = true) ∧ s.flag (pgLane port) prtCfg_mgmtEn = true := by
  unfold mgmtOpen pathOpen
  cases s.pins.poresetN <;> cases s.pins.pwrgood <;> simp [hport]

end Mgmt

/-- Settles O20: the packet is taken from the inbox, judged by its check, its kept reply and its port, and consumed. -/
theorem managementRequests : Obligations.ManagementRequests := by
  unfold Obligations.ManagementRequests
  refine ⟨?_, ?_, ?_, ?_⟩
  · intro s port p i hreq hfind hcrc hport hen hpins hkept s1 r
    have hopen : ¬ mgmtOpen s1 port = false := by simp [(mgmtOpen_iff (s := s1) hport).2 ⟨hpins, hen⟩]
    constructor
    · intro hlen
      rw [exec_mgmtRead hreq (by omega), mgmtRequest_new hfind hcrc hkept, mgmtApply, if_neg hopen, if_pos hlen]
    · intro hlen
      rw [exec_mgmtWrite hreq hlen, mgmtRequest_new hfind hcrc hkept, mgmtApply, if_neg hopen, if_neg (by omega),
        if_pos hlen]
  · intro s port p q i hreq hlen hfind hcrc hkept
    rw [exec_mgmtWrite hreq hlen, mgmtRequest_again hfind hcrc hkept]
  · intro s port p i hreq hfind hcrc hport hen hkept t
    have hclosed : mgmtOpen { s with inbox := s.inbox.erase i } port = false := by
      rw [← Bool.not_eq_true, mgmtOpen_iff hport]
      rintro ⟨-, hen'⟩
      exact absurd (hen'.symm.trans hen) (by decide)
    have ht : consumed i (mgmtApply port p { s with inbox := s.inbox.erase i }) = t := by
      rw [mgmtApply, if_pos hclosed]
      rfl
    exact ⟨fun hlen => by rw [exec_mgmtRead hreq hlen, mgmtRequest_new hfind hcrc hkept, ht],
      fun hlen => by rw [exec_mgmtWrite hreq hlen, mgmtRequest_new hfind hcrc hkept, ht]⟩
  · intro s port p i hreply hfind s1
    have hexec : exec (.responseDelivery port p) s = .next (if crcGood p = false then consumed i (e2eFail port p s1)
        else if p.tag / 4096 = 0xF then laneReply i s1 else inbDeliver i s1) := by
      show Host.Outcome.next (if isReply p = false then s else _) = _
      rw [if_neg (by simp [hreply]), takeInbox_of_find hfind]
    refine ⟨fun hcrc => ?_, fun hcrc htag => ?_, fun hcrc htag => ?_⟩
    · rw [hexec, if_pos hcrc]
    · rw [hexec, if_neg (by simp [hcrc]), if_pos htag]
    · rw [hexec, if_neg (by simp [hcrc]), if_neg htag]

end Sys2Proof.Machine
end

/-!
PROOFS. 02_fabric_transport.md and 10_traffic_control.md: Ethernet-mode ports and meters (O22), and time gates (O34).
-/
section
namespace Sys2Proof.Machine

/-! ### Frames -/

section Frames
variable {s : State} {p : Nat} {f : EthFrame}

theorem ethUp_fecSeen (s : State) (p : Nat) (c : RxFec) : ethUp (fecSeen p c s) p = ethUp s p := by
  unfold ethUp
  rw [fecSeen_port]

theorem fecSeen_fld (s : State) (p : Nat) (c : RxFec) (base : Nat) (f : Fd) : (fecSeen p c s).fld base f = s.fld base f := by
  obtain ⟨m, hm⟩ := fecSeen_eq p c s
  rw [hm]
  rfl

/-- What the FEC decoder counted changes nothing that learning or the MAC table reads. -/
theorem macLearn_fecSeen_rd (vid mac p : Nat) (c : RxFec) (s : State) (addr : Nat) :
    (macLearn vid mac p (fecSeen p c s)).rd addr = (macLearn vid mac p s).rd addr := by
  obtain ⟨m, hm⟩ := fecSeen_eq p c s
  rw [hm]
  unfold macLearn macFind
  split_ifs <;> rfl

/-- A good frame that is no MAC control frame is learned and taken (R81). -/
theorem exec_ethernetFrame_good (hup : ethUp s p = true) (hlen : 64 ≤ frameLen f ∧ frameLen f ≤ 9216) (hfcs : f.fcsOk = true)
    (hetype : f.etype ≠ etMacControl) (n : Nat) :
    exec (.ethernetFrame p ⟨⟨n, 0⟩, f⟩) s = .next (frameTake p f (fecSeen p ⟨n, 0⟩ s)) := by
  show Host.Outcome.next (if ethUp (fecSeen p ⟨n, 0⟩ s) p = false then _ else if _ then _ else if _ then _ else if _ then _ else
    if _ then _ else _) = _
  have hbad : ¬ (f.fcsOk = false ∨ 0 < (⟨n, 0⟩ : RxFec).uncorrectable) := by simp [hfcs]
  rw [if_neg (by simp [ethUp_fecSeen, hup]), if_neg (by simp; omega), if_neg (by simp; omega), if_neg hbad, if_neg hetype]

/-- A frame of a VLAN is learned; then it is a solicitation, JFP over UDP, or to be bridged (R81, R86, R88). -/
theorem frameTake_of_vid {vid : Nat} (hvid : frameVid s p f = some vid) (c : RxFec) :
    let t := macLearn vid f.smac p (fecSeen p c s)
    frameTake p f (fecSeen p c s) = if isSolicit t f then solicitFrame p f t
      else if f.dmac = portMac t p then (match udpAccept t p f with
        | some q => placeFrame p ⟨.jfp q, vcCup, frameTc f, pktCredits q, [.none], frameLen f⟩ t
        | none => teleAdd p telUdp 1 t)
      else bridgeFrame p vid f t := by
  have hvid' : frameVid (fecSeen p c s) p f = some vid := by
    rw [← hvid]
    unfold frameVid
    rw [fecSeen_fld]
  unfold frameTake
  rw [hvid'] <;> rfl

/-- A frame of a class that no meter watches, or of one whose meter it finds red (R325, R327). -/
theorem meterAtPort_none {t : Nat} (h : meterOf s p t = none) (len : Nat) : meterAtPort p t len s = (false, s) := by
  simp [meterAtPort, h]

theorem meterAtPort_some {t m : Nat} (h : meterOf s p t = some m) (hturn : actAbove s (.meter m) p = false) (len : Nat) :
    meterAtPort p t len s = meterColour m len (noteAct (.meter m) p s) := by
  simp [meterAtPort, h, hturn, orNext]

/-- A colour does not depend on what else the cycle has seen done. -/
theorem meterColour_noteAct (m len : Nat) (a : Act) (n : Nat) (s : State) :
    (meterColour m len (noteAct a n s)).1 = (meterColour m len s).1 := by
  have hnow : meterNow (noteAct a n s) m = meterNow s m := rfl
  unfold meterColour
  rw [hnow]
  dsimp only
  split_ifs <;> rfl

end Frames

/-- Settles O22, clause by clause. -/
theorem ethernetPorts : Obligations.EthernetPorts := by
  unfold Obligations.EthernetPorts
  refine ⟨?_, ?_, ?_, ?_, ?_, ?_, ?_, ?_, ?_, ?_⟩
  · intro s p c f hup s0
    have hexec : exec (.ethernetFrame p ⟨c, f⟩) s = .next (if frameLen f < 64 then teleAdd p telRunt 1 s0
        else if 9216 < frameLen f then teleAdd p telOver 1 s0
        else if f.fcsOk = false ∨ 0 < c.uncorrectable then teleAdd p telFcs 1 s0
        else if f.etype = etMacControl then macControl p f s0 else frameTake p f s0) :=
      congrArg Host.Outcome.next (if_neg (by simp [ethUp_fecSeen, hup]))
    refine ⟨fun hlen => ?_, fun hlen => ?_, fun hmin hmax hbad => ?_⟩
    · rw [hexec, if_pos hlen]
    · rw [hexec, if_neg (by omega), if_pos hlen]
    · rw [hexec, if_neg (by omega), if_neg (by omega), if_pos hbad]
  · intro s p vid n f hup hlen hfcs hetype hvid hsol hmac
    have hsol' : isSolicit (macLearn vid f.smac p (fecSeen p ⟨n, 0⟩ s)) f = false := by
      rw [← hsol]
      unfold isSolicit moduleIp State.fld
      rw [macLearn_fecSeen_rd, macLearn_fecSeen_rd]
    have hmac' : ¬ f.dmac = portMac (macLearn vid f.smac p (fecSeen p ⟨n, 0⟩ s)) p := by
      unfold portMac State.fld at hmac ⊢
      rwa [macLearn_fecSeen_rd]
    rw [exec_ethernetFrame_good hup hlen hfcs hetype, frameTake_of_vid hvid, if_neg (by simp [hsol']), if_neg hmac']
  · intro s vid mac
    show Host.Outcome.next { s with macs := _ } = _
    congr 2
    refine List.filter_congr (fun m _ => ?_)
    rw [Bool.eq_iff_iff]
    simp [or_assoc]
  · intro s p t q n hup ht
    show Host.Outcome.next (if ethUp (fecSeen p ⟨n, 0⟩ s) p = false then _ else if 0 < 0 then _ else _) = _
    rw [if_neg (by simp [ethUp_fecSeen, hup]), if_neg (by omega), pfcTake]
    simp only [fecSeen_port, fecSeen_fld, fecSeen_cyc, if_neg ht]
  · intro s p t c hat hc ht
    show Host.Outcome.next (match at0 none (s.port p).pausedTo t with | some c => _ | none => _) = _
    simp only [hat, if_pos hc, if_neg ht]
  · intro s p t c hat hc hon hheld
    show Host.Outcome.next (match at0 none (s.port p).refreshAt t with | some c => _ | none => _) = _
    simp only [hat]
    rw [if_pos ⟨hc, hon, hheld⟩]
  · intro s p c hat hc hpaused
    show Host.Outcome.next (match (s.port p).cdnSince with | some c => _ | none => _) = _
    simp only [hat]
    rw [if_pos ⟨hc, hpaused⟩]
    rfl
  · intro s p vid n f hup hlen hfcs hetype hvid t
    have hexec := (exec_ethernetFrame_good hup hlen hfcs hetype n).trans (congrArg _ (frameTake_of_vid hvid _))
    refine ⟨fun hsol hmeter => ?_, fun hsol hmac hudp => ?_, fun q hsol hmac hudp => ?_⟩
    · rw [hexec, if_pos hsol, solicitFrame, meterAtPort_none hmeter]
      rfl
    · rw [hexec, if_neg (Bool.not_eq_true _ ▸ hsol), if_pos hmac, hudp]
    · rw [hexec, if_neg (Bool.not_eq_true _ ▸ hsol), if_pos hmac, hudp]
  · intro s m len x now b dt
    exact ⟨fun h => if_pos h, fun h => if_neg (Nat.pos_iff_ne_zero.1 h), rfl⟩
  · intro s p vid m f hmeter hturn hred
    have hred' : (meterColour m (frameLen f) (noteAct (.meter m) p s)).1 = true := (meterColour_noteAct ..).trans hred
    rw [bridgeFrame, meterAtPort_some hmeter hturn]
    exact if_pos (Or.inl hred')

/-! ### Time gates -/

section Gates
variable {s : State} {req p : Nat} {v : U64}

theorem exec_gateEnable (hopen : pathOpen s req = true) (hon : fieldOf v 0 1 = 1) :
    exec (.gateEnable req p v) s = .next (gateCfgWrite req p v s) := by
  show Host.Outcome.next (if fieldOf v 0 1 = 1 then onPath req (gateCfgWrite req p v) s else s) = _
  rw [if_pos hon, onPath, if_pos hopen]

theorem exec_gateDisable (hopen : pathOpen s req = true) (hoff : fieldOf v 0 1 = 0) :
    exec (.gateDisable req p v) s = .next (gateCfgWrite req p v s) := by
  show Host.Outcome.next (if fieldOf v 0 1 = 0 then onPath req (gateCfgWrite req p v) s else s) = _
  rw [if_pos hoff, onPath, if_pos hopen]

/-- A write to PRT_GATE_CFG is judged in the cycle in which it takes its turn (R321, R454). -/
theorem gateCfgWrite_turn (hp : lanePresent s.fuses p = true) (hm : isMember s p = false) :
    let a := pgLane p + 0x218
    let x := pageLoc .lane p (pgLane p) 0x218
    let on := fieldOf v 0 1 == 1
    let started := gateOn s p && gatesApply s p && s.same.oldReg.any (fun r => r.1 == a)
    let t := orNext ((on && gateLingers s p) || (!on && started && !lostRace s req a)) s
    let was := if lostRace t req a then lookFld t (pgLane p) prtGateCfg_gateEn == 1 else t.flag (pgLane p) prtGateCfg_gateEn
    let write := plainWrite req x v (fun _ => false)
    gateCfgWrite req p v s = if was ∧ on then discardWrite x t else if lostRace t req a then write t
      else if on then gateValidate p (write t) else if was then gateStop p (write (gateView t p)) else write t := by
  intro a x on started t was write
  rw [gateCfgWrite, laneWrite_of_port hp hm]
  rfl

/-- The write whose turn is in the next cycle has no race there. -/
theorem lostRace_orNext (late : Bool) {addr : Nat} (h : lostRace s req addr = false) : lostRace (orNext late s) req addr = false := by
  cases late
  · exact h
  · rfl

end Gates

/-- Settles O34: each write is judged by the value of gate_en in its turn, and an entry that ends makes way for the next. -/
theorem timeGates : Obligations.TimeGates := by
  unfold Obligations.TimeGates
  refine ⟨?_, ?_, ?_, ?_⟩
  · intro s0 s req p v hopen hp hm hon hs hrace w
    have hwrite : exec (.gateEnable req p v) s0 = .next (if s.flag (pgLane p) prtGateCfg_gateEn then errCount (pgLane p) 0x218 2 s
        else gateValidate p w) := by
      rw [exec_gateEnable hopen hon, gateCfgWrite_turn hp hm]
      have hturn : orNext ((fieldOf v 0 1 == 1 && gateLingers s0 p) || (!(fieldOf v 0 1 == 1) && (gateOn s0 p && gatesApply s0 p &&
          s0.same.oldReg.any (fun r => r.1 == pgLane p + 0x218)) && !lostRace s0 req (pgLane p + 0x218))) s0 = s := by
        simp [hon, hs]
      rw [hturn]
      cases s.flag (pgLane p) prtGateCfg_gateEn <;> simp [hrace, hon, w] <;> rfl
    refine ⟨fun hen i hcheck => ?_, fun hen hcheck => ?_, fun hen hcheck hsync => ?_, fun hen hcheck hsync => ?_, fun hen => ?_⟩
    · rw [hwrite, if_neg (by simp [hen]), gateValidate, hcheck]
    · rw [hwrite, if_neg (by simp [hen]), gateValidate, hcheck]
    · rw [hwrite, if_neg (by simp [hen]), gateValidate, hcheck]
      exact congrArg _ (if_pos hsync)
    · rw [hwrite, if_neg (by simp [hen]), gateValidate, hcheck]
      exact congrArg _ (if_neg (by simp [hsync]))
    · rw [hwrite, if_pos hen]
  · intro s0 s req p v hopen hp hm hoff hrace hs hen w
    have hrace' : lostRace s req (pgLane p + 0x218) = false := hs ▸ lostRace_orNext _ hrace
    rw [exec_gateDisable hopen hoff, gateCfgWrite_turn hp hm]
    have hturn : orNext ((fieldOf v 0 1 == 1 && gateLingers s0 p) || (!(fieldOf v 0 1 == 1) && (gateOn s0 p && gatesApply s0 p &&
        s0.same.oldReg.any (fun r => r.1 == pgLane p + 0x218)) && !lostRace s0 req (pgLane p + 0x218))) s0 = s := by
      simp [hoff, hrace, hs]
    rw [hturn]
    simp [hrace', hoff, hen] <;> rfl
  · intro s req p v hopen hp hm hrace hcase w t
    have hturn : orNext ((fieldOf v 0 1 == 1 && gateLingers s p) || (!(fieldOf v 0 1 == 1) && (gateOn s p && gatesApply s p &&
        s.same.oldReg.any (fun r => r.1 == pgLane p + 0x218)) && !lostRace s req (pgLane p + 0x218))) s = s := by
      rcases hcase with hoff | hlinger
      · simp [hoff, hrace, orNext]
      · simp [hlinger, hrace, orNext]
    have hwrite : gateCfgWrite req p v s = t := by
      rw [gateCfgWrite_turn hp hm]
      rw [hturn]
      simp [hrace, t, w] <;> rfl
    exact ⟨fun hon => by rw [exec_gateEnable hopen hon, hwrite], fun hoff => by rw [exec_gateDisable hopen hoff, hwrite]⟩
  · intro s p e hend hon he hidx htc x
    show Host.Outcome.next (match (s.port p).gateEnd with | some e => _ | none => _) = _
    simp only [hend]
    rw [if_pos ⟨hon, he⟩]
    have hlast : ¬ (s.port p).gateIdx + 1 = gclLen s p := by omega
    unfold gateNext
    simp [x, hlast, htc, hend]

end Sys2Proof.Machine
end

/-!
PROOFS. 05_collective_operation.md: the commands of the group table's epochs and of a group's home (O31).
-/
section
namespace Sys2Proof.Machine

/-! ### GRP_CMD -/

theorem fieldOf_ofNat {n : Nat} (hn : n < 2 ^ 64) (l w : Nat) : fieldOf (BitVec.ofNat 64 n) l w = n / 2 ^ l % 2 ^ w := by
  rw [fieldOf, BitVec.toNat_ofNat, Nat.mod_eq_of_lt hn, Nat.shiftRight_eq_div_pow]

/-- The word of a command of GRP_CMD holds the group, the command and the quadrant. -/
theorem fieldOf_grpWord {g cmd qd : Nat} (hg : g < 4096) (hcmd : cmd < 16) (hqd : qd < 4) :
    fieldOf (grpWord g cmd qd) 0 12 = g ∧ fieldOf (grpWord g cmd qd) 12 4 = cmd ∧ fieldOf (grpWord g cmd qd) 16 2 = qd := by
  unfold grpWord
  rw [fieldOf_ofNat (by omega), fieldOf_ofNat (by omega), fieldOf_ofNat (by omega)]
  omega

/-- A command of GRP_CMD over an open path writes the register and acts by its word. -/
theorem grpRow_of_open {s w : State} {req g cmd qd : Nat} (hopen : pathOpen s req = true) (hg : g < 4096) (hcmd : cmd < 16)
    (hqd : qd < 4) (hw : w = plainWrite req locGrpCmd (grpWord g cmd qd) (fun _ => false) (woTurn req (pgGrp + 0x100) s)) :
    grpRow req g cmd qd s = .next (grpCmd req g cmd qd w) := by
  obtain ⟨hgroup, hcode, hquad⟩ := fieldOf_grpWord hg hcmd hqd
  rw [grpRow, onPath, if_pos hopen, grpCtlWrite, if_pos rfl, hgroup, hcode, hquad, hw]
  rfl

theorem grpCmd_disabled {s : State} {g : Nat} (h : grpFlag s g grpCfg_enabled = false) (req cmd qd : Nat) :
    grpCmd req g cmd qd s = errCount pgGrp 0x100 3 s := by
  rw [grpCmd, if_pos h]
  rfl

theorem grpCmd_epochClose {s : State} {g : Nat} (h : grpFlag s g grpCfg_enabled = true) (req qd : Nat) :
    grpCmd req g 1 qd s = boundaryRequest g s := by
  rw [grpCmd, if_neg (by simp [h]), if_pos rfl]

theorem grpCmd_migrate {s : State} {g : Nat} (h : grpFlag s g grpCfg_enabled = true) (req qd : Nat) :
    grpCmd req g 3 qd s = if quadPresent s.fuses qd = false then absentCmd req s
      else if grpFlag s g grpCfg_migBusy ∨ qd = grpF s g grpCfg_homeQd then errCount pgGrp 0x100 3 s
      else s.updGrp g (fun x => { x with mig := .copying qd }) := by
  rw [grpCmd, if_neg (by simp [h]), if_neg (by decide), if_neg (by decide), if_pos rfl]
  rfl

/-- Settles O31: each command of GRP_CMD is judged by the group's entry after the write, and the timers by its age. -/
theorem epochControl : Obligations.EpochControl := by
  unfold Obligations.EpochControl
  refine ⟨?_, ?_, ?_, ?_, ?_, ?_, ?_⟩
  · intro s w req g hopen hg hw hen hlast
    have hexec : exec (.epochClose req g) s = .next (boundaryRequest g w) :=
      (grpRow_of_open hopen hg (by decide) (by decide) hw).trans (congrArg _ (grpCmd_epochClose hen _ _))
    constructor
    · intro hage
      rw [hexec, boundaryRequest, if_neg hlast, if_neg (by omega)]
    · intro hage
      rw [hexec, boundaryRequest, if_neg hlast, if_pos hage]
  · intro s w req g n hopen hg hw hen hlast hexpired
    have hexec : exec (.epochClose req g) s = .next (requestCame g w) := by
      refine (grpRow_of_open hopen hg (by decide) (by decide) hw).trans (congrArg _ ?_)
      rw [grpCmd_epochClose hen, boundaryRequest, if_pos hlast]
    rw [hexec, requestCame, hexpired]
    exact ⟨_, rfl, rfl, rfl⟩
  · intro s w req g hopen hg hw hen
    refine (grpRow_of_open hopen hg (by decide) (by decide) hw).trans (congrArg _ ?_)
    rw [grpCmd, if_neg (by simp [hen]), if_neg (by decide), if_pos rfl]
  · intro s w req g qd hopen hg hqd hw hen
    have hexec := (grpRow_of_open hopen hg (by decide) hqd hw).trans (congrArg _ (grpCmd_migrate hen req qd))
    refine ⟨fun hquad hbusy hhome => ?_, fun hquad hrefused => ?_, fun hquad => ?_⟩
    · refine hexec.trans (congrArg _ ?_)
      rw [if_neg (by simp [hquad]), if_neg (by simp [hbusy, hhome])]
    · refine hexec.trans (congrArg _ ?_)
      rw [if_neg (by simp [hquad]), if_pos hrefused.symm]
    · exact hexec.trans (congrArg _ (if_pos hquad))
  · intro s req g qd hopen hg hqd w
    exact ⟨fun h => (grpRow_of_open hopen hg (by decide) (by decide) rfl).trans (congrArg _ (grpCmd_disabled h ..)),
      fun h => (grpRow_of_open hopen hg (by decide) (by decide) rfl).trans (congrArg _ (grpCmd_disabled h ..)),
      fun h => (grpRow_of_open hopen hg (by decide) hqd rfl).trans (congrArg _ (grpCmd_disabled h ..))⟩
  · intro s g hen
    refine ⟨fun hearly hage => congrArg _ (if_pos ⟨hen, hearly, hage⟩), fun hlimit => ?_, fun hlimit => ?_⟩
    · exact congrArg Host.Outcome.next (if_pos ⟨hen, by simp [expired]; omega⟩)
    · exact congrArg Host.Outcome.next (if_neg (fun h => by simp [expired] at h; omega))
  · intro s g q hmig h rank c
    have hexec : exec (.migrateCopyDone g) s = .next (if hbmAsk s h rank (4 * groupN s g) = .asleep then
        hbmWake h rank (4 * groupN s g) s
        else if grpFlag s g grpCfg_accum then c.updGrp g (fun x => { x with mig := .awaitRelease q }) else moveHome g q c) := by
      show Host.Outcome.next (match (s.grp g).mig with | .copying q => _ | _ => _) = _
      rw [hmig]
    refine ⟨fun hask => ?_, fun hask haccum => ?_, fun hask haccum => ?_⟩
    · rw [hexec, if_pos hask]
    · rw [hexec, if_neg hask, if_neg (by simp [haccum])]
    · rw [hexec, if_neg hask, if_pos haccum]

end Sys2Proof.Machine
end

/-!
PROOFS. 04_canonical_reduction.md and 05_collective_operation.md: contributions (O24), failures from the parent (O28), and results
from the parent (O29).
-/
section
namespace Sys2Proof.Machine

/-! ### Failures from the parent -/

section Failure
variable {s : State} {p : Packet} {e : ExtHdr}

/-- A failing status from the parent: what aborts, and the status on its way down (R165). -/
theorem failFromParent_of_failing (hsrc : p.src = grpF s e.group grpLink_parentFid) (hres : reservedExt { e with status := 0 } = false)
    (hfail : statusSuccess e.status = false) :
    let n := p.addr % 2 ^ 24
    let st := if statusKnown e.status then e.status else stFailedLink
    failFromParent p e s = forwardDown { e with status := st } n
      (if isSweep e then forAll (fun x t => abortQuiet x st n t) (groupSlots s e.group) s
        else match s.slotOf (extKey e) with
          | some x => abortQuiet x st n s
          | none => s) := by
  have hsound : ¬ reservedExt { e with status := 0 } = true := by simp [hres]
  have hfailing : ¬ statusSuccess e.status = true := by simp [hfail]
  unfold failFromParent
  rw [if_neg (not_not.2 hsrc), if_neg hsound, if_neg hfailing] <;> rfl

/-- A CRESULT with a failing status fails its slot as a STATUS does (R163). -/
theorem resultFromParent_of_failing (hsrc : p.src = grpF s e.group grpLink_parentFid) (hfail : statusSuccess e.status = false) :
    resultFromParent p e s = failFromParent p e s := by
  rw [resultFromParent, if_neg (not_not.2 hsrc), if_pos hfail]

theorem isSweep_iff (e : ExtHdr) : isSweep e = true ↔ e.window = 0x3FF ∧ e.block = 0xFFFFFF ∧ e.status = 0x11 := by
  simp [isSweep, stFailedTwinLost, and_assoc]

end Failure

/-- A sweep at the Vats of this switch (R374). -/
theorem exec_failureStatus_sweep {s : State} {port lo hi : Nat} {k : Key} {p : Packet} {i : InPkt} {e : ExtHdr}
    (hfind : s.inbox.find? (fun z => z.port == port && z.pkt == p) = some i) (horg : i.org = .down k lo hi) (hext : p.ext = some e)
    (hcrc : crcGood p = true) (hsweep : isSweep e = true) :
    exec (.failureStatus port p) s = .next (consumed i (vatSweep e.group lo hi { s with inbox := s.inbox.erase i })) := by
  have harm : exec (.failureStatus port p) s = execFailureStatus port p s := rfl
  simp [harm, execFailureStatus, takeInbox_of_find hfind, hext, hcrc, horg, hsweep]

/-- Settles O28: the packet's slot, or with a sweep every slot of its group, aborts, and the status goes on down; a sweep for Vats of
this switch is `vatSweep`. -/
theorem failureFromParent : Obligations.FailureFromParent := by
  unfold Obligations.FailureFromParent
  refine ⟨?_, ?_, ?_⟩
  · intro s port p i e hfind horg hext hcrc hsrc hres hfail hsweep s1 n st a t
    have hfailed : consumed i (failFromParent p e s1) = t := by
      rw [failFromParent_of_failing (s := s1) hsrc hres hfail, if_neg (c := isSweep e = true) (by simp [hsweep])]
      rfl
    refine ⟨(exec_failureStatus_of_delivered hfind horg hext hcrc).trans (congrArg _ hfailed),
      (exec_cresult_of_delivered hfind horg hext hcrc).trans (congrArg _ ?_)⟩
    exact (congrArg (consumed i) (resultFromParent_of_failing (s := s1) hsrc hfail)).trans hfailed
  · intro s port p i e hfind horg hext hcrc hsrc hres hsweep s1 n a
    have hstatus : e.status = 0x11 := hsweep.2.2
    refine (exec_failureStatus_of_delivered hfind horg hext hcrc).trans (congrArg _ (congrArg (consumed i) ?_))
    rw [failFromParent_of_failing (s := s1) hsrc hres (by rw [hstatus]; decide), if_pos ((isSweep_iff e).2 hsweep), hstatus]
    rfl
  · intro s port lo hi k p i e hfind horg hext hcrc hsweep s1 vats counted again
    rw [exec_failureStatus_sweep hfind horg hext hcrc ((isSweep_iff e).2 hsweep)]
    rfl

/-! ### Results from the parent -/

/-- A result from the parent that passes its checks goes to its slot's buffer, or is a duplicate (R135, R142). -/
theorem resultFromParent_of_ok {s : State} {p : Packet} {e : ExtHdr} (hsrc : p.src = grpF s e.group grpLink_parentFid)
    (hgood : statusSuccess e.status = true) (hok : resultOk s p e = true) :
    resultFromParent p e s = match s.slotOf (extKey e) with
      | some x => if x.st = .held ∧ x.result = none then downBuffer x (cresultBlock s x p e) s
        else s.addFld (pgPress x.array) prsDupCnt_dup 1
      | none => s.addFld (pgPress (homePress s e.group)) prsDupCnt_dup 1 := by
  have hsuccess : ¬ statusSuccess e.status = false := by simp [hgood]
  have hpasses : ¬ resultOk s p e = false := by simp [hok]
  unfold resultFromParent
  rw [if_neg (not_not.2 hsrc), if_neg hsuccess, if_neg hpasses] <;> rfl

end Sys2Proof.Machine

namespace Sys2Proof
open Machine

/-- Settles O29: the result's way through the checks, the two outcomes of taking its shared buffer, and the item timer. -/
theorem resultFromParent : Obligations.ResultFromParent := by
  unfold Obligations.ResultFromParent
  refine ⟨?_, ?_, ?_, ?_⟩
  · intro s port p i e hfind horg hext hcrc hsrc hgood hok s1
    have hexec := (exec_cresult_of_delivered hfind horg hext hcrc).trans
      (congrArg (fun t => Host.Outcome.next (consumed i t)) (resultFromParent_of_ok (s := s1) hsrc hgood hok))
    refine ⟨fun x hx hst hres => ?_, fun x hx hdup => ?_, fun hnone => ?_⟩
    · have hx1 : s1.slotOf (extKey e) = some x := hx
      rw [hexec, hx1]
      exact congrArg _ (congrArg _ (if_pos ⟨hst, hres⟩))
    · have hx1 : s1.slotOf (extKey e) = some x := hx
      rw [hexec, hx1]
      exact congrArg _ (congrArg _ (if_neg hdup))
    · have hx1 : s1.slotOf (extKey e) = none := hnone
      rw [hexec, hx1]
      rfl
  · intro s x r b u htake hok u1
    rw [downBuffer, htake]
    exact if_neg (by simp [hok])
  · intro s x r htake
    rw [downBuffer, htake]
  · intro s c n i hfind hdead
    show Host.Outcome.next (match (s.core c).items.find? (fun i => i.n == n) with | some i => _ | none => _) = _
    rw [hfind]
    exact congrArg _ (if_pos hdead)

end Sys2Proof

namespace Sys2Proof.Machine

/-! ### Contributions -/

@[simp] theorem sendStatus_slots (unit dst : Nat) (k : Key) (lo hi st n : Nat) (s : State) :
    (sendStatus unit dst k lo hi st n s).slots = s.slots := rfl

section Contribute
variable {s : State} {cn : Bool} {i : InPkt} {e : ExtHdr}

/-- A contribution with its extension header, from the check of its e2e_crc on (R60, R150, R301). -/
theorem contribute_eq (cn : Bool) (hext : i.pkt.ext = some e) :
    let s1 := inputSeen s i (extKey e)
    contribute cn i { s with inbox := s.inbox.erase i } =
      if crcGood i.pkt = false then
        consumed i (sendStatus repGrp i.pkt.src (extKey e) e.lo e.hiIncl stFailedLink 0 (e2eFail i.port i.pkt s1))
      else if headCheck s1 cn i.pkt e = false then consumed i (refuseIn i.pkt e s1)
      else match entryAsk s1 e with
        | .asleep => holdInbox i (entryWake e s1)
        | .refused => consumed i (entryLost i.pkt e s1)
        | .beyond => consumed i (entryLost i.pkt e (refusePage (keyHome s1 (extKey e)) repGrp s1))
        | .ready =>
          if groupCheck s1 cn i.pkt e then takeChecked cn i i.pkt e s1 else consumed i (refuseIn i.pkt e (entryMoved e s1)) := by
  unfold contribute
  dsimp only
  rw [hext] <;> rfl

/-- What becomes of an input that passes every check, by what its slot makes of it. -/
theorem takeChecked_of_placed {p : Packet} {y : ScopeE × Nat} (hp : InputPasses s cn p e y) :
    takeChecked cn i p e s = match placeOrOpen (some i) cn p e y.2 s with
      | (true, s1) => consumed i (noteAct (.input (extKey e)) i.port
          (if (s.slotOf (extKey e)).isNone && (s1.slotOf (extKey e)).isNone then entryMoved e s1 else s1))
      | (false, s1) => if (s.slotOf (extKey e)).isSome then holdInbox i s1 else holdFull i s1 := by
  obtain ⟨-, -, -, hepoch, hentry, hfree, hsound⟩ := hp
  unfold takeChecked
  rw [if_neg (by simp [hepoch]), hentry]
  simp only [hsound, takeInput_of_not_retained _ _ _ hfree, hfree, Option.isSome_none, Bool.or_false, Bool.false_eq_true, if_false] <;> rfl

end Contribute

/-- Settles O24. -/
theorem contributions : Obligations.Contributions := by
  unfold Obligations.Contributions
  refine ⟨?_, ?_⟩
  · intro s cn port p i e hfind hext s1 t
    obtain rfl : i.pkt = p := pkt_of_find_inbox hfind
    have ht : t = .next (contribute cn i { s with inbox := s.inbox.erase i }) := by
      show (if cn then exec (.cnode port i.pkt) s else exec (.cwrite port i.pkt) s) = _
      rw [exec_input, takeInbox_of_find hfind]
    rw [ht, contribute_eq cn hext]
    refine ⟨fun hcrc => ?_, fun hcrc hhead => ?_, fun hcrc hhead hask hgroup => ?_, fun hcrc hhead hask => ?_,
      fun hcrc hhead hask => ?_, fun hcrc hask hgroup hepoch => ?_⟩
    · simp [hcrc, s1]
    · simp [hcrc, s1, hhead, refuseIn]
    · simp [hcrc, s1, hhead, hask, hgroup, refuseIn]
    · simp [hcrc, s1, hhead, hask]
    · simp [hcrc, s1, hhead, hask, entryLost]
    · simp [hcrc, s1, headCheck_of_groupCheck hgroup, hask, hgroup, takeChecked, hepoch, rangeOut]
  · intro s cn port p i e y hfind hext hpass s1 home room t
    obtain rfl : i.pkt = p := pkt_of_find_inbox hfind
    have ht : t = .next (takeChecked cn i i.pkt e s1) := by
      show (if cn then exec (.cnode port i.pkt) s else exec (.cwrite port i.pkt) s) = _
      rw [exec_input, takeInbox_of_find hfind, contribute_of_passes hext hpass]
    rw [ht, takeChecked_of_placed (s := s1) hpass]
    refine ⟨fun x hx hmask => ?_, fun x hx hmask hacc hst hspill => ?_, fun x hx hmask hacc hst hspill => ?_,
      fun a hx hroom hpick hspill => ?_, fun a hx hroom hpick hres hspill => ?_, fun hx hroom hpick hout => ?_, fun hx hroom => ?_⟩
    · have hplace : placeOrOpen (some i) cn i.pkt e y.2 s1 = (false, s1) := by simp [placeOrOpen, hx, hmask]
      simp [hplace, hx]
    · have hplace : placeOrOpen (some i) cn i.pkt e y.2 s1 = (true, placeInput (some i) cn i.pkt e y.2 s1) := by
        simp only [List.contains_eq_mem, decide_eq_false_iff_not] at hacc
        simp [placeOrOpen, hx, hmask, hacc, hst, hspill]
      simp [hplace, hx]
    · have hplace : placeOrOpen (some i) cn i.pkt e y.2 s1 = (false, spillWake x s1) := by
        simp only [List.contains_eq_mem, decide_eq_false_iff_not] at hacc
        simp [placeOrOpen, hx, hmask, hacc, hst, hspill]
      simp [hplace, hx]
    · have hawake : ¬ (resident s1 e.group = false ∧ spillSleeps (freshSlot s1 e a) s1 = true) := by
        rintro ⟨hres, hsleep⟩
        simp [hres, hsleep] at hspill
      have hplace : placeOrOpen (some i) cn i.pkt e y.2 s1 = (true, openSlot (some i) cn i.pkt e y.2 a s1) := by
        unfold placeOrOpen
        rw [hx]
        dsimp only
        rw [if_pos hroom, hpick]
        exact if_neg hawake
      simp [hplace, hx]
    · have hplace : placeOrOpen (some i) cn i.pkt e y.2 s1 = (false, spillWake (freshSlot s1 e a) s1) := by
        unfold placeOrOpen
        rw [hx]
        dsimp only
        rw [if_pos hroom, hpick]
        exact if_pos ⟨hres, hspill⟩
      simp [hplace, hx]
    · have hplace : placeOrOpen (some i) cn i.pkt e y.2 s1 =
          (true, sendStatus repGrp i.pkt.src (extKey e) e.lo e.hiIncl stAbortedDisabled 0 s1) := by
        unfold placeOrOpen
        rw [hx]
        dsimp only
        rw [if_pos hroom, hpick]
        simp [home, hout]
      have hnone : (sendStatus repGrp i.pkt.src (extKey e) e.lo e.hiIncl stAbortedDisabled 0 s1).slotOf (extKey e) = none := hx
      simp [hplace, hx, hnone]
    · have hplace : placeOrOpen (some i) cn i.pkt e y.2 s1 = (false, s1) := by
        unfold placeOrOpen
        rw [hx]
        dsimp only
        rw [if_neg (by simpa using hroom)]
      simp [hplace, hx]

end Sys2Proof.Machine
end

/-!
PROOFS. 05_collective_operation.md, 12_twin_faults_determinism.md: sync objects and chains (O33). The registers from the group
table on, those of group entries and sync objects among them, are written by no report, no wake and no start of a program.
-/
section
namespace Sys2Proof.Machine

/-! ### The registers from the group table on -/

/-- The least register of the group table: entries, route rows and sync objects stand from here on. -/
def tablesAt : Nat := 0x0F040000

/-- What leaves the registers from the group table on as they were. -/
def TablesKept (s t : State) : Prop := RegsOk s → RegsOk t ∧ ∀ b, tablesAt ≤ b → t.rd b = s.rd b

section Tables
variable {s t u : State}

theorem TablesKept.trans (h : TablesKept s t) (h' : TablesKept t u) : TablesKept s u := by
  intro hs
  obtain ⟨ht, hst⟩ := h hs
  obtain ⟨hu, htu⟩ := h' ht
  exact ⟨hu, fun b hb => (htu b hb).trans (hst b hb)⟩

theorem tablesKept_of_eq (hr : t.regs = s.regs) (hf : t.fuses = s.fuses) : TablesKept s t := by
  intro hs
  refine ⟨?_, fun b _ => ?_⟩
  · show tabOk (regReset t.fuses) none t.regs = true
    rw [hr, hf]; exact hs
  · show tget (regReset t.fuses b) t.regs b = tget (regReset s.fuses b) s.regs b
    rw [hr, hf]

theorem TablesKept.refl (s : State) : TablesKept s s := tablesKept_of_eq rfl rfl

theorem tablesKept_wr {a : Nat} (ha : a < tablesAt) (v : U64) : TablesKept s (s.wr a v) :=
  fun hs => ⟨regsOk_wr hs a v, fun b hb => rd_wr_of_ne hs (by omega) v⟩

theorem tablesKept_setFld {base : Nat} {f : Fd} (ha : base + f.off < tablesAt) (x : Nat) : TablesKept s (s.setFld base f x) :=
  tablesKept_wr ha _

theorem tablesKept_addFld {base : Nat} {f : Fd} (ha : base + f.off < tablesAt) (x : Nat) : TablesKept s (s.addFld base f x) :=
  tablesKept_wr ha _

theorem tablesKept_addWrap {base : Nat} {f : Fd} (ha : base + f.off < tablesAt) (x : Nat) : TablesKept s (s.addWrap base f x) :=
  tablesKept_wr ha _

theorem tablesKept_raiseEv {page : Nat} (ha : page + 0x20 < tablesAt) (k : Nat) : TablesKept s (raiseEv page k s) :=
  (tablesKept_wr ha _).trans (tablesKept_of_eq rfl rfl)

theorem tablesKept_errCount {page : Nat} (ha : page + 0x38 < tablesAt) (off cause : Nat) :
    TablesKept s (errCount page off cause s) := by
  have hcnt : page + blkErrCnt_count.off < tablesAt := ha
  exact (tablesKept_addFld hcnt 1).trans ((tablesKept_setFld (f := blkErrCnt_lastOff) ha off).trans
    ((tablesKept_setFld (f := blkErrCnt_cause) ha cause).trans
      ((tablesKept_of_eq rfl rfl).trans (tablesKept_raiseEv (by omega) 0))))

theorem tablesKept_forAll {α : Type} {f : α → State → State} (hf : ∀ x s, TablesKept s (f x s)) (l : List α) (s : State) :
    TablesKept s (forAll f l s) := by
  induction l generalizing s with
  | nil => exact .refl s
  | cons x xs ih => exact (hf x s).trans (ih (f x s))

theorem tablesKept_storeBytes (sp off req : Nat) (old bs : List Byte) : TablesKept s (storeBytes sp off req old bs s) := by
  have hwr : ∀ (off : Nat) (bs : List Byte) (s : State), TablesKept s (wrBytes s sp off bs) := fun off bs s =>
    tablesKept_of_eq (wrBytes_regs s sp off bs).1 (wrBytes_regs s sp off bs).2
  unfold storeBytes
  dsimp only
  refine TablesKept.trans (t := if _ then _ else _) ?_ (tablesKept_of_eq rfl rfl)
  split
  · exact hwr off bs s
  · refine tablesKept_forAll (fun x s => ?_) _ s
    split
    · exact .refl s
    · exact hwr _ [x.1] s

end Tables

/-! ### Wakes, bursts and reports -/

section Reports
variable {s : State}

theorem tablesKept_cancelDark (u : Nat) : TablesKept s (cancelDark u s) := by
  have hfd : pgPwr + (darkFd u).off < tablesAt := by
    unfold darkFd
    split_ifs <;> (simp only [pgPwr, tablesAt]; omega)
  have hset : ∀ (t : State) (v : Nat) (x : PwrUnit), TablesKept t (t.setPu v x) := fun _ _ _ => tablesKept_of_eq rfl rfl
  have hwrite : ∀ t : State, TablesKept t ((t.setFld pgPwr (darkFd u) 0).addFld pgPwr pwrCnt_darkRefused 1) := fun t =>
    (tablesKept_setFld hfd 0).trans (tablesKept_addFld (by decide) 1)
  unfold cancelDark
  split
  · have hback : ∀ l : List (Nat × PwrUnit), TablesKept s (forAll (fun x t => t.setPu x.1 x.2) l s) :=
      fun l => tablesKept_forAll (f := fun (x : Nat × PwrUnit) (t : State) => t.setPu x.1 x.2) (fun x t => hset t x.1 x.2) l s
    exact (hback _).trans (.trans (tablesKept_of_eq rfl rfl) (hwrite _))
  · exact .refl s

theorem tablesKept_startWake (u : Nat) : TablesKept s (startWake u s) := by
  unfold startWake
  split
  · exact (tablesKept_of_eq rfl rfl).trans (tablesKept_addFld (s := s.setPu u _) (by decide) 1)
  · exact .refl s

theorem tablesKept_wakeUnit (u : Nat) : TablesKept s (wakeUnit u s) := by
  have hask : TablesKept s (askWake u s) := tablesKept_of_eq rfl rfl
  unfold wakeUnit
  split
  · exact hask.trans ((tablesKept_cancelDark _).trans (tablesKept_startWake u))
  · exact hask
  · split
    · exact tablesKept_of_eq rfl rfl
    · exact .refl s
  · exact .refl s

theorem tablesKept_queueBursts (c : HbmClass) (u n : Nat) : TablesKept s (queueBursts c u n s) :=
  (tablesKept_wakeUnit u).trans (tablesKept_of_eq rfl rfl)

theorem tablesKept_hbmWrite (c : HbmClass) (q off : Nat) (bs : List Byte) (req : Nat) :
    TablesKept s (hbmWrite c q off bs req s) := by
  refine tablesKept_forAll (fun x s => ?_) _ s
  unfold writeChunk
  dsimp only
  split
  · exact (tablesKept_storeBytes _ _ _ _ _).trans (tablesKept_queueBursts _ _ _)
  · exact .refl s

theorem tablesKept_tallyWrite (e : TEntry) : TablesKept s (tallyWrite e s) := by
  have hw := tablesKept_hbmWrite (s := s) .bulk 0 (tallyAt s) (tallyRecord e) repTally
  unfold tallyWrite
  refine TablesKept.trans ?_ ((tablesKept_setFld (by decide) _).trans (tablesKept_raiseEv (by decide) 1))
  split
  · exact hw.trans ((tablesKept_addFld (by decide) 1).trans (tablesKept_raiseEv (by decide) 2))
  · exact hw

theorem tablesKept_tallyTake (r : Report) (now : Nat) : TablesKept s (tallyTake r now s) := by
  unfold tallyTake
  dsimp only
  split
  · exact (tablesKept_of_eq rfl rfl).trans (tablesKept_raiseEv (by decide) 3)
  · exact tablesKept_of_eq rfl rfl

theorem tablesKept_reportWith {close : TEntry → State → State} (hclose : ∀ e s, TablesKept s (close e s)) (subj cls rep det : Nat) :
    TablesKept s (reportWith close subj cls rep det s) := by
  have hcount : TablesKept s (s.addWrap pgTally tlyStat_reports 1) := tablesKept_addWrap (by decide) 1
  have hdue : ∀ (o : Option TEntry) (t : State), TablesKept t (match o with | some e => close e t | none => t) := by
    rintro (_ | e) t
    · exact .refl t
    · exact hclose e t
  have hstorm : ∀ (o : Option TEntry) (now : Nat) (t : State),
      TablesKept t (match o with | some e => if e.closeAt < now then close e t else t | none => t) := by
    rintro (_ | e) now t
    · exact .refl t
    · dsimp only
      split
      · exact hclose e t
      · exact .refl t
  unfold reportWith
  dsimp only
  refine hcount.trans ?_
  split
  · exact tablesKept_errCount (by decide) _ _
  · exact (hdue _ _).trans ((hstorm _ _ _).trans (tablesKept_tallyTake _ _))

theorem tablesKept_closeWith {ptr : State → State} (hptr : ∀ s, TablesKept s (ptr s)) (e : TEntry) :
    TablesKept s (closeWith ptr e s) := by
  unfold closeWith
  split
  · exact tablesKept_raiseEv (by decide) 2
  · have hd : TablesKept s (if e.cls = clsStorm then stormDrop (tallyWrite e s) else tallyDrop e (tallyWrite e s)) := by
      refine (tablesKept_tallyWrite e).trans ?_
      split <;> exact tablesKept_of_eq rfl rfl
    dsimp only
    split
    · exact hd.trans (hptr _)
    · exact hd

theorem tablesKept_closeDeep (n : Nat) : ∀ (e : TEntry) (s : State), TablesKept s (closeDeep n e s) := by
  induction n with
  | zero => exact fun e s => tablesKept_closeWith (fun _ => .refl _) e
  | succ n ih =>
    have hdraw : ∀ s : State, TablesKept s s.draw.2 := fun s => tablesKept_of_eq rfl rfl
    exact fun e s => tablesKept_closeWith (fun s => (hdraw s).trans (tablesKept_reportWith ih _ _ _ _)) e

theorem tablesKept_reportOwnOpen (cls rep : Nat) : TablesKept s (reportOwnOpen cls rep s) :=
  have hdraw : TablesKept s s.draw.2 := tablesKept_of_eq rfl rfl
  hdraw.trans (tablesKept_reportWith (tablesKept_closeDeep 4) _ _ _ _)

theorem tablesKept_absentCmd (rep : Nat) : TablesKept s (absentCmd rep s) :=
  (tablesKept_addFld (by decide) 1).trans (tablesKept_reportOwnOpen _ _)

theorem tablesKept_disabledWork (rep : Nat) : TablesKept s (disabledWork rep s) :=
  (tablesKept_addFld (by decide) 1).trans (tablesKept_reportOwnOpen _ _)

end Reports

/-! ### What a firing leaves -/

section Fire
variable {s : State}

theorem tablesKept_startRequest {v : Nat} (hv : v < 32) (desc src : Nat) (bySync : Bool) :
    TablesKept s (startRequest v desc src bySync s).2 := by
  have hrefused : ∀ t : State, TablesKept t (t.addFld (pgVat v) vatCnt_refused 1) := fun t =>
    tablesKept_addFld (by simp only [pgVat, vatCnt_refused, tablesAt]; omega) 1
  unfold startRequest
  split
  · exact tablesKept_absentCmd src
  split
  · exact (hrefused s).trans (tablesKept_disabledWork src)
  split
  · dsimp only
    split
    · exact (hrefused s).trans (tablesKept_disabledWork src)
    · exact hrefused s
  split
  · have hqueue : ∀ x : Vat, TablesKept s (s.setVat v x) := fun _ => tablesKept_of_eq rfl rfl
    exact (hqueue _).trans ((tablesKept_wakeUnit (puVat v)).trans (tablesKept_of_eq rfl rfl))
  split
  · exact .refl s
  · exact hrefused s

theorem tablesKept_softSet {k : Nat} (hk : k < 16) (src : Nat) : TablesKept s (softSet k src s) := by
  unfold softSet
  split
  · exact tablesKept_addFld (by simp only [pgRind, evcErr_softBad, tablesAt]; omega) 1
  · dsimp only
    split <;> exact tablesKept_of_eq rfl rfl

theorem tablesKept_runAction (f : Fire) : TablesKept s (runAction f s).2 := by
  unfold runAction
  split
  · split
    · exact tablesKept_of_eq rfl rfl
    · exact .refl s
  split
  · exact tablesKept_startRequest (Nat.mod_lt _ (by decide)) _ _ _
  split
  · dsimp only
    split
    · exact tablesKept_softSet (Nat.mod_lt _ (by decide)) _
    · exact tablesKept_absentCmd _
  · exact .refl s

theorem tablesKept_fireOne (f : Fire) : TablesKept s (fireOne f s) := by
  unfold fireOne
  split
  · exact tablesKept_of_eq rfl rfl
  · dsimp only
    split
    · exact tablesKept_runAction f
    · exact (tablesKept_runAction f).trans (tablesKept_of_eq rfl rfl)

end Fire

/-! ### The judgement of an increment (R173) -/

section Judge
variable {step d : Nat}

theorem judgeIncr_of_rest {before thr armed : Nat} (h : ¬ (armed = 1 ∧ (thr + 2 ^ 64 - before + 2 ^ 64 - 1) % 2 ^ 64 < d))
    (fuel n : Nat) : judgeIncr step d fuel before thr armed n = (n, thr, armed) := by
  cases fuel with
  | zero => rfl
  | succ fuel => rw [judgeIncr, if_neg h]

/-- The firings counted so far are added to those that follow. -/
theorem judgeIncr_count (fuel before thr armed n : Nat) :
    judgeIncr step d fuel before thr armed n =
      (n + (judgeIncr step d fuel before thr armed 0).1, (judgeIncr step d fuel before thr armed 0).2) := by
  induction fuel generalizing thr n with
  | zero => rfl
  | succ fuel ih =>
    by_cases h : armed = 1 ∧ (thr + 2 ^ 64 - before + 2 ^ 64 - 1) % 2 ^ 64 < d
    · rw [judgeIncr, judgeIncr, if_pos h, if_pos h]
      split
      · rfl
      · rw [ih _ (n + 1), ih _ (0 + 1)]
        simp only [Nat.zero_add, Nat.add_assoc]
    · rw [judgeIncr_of_rest h, judgeIncr_of_rest h]
      rfl

theorem judgeIncr_succ {before thr armed : Nat} (h : armed = 1 ∧ (thr + 2 ^ 64 - before + 2 ^ 64 - 1) % 2 ^ 64 < d) (fuel : Nat) :
    judgeIncr step d (fuel + 1) before thr armed 0 = if step = 0 then (1, thr, 0)
      else (1 + (judgeIncr step d fuel before ((thr + step) % 2 ^ 64) armed 0).1,
        (judgeIncr step d fuel before ((thr + step) % 2 ^ 64) armed 0).2) := by
  rw [judgeIncr, if_pos h, judgeIncr_count]

/-- A rearming object goes up one step with each firing and stays armed. -/
theorem judgeIncr_rearm {thr : Nat} (hthr : thr < 2 ^ 64) (hstep : 0 < step) (fuel before : Nat) :
    (judgeIncr step d fuel before thr 1 0).2 = ((thr + (judgeIncr step d fuel before thr 1 0).1 * step) % 2 ^ 64, 1) := by
  induction fuel generalizing thr with
  | zero => exact Prod.ext (by simpa [judgeIncr] using (Nat.mod_eq_of_lt hthr).symm) rfl
  | succ fuel ih =>
    by_cases h : (1 : Nat) = 1 ∧ (thr + 2 ^ 64 - before + 2 ^ 64 - 1) % 2 ^ 64 < d
    · rw [judgeIncr_succ h, if_neg (Nat.pos_iff_ne_zero.mp hstep)]
      dsimp only
      rw [ih (Nat.mod_lt _ (by decide)), Nat.mod_add_mod]
      rw [Nat.add_mul, Nat.one_mul, Nat.add_assoc]
    · rw [judgeIncr_of_rest h]
      exact Prod.ext (by simpa using (Nat.mod_eq_of_lt hthr).symm) rfl

end Judge

/-! ### The firing loop -/

section Loop
variable {s : State} {k d : Nat}

theorem tablesAt_le_syncAt (k o : Nat) : tablesAt ≤ syncAt k + o := by simp only [tablesAt, syncAt]; omega

theorem fld_fireOne (hs : RegsOk s) (f : Fire) (fd : Fd) : (fireOne f s).fld (syncAt k) fd = s.fld (syncAt k) fd := by
  rw [State.fld, State.fld, (tablesKept_fireOne f hs).2 _ (tablesAt_le_syncAt k _)]

theorem regsOk_fireOne (hs : RegsOk s) (f : Fire) : RegsOk (fireOne f s) := (tablesKept_fireOne f hs).1

theorem fld_setFld_of_off_ne (hs : RegsOk s) {base : Nat} {f g : Fd} (h : g.off ≠ f.off) (x : Nat) :
    (s.setFld base f x).fld base g = s.fld base g := by
  rw [State.fld, State.fld, rd_setFld_of_ne hs (by omega)]

/-- The firing of an object as it stands. -/
def syncFire (s : State) (k : Nat) : Fire := ⟨s.fld (syncAt k) synCfg_action, s.fld (syncAt k) synArg_arg, syncQuad k⟩

/-- One turn of the loop: a threshold that the increment covers fires. -/
theorem fireLoop_succ {before : Nat} (h : s.fld (syncAt k) synCfg_armed = 1 ∧
      (s.fld (syncAt k) synThr_thr + 2 ^ 64 - before + 2 ^ 64 - 1) % 2 ^ 64 < d) (fuel : Nat) :
    fireLoop k d (fuel + 1) before s = if s.fld (syncAt k) synCfg_step = 0
      then (fireOne (syncFire s k) s).setFld (syncAt k) synCfg_armed 0
      else fireLoop k d fuel before ((fireOne (syncFire s k) s).setFld (syncAt k) synThr_thr
        ((s.fld (syncAt k) synThr_thr + s.fld (syncAt k) synCfg_step) % 2 ^ 64)) := by
  rw [fireLoop]
  exact if_pos h

theorem fireLoop_of_rest {before : Nat} (h : ¬ (s.fld (syncAt k) synCfg_armed = 1 ∧
      (s.fld (syncAt k) synThr_thr + 2 ^ 64 - before + 2 ^ 64 - 1) % 2 ^ 64 < d)) (fuel : Nat) :
    fireLoop k d fuel before s = s := by
  cases fuel with
  | zero => rfl
  | succ fuel =>
    rw [fireLoop]
    exact if_neg h

/-- What the increment of an object by `d` from `before` is judged to do (R173). -/
def judged (s : State) (k d fuel before : Nat) : Nat × Nat × Nat :=
  judgeIncr (s.fld (syncAt k) synCfg_step) d fuel before (s.fld (syncAt k) synThr_thr) (s.fld (syncAt k) synCfg_armed) 0

/-- The loop fires as often as is judged, leaves threshold and armed as judged, and keeps the counter. `I` is what holds after
so many firings; `N` bounds them. -/
theorem fireLoop_judged (N : Nat) (f : Fire) (I : Nat → State → Prop)
    (hfire : ∀ j t, j < N → I j t → I (j + 1) (fireOne f t)) (hwr : ∀ j t a v, I (j + 1) t → I (j + 1) (t.wr a v)) (fuel before : Nat) :
    ∀ (j : Nat) (s : State), RegsOk s → syncFire s k = f → I j s → j + (judged s k d fuel before).1 ≤ N →
      let t := fireLoop k d fuel before s
      I (j + (judged s k d fuel before).1) t ∧ t.fld (syncAt k) synCnt_cnt = s.fld (syncAt k) synCnt_cnt ∧
        t.fld (syncAt k) synThr_thr = (judged s k d fuel before).2.1 ∧
        t.fld (syncAt k) synCfg_armed = (judged s k d fuel before).2.2 := by
  induction fuel with
  | zero => exact fun j s _ _ hI _ => ⟨hI, rfl, rfl, rfl⟩
  | succ fuel ih =>
    intro j s hs hf hI hN
    by_cases h : s.fld (syncAt k) synCfg_armed = 1 ∧ (s.fld (syncAt k) synThr_thr + 2 ^ 64 - before + 2 ^ 64 - 1) % 2 ^ 64 < d
    · have hjudge := judgeIncr_succ (step := s.fld (syncAt k) synCfg_step) h fuel
      have hr := regsOk_fireOne hs f
      rw [fireLoop_succ h, hf]
      rw [judged, hjudge] at hN ⊢
      split at hN
      case isTrue h0 =>
        rw [if_pos h0, if_pos h0]
        refine ⟨hwr _ _ _ _ (hfire _ _ (by omega) hI), ?_, ?_, ?_⟩
        · rw [fld_setFld_of_off_ne hr (by decide), fld_fireOne hs]
        · rw [fld_setFld_of_off_ne hr (by decide), fld_fireOne hs]
        · exact fld_setFld_self hr _ _ _ (by decide)
      case isFalse h0 =>
        rw [if_neg h0, if_neg h0]
        generalize ht : (fireOne f s).setFld (syncAt k) synThr_thr _ = t
        have hcfg : ∀ g : Fd, g.off ≠ 8 → t.fld (syncAt k) g = s.fld (syncAt k) g := fun g hg => by
          rw [← ht, fld_setFld_of_off_ne hr hg, fld_fireOne hs]
        have hthr : t.fld (syncAt k) synThr_thr = (s.fld (syncAt k) synThr_thr + s.fld (syncAt k) synCfg_step) % 2 ^ 64 := by
          rw [← ht, fld_setFld_self hr _ _ _ (by decide)]
          exact Nat.mod_mod _ _
        have hft : syncFire t k = f := by
          rw [← hf, syncFire, syncFire, hcfg _ (by decide), hcfg _ (by decide)]
        have hjt : judged t k d fuel before = judgeIncr (s.fld (syncAt k) synCfg_step) d fuel before
            ((s.fld (syncAt k) synThr_thr + s.fld (syncAt k) synCfg_step) % 2 ^ 64) (s.fld (syncAt k) synCfg_armed) 0 := by
          rw [judged, hthr, hcfg _ (by decide), hcfg _ (by decide)]
        have hIt : I (j + 1) t := ht ▸ hwr _ _ _ _ (hfire _ _ (by dsimp only at hN; omega) hI)
        have hend := ih (j + 1) t (ht ▸ regsOk_setFld hr _ _ _) hft hIt (by rw [hjt]; dsimp only at hN; omega)
        rw [hjt, hcfg _ (by decide)] at hend
        rw [← Nat.add_assoc]
        exact hend
    · rw [fireLoop_of_rest h, judged, judgeIncr_of_rest h]
      exact ⟨hI, rfl, rfl, rfl⟩

end Loop

/-! ### The increment (R173) -/

section Incr
variable {s : State} {k d : Nat}

/-- An object whose counter takes an increment, before anything fires: its threshold and armed are noted for the cycle. -/
def incremented (k d : Nat) (s : State) : State :=
  let s0 := noteSync k s
  let s1 := s0.setFld (syncAt k) synCnt_cnt ((syncCnt s0 k + d) % 2 ^ 64)
  { s1 with same := { s1.same with incr := (k, d) :: s1.same.incr } }

theorem syncIncr_eq (hq : quadPresent s.fuses (k / 16384) = true) (hup : upsetIn s (syncQuad k) (syncOff k) 32 = false) (u : Nat) :
    syncIncr k d u s = fireLoop k d (d + 1) (s.fld (syncAt k) synCnt_cnt) (incremented k d s) := by
  have hpar : syncParity k s = s := by
    rw [syncParity, if_neg (by rw [hup]; decide)]
  have hcnt : syncCnt (noteSync k s) k = s.fld (syncAt k) synCnt_cnt := by
    unfold noteSync
    split <;> rfl
  rw [syncIncr, if_neg (by rw [syncQuad, hq]; decide), hpar, ← hcnt]
  rfl

theorem noteSync_eq (k : Nat) (s : State) : ∃ m, noteSync k s = { s with same := { s.same with oldSync := m } } := by
  unfold noteSync
  split
  · exact ⟨_, rfl⟩
  · exact ⟨_, rfl⟩

/-- The increment writes the counter; what else it changes is what the cycle notes. -/
theorem incremented_eq (k d : Nat) (s : State) : ∃ m, incremented k d s =
    { s.setFld (syncAt k) synCnt_cnt ((s.fld (syncAt k) synCnt_cnt + d) % 2 ^ 64) with same := m } := by
  obtain ⟨m, hm⟩ := noteSync_eq k s
  rw [incremented, hm]
  exact ⟨_, rfl⟩

theorem regsOk_incremented (hs : RegsOk s) (k d : Nat) : RegsOk (incremented k d s) := by
  obtain ⟨m, hm⟩ := incremented_eq k d s
  rw [hm]
  exact regsOk_setFld hs _ _ _

theorem rd_incremented_of_ne (hs : RegsOk s) {b : Nat} (hb : b ≠ syncAt k) (d : Nat) : (incremented k d s).rd b = s.rd b := by
  obtain ⟨m, hm⟩ := incremented_eq k d s
  rw [hm]
  exact rd_setFld_of_ne hs hb _

theorem fld_incremented (hs : RegsOk s) {g : Fd} (hg : g.off ≠ 0) (d : Nat) :
    (incremented k d s).fld (syncAt k) g = s.fld (syncAt k) g := by
  rw [State.fld, State.fld, rd_incremented_of_ne hs (by omega)]

theorem cnt_incremented (hs : RegsOk s) (k d : Nat) :
    (incremented k d s).fld (syncAt k) synCnt_cnt = (s.fld (syncAt k) synCnt_cnt + d) % 2 ^ 64 := by
  obtain ⟨m, hm⟩ := incremented_eq k d s
  rw [hm]
  exact (fld_setFld_self hs _ _ _ (by decide)).trans (Nat.mod_mod _ _)

theorem judged_incremented (hs : RegsOk s) (k d fuel before : Nat) : judged (incremented k d s) k d fuel before = judged s k d fuel before := by
  rw [judged, judged, fld_incremented hs (by decide), fld_incremented hs (by decide), fld_incremented hs (by decide)]

theorem syncFire_incremented (hs : RegsOk s) (k d : Nat) : syncFire (incremented k d s) k = syncFire s k := by
  rw [syncFire, syncFire, fld_incremented hs (by decide), fld_incremented hs (by decide)]

/-- `fireLoop_judged` for a whole increment. -/
theorem syncIncr_judged (hs : RegsOk s) (hq : quadPresent s.fuses (k / 16384) = true)
    (hup : upsetIn s (syncQuad k) (syncOff k) 32 = false) (u : Nat) (I : Nat → State → Prop) (hI : I 0 (incremented k d s))
    (hfire : ∀ j t, j < (judged s k d (d + 1) (s.fld (syncAt k) synCnt_cnt)).1 → I j t → I (j + 1) (fireOne (syncFire s k) t))
    (hwr : ∀ j t a v, I (j + 1) t → I (j + 1) (t.wr a v)) :
    let t := syncIncr k d u s
    let r := judged s k d (d + 1) (s.fld (syncAt k) synCnt_cnt)
    I r.1 t ∧ t.fld (syncAt k) synCnt_cnt = (s.fld (syncAt k) synCnt_cnt + d) % 2 ^ 64 ∧
      t.fld (syncAt k) synThr_thr = r.2.1 ∧ t.fld (syncAt k) synCfg_armed = r.2.2 := by
  have hloop := fireLoop_judged (k := k) (d := d) _ _ I hfire hwr (d + 1) (s.fld (syncAt k) synCnt_cnt) 0 (incremented k d s)
    (regsOk_incremented hs k d) (syncFire_incremented hs k d) hI (by rw [judged_incremented hs]; omega)
  rw [judged_incremented hs, cnt_incremented hs, Nat.zero_add] at hloop
  rw [syncIncr_eq hq hup]
  exact hloop

/-- An object that is not armed takes the increment and fires nothing. -/
theorem syncIncr_of_unarmed (hs : RegsOk s) (h : s.fld (syncAt k) synCfg_armed = 0) (hq : quadPresent s.fuses (k / 16384) = true)
    (hup : upsetIn s (syncQuad k) (syncOff k) 32 = false) (u : Nat) : syncIncr k d u s = incremented k d s := by
  rw [syncIncr_eq hq hup, fireLoop_of_rest]
  rw [fld_incremented hs (by decide), h]
  omega

/-- A write to the counter of an unarmed object in the cycle of its increment comes before the increment (R32). -/
theorem cnt_syncWrite_incremented (hs : RegsOk s) (h : s.fld (syncAt k) synCfg_armed = 0) (hincr : s.same.incr = [])
    (hold : s.same.oldSync = []) (v : Nat) :
    (syncWrite k v (incremented k d s)).fld (syncAt k) synCnt_cnt = (v + d) % 2 ^ 64 := by
  have hrest : ∀ step inc fuel before thr, judgeIncr step inc fuel before thr 0 0 = (0, thr, 0) := fun step inc fuel before thr =>
    judgeIncr_of_rest (by omega) fuel 0
  have hnoted : (incremented k d s).same.oldSync = [(k, s.fld (syncAt k) synThr_thr, 0)] ∧ (incremented k d s).same.incr = [(k, d)] := by
    simp [incremented, noteSync, hold, hincr, h, State.setFld, State.wr]
  unfold syncWrite
  rw [hnoted.1, hnoted.2]
  simp only [List.find?, beq_self_eq_true, hrest, List.filter, List.map, List.sum_cons, List.sum_nil, Nat.add_zero, if_true]
  exact (fld_setFld_self (regsOk_incremented hs k d) _ _ _ (by decide)).trans (Nat.mod_mod _ _)

end Incr

/-! ### The three actions (R172) -/

section Actions
variable {s : State}

theorem fireOne_of_none_waiting {f : Fire} (h : s.fires = []) (hok : (runAction f s).1 = true) : fireOne f s = (runAction f s).2 := by
  unfold fireOne
  rw [if_neg (by simp [h])]
  dsimp only
  rw [if_pos hok]

/-- The chain queue of a quadrant after `j` starts of the object's chain, and no firing that waits. -/
def ChainsQueued (s : State) (f : Fire) (j : Nat) (t : State) : Prop :=
  t.chainQ = s.chainQ ++ List.replicate j (f.qd, f.arg % 4096) ∧ t.fires = []

theorem chainsQueued_fireOne {f : Fire} (hf : f.action = 1) {j : Nat} {t : State} (hroom : chainQLen s f.qd + j < 1024)
    (h : ChainsQueued s f j t) : ChainsQueued s f (j + 1) (fireOne f t) := by
  obtain ⟨hq, hfires⟩ := h
  have hlen : chainQLen t f.qd < 1024 := by
    rw [chainQLen, hq]
    simpa [chainQLen] using hroom
  have hact : runAction f t = (true, { t with chainQ := t.chainQ ++ [(f.qd, f.arg % 4096)] }) := by
    rw [runAction, if_pos hf, if_pos hlen]
  rw [fireOne_of_none_waiting hfires (by rw [hact]), hact]
  refine ⟨?_, hfires⟩
  show t.chainQ ++ _ = _
  rw [hq, List.append_assoc, List.replicate_succ']

/-- The soft source of a firing stays set, and no firing waits. -/
def SoftRaised (s : State) (f : Fire) (j : Nat) (t : State) : Prop :=
  t.fires = [] ∧ t.fuses = s.fuses ∧ (0 < j → f.arg % 16 * 1024 + f.arg / 16 % 1024 ∈ t.soft)

theorem softRaised_fireOne {f : Fire} (hf : f.action = 3) (hr : rindPresent s.fuses (f.arg % 16) = true)
    (hsrc : 512 ≤ f.arg / 16 % 1024) {j : Nat} {t : State} (h : SoftRaised s f j t) : SoftRaised s f (j + 1) (fireOne f t) := by
  obtain ⟨hfires, hfuses, hsoft⟩ := h
  have hact : runAction f t = (true, softSet (f.arg % 16) (f.arg / 16 % 1024) t) := by
    rw [runAction, if_neg (by omega), if_neg (by omega), if_pos hf]
    dsimp only
    rw [hfuses, if_pos hr]
  rw [fireOne_of_none_waiting hfires (by rw [hact]), hact]
  dsimp only
  rw [softSet, if_neg (by omega)]
  dsimp only
  split
  case isTrue hin => exact ⟨hfires, hfuses, fun _ => List.contains_iff_mem.mp hin⟩
  case isFalse => exact ⟨hfires, hfuses, fun _ => List.mem_append_right _ (List.mem_singleton.mpr rfl)⟩

/-- A wake leaves the start queues and the firings that wait. -/
theorem wakeUnit_frame (u : Nat) (s : State) : (wakeUnit u s).vats = s.vats ∧ (wakeUnit u s).fires = s.fires := by
  have hback : ∀ (l : List (Nat × PwrUnit)) (s : State), (forAll (fun x t => t.setPu x.1 x.2) l s).vats = s.vats ∧
      (forAll (fun (x : Nat × PwrUnit) t => t.setPu x.1 x.2) l s).fires = s.fires := by
    intro l
    induction l with
    | nil => exact fun s => ⟨rfl, rfl⟩
    | cons x xs ih => exact fun s => ih (s.setPu x.1 x.2)
  have hcancel : ∀ (u : Nat) (s : State), (cancelDark u s).vats = s.vats ∧ (cancelDark u s).fires = s.fires := by
    intro u s
    unfold cancelDark
    split
    · exact hback _ s
    · exact ⟨rfl, rfl⟩
  unfold wakeUnit
  split
  · unfold startWake
    split <;> exact hcancel _ (askWake u s)
  · exact ⟨rfl, rfl⟩
  · split <;> exact ⟨rfl, rfl⟩
  · exact ⟨rfl, rfl⟩

theorem vat_setVat {v : Nat} {x : Vat} (h : x ≠ Vat.reset) : (s.setVat v x).vat v = x :=
  tget_tset_self _ _ _ _ h

/-- The object's firing has put its start at the end of the Vat's queue, and no firing waits. -/
def StartQueued (s s1 : State) (f : Fire) : Nat → State → Prop
  | 0, t => t = s1
  | _ + 1, t => (t.vat (f.arg % 32)).startQ = (s.vat (f.arg % 32)).startQ ++ [⟨f.arg / 256 % 2 ^ 24, true⟩] ∧ t.fires = []

theorem startQueued_fireOne {f : Fire} (hf : f.action = 2) {t : State} (hfires : t.fires = [])
    (hvats : t.vats = s.vats) (hpres : vatPresent t.fuses (f.arg % 32) = true) (hen : isEnabled t (pgVat (f.arg % 32)) = true)
    (hdark : isDark t (puVat (f.arg % 32)) = false) (hdrain : isDrain t (pgVat (f.arg % 32)) = false)
    (hroom : (t.vat (f.arg % 32)).startQ.length < 64) : StartQueued s t f 1 (fireOne f t) := by
  have hact : runAction f t = (true, noteStart (f.arg % 32) (wakeUnit (puVat (f.arg % 32)) (t.setVat (f.arg % 32)
      { t.vat (f.arg % 32) with startQ := (t.vat (f.arg % 32)).startQ ++ [⟨f.arg / 256 % 2 ^ 24, true⟩] }))) := by
    rw [runAction, if_neg (by omega), if_pos hf, startRequest, if_neg (by rw [hpres]; decide), if_neg (by rw [hen, hdark]; decide),
      if_neg (by rw [hdrain]; decide), if_pos hroom]
  rw [fireOne_of_none_waiting hfires (by rw [hact]), hact]
  generalize hx : ({ t.vat (f.arg % 32) with startQ := _ } : Vat) = x
  obtain ⟨hwv, hwf⟩ := wakeUnit_frame (puVat (f.arg % 32)) (t.setVat (f.arg % 32) x)
  refine ⟨?_, hwf.trans hfires⟩
  show (tget Vat.reset (wakeUnit _ _).vats _).startQ = _
  rw [hwv]
  have hne : x ≠ Vat.reset := by
    rw [← hx]
    intro h
    simpa [Vat.reset] using congrArg Vat.startQ h
  rw [show tget Vat.reset (t.setVat (f.arg % 32) x).vats (f.arg % 32) = x from vat_setVat hne, ← hx]
  show (tget Vat.reset t.vats _).startQ ++ _ = _
  rw [hvats]
  rfl

/-- The increment of an object leaves the registers of a Vat's page. -/
theorem fld_vat_incremented (hs : RegsOk s) {v : Nat} (hv : v < 32) {g : Fd} (hg : g.off < 0x1000) (k d : Nat) :
    (incremented k d s).fld (pgVat v) g = s.fld (pgVat v) g := by
  have hne : pgVat v + g.off ≠ syncAt k := by simp only [pgVat, syncAt]; omega
  rw [State.fld, State.fld, rd_incremented_of_ne hs hne]

theorem startQueued_incremented (hs : RegsOk s) {f : Fire} {k d : Nat} (hf : f.action = 2) (hfires : s.fires = [])
    (hpres : vatPresent s.fuses (f.arg % 32) = true) (hen : isEnabled s (pgVat (f.arg % 32)) = true)
    (hdark : isDark s (puVat (f.arg % 32)) = false) (hdrain : isDrain s (pgVat (f.arg % 32)) = false)
    (hroom : (s.vat (f.arg % 32)).startQ.length < 64) :
    StartQueued s (incremented k d s) f 1 (fireOne f (incremented k d s)) := by
  have hv : f.arg % 32 < 32 := Nat.mod_lt _ (by decide)
  have hctrl : ∀ g : Fd, g.off < 0x1000 → (incremented k d s).flag (pgVat (f.arg % 32)) g = s.flag (pgVat (f.arg % 32)) g :=
    fun g hg => by rw [State.flag, State.flag, fld_vat_incremented hs hv hg]
  have henabled := (hctrl blkCtrl_enable (by decide)).trans hen
  have hdraining := (hctrl blkCtrl_drain (by decide)).trans hdrain
  obtain ⟨m, hm⟩ := incremented_eq k d s
  refine startQueued_fireOne hf ?_ ?_ ?_ henabled ?_ hdraining ?_ <;> rw [hm]
  exacts [hfires, rfl, hpres, hdark, hroom]

end Actions

/-! ### Chains (R176) -/

theorem exec_chainStart {s : State} {q d : Nat} (hfind : s.chainQ.find? (fun x => x.1 == q) = some (q, d))
    (hroom : (s.chains.filter (fun c => c.qd == q)).length < 256) (par : Parity) :
    let c : Chain := ⟨s.nextChain, q, d, false⟩
    let s1 := { s with chainQ := s.chainQ.erase (q, d), chains := s.chains ++ [c], nextChain := s.nextChain + 1 }
    let s2 := retryFires s1.fires (countParity q par s1)
    exec (.chainStart q par) s =
      .next (if par = .hard then parHardEvent q (descOff d) (dropChain c.id s2) else chainRun 4096 c s2) := by
  intro c s1 s2
  show execChainStart q par s = _
  unfold execChainStart
  rw [hfind]
  dsimp only
  rw [if_neg (Nat.not_le.mpr hroom)]

theorem exec_chainSendDone {s : State} {c : Chain} (hfind : s.chains.find? (fun x => x.id == c.id) = some c)
    (hsend : c.sending = true) (hdone : chainPending s c.id = false) : exec (.chainSendDone c.id) s = .next (chainDone c s) := by
  show execChainSendDone c.id s = _
  unfold execChainSendDone
  rw [hfind]
  dsimp only
  rw [if_pos hsend, if_neg (by rw [hdone]; decide)]

/-- Settles O33: a loop of firings does what is judged, by induction over the loop; its actions write no register of an object. -/
theorem chainsAndSync : Obligations.ChainsAndSync := by
  refine ⟨fun s q d hfind hroom => ?_, fun s c => exec_chainSendDone, fun s => ?_, ?_, ?_⟩
  · exact ⟨exec_chainStart hfind hroom .good, exec_chainStart hfind hroom .hard⟩
  · intro s2
    refine ⟨fun hpo hpw => congrArg _ (if_pos ?_), fun h => congrArg _ (if_neg ?_)⟩
    · exact Bool.and_eq_true_iff.mpr ⟨hpo, hpw⟩
    · intro hboth
      obtain ⟨hpo, hpw⟩ := Bool.and_eq_true_iff.mp hboth
      exact h.elim (fun h => absurd (hpo.symm.trans h) (by decide)) (fun h => absurd (hpw.symm.trans h) (by decide))
  · intro s k d u hs hk h hq hup
    rw [syncIncr_of_unarmed hs h hq hup]
    refine ⟨cnt_incremented hs k d, fun b hb => rd_incremented_of_ne hs hb d, ?_, fun v hincr hold =>
      cnt_syncWrite_incremented hs h hincr hold v⟩
    obtain ⟨m, hm⟩ := incremented_eq k d s
    rw [hm]
    rfl
  · intro s k d u hs hk hq hup hfires t thr armed step gap arg r
    have hany := syncIncr_judged (d := d) hs hq hup u (fun _ _ => True) trivial (fun _ _ _ _ => trivial) (fun _ _ _ _ _ => trivial)
    obtain ⟨-, hcnt, hthr, harmed⟩ := hany
    have hthr64 : thr < 2 ^ 64 := Nat.mod_lt _ (by decide)
    obtain ⟨m, hm⟩ := incremented_eq k d s
    have hfire := fun h => judgeIncr_succ (step := step) (d := d) (before := s.fld (syncAt k) synCnt_cnt) (thr := thr) (armed := armed) h d
    refine ⟨hcnt, hthr, harmed, fun h => judgeIncr_of_rest (by omega) _ _, fun ha hgap hst => (hfire ⟨ha, hgap⟩).trans (if_pos hst),
      fun ha hgap hst => ?_, fun hact hroom => ?_, fun hact hone hpres hen hdark hdrain hlen => ?_, fun hact hpos hpres hsrc => ?_⟩
    · have hr : r = judgeIncr step d (d + 1) (s.fld (syncAt k) synCnt_cnt) thr 1 0 :=
        congrArg (fun a => judgeIncr step d (d + 1) (s.fld (syncAt k) synCnt_cnt) thr a 0) ha
      have hup := judgeIncr_rearm (d := d) hthr64 hst (d + 1) (s.fld (syncAt k) synCnt_cnt)
      have hcount : r = _ := (hfire ⟨ha, hgap⟩).trans (if_neg (by omega))
      rw [← hr] at hup
      refine ⟨?_, congrArg Prod.fst hup, congrArg Prod.snd hup⟩
      rw [hcount]
      exact Nat.lt_of_lt_of_le Nat.one_pos (Nat.le_add_right _ _)
    · exact (syncIncr_judged (d := d) hs hq hup u (ChainsQueued s (syncFire s k)) (by rw [hm]; exact ⟨(List.append_nil _).symm, hfires⟩)
        (fun j t hj => chainsQueued_fireOne hact (by change chainQLen s (syncQuad k) + j < 1024; change j < r.1 at hj; omega))
        (fun _ _ _ _ h => h)).1
    · have hqueued := (syncIncr_judged (d := d) hs hq hup u (StartQueued s (incremented k d s) (syncFire s k)) rfl
        (fun j t hj h => ?_) (fun _ _ _ _ h => h)).1
      · change StartQueued s _ _ r.1 t at hqueued
        rw [hone] at hqueued
        exact hqueued
      · have hj0 : j = 0 := by change j < r.1 at hj; omega
        subst hj0
        rw [show t = incremented k d s from h]
        exact startQueued_incremented hs hact hfires hpres hen hdark hdrain hlen
    · obtain ⟨hf, -, hsoft⟩ := (syncIncr_judged (d := d) hs hq hup u (SoftRaised s (syncFire s k))
        (by rw [hm]; exact ⟨hfires, rfl, fun h => absurd h (by decide)⟩)
        (fun j t _ => softRaised_fireOne hact hpres hsrc) (fun _ _ _ _ h => h)).1
      exact ⟨hsoft hpos, hf⟩

end Sys2Proof.Machine
end

/-!
PROOFS. 12_twin_faults_determinism.md: Tally's entries, its ring and its reports (O50).
-/
section
namespace Sys2Proof.Machine

/-! ### Closing an entry (R382) -/

section Close
variable {s : State} {e : TEntry}

theorem exec_tallyEntryClose (hcls : e.cls ≠ clsStorm)
    (hfind : s.tally.entries.find? (fun x => x.subj == e.subj && x.cls == e.cls) = some e) (hdue : e.closeAt < s.aon) :
    exec (.tallyEntryClose e.subj e.cls) s = .next (tallyClose e s) := by
  show execTallyEntryClose e.subj e.cls s = _
  unfold execTallyEntryClose
  dsimp only
  rw [if_neg hcls, hfind]
  dsimp only
  rw [if_pos hdue]

theorem tallyClose_full (h : tallyFull s = true) (e : TEntry) : tallyClose e s = raiseEv pgTally 2 s :=
  if_pos h

theorem tallyClose_room (h : tallyFull s = false) (hin : tallyBeyond s = false) (hcls : e.cls ≠ clsStorm) :
    tallyClose e s = tallyDrop e (tallyWrite e s) := by
  show closeWith _ e s = _
  rw [closeWith, if_neg (by rw [h]; decide)]
  dsimp only
  rw [if_neg (by rw [hin]; decide), if_neg hcls]

theorem tallyWrite_inside (hin : tallyBeyond s = false) (e : TEntry) :
    tallyWrite e s = raiseEv pgTally 1 ((hbmWrite .bulk 0 (tallyAt s) (tallyRecord e) repTally s).setFld pgTally tlyHead_head
      (s.fld pgTally tlyHead_head + 1)) := by
  rw [tallyWrite, if_neg (by rw [hin]; decide)]

end Close

/-! ### A report (R381) -/

section Report
variable {s : State}

/-- What a counted report of an enabled Tally leaves when no entry is due. -/
theorem report_of_none_due (hs : RegsOk s) (hen : s.fld pgTally tlyCfg_en = 1) {cls : Nat} (hcls : clsValid cls = true)
    {subj : Nat} (hdue : s.tally.entries.find? (fun e => e.subj == subj && e.cls == cls && decide (e.closeAt < s.aon)) = none)
    (hstorm : s.tally.storm = none) (rep det : Nat) :
    report subj cls rep det s = tallyTake ⟨rep, subj, cls, det % 2 ^ 32, s.aon + max 1 (s.fld pgTally tlyCfg_holdUs) * 25⟩ s.aon
      (s.addWrap pgTally tlyStat_reports 1) := by
  have hcfg : ∀ g : Fd, g.off = 0x100 → (s.addWrap pgTally tlyStat_reports 1).fld pgTally g = s.fld pgTally g := fun g hg => by
    rw [State.fld, State.fld, State.addWrap, rd_setFld_of_ne hs (by rw [hg]; decide)]
  have hhold : tallyHold (s.addWrap pgTally tlyStat_reports 1) = max 1 (s.fld pgTally tlyCfg_holdUs) * 25 := by
    rw [tallyHold, hcfg _ rfl]
  have hstorm' : (s.addWrap pgTally tlyStat_reports 1).tally.storm = none := hstorm
  have hdue' : (s.addWrap pgTally tlyStat_reports 1).tally.entries.find?
      (fun e => e.subj == subj && e.cls == cls && decide (e.closeAt < (s.addWrap pgTally tlyStat_reports 1).aon)) = none := hdue
  show reportWith tallyClose subj cls rep det s = _
  unfold reportWith
  dsimp only
  rw [if_neg (by rw [hcfg _ rfl, hen, hcls]; decide), hdue']
  dsimp only
  rw [hstorm']
  dsimp only
  rw [hhold]
  rfl

/-- The first report of a cycle is taken by the entries as they stand. -/
theorem tallyTake_first (hstorm : s.tally.storm = none) (hrep : s.same.reports = []) (hbase : s.same.tally0 = none) (r : Report)
    (now : Nat) {es : List TEntry} (hone : tallyOne now s.tally r = { s.tally with entries := es }) :
    tallyTake r now s = { s with tally := { s.tally with entries := es },
                                 same := { s.same with reports := [r], tally0 := some s.tally } } := by
  have htake : [r].foldl (tallyOne now) s.tally = { s.tally with entries := es } := hone
  unfold tallyTake
  rw [hrep, hbase]
  dsimp only [insertReport, Option.getD]
  rw [htake, if_neg (by simp [hstorm])]

theorem tallyOne_counts {t : Tally} {e : TEntry} (h : t.entries = [e]) {r : Report} (hsubj : r.subj = e.subj) (hcls : r.cls = e.cls)
    (now : Nat) : tallyOne now t r = { t with entries := [countUp now r e] } := by
  have hsame : sameEntry r.subj r.cls e = true := by simp [sameEntry, hsubj, hcls]
  rw [tallyOne, if_pos (by rw [h]; simp [hsame]), h]
  simp [hsame]

theorem tallyOne_opens {t : Tally} (h : t.entries = []) (r : Report) (now : Nat) :
    tallyOne now t r = { t with entries := [⟨r.subj, r.cls, r.rep, r.rep, r.det, 1, now, now, r.close⟩] } := by
  rw [tallyOne, if_neg (by simp [h]), if_pos (by simp [h]), h]
  rfl

end Report

/-- Settles O50: closing an entry, the tail of the ring and a report, each by what it does when nothing else is due. -/
theorem tallyCommands : Obligations.TallyCommands := by
  refine ⟨fun s e hfind hcls hdue hin => ?_, fun s req v hopen => ⟨fun hbeyond => ?_, fun hin => ?_⟩, fun s subj cls rep det hen hcls
    hent hstorm hrep hbase hs => ?_, fun s rep det e hen hcls hent hdue hstorm hrep hbase hs => ?_, fun s r q e now hstorm hrep hbase
    hent hsubj hcls hlt => ?_⟩
  · have hin' : tallyBeyond s = false := decide_eq_false (Nat.not_lt.mpr hin)
    rw [exec_tallyEntryClose hcls hfind hdue]
    refine ⟨fun hroom => ?_, rfl, fun hfull => ?_⟩
    · rw [tallyClose_room hroom hin' hcls, tallyWrite_inside hin']
      rfl
    · rw [tallyClose_full hfull]
  · show Host.Outcome.next (onPath req (tallyTail req v) s) = _
    rw [onPath_of_open _ _ _ hopen, tallyTail, if_pos hbeyond]
    rfl
  · show Host.Outcome.next (onPath req (tallyTail req v) s) = _
    rw [onPath_of_open _ _ _ hopen, tallyTail, if_neg (Nat.not_lt.mpr hin)]
    rfl
  · intro close
    rw [report_of_none_due hs hen hcls (by rw [hent]; rfl) hstorm]
    exact tallyTake_first (s := s.addWrap pgTally tlyStat_reports 1) hstorm hrep hbase _ _ (tallyOne_opens hent _ _)
  · rw [report_of_none_due hs hen hcls (by rw [hent]; simp [hdue]) hstorm]
    rw [tallyTake_first (s := s.addWrap pgTally tlyStat_reports 1) hstorm hrep hbase _ _ (tallyOne_counts hent rfl rfl _)]
    rfl
  · have hq := tallyOne_counts (t := s.tally) hent hsubj.2 hcls.2 now
    have hr := tallyOne_counts (t := s.tally) hent hsubj.1 hcls.1 now
    have hqr := tallyOne_counts (t := { s.tally with entries := [countUp now r e] }) rfl hsubj.2 hcls.2 now
    have hfold : [r, q].foldl (tallyOne now) s.tally = { s.tally with entries := [countUp now q (countUp now r e)] } := by
      rw [List.foldl, hr, List.foldl, hqr, List.foldl]
    have hcount : countUp now q (countUp now r e) =
        { e with count := min (e.count + 2) (2 ^ 32 - 1), last := q.rep, t1 := now } := by
      have hsat : ∀ n m : Nat, min (min (n + 1) m + 1) m = min (n + 2) m := by omega
      exact congrArg (fun n => ({ e with count := n, last := q.rep, t1 := now } : TEntry)) (hsat e.count (2 ^ 32 - 1))
    rw [tallyTake_first hstorm hrep hbase q now hq]
    unfold tallyTake
    dsimp only [insertReport, Option.getD]
    rw [if_neg (Nat.not_le.mpr hlt), hfold, if_neg (by simp [hstorm]), hcount]

end Sys2Proof.Machine
end

/-!
PROOFS. Statements of 12_twin_faults_determinism.md and 13_control_and_power.md that some state fails: O52 and O53. The kernel
evaluates the model on each counterexample.
-/
section
namespace Sys2Proof.Machine

/-! ### O52: a Vat with a line in an instruction cache -/

/-- A BIST of Vat 0 has run its time, and core 0 of the Vat holds a line. -/
def bistCached : State :=
  { State.reset with
    test := some ⟨1, 0, none, true, 0⟩, vats := [(0, { Vat.reset with icache := [⟨0, 0, []⟩] })] }

/-- The instruction cache lines of a Vat in a result's next state. -/
def nextICache (v : Nat) : Result → Option (List ILine)
  | .next s => some (s.vat v).icache
  | _ => none

/-- Refutes O52: the end of a BIST empties the caches of its Vat with the local memory, which the statement's next state keeps. -/
theorem not_testsAndLanes : ¬ Obligations.TestsAndLanes := by
  rintro ⟨-, -, hbist, -⟩
  have hexec := hbist bistCached ⟨1, 0, none, true, 0⟩ true rfl (.inl rfl) rfl (by decide +kernel)
  have hcache : nextICache 0 (exec (.bistDone true) bistCached) = some [] := by decide +kernel
  rw [hexec] at hcache
  exact absurd hcache (by decide +kernel)

/-! ### O53: a register that a table lists twice -/

/-- A core whose register table lists x1 twice. -/
def x1Twice : Rind := { Rind.reset with x := [(1, 1), (1, 2)] }

theorem x1_rvSetX_x1Twice : tget 0 (rvSetX 1 0 x1Twice).x 1 = 2 := rfl

/-- Refutes O53: where a table lists x1 twice, a write of 0 drops the first entry alone, and the register reads as the second; the
statement's clause about the registers has no premise on the table. -/
theorem not_eventControllers : ¬ Obligations.EventControllers := by
  rintro ⟨-, -, -, hregs, -⟩
  obtain ⟨-, hmain, -⟩ := hregs x1Twice 1 0 (by decide)
  obtain ⟨-, -, hread⟩ := hmain (.inl rfl)
  exact absurd (x1_rvSetX_x1Twice.symm.trans hread) (by decide)

end Sys2Proof.Machine
end

/-!
PROOFS. 12_twin_faults_determinism.md: a write of RW fields (R9), and what Twin's commands and entries do (O48, O49).
-/
section
namespace Sys2Proof.Machine

/-! ### A write to a register of RW fields (R9) -/

section RwWrite
variable {s : State} {x : Loc} {v : U64}

theorem regsOk_errCount (h : RegsOk s) (page off cause : Nat) : RegsOk (errCount page off cause s) :=
  regsOk_raiseEv (regsOk_countFields h page off cause) page 0

theorem rd_noteReg (a b : Nat) (s : State) : (noteReg a s).rd b = s.rd b := by
  unfold noteReg
  split <;> rfl

theorem regsOk_noteReg (h : RegsOk s) (a : Nat) : RegsOk (noteReg a s) := by
  unfold noteReg
  split <;> exact h

/-- The fields of a register that do not overlap the field `d`, or are it. -/
def Apart (d : Fd) (f : FieldRow) : Prop := f.fd = d ∨ f.fd.l + f.fd.w ≤ d.l ∨ d.l + d.w ≤ f.fd.l

/-- RW fields written one after another: what each leaves in the register, and that the others stay. -/
theorem forAll_writeField_rw {d : Fd} (hd : d.l + d.w ≤ 64) (l : List FieldRow) :
    ∀ {s : State}, RegsOk s → (∀ f ∈ l, f.acc = .rw ∧ f.fd.l + f.fd.w ≤ 64 ∧ Apart d f) →
      RegsOk (forAll (writeField false x v) l s) ∧
      fieldOf ((forAll (writeField false x v) l s).rd (x.base + x.off)) d.l d.w =
        (if l.any (fun f => f.fd == d) then fieldOf v d.l d.w else fieldOf (s.rd (x.base + x.off)) d.l d.w) ∧
      ∀ b, b ≠ x.base + x.off → (forAll (writeField false x v) l s).rd b = s.rd b := by
  induction l with
  | nil => exact fun hs _ => ⟨hs, rfl, fun _ _ => rfl⟩
  | cons f fs ih =>
    intro s hs hall
    obtain ⟨hacc, hw, hap⟩ := hall f List.mem_cons_self
    have hone : writeField false x v f s = s.wr (x.base + x.off) (withField (s.rd (x.base + x.off)) f.fd.l f.fd.w
        (fieldOf v f.fd.l f.fd.w)) := by
      unfold writeField
      rw [hacc]
      rfl
    obtain ⟨hok, hfld, hrest⟩ := ih (regsOk_wr hs _ _) (fun g hg => hall g (List.mem_cons_of_mem _ hg))
    rw [forAll, hone]
    refine ⟨hok, hfld.trans ?_, fun b hb => (hrest b hb).trans (rd_wr_of_ne hs hb _)⟩
    rw [rd_wr_self hs, List.any_cons]
    by_cases heq : f.fd = d
    · subst heq
      simp [fieldOf_withField _ _ _ _ hd, Nat.mod_eq_of_lt (fieldOf_lt v _ _)]
    · have hnot : (f.fd == d) = false := by simpa using heq
      rw [hnot, Bool.false_or, fieldOf_withField_other _ _ _ _ _ _ hw hd (hap.resolve_left heq).symm]

/-- A write that is not overtaken, to a register of RW fields apart from the page's counter and events. -/
theorem plainWrite_rw {req : Nat} (hs : RegsOk s) (hlost : lostRace s req (x.base + x.off) = false)
    (hcnt : x.base + x.off ≠ x.owner + 0x38) (hev : x.base + x.off ≠ x.owner + 0x20) {d : Fd} (hd : d.l + d.w ≤ 64)
    (hrows : ∀ f ∈ x.fields, f.acc = .rw ∧ f.fd.l + f.fd.w ≤ 64 ∧ Apart d f) (held : FieldRow → Bool) :
    fieldOf ((plainWrite req x v held s).rd (x.base + x.off)) d.l d.w =
      (if x.fields.any (fun f => !held f && f.fd == d) then fieldOf v d.l d.w else fieldOf (s.rd (x.base + x.off)) d.l d.w) ∧
    ∀ b, b ≠ x.base + x.off → b ≠ x.owner + 0x38 → b ≠ x.owner + 0x20 → (plainWrite req x v held s).rd b = s.rd b := by
  have hcount : ∀ (c : Prop) [Decidable c] (cause : Nat) (t : State), RegsOk t →
      RegsOk (if c then errAt x cause t else t) ∧
      ∀ b, b ≠ x.owner + 0x38 → b ≠ x.owner + 0x20 → (if c then errAt x cause t else t).rd b = t.rd b := by
    intro c _ cause t ht
    split
    · exact ⟨regsOk_errCount ht _ _ _, fun b h1 h2 => rd_errCount_of_ne ht h1 h2 _ _⟩
    · exact ⟨ht, fun _ _ _ => rfl⟩
  unfold plainWrite
  dsimp only
  rw [hlost]
  obtain ⟨h1, hr1⟩ := hcount (rsvWritten x.fields v = true) 4 s hs
  generalize (if rsvWritten x.fields v = true then errAt x 4 s else s) = s1 at h1 hr1 ⊢
  generalize x.fields.any (fun f => held f && f.acc == .rw &&
    fieldOf v f.fd.l f.fd.w != fieldOf (s.rd (x.base + x.off)) f.fd.l f.fd.w) = bad
  obtain ⟨h2, hr2⟩ := hcount (bad = true) 2 s1 h1
  generalize (if bad = true then errAt x 2 s1 else s1) = s2 at h2 hr2 ⊢
  obtain ⟨-, hfld, hrest⟩ := forAll_writeField_rw (x := x) (v := v) hd (x.fields.filter (fun f => !held f)) (regsOk_noteReg h2 (x.base + x.off))
    (fun f hf => hrows f (List.mem_of_mem_filter hf))
  refine ⟨?_, fun b hb hc he => ?_⟩
  · refine hfld.trans ?_
    rw [List.any_filter, rd_noteReg, hr2 _ hcnt hev, hr1 _ hcnt hev]
  · refine (hrest b hb).trans ?_
    rw [rd_noteReg, hr2 _ hc he, hr1 _ hc he]

end RwWrite

/-! ### TWN_CFG (R360) -/

section TwnCfg
variable {s : State} {req : Nat} {v : U64}

theorem twnCfg_rows : ∀ f ∈ (locTwin 0x100).fields,
    f.acc = .rw ∧ f.fd.l + f.fd.w ≤ 64 ∧ Apart twnCfg_mode f := by
  unfold Apart
  decide +kernel

theorem twMode_cfgWrite (hs : RegsOk s) (hlost : lostRace s req (pgTwin + 0x100) = false) (held : FieldRow → Bool) :
    twMode (plainWrite req (locTwin 0x100) v held s) = if held ⟨twnCfg_mode, .rw, 0⟩ then twMode s else fieldOf v 0 2 := by
  have hfields : (locTwin 0x100).fields = [⟨twnCfg_mode, .rw, 0⟩, ⟨twnCfg_autoTake, .rw, 0⟩, ⟨twnCfg_twinFid, .rw, 0⟩,
      ⟨twnCfg_aliasFid, .rw, 0⟩] := by decide +kernel
  obtain ⟨hfld, -⟩ := plainWrite_rw (x := locTwin 0x100) (v := v) hs hlost (by decide) (by decide) (d := twnCfg_mode) (by decide)
    twnCfg_rows held
  refine hfld.trans ?_
  rw [hfields]
  have hother : ∀ d : Fd, d ∈ [twnCfg_autoTake, twnCfg_twinFid, twnCfg_aliasFid] → (d == twnCfg_mode) = false := by decide
  simp only [List.any_cons, List.any_nil, beq_self_eq_true, Bool.and_true, Bool.or_false,
    hother twnCfg_autoTake (by simp), hother twnCfg_twinFid (by simp), hother twnCfg_aliasFid (by simp), Bool.and_false]
  cases held ⟨twnCfg_mode, .rw, 0⟩ <;> rfl

theorem twState_cfgWrite (hs : RegsOk s) (hlost : lostRace s req (pgTwin + 0x100) = false) (held : FieldRow → Bool) :
    twState (plainWrite req (locTwin 0x100) v held s) = twState s := by
  obtain ⟨-, hrest⟩ := plainWrite_rw (x := locTwin 0x100) (v := v) hs hlost (by decide) (by decide) (d := twnCfg_mode) (by decide)
    twnCfg_rows held
  rw [twState, twState, State.fld, State.fld, hrest _ (by decide) (by decide) (by decide)]

/-- The fields that a write of TWN_CFG keeps: mode, for another mode, and the twin's FID while the module is not OFF. -/
def cfgHeld (s : State) (v : U64) (f : FieldRow) : Bool :=
  (f.fd == twnCfg_mode && !(twState s == twOff) && fieldOf v 0 2 != 0) || (f.fd == twnCfg_twinFid && !(twState s == twOff))

theorem cfgHeld_off (h : twState s = 0) (v : U64) : cfgHeld s v = fun _ => false := by
  funext f
  simp [cfgHeld, h, twOff]

theorem cfgHeld_on (h : twState s ≠ 0) (hv : fieldOf v 0 2 ≠ 0) :
    cfgHeld s v = fun f => f.fd == twnCfg_mode || f.fd == twnCfg_twinFid := by
  funext f
  have hoff : (twState s == twOff) = false := beq_false_of_ne h
  have hnew : (fieldOf v 0 2 != 0) = true := bne_iff_ne.mpr hv
  rw [cfgHeld, hoff, hnew]
  simp

theorem cfgHeld_unpair (hv : fieldOf v 0 2 = 0) : cfgHeld s v = fun f => f.fd == twnCfg_twinFid && twState s != 0 := by
  funext f
  simp [cfgHeld, hv, twOff, bne]

theorem onPath_twin (hopen : pathOpen s req = true) (htwin : twinPresent s.fuses = true) (f : State → State) :
    onPath req (onTwin f) s = f s := by
  rw [onPath_of_open _ _ _ hopen, onTwin, if_pos htwin]

/-- A write of TWN_CFG over an open path to a module with Twin, by what it does after the write itself. -/
theorem twnCfgWrite_eq (htwin : twinPresent s.fuses = true) : twnCfgWrite req v s =
    let s1 := plainWrite req (locTwin 0x100) v (cfgHeld s v) s
    if twMode s1 = 0 then (if twMode s = 0 ∧ (twState s == twOff) = true then s1 else unpair s1)
    else if twMode s = 0 then setTwin (fun t => { t with heartAt := s.cyc }) s1
    else if twMode s1 = 3 ∧ twState s1 = twLost ∧ s1.flag pgTwin twnCfg_autoTake then takeOver s1
    else s1 := by
  rw [twnCfgWrite, onTwin, if_pos htwin]
  rfl

theorem exec_twinModeSet (hopen : pathOpen s req = true) (hv : fieldOf v 0 2 ≠ 0) :
    exec (.twinModeSet req v) s = .next (twnCfgWrite req v s) := by
  show Host.Outcome.next (if _ then _ else _) = _
  rw [if_pos hv, onPath_of_open _ _ _ hopen]

theorem exec_twinUnpair (hopen : pathOpen s req = true) (hv : fieldOf v 0 2 = 0) :
    exec (.twinUnpair req v) s = .next (twnCfgWrite req v s) := by
  show Host.Outcome.next (if _ then _ else _) = _
  rw [if_pos hv, onPath_of_open _ _ _ hopen]

/-- Mode 0 is written in every state, and unpairs a module that was not unpaired. -/
theorem exec_twinUnpair_eq (hopen : pathOpen s req = true) (htwin : twinPresent s.fuses = true) (hv : fieldOf v 0 2 = 0)
    (hs : RegsOk s) (hlost : lostRace s req (pgTwin + 0x100) = false) :
    let w := plainWrite req (locTwin 0x100) v (fun f => f.fd == twnCfg_twinFid && twState s != 0) s
    twMode w = 0 ∧ twState w = twState s ∧
      exec (.twinUnpair req v) s = .next (if twMode s = 0 ∧ (twState s == twOff) = true then w else unpair w) := by
  intro w
  have hzero : twMode w = 0 := by
    have hmode := twMode_cfgWrite (v := v) hs hlost (fun f => f.fd == twnCfg_twinFid && twState s != 0)
    rw [if_neg (by rw [show (twnCfg_mode == twnCfg_twinFid) = false from rfl]; simp), hv] at hmode
    exact hmode
  refine ⟨hzero, twState_cfgWrite hs hlost _, ?_⟩
  rw [exec_twinUnpair hopen hv, twnCfgWrite_eq htwin, cfgHeld_unpair hv]
  exact congrArg _ (if_pos hzero)

theorem unpair_eq (s : State) : unpair s =
    let u := { s.setFld pgTwin twnStat_state 0 with twin := { s.twin with heartSeen := false } }
    { (if twState s = 1 then forAll releaseKey (heldKeys u) u else u) with twin := Twin.reset } := rfl

end TwnCfg

/-! ### TWN_CMD (R364, R373) -/

theorem twnCmd_write {s : State} {req : Nat} (hopen : pathOpen s req = true) (htwin : twinPresent s.fuses = true) (n : U64) :
    onPath req (twnCmdWrite req n) s = twnCmd (fieldOf n 0 4)
      (plainWrite req (locTwin 0x118) n (fun _ => false) (woTurn req (pgTwin + 0x118) s)) := by
  unfold twnCmdWrite
  exact onPath_twin hopen htwin _

/-- Settles O48: Twin's commands and timers, each by the branch that its premises choose. -/
theorem twinCommands : Obligations.TwinCommands := by
  refine ⟨fun s req v hopen htwin hv hs hlost => ?_, fun s req v hopen htwin hv hs hlost => ?_, fun s req hopen htwin => ?_,
    fun s htwin hmode hdue => ?_, fun s n hrx htwin hpaired hdue hmode => ?_, fun s htwin hmode => ?_,
    fun s k x n hslot hat hdue => ?_⟩
  · intro w
    rw [exec_twinModeSet hopen hv, twnCfgWrite_eq htwin]
    refine ⟨fun hoff hmode => ?_, fun hoff hmode => ?_⟩
    · have hnew := twMode_cfgWrite (v := v) hs hlost (fun _ => false)
      rw [if_neg (by decide)] at hnew
      rw [cfgHeld_off hoff]
      dsimp only
      rw [hnew, if_neg hv, if_pos hmode]
      rfl
    · intro t
      have hkeep := twMode_cfgWrite (v := v) hs hlost (fun f => f.fd == twnCfg_mode || f.fd == twnCfg_twinFid)
      rw [if_pos (by decide)] at hkeep
      rw [cfgHeld_on hoff hv]
      dsimp only
      rw [hkeep, if_neg hmode, if_neg hmode, twState_cfgWrite hs hlost]
      rfl
  · intro w u held release
    obtain ⟨hzero, hstate, hexec⟩ := exec_twinUnpair_eq hopen htwin hv hs hlost
    change exec _ _ = .next (if _ then w else unpair w) at hexec
    change twState w = _ at hstate
    rw [hexec]
    refine ⟨fun hoff hmode => ?_, fun hone => ?_, fun hne hor => ?_, rfl, rfl, rfl, hzero⟩
    · rw [if_pos ⟨hmode, by rw [hoff]; rfl⟩]
    · rw [if_neg (fun h => absurd (hone.symm.trans (beq_iff_eq.mp h.2)) (by decide)), unpair_eq]
      dsimp only
      rw [if_pos (hstate.trans hone)]
      rfl
    · have hon : ¬ (twMode s = 0 ∧ (twState s == twOff) = true) := by
        rintro ⟨hmode, hoff⟩
        exact hor.elim (fun h => h (beq_iff_eq.mp hoff)) (fun h => h hmode)
      rw [if_neg hon, unpair_eq]
      dsimp only
      rw [if_neg (fun h => hne (hstate.symm.trans h))]
  · intro w
    have hcmd : ∀ n : U64, onPath req (twnCmdWrite req n) s = twnCmd (fieldOf n 0 4) (w n) := twnCmd_write hopen htwin
    have hsolo : exec (.solo req) s = .next (twnCmd 2 (w 2)) := congrArg _ (hcmd 2)
    have htake : exec (.takeover req) s = .next (twnCmd 1 (w 1)) := congrArg _ (hcmd 1)
    have hjoin : exec (.rejoin req) s = .next (twnCmd 3 (w 3)) := congrArg _ (hcmd 3)
    rw [hsolo, htake, hjoin]
    refine ⟨fun h => congrArg _ (if_pos h), fun h => congrArg _ (if_neg h), fun h => ?_, fun hmode h => ?_, fun h hseen => ?_, fun h => ?_⟩
    · exact congrArg _ (if_neg (fun ⟨_, hne, _⟩ => hne h))
    · exact congrArg _ (if_pos ⟨hmode, by unfold twPaired twOff twActive; omega⟩)
    · exact congrArg _ (if_pos ⟨h, hseen⟩)
    · exact congrArg _ (if_neg (fun ⟨hor, _⟩ => by unfold twSolo twLost at hor; omega))
  · exact congrArg _ (if_pos ⟨htwin, hmode, hdue⟩)
  · intro u r
    show Host.Outcome.next (match s.twin.lastRx with | none => _ | some t => _) = _
    rw [hrx]
    refine congrArg _ ((if_pos ⟨htwin, hpaired, hdue⟩).trans ?_)
    dsimp only
    rcases hmode with h | h
    · rw [if_pos h, if_pos h]
      rfl
    · rw [if_neg (by omega), if_neg (by omega), if_neg (by omega)]
      rfl
  · exact congrArg _ (if_pos ⟨htwin, hmode⟩)
  · show Host.Outcome.next (match s.slotOf k with | none => _ | some x => _) = _
    rw [hslot]
    dsimp only
    rw [hat]
    exact congrArg _ (if_pos hdue)

/-! ### TWIN packets and their entries (R362, R363) -/

section Packets
variable {s : State} {port : Nat} {p : Packet}

theorem takeInbox_of_nil (h : s.inbox = []) (port : Nat) (p : Packet) : takeInbox port p s =
    ({ port := port, pkt := p, buf := none, org := .none, held := false, seq := s.arrivals, pool := none, frame := 0, tc := 0 },
      { s with arrivals := s.arrivals + 1 }) := by
  simp [takeInbox, h]

theorem twinPacket_of_new (h : s.inbox = []) (hcrc : crcGood p = true) {kinds : Nat → Bool} (hkind : kinds (p.addr % 256) = true) :
    twinPacket kinds port p s = consumed
      { port := port, pkt := p, buf := none, org := .none, held := false, seq := s.arrivals, pool := none, frame := 0, tc := 0 }
      (twinTake port p { s with arrivals := s.arrivals + 1 }) := by
  unfold twinPacket
  rw [takeInbox_of_nil h]
  simp [hkind, hcrc]

theorem twinTake_of_role (htwin : twinPresent s.fuses = true) (hmode : twMode s ≠ 0) (hkind : 0 < p.addr % 256 ∧ p.addr % 256 ≤ 7) :
    twinTake port p s =
      let s1 := setTwin (fun t => { t with lastRx := some s.cyc }) s
      if p.addr % 256 = kHeart then heartTake p s1
      else if p.plen ≠ bitsOf p.addr 8 8 * entrySize (p.addr % 256) ∨ bitsOf p.addr 8 8 = 0 then protoErr port s1
      else if takesEntries s1 then drainAll (forAll takeEntry (packetEntries s1 p) s1)
      else s1 := by
  unfold twinTake
  dsimp only
  rw [if_neg (by omega), if_neg (by rw [htwin]; simp [hmode])]

/-- A packet of whole entries holds and applies them; one of another size is a protocol error. -/
theorem twinTake_entries (htwin : twinPresent s.fuses = true) (hmode : twMode s ≠ 0) (hkind : 2 ≤ p.addr % 256 ∧ p.addr % 256 ≤ 7) :
    let z := if p.addr % 256 = 6 then 32 else 16
    let whole := p.plen == p.addr / 256 % 256 * z && p.addr / 256 % 256 != 0
    let u := setTwin (fun t => { t with lastRx := some s.cyc }) s
    (whole = true → twinTake port p s = if takesEntries u then drainAll (forAll takeEntry (packetEntries u p) u) else u) ∧
    (whole = false → twinTake port p s = protoErr port u) := by
  intro z whole u
  have hz : entrySize (p.addr % 256) = z := rfl
  have hn : bitsOf p.addr 8 8 = p.addr / 256 % 256 := rfl
  have hbad : (p.plen ≠ bitsOf p.addr 8 8 * entrySize (p.addr % 256) ∨ bitsOf p.addr 8 8 = 0) ↔ whole = false := by
    rw [hz, hn, Bool.and_eq_false_iff, beq_eq_false_iff_ne, bne_eq_false_iff_eq]
  rw [twinTake_of_role htwin hmode (by omega)]
  dsimp only
  rw [if_neg (by unfold kHeart; omega)]
  exact ⟨fun h => if_neg (fun hb => absurd ((hbad.mp hb).symm.trans h) (by decide)), fun h => if_pos (hbad.mpr h)⟩

theorem heartTake_eq (p : Packet) (u : State) : heartTake p u =
    let next := leAt p.payload 0 4
    let kept := u.twin.unacked.filter (fun y => !(decide (0 < (next + 2 ^ 32 - y.tseq) % 2 ^ 32) &&
      decide ((next + 2 ^ 32 - y.tseq) % 2 ^ 32 ≤ 2 ^ 31)))
    let h1 := { u with twin := { u.twin with unacked := kept, farCount := leAt p.payload 8 8, heartSeen := true } }
    let h2 := if leAt p.payload 16 8 = 0 then h1
      else h1.setFld pgTwin twnStat_rtt (min (2 ^ 32 - 1) (u.aon - leAt p.payload 16 8))
    if twState h2 = 0 then { h2.setFld pgTwin twnStat_state 1 with twin := { h2.twin with
      txSeq := 0, unacked := [], rxNext := 0, held := [], lastRx := some u.cyc, heartSeen := false } }
    else h2 := by
  unfold heartTake
  rcases eq_or_ne (leAt p.payload 16 8) 0 with h | h
  · dsimp only
    rw [if_pos h, if_pos h]
    exact if_congr Iff.rfl rfl rfl
  · dsimp only
    rw [if_neg h, if_neg h]
    exact if_congr Iff.rfl rfl rfl

end Packets

/-! ### One entry in its turn -/

section Entry
variable {s : State} {e : TwinEntry}

theorem applyEntry_standby (hmode : twMode s = 3) (hd : e.kind ≠ kDigest) (ha : e.kind ≠ kAbort) : applyEntry e s =
    if e.kind = kCfg then (true, cfgEntry (leAt e.bytes 0 4 % 2 ^ 28) (BitVec.ofNat 64 (leAt e.bytes 8 8)) s)
    else if e.kind = kEpoch then
      (true, setTwin (fun t => { t with epochs := t.epochs.filter (fun x => x.1 != leAt e.bytes 0 2 % 4096) ++
        [(leAt e.bytes 0 2 % 4096, leAt e.bytes 2 2)] })
        (s.setFld (grpAt (leAt e.bytes 0 2 % 4096)) grpEpoch_curEpoch (leAt e.bytes 2 2)))
    else if e.kind = kOpen then (true, setTwin (fun t => { t with openLog := t.openLog ++ [keyOfWord (leAt e.bytes 0 8)] }) s)
    else (true, setTwin (fun t => { t with doneLog := t.doneLog ++ [keyOfWord (leAt e.bytes 0 8)] }) (clogWrite e.bytes s)) := by
  unfold applyEntry
  dsimp only
  rw [if_neg hd, if_neg ha, if_neg (by omega)]

theorem applyEntry_digest (hmode : twMode s = 1) (h : e.kind = kDigest) :
    applyEntry e s = digestEntry (keyOfWord (leAt e.bytes 0 8)) (leAt e.bytes 8 8) s := by
  unfold applyEntry
  dsimp only
  rw [if_pos h, if_pos hmode]

theorem applyEntry_abort (hmode : twMode s = 1) (h : e.kind = kAbort) :
    applyEntry e s = (true, abortEntry (keyOfWord (leAt e.bytes 0 8)) s) := by
  unfold applyEntry
  dsimp only
  rw [if_neg (by rw [h]; decide), if_pos h, if_pos hmode]

theorem digestEntry_waiting {k : Key} {d : Nat} {x : Slot} (hroom : s.twin.digests.length < 65536) (hslot : s.slotOf k = some x)
    (hat : x.twinAt.isSome = true) : digestEntry k d s = (true, twinCompare x d s) := by
  unfold digestEntry
  rw [if_neg (by omega), hslot]
  exact if_pos hat

/-- A DIGEST for which no result waits. -/
theorem digestEntry_early {k : Key} {d : Nat} (hroom : s.twin.digests.length < 65536)
    (h : (s.slotOf k).all (fun x => x.twinAt.isNone) = true) : digestEntry k d s = (true, digestEntry.keep k d s) := by
  unfold digestEntry
  rw [if_neg (by omega)]
  cases hx : s.slotOf k with
  | none => rfl
  | some x =>
    rw [hx] at h
    have hnone : x.twinAt.isNone = true := h
    exact if_neg (by simpa using hnone)

theorem abortEntry_early {k : Key} (h : (s.slotOf k).all (fun x => x.twinAt.isNone) = true) :
    abortEntry k s = { s with twin := { s.twin with aborted := s.twin.aborted ++ [k] } } := by
  unfold abortEntry
  cases hx : s.slotOf k with
  | none => rfl
  | some x =>
    rw [hx] at h
    have hnone : x.twinAt.isNone = true := h
    exact if_neg (by simpa using hnone)

theorem cfgEntry_at {addr : Nat} {x : Loc} (h : locate addr = some x) (v : U64) (s : State) : cfgEntry addr v s =
    if x.kind = .wGrp then grpWrite repTwin x.inst x.off v s else if x.kind = .wMask then maskWrite repTwin x.inst v s else s := by
  unfold cfgEntry
  rw [h]

end Entry

/-- The one entry that is held, and next in order, is applied and no longer held. -/
theorem drainAll_one {s : State} {e : TwinEntry} (hheld : s.twin.held = [e]) (hseq : e.tseq = s.twin.rxNext)
    (hok : (applyEntry e s).1 = true) (hheld' : (applyEntry e s).2.twin.held = [e])
    (hnext : (applyEntry e s).2.twin.rxNext = s.twin.rxNext) :
    drainAll s = { (applyEntry e s).2 with twin := { (applyEntry e s).2.twin with
      held := [], rxNext := (s.twin.rxNext + 1) % 2 ^ 32 } } := by
  have hfind : s.twin.held.find? (fun e => e.tseq == s.twin.rxNext) = some e := by simp [hheld, hseq]
  have hlen : s.twin.held.length + 1 = 2 := by rw [hheld]; rfl
  obtain ⟨ok, t, happ⟩ : ∃ ok t, applyEntry e s = (ok, t) := ⟨_, _, rfl⟩
  rw [happ] at hok hheld' hnext ⊢
  dsimp only at hok hheld' hnext
  subst hok
  rw [drainAll, hlen, drainTwin, hfind]
  dsimp only
  rw [happ]
  dsimp only
  rw [drainTwin, setTwin]
  dsimp only
  rw [hheld', hnext, List.erase_cons_head]
  rfl

/-- Settles O49: TWIN packets and the entries that they carry. -/
theorem twinEntries : Obligations.TwinEntries := by
  refine ⟨fun s port p hcrc htwin hmode hbox => ?_, fun s e hmode => ?_, fun s e hmode => ?_,
    fun s e hheld hseq hok hheld' hnext => drainAll_one hheld hseq hok hheld' hnext⟩
  · intro u x next kept h1 h2 h z whole e
    have hpkt := fun (kinds : Nat → Bool) (hk : kinds (p.addr % 256) = true) =>
      congrArg (Host.Outcome.next : State → Result) (twinPacket_of_new (port := port) hbox hcrc hk)
    have hent := fun hk => twinTake_entries (s := { s with arrivals := s.arrivals + 1 }) (port := port) (p := p) htwin hmode hk
    have hgood : ∀ (kinds : Nat → Bool), 2 ≤ p.addr % 256 ∧ p.addr % 256 ≤ 7 → kinds (p.addr % 256) = true → whole = true →
        Host.Outcome.next (twinPacket kinds port p s) = (.next (consumed x e) : Result) := fun kinds hk hkinds hw =>
      (hpkt kinds hkinds).trans (congrArg (fun t => (Host.Outcome.next (consumed x t) : Result)) ((hent hk).1 hw))
    have hbad : ∀ (kinds : Nat → Bool), 2 ≤ p.addr % 256 ∧ p.addr % 256 ≤ 7 → kinds (p.addr % 256) = true → whole = false →
        Host.Outcome.next (twinPacket kinds port p s) = (.next (consumed x (protoErr port u)) : Result) := fun kinds hk hkinds hw =>
      (hpkt kinds hkinds).trans (congrArg (fun t => (Host.Outcome.next (consumed x t) : Result)) ((hent hk).2 hw))
    refine ⟨fun hk => ?_, fun hk => hgood _ (by omega) (by rw [hk]; rfl), fun hk => hgood _ (by omega) (by rw [hk]; rfl),
      fun hk => hgood _ (by omega) (by rw [hk]; rfl), fun hk => hgood _ (by omega) (by rw [hk]; rfl),
      fun hk => hgood _ (by omega) (by rw [hk]; rfl), fun hk => hgood _ (by omega) (by rw [hk]; rfl), fun hw =>
      ⟨fun hk => hbad _ (by omega) (by rw [hk]; rfl) hw, fun hk => hbad _ (by omega) (by rw [hk]; rfl) hw,
        fun hk => hbad _ (by omega) (by rw [hk]; rfl) hw, fun hk => hbad _ (by omega) (by rw [hk]; rfl) hw,
        fun hk => hbad _ (by omega) (by rw [hk]; rfl) hw, fun hk => hbad _ (by omega) (by rw [hk]; rfl) hw⟩⟩
    refine (hpkt (fun k => k == kHeart || k == 0 || decide (7 < k)) (by rw [hk]; rfl)).trans
      (congrArg (fun t => (Host.Outcome.next (consumed x t) : Result)) ?_)
    rw [twinTake_of_role (s := { s with arrivals := s.arrivals + 1 }) htwin hmode (by omega)]
    exact (if_pos hk).trans (heartTake_eq p u)
  · intro k
    refine ⟨fun h => ?_, fun h => ?_, fun h => ?_, fun x h hx hkind => ?_, fun x h hx hkind => ?_, fun h => ?_⟩
    · rw [applyEntry_standby hmode (by rw [h]; decide) (by rw [h]; decide), if_neg (by rw [h]; decide),
        if_pos (show e.kind = kEpoch from h)]
      rfl
    · rw [applyEntry_standby hmode (by rw [h]; decide) (by rw [h]; decide), if_neg (by rw [h]; decide),
        if_neg (by rw [h]; decide), if_pos (show e.kind = kOpen from h)]
      rfl
    · rw [applyEntry_standby hmode (by rw [h]; decide) (by rw [h]; decide), if_neg (by rw [h]; decide),
        if_neg (by rw [h]; decide), if_neg (by rw [h]; decide)]
      rfl
    · rw [applyEntry_standby hmode (by rw [h]; decide) (by rw [h]; decide), if_pos (show e.kind = kCfg from h),
        cfgEntry_at hx, if_pos hkind]
    · rw [applyEntry_standby hmode (by rw [h]; decide) (by rw [h]; decide), if_pos (show e.kind = kCfg from h),
        cfgEntry_at hx, if_neg (by rw [hkind]; decide), if_pos hkind]
    · unfold applyEntry
      dsimp only
      rcases h with h | h
      · rw [if_pos (show e.kind = kDigest from h), if_neg (by omega)]
      · rw [if_neg (by rw [h]; decide), if_pos (show e.kind = kAbort from h), if_neg (by omega)]
  · intro k d late keepD keepA
    refine ⟨fun x h hroom hslot hat => ?_, fun h hroom hnone => ?_, fun h hfull => ?_, fun x h hslot hat => ?_, fun h hnone => ?_,
      fun hlo hhi => ?_⟩
    · have hcmp : ∀ r, x.result = some r → twinCompare x d s = if r.digest = d then twinPass x s else twinMismatch x s :=
        fun r hr => by rw [twinCompare, hr]
      rw [applyEntry_digest hmode h, digestEntry_waiting hroom hslot hat]
      exact ⟨fun r hr hd => by rw [hcmp r hr, if_pos hd], fun r hr hd => by rw [hcmp r hr, if_neg hd]⟩
    · rw [applyEntry_digest hmode h, digestEntry_early hroom hnone]
      unfold digestEntry.keep
      refine ⟨fun hf => ?_, fun hf => ?_, fun y hf hd => ?_⟩
      · rw [hf]
        rfl
      · rw [hf]
        exact congrArg (Prod.mk true) (if_pos rfl)
      · rw [hf]
        exact congrArg (Prod.mk true) (if_neg hd)
    · rw [applyEntry_digest hmode h, digestEntry, if_pos hfull]
    · rw [applyEntry_abort hmode h]
      unfold abortEntry
      rw [hslot]
      exact congrArg (Prod.mk true) (if_pos hat)
    · rw [applyEntry_abort hmode h, abortEntry_early hnone]
    · unfold applyEntry
      dsimp only
      rw [if_neg (by unfold kDigest; omega), if_neg (by unfold kAbort; omega), if_pos (by omega)]

end Sys2Proof.Machine
end

/-!
PROOFS. 13_control_and_power.md, 16_package_and_electrical.md: parking, wakes, DARK, the monitors and PMBus (O55).
-/
section
namespace Sys2Proof.Machine

/-! ### The end of a transition (R411 to R414) -/

section Wake
variable {s : State} {u n : Nat}

theorem exec_wakeComplete (h : (s.pu u).until_ = some n) : exec (.wakeComplete u) s = .next (match (s.pu u).st with
    | .gold => if s.cyc < n then s
      else if unitIdle s u then loseLocal u (s.setPu u ⟨.slate, none, s.cyc, none⟩)
      else s.setPu u { s.pu u with until_ := none }
    | .amber => if 1024 ≤ u then laneGold (u - 1024) (s.setPu u ⟨.gold, none, s.cyc, none⟩)
      else settleAll (s.setPu u ⟨.gold, none, s.cyc, none⟩)
    | .dark => if 64 ≤ u ∧ u < 96 then stackToSlate (u - 64) (darkLoses u s)
      else (darkLoses u s).setPu u ⟨if 96 ≤ u then .gold else .slate, none, s.cyc, none⟩
    | .slate => s) := by
  show Host.Outcome.next (match (s.pu u).until_ with | none => s | some t => _) = _
  rw [h] <;> rfl

theorem settleAll_of_none (h : s.grps.all (fun x => x.2.settles.isEmpty) = true) : settleAll s = s := by
  unfold settleAll
  refine forAll_eq_self (fun x hx t => ?_) s
  exact if_pos (List.all_eq_true.mp h x hx)

theorem cyc_forAll {α : Type} {f : α → State → State} (hf : ∀ x s, (f x s).cyc = s.cyc) (l : List α) (s : State) :
    (forAll f l s).cyc = s.cyc := by
  induction l generalizing s with
  | nil => rfl
  | cons x xs ih => exact (ih (f x s)).trans (hf x s)

theorem cyc_loseLocal (u : Nat) (s : State) : (loseLocal u s).cyc = s.cyc := by
  unfold loseLocal
  split <;> rfl

theorem cyc_dropCoreLines (k : Nat) (s : State) : (dropCoreLines k s).cyc = s.cyc :=
  cyc_forAll (f := fun (x : Nat × RLine) s => lineLeaves (dcacheOf k) x.1 (lineLeaves (icacheOf k) x.1 s)) (fun _ _ => rfl) _ s

theorem darkLoses_press (h : u < 32) : darkLoses u s = loseLocal u (resetPage (unitPage u) s) := if_pos h

theorem darkLoses_vat (hlo : 32 ≤ u) (hhi : u < 64) : darkLoses u s =
    forAll (fun k s => s.setCore ((u - 32) * 8 + k) Core.idle) (List.range 8)
      ((loseLocal u (resetPage (unitPage u) s)).setVat (u - 32) Vat.reset) := by
  rw [darkLoses]
  exact (if_neg (by omega)).trans (if_pos hhi)

theorem darkLoses_stack (hlo : 64 ≤ u) (hhi : u < 96) :
    darkLoses u s = clearStack (u - 64) (loseLocal u (resetPage (unitPage u) s)) := by
  rw [darkLoses]
  exact (if_neg (by omega)).trans ((if_neg (by omega)).trans (if_pos hhi))

theorem darkLoses_rind (h : 96 ≤ u) : darkLoses u s =
    let r := dropCoreLines (u - 96) ((loseLocal u (resetPage (unitPage u) s)).setRind (u - 96) Rind.reset)
    { r with soft := r.soft.filter (fun i => i / 1024 != u - 96) } := by
  rw [darkLoses]
  exact (if_neg (by omega)).trans ((if_neg (by omega)).trans (if_neg (by omega)))

theorem cyc_darkLoses (u : Nat) (s : State) : (darkLoses u s).cyc = s.cyc := by
  have hlose := cyc_loseLocal u (resetPage (unitPage u) s)
  unfold darkLoses
  dsimp only
  split
  · exact hlose
  split
  · exact (cyc_forAll (f := fun k s => s.setCore ((u - 32) * 8 + k) Core.idle) (fun _ _ => rfl) _ _).trans hlose
  split
  · exact hlose
  · exact (cyc_dropCoreLines _ _).trans hlose

/-- A unit that leaves DARK, by its class (R414). -/
theorem exec_wakeComplete_dark (h : (s.pu u).until_ = some n) (hst : (s.pu u).st = .dark) :
    exec (.wakeComplete u) s = .next (if 64 ≤ u ∧ u < 96 then stackToSlate (u - 64) (darkLoses u s)
      else (darkLoses u s).setPu u ⟨if 96 ≤ u then .gold else .slate, none, s.cyc, none⟩) := by
  rw [exec_wakeComplete h, hst]

end Wake

/-! ### DARK (R414, R415) -/

section Dark
variable {s : State} {req u : Nat}

theorem noteReg_frame (a : Nat) (s : State) : (noteReg a s).aon = s.aon ∧ (noteReg a s).cyc = s.cyc ∧
    (noteReg a s).pwr = s.pwr ∧ ∀ base f, (noteReg a s).fld base f = s.fld base f := by
  unfold noteReg
  split
  · exact ⟨rfl, rfl, rfl, fun _ _ => rfl⟩
  · exact ⟨rfl, rfl, rfl, fun _ _ => rfl⟩

theorem darkRow_of_turn {off : Nat} (hlost : lostRace s req (pgPwr + off) = false) (f : State → State) :
    darkRow req off f s = noteWrite req (pgPwr + off) (f (noteReg (pgPwr + off) s)) := by
  rw [darkRow, if_neg (by rw [hlost]; decide)]

theorem exec_darkRequest (hu : isDarkUnit u = true) (hopen : pathOpen s req = true)
    (hlost : lostRace s req (pgPwr + (darkFd u).off) = false) : exec (.darkRequest req u) s =
      .next (noteWrite req (pgPwr + (darkFd u).off) (darkBit u true (noteReg (pgPwr + (darkFd u).off) s))) := by
  show Host.Outcome.next (if isDarkUnit u = true then _ else _) = _
  rw [if_pos hu, onPath_of_open _ _ _ hopen, darkRow_of_turn hlost]

theorem exec_darkExit (hu : isDarkUnit u = true) (hopen : pathOpen s req = true)
    (hlost : lostRace s req (pgPwr + (darkFd u).off) = false) : exec (.darkExit req u) s =
      .next (noteWrite req (pgPwr + (darkFd u).off) (darkClear u (noteReg (pgPwr + (darkFd u).off) s))) := by
  show Host.Outcome.next (if isDarkUnit u = true then _ else _) = _
  rw [if_pos hu, onPath_of_open _ _ _ hopen, darkRow_of_turn hlost]
  rfl

theorem darkSet_refused (h : unitHere s u = false ∨ darkOk s u = false ∨ wokeNow s u = true) :
    darkSet u s = s.addFld pgPwr pwrCnt_darkRefused 1 := by
  rw [darkSet]
  exact if_pos h

theorem darkSet_taken (hhere : unitHere s u = true) (hok : darkOk s u = true) (hwoke : wokeNow s u = false) :
    darkSet u s = if (s.pu u).st = .dark then (s.setPu u { s.pu u with until_ := none }).setFld pgPwr (darkFd u) 1
      else (slateFirst u s).setFld pgPwr (darkFd u) 1 := by
  rw [darkSet, if_neg (by rw [hhere, hok, hwoke]; decide)]

end Dark

/-- Settles O55: the power controller's commands, each by the branch that its premises choose. -/
theorem powerControl : Obligations.PowerControl := by
  refine ⟨fun s u hpark hhere hst huntil hheld hidle hclass hdue => ?_, fun s u n huntil => ?_,
    fun s req u hu hopen hzero hlost => ?_, fun s req u hu hopen hst huntil hlost => ?_, fun s qd mv temp hq => congrArg _ (if_pos hq),
    fun s0 s req v hopen hgo hs => ?_, fun s rd len data hpmb => ?_, fun s level stack temp =>
      ⟨rfl, fun h => congrArg _ (if_pos h), fun h => congrArg _ (if_neg (Nat.not_le.mpr h))⟩⟩
  · exact congrArg _ (if_pos ⟨hpark, hhere, hst, huntil, hheld, hidle, hclass, hdue⟩)
  · refine ⟨fun hst hdue hidle => ?_, fun hst hdue hidle => ?_, fun hst hlt => ?_, fun hst hlt hnone => ?_, fun hst hle => ?_,
      fun hst => ⟨fun hlt => ?_, fun hlo hhi => ?_, fun hlo hhi => ?_, fun hle => ?_⟩⟩
    · rw [exec_wakeComplete huntil, hst]
      exact congrArg _ ((if_neg (Nat.not_lt.mpr hdue)).trans (if_pos hidle))
    · rw [exec_wakeComplete huntil, hst]
      exact congrArg _ ((if_neg (Nat.not_lt.mpr hdue)).trans (if_neg (by rw [hidle]; decide)))
    · rw [exec_wakeComplete huntil, hst]
      exact congrArg _ (if_neg (Nat.not_le.mpr hlt))
    · rw [exec_wakeComplete huntil, hst]
      exact congrArg _ ((if_neg (Nat.not_le.mpr hlt)).trans (settleAll_of_none (s := s.setPu u _) hnone))
    · rw [exec_wakeComplete huntil, hst]
      exact congrArg _ (if_pos hle)
    · have hcyc := cyc_darkLoses u s
      rw [exec_wakeComplete_dark huntil hst, if_neg (by omega), if_neg (by omega)]
      rw [darkLoses_press hlt] at hcyc ⊢
      exact congrArg (fun c => Host.Outcome.next (State.setPu _ u ⟨.slate, none, c, none⟩)) hcyc.symm
    · have hcyc := cyc_darkLoses u s
      rw [exec_wakeComplete_dark huntil hst, if_neg (by omega), if_neg (by omega)]
      rw [darkLoses_vat hlo hhi] at hcyc ⊢
      exact congrArg (fun c => Host.Outcome.next (State.setPu _ u ⟨.slate, none, c, none⟩)) hcyc.symm
    · rw [exec_wakeComplete_dark huntil hst, if_pos ⟨hlo, hhi⟩, darkLoses_stack hlo hhi]
    · have hcyc := cyc_darkLoses u s
      rw [exec_wakeComplete_dark huntil hst, if_neg (by omega), if_pos hle]
      rw [darkLoses_rind hle] at hcyc ⊢
      exact congrArg (fun c => Host.Outcome.next (State.setPu _ u ⟨.gold, none, c, none⟩)) hcyc.symm
  · intro w out b done
    obtain ⟨haon, hcyc, hpwr, hfld⟩ := noteReg_frame (pgPwr + (darkFd u).off) s
    change w.aon = s.aon at haon
    change w.cyc = s.cyc at hcyc
    have hbit : darkBit u true w = darkSet u w := by
      rw [darkBit, if_pos rfl]
      exact if_neg (fun h => hzero ((hfld _ _).symm.trans h.1))
    have hexec : ∀ t, darkSet u w = t → out (noteWrite req (pgPwr + (darkFd u).off) t) := fun t ht => by
      show exec _ _ = _
      rw [exec_darkRequest hu hopen hlost, ← ht, ← hbit]
    refine ⟨fun hhere hok hwoke hst => ⟨fun h => hexec _ ?_, fun hlo hhi => hexec _ ?_, fun hlt hslate => hexec _ ?_⟩,
      fun hhere hok hwoke hst => hexec _ ?_, fun h => hexec _ (darkSet_refused h)⟩
    · rw [darkSet_taken hhere hok hwoke, if_neg hst, ← haon]
      exact congrArg (fun t => State.setFld t pgPwr (darkFd u) 1) (if_pos h)
    · rw [darkSet_taken hhere hok hwoke, if_neg hst, ← haon, ← hcyc]
      have hslate : slateOk b u = true := by rw [slateOk, decide_eq_true hlo]; simp
      refine congrArg (fun t => State.setFld t pgPwr (darkFd u) 1) ((if_neg ?_).trans (if_pos hlo))
      rintro (h | h)
      · omega
      · exact absurd (h.symm.trans hslate) (by decide)
    · rw [darkSet_taken hhere hok hwoke, if_neg hst, ← haon, ← hcyc]
      refine congrArg (fun t => State.setFld t pgPwr (darkFd u) 1) ((if_neg ?_).trans (if_neg (by omega)))
      rintro (h | h)
      · omega
      · exact absurd (h.symm.trans hslate) (by decide)
    · rw [darkSet_taken hhere hok hwoke, if_pos hst]
  · intro a
    obtain ⟨-, hcyc, hpwr, -⟩ := noteReg_frame a s
    have hpu : (noteReg a s).pu u = s.pu u := by rw [State.pu, hpwr]; rfl
    rw [exec_darkExit hu hopen hlost, darkClear]
    dsimp only
    rw [show noteReg (pgPwr + (darkFd u).off) s = noteReg a s from rfl, hpu, hcyc, if_pos ⟨hst, huntil⟩]
  · intro w
    have hexec : exec (.pmbusGo req v) s0 = .next (if s.flag pgPwr pwrPmbCmd_busy then discardWrite (locPwr 0x1C0) w else pmbGo w) := by
      show Host.Outcome.next (if fieldOf v 19 1 = 1 then _ else _) = _
      rw [if_pos hgo, onPath_of_open _ _ _ hopen, pmbWrite, if_pos hgo, ← hs]
      exact congrArg _ (if_neg (by omega))
    refine ⟨fun hbusy => ?_, fun hbusy hlen => ?_, fun hbusy hlen => ?_⟩
    · rw [hexec, if_pos hbusy]
      rfl
    · rw [hexec, if_neg (by rw [hbusy]; decide)]
      exact congrArg _ (if_neg hlen)
    · rw [hexec, if_neg (by rw [hbusy]; decide)]
      exact congrArg _ (if_pos hlen)
  · have hexec : ∀ ok, exec (.pmbusDone ok data) s = .next (pmbEnd ok (if ok = true ∧ rd = true ∧ len ≠ 0 then
        s.setFld pgPwr pwrPmbData_data (if len = 1 then data % 256 else data) else s)) := fun ok => by
      show execPmbusDone ok data s = _
      rw [execPmbusDone, hpmb]
    rw [hexec, hexec]
    refine ⟨congrArg (fun t => Host.Outcome.next (pmbEnd true t)) (if_congr (by simp) rfl rfl),
      congrArg (fun t => Host.Outcome.next (pmbEnd false t)) (if_neg (fun h => absurd h.1 (by decide)))⟩

end Sys2Proof.Machine
end

/-!
PROOFS. 14_boot_and_security.md, 16_package_and_electrical.md: the reset pins, the boot and the PCIe endpoint (O56); Rennet's commands and
the external interfaces (O57).
-/
section
namespace Sys2Proof.Machine

/-! ### What a power-on reset leaves (R444, R455, R479) -/

section Reset
variable {s : State}

/-- The state of a power-on reset before the units' idle times start again. -/
def porState (s : State) : State :=
  { State.reset with
    pending := s.pending, cyc := s.cyc, fuses := s.fuses, out := s.out, draws := s.draws,
    pins := { s.pins with faultN := true, syncIn := none },
    mem := s.mem.filter (fun c => keepsByte true (c.1 / 2 ^ 40)),
    rinds := keepShadow s.rinds,
    rennet := { Rennet.reset with draws := s.rennet.draws },
    ifc := { Iface.reset with pcieReady := s.pins.perstN } }

theorem resetModule_por (s : State) : resetModule true s = forAll touchUnit (List.range 64) (porState (fuseCut s)) := rfl

/-- Idle times that start again change the power records alone. -/
theorem forAll_touchUnit (l : List Nat) (s : State) : ∃ p, forAll touchUnit l s = { s with pwr := p } := by
  induction l generalizing s with
  | nil => exact ⟨_, rfl⟩
  | cons u us ih =>
    obtain ⟨p, hp⟩ := ih (touchUnit u s)
    exact ⟨p, hp⟩

/-- A fuse command that the reset meets changes fuses and free values alone. -/
theorem fuseCut_eq (s : State) : ∃ f d, fuseCut s = { s with fuses := f, draws := d } := by
  unfold fuseCut
  split
  · dsimp only
    split
    · exact ⟨_, _, rfl⟩
    split
    · exact ⟨_, _, rfl⟩
    split
    · exact ⟨_, _, rfl⟩
    · exact ⟨_, _, rfl⟩
  · exact ⟨_, _, rfl⟩

theorem fuses_fuseCut_of_other (h : s.rennet.cmd.all (fun c => c.cmd != 4 && c.cmd != 5) = true) : (fuseCut s).fuses = s.fuses := by
  unfold fuseCut
  cases hc : s.rennet.cmd with
  | none => rfl
  | some c =>
    rw [hc] at h
    obtain ⟨h4, h5⟩ : c.cmd ≠ 4 ∧ c.cmd ≠ 5 := by simpa using h
    dsimp only
    rw [if_neg h4, if_neg (fun h => h5 h.1), if_neg h5]

theorem svn_fuseCut {c : RCmd} (hc : s.rennet.cmd = some c) (h4 : c.cmd = 4) (hle : s.fuses.svn ≤ c.arg) :
    s.fuses.svn ≤ (fuseCut s).fuses.svn ∧ (fuseCut s).fuses.svn ≤ c.arg := by
  unfold fuseCut
  rw [hc]
  dsimp only
  rw [if_pos h4]
  have hlt := Nat.mod_lt s.draw.1.toNat (y := c.arg - s.fuses.svn + 1) (Nat.succ_pos _)
  show s.fuses.svn ≤ s.fuses.svn + _ ∧ s.fuses.svn + _ ≤ c.arg
  omega

/-- A power-on reset, by what it makes of the fuses and the power records. -/
theorem resetModule_eq (s : State) : ∃ p d, resetModule true s =
    { porState s with pwr := p, draws := d, fuses := (fuseCut s).fuses } := by
  obtain ⟨p, hp⟩ := forAll_touchUnit (List.range 64) (porState (fuseCut s))
  obtain ⟨f, d, hf⟩ := fuseCut_eq s
  refine ⟨p, d, ?_⟩
  rw [resetModule_por, hp, hf]
  rfl

end Reset

/-! ### The boot and the endpoint (R434, R435, R481, R482) -/

theorem exec_sysresetRelease {s : State} (hpo : s.pins.poresetN = true) (hpw : s.pins.pwrgood = true) (env : BootEnv) :
    let u := drawNonce (resetModule false { s with pins := { s.pins with sysresetN := true } })
    u.rennet.halt = 0 → exec (.sysresetRelease env) s = .next (runSlots env u) := by
  intro u hhalt
  show Host.Outcome.next (if powered s = false then _ else if u.rennet.halt ≠ 0 then _ else runSlots env u) = _
  rw [if_neg (by rw [powered, hpo, hpw]; decide), if_neg (fun h => h hhalt)]

/-- Settles O56: what the reset pins leave, the order of the image slots, and the PCIe endpoint. -/
theorem resetsAndBoot : Obligations.ResetsAndBoot := by
  refine ⟨fun s => ⟨rfl, rfl, rfl⟩, ?_, fun s env => ⟨fun h => congrArg _ (if_pos h), fun h => congrArg _ (if_neg ?_),
    fun h => congrArg _ (if_pos h), fun hpo hpw => exec_sysresetRelease hpo hpw env, fun h => congrArg _ (if_pos ?_)⟩,
    ?_, fun s => ⟨rfl, rfl, fun h => congrArg _ (if_pos h)⟩, fun s speed width h => ⟨congrArg _ (if_neg ?_), congrArg _ (if_neg ?_)⟩⟩
  · intro s t
    obtain ⟨p, d, ht⟩ : ∃ p d, t = { porState s with pwr := p, draws := d, fuses := (fuseCut s).fuses } := resetModule_eq s
    rw [ht]
    refine ⟨rfl, ?_, rfl, rfl, rfl, rfl, rfl, rfl, rfl, rfl, fuses_fuseCut_of_other, fun c => svn_fuseCut, rfl, rfl, rfl, rfl, rfl, rfl⟩
    show s.mem.filter _ = _
    exact List.filter_congr (fun c _ => by simp [keepsByte])
  · change ¬ s.pins.pwrgood = true
    rw [h]
    decide
  · rw [powered, h]
    rfl
  · intro s env a s1 b s2
    exact ⟨fun h => if_pos h, fun ha hb => (if_neg ha).trans (if_pos hb), fun ha hb => (if_neg ha).trans (if_neg hb)⟩
  · rw [h]
    decide
  · rw [h]
    decide

/-! ### RNT_CMD (R441) -/

section RntCmd
variable {s : State} {req : Nat} {v : U64}

/-- A register write changes registers and what the cycle notes: what depends on neither stays. -/
theorem plainWrite_frame {α : Type} (π : State → α) (hwr : ∀ a x t, π (t.wr a x) = π t)
    (hsame : ∀ m t, π { t with same := m } = π t) (x : Loc) (held : FieldRow → Bool) : π (plainWrite req x v held s) = π s := by
  have hfield : ∀ (l : List FieldRow) (lost : Bool) (t : State), π (forAll (writeField lost x v) l t) = π t := by
    intro l lost
    induction l with
    | nil => exact fun _ => rfl
    | cons f fs ih =>
      refine fun t => (ih _).trans ?_
      unfold writeField
      dsimp only
      cases f.acc with
      | rw =>
        dsimp only
        split
        · rfl
        · exact hwr _ _ _
      | cnt =>
        dsimp only
        split
        · exact hwr _ _ _
        · rfl
      | w1c => exact hwr _ _ _
      | ro => rfl
      | wo => rfl
  have hnote : ∀ (a : Nat) (t : State), π (noteReg a t) = π t := by
    intro a t
    unfold noteReg
    split
    · rfl
    · exact hsame _ _
  have herr : ∀ (cause : Nat) (c : Prop) [Decidable c] (t : State), π (if c then errAt x cause t else t) = π t := by
    intro cause c _ t
    split
    · refine (hsame _ _).trans ((hwr _ _ _).trans ((hsame _ _).trans ?_))
      exact (hwr _ _ _).trans ((hwr _ _ _).trans (hwr _ _ _))
    · rfl
  unfold plainWrite
  dsimp only
  refine (hsame _ _).trans ((hfield _ _ _).trans ((hnote _ _).trans ((herr _ _ _).trans (herr _ _ _))))

theorem rennet_plainWrite (x : Loc) (held : FieldRow → Bool) : (plainWrite req x v held s).rennet = s.rennet :=
  plainWrite_frame State.rennet (fun _ _ _ => rfl) (fun _ _ => rfl) x held

/-- The write of RNT_CMD before anything starts. -/
def rntWritten (req : Nat) (v : U64) (s : State) : State := plainWrite req (locRennet 0x118) v (fun _ => false) s

theorem rntRow_of_open {n : Nat} (hopen : pathOpen s req = true) (hcmd : fieldOf v 0 3 = n) : rntRow n req v s =
    .next (if lowerCame (woTurn req (pgRennet + 0x118) s) req (pgRennet + 0x118)
      then refuseRnt (rntWritten req v (woTurn req (pgRennet + 0x118) s))
      else rntStart v (rntWritten req v (woTurn req (pgRennet + 0x118) s))) := by
  rw [rntRow, if_pos hcmd, onPath_of_open _ _ _ hopen]
  rfl

/-- A command that its own rule refuses, or that meets one under way, is counted. -/
theorem rntStart_refused (h : s.rennet.cmd.isSome = true ∨ rntAllowed s v = false) : rntStart v s = s.addFld pgRennet rntStat_refused 1 :=
  if_pos h

theorem rntStart_taken (hnone : s.rennet.cmd = none) (hok : rntAllowed s v = true) : rntStart v s =
    let c : RCmd := { cmd := fieldOf v 0 3, slot := fieldOf v 3 3, pg := fieldOf v 6 26, arg := fieldOf v 32 7,
                      input := rntInput s v, meas := measBytes s (fieldOf v 3 3) }
    let s1 := rntMoved v (checkPages v (s.setFld pgRennet rntStat_busy 1))
    { s1 with rennet := { s1.rennet with cmd := some c } } := by
  rw [rntStart, if_neg (by rw [hnone, hok]; decide)]

theorem exec_rennetCmdDone {c : RCmd} (hcmd : s.rennet.cmd = some c) (hpin : c.cmd ≠ 6 ∨ s.pins.sysresetN = true) (ok : Bool) :
    exec (.rennetCmdDone ok) s = .next (rntEffect c ok (State.setFld { s with rennet := { s.rennet with cmd := none } } pgRennet
      rntStat_busy 0)) := by
  show execRennetCmdDone ok s = _
  rw [execRennetCmdDone, hcmd]
  refine congrArg _ (if_neg (fun ⟨h6, hlow⟩ => hpin.elim (fun h => h h6) (fun h => ?_)))
  exact absurd (h.symm.trans hlow) (by decide)

end RntCmd

/-! ### Recovery data and xSPI (R430, R431, R447, R468) -/

section Xspi
variable {s : State} {req : Nat} {v : U64}

theorem recDataWrite_eq : recDataWrite req v s =
    if rnt s rntBoot_halted = 1 ∧ rnt s rntRecLen_len < 33554432 then
      let k := min (8 * recHigher s req) (rnt s rntRecLen_len)
      noteWrite req (pgRennet + 0x130) ((hbmPut .bulk 0 (rnt s rntRecLen_len - k) (leBytes 8 v.toNat ++
        rdBytes s (spHbm 0) (rnt s rntRecLen_len - k) k) repRennet s).setFld pgRennet rntRecLen_len (rnt s rntRecLen_len + 8))
    else discardWrite (locRennet 0x130) s := by
  have hfull : rsvWritten (locRennet 0x130).fields v = false := by
    have hmask : fieldsMask (locRennet 0x130).fields = 2 ^ 64 - 1 := by decide +kernel
    rw [rsvWritten, hmask, Nat.and_two_pow_sub_one_eq_mod, Nat.mod_eq_of_lt v.isLt, bne_self_eq_false]
  rw [recDataWrite, hfull]
  rfl

theorem xspiRow_of_open {op : Nat} (hopen : pathOpen s req = true) (hop : fieldOf v 0 2 = op) (hne : op ≠ 0) : xspiRow op req v s =
    let w := plainWrite req (locXspi 0x108) v (fun _ => false) (woTurn req (pgXspi + 0x108) s)
    let a := w.fld pgXspi rntXspiAddr_addr
    .next (if xspiOk w op a (fieldOf v 2 12) = true then
        { w.setFld pgXspi rntXspiCmd_busy 1 with ifc := { w.ifc with xspi := some ⟨op, a, fieldOf v 2 12⟩ } }
      else refuseCmd (locXspi 0x108) w) := by
  rw [xspiRow, if_pos hop, onPath_of_open _ _ _ hopen, xspiCmdWrite, xspiGo, hop]
  dsimp only
  rw [if_neg hne]
  rfl

end Xspi

/-- Settles O57: Rennet's commands, the recovery data, xSPI, I3C, the management port and JTAG. -/
theorem rennetAndInterfaces : Obligations.RennetAndInterfaces := by
  refine ⟨fun s0 s req n v i hi hcmd hopen hs hnone hlow => ?_, fun s req v hopen hbusy hlost hcmd => ?_, fun s c ok hcmd hpin => ?_,
    fun s req v hopen => ?_, fun s req op v i hi hop hopen => ?_, fun s c hx => ?_, fun s target addr v hopen htarget => ?_,
    fun s da frame hda => ⟨?_, rfl, rfl⟩, fun s addr v hopen => ⟨?_, ?_⟩⟩
  · intro w c t
    have hexec : exec i s0 = .next (rntStart v w) := by
      have hrow : rntRow n req v s0 = .next (rntStart v w) := by
        rw [rntRow_of_open hopen hcmd, ← hs, if_neg (by rw [hlow]; decide)]
        rfl
      simp only [List.mem_cons, Prod.mk.injEq, List.not_mem_nil, or_false] at hi
      rcases hi with ⟨rfl, rfl⟩ | ⟨rfl, rfl⟩ | ⟨rfl, rfl⟩ | ⟨rfl, rfl⟩ | ⟨rfl, rfl⟩ | ⟨rfl, rfl⟩ <;> exact hrow
    have hnone' : w.rennet.cmd = none := (congrArg Rennet.cmd (rennet_plainWrite _ _)).trans hnone
    rw [hexec]
    refine ⟨fun hok => ?_, fun hok => congrArg _ (rntStart_refused (.inr hok))⟩
    rw [rntStart_taken hnone' hok, hcmd]
  · have hturn : woTurn req (pgRennet + 0x118) s = s := by rw [woTurn, hlost]; rfl
    refine (rntRow_of_open hopen hcmd).trans (congrArg _ ?_)
    rw [hturn]
    split
    next => rfl
    next hlow =>
      refine rntStart_refused (.inl ?_)
      rw [rntWritten, rennet_plainWrite]
      exact hbusy.resolve_right hlow
  · intro u
    rw [exec_rennetCmdDone hcmd hpin]
    refine ⟨fun h => ?_, fun h => ?_, fun h => ?_, fun h => ?_, fun h => ?_, fun h => ?_⟩ <;> (unfold rntEffect; rw [h]) <;> rfl
  · intro n
    have hexec : exec (.recData req v) s = .next (recDataWrite req v s) :=
      congrArg _ (onPath_of_open req (recDataWrite req v) s hopen)
    rw [hexec, recDataWrite_eq]
    refine ⟨fun hhalt hroom hhigher => ?_, fun h => congrArg _ (if_neg (fun hb => h.elim (fun h => h hb.1) (fun h => ?_)))⟩
    · rw [if_pos ⟨hhalt, hroom⟩]
      dsimp only
      rw [hhigher, Nat.mul_zero, Nat.zero_min, Nat.sub_zero]
      show Host.Outcome.next (noteWrite _ _ ((hbmPut .bulk 0 n (leBytes 8 v.toNat ++ []) repRennet s).setFld _ _ _)) = _
      rw [List.append_nil]
      rfl
    · exact absurd hb.2 (Nat.not_lt.mpr h)
  · intro w a n t
    have hexec : exec i s = xspiRow op req v s := by
      simp only [List.mem_cons, Prod.mk.injEq, List.not_mem_nil, or_false] at hi
      rcases hi with ⟨rfl, rfl⟩ | ⟨rfl, rfl⟩ | ⟨rfl, rfl⟩ <;> rfl
    have hne : op ≠ 0 := by
      simp only [List.mem_cons, Prod.mk.injEq, List.not_mem_nil, or_false] at hi
      omega
    rw [hexec, xspiRow_of_open hopen hop hne]
    exact ⟨fun h => congrArg _ (if_pos h), fun h => congrArg _ (if_neg (fun hok => absurd (hok.symm.trans h) (by decide)))⟩
  · intro u done
    have hexec : exec .xspiDone s = .next (done (xspiEffect c u)) := by
      show execXspiDone s = _
      rw [execXspiDone, hx] <;> rfl
    rw [hexec]
    refine ⟨fun h => ?_, fun h => ?_, fun h => ?_⟩
    · rw [xspiEffect, if_pos h]
    · rw [xspiEffect, if_neg (by omega), if_pos h]
    · rw [xspiEffect, if_neg (by omega), if_neg (by omega)]
  · intro u r
    exact ⟨congrArg _ ((onPath_of_open _ _ _ hopen).trans (if_pos htarget)), congrArg _ ((onPath_of_open _ _ _ hopen).trans (if_pos htarget))⟩
  · show Host.Outcome.next _ = _
    rw [Nat.mod_eq_of_lt hda]
  · exact congrArg _ (onPath_of_open _ _ _ hopen)
  · show execJtagAccess false addr v s = _
    rw [execJtagAccess, if_neg (by decide), if_pos hopen]

end Sys2Proof.Machine
end

/-!
PROOFS. 11_cellar_and_memory.md: a statement that some state fails (O47). 08_stream_programs.md: what a server does with calls, packets
and limits (O44).
-/
section
namespace Sys2Proof.Machine

/-! ### O47: memory that lists a key behind a greater one -/

/-- CEL_IND_ADDR of quadrant 0 names the chain store, and Tally is enabled. -/
def chainWindow : State := (State.reset.setFld (pgCellar 0) celIndAddr_off 0x10000).setFld pgTally tlyCfg_en 1

/-- The word that the window names has wrong parity, a Tally entry of such errors is due, and memory lists a byte of the word
behind one of the ring. -/
def windowUpset : State :=
  { chainWindow with
    cyc := 80, upset := [(0, 0x80000)],
    tally := { Tally.reset with entries := [⟨0, clsCelParHard, 0, 0, 0, 1, 0, 0, 0⟩] },
    mem := [(memKey (spHbm 0) 0, 5), (memKey (spCellar 0) 0x80000, 7)] }

/-- The last that left the module in a result's next state. -/
def nextOut : Result → Option Out
  | .next s => s.out.getLast?
  | _ => none

/-- Refutes O47: the report of the parity error writes a Tally record, and where memory lists a key behind a greater one this uncovers
a byte of the word; the window returns the word as it stood before the report, the statement as it stands after. -/
theorem not_memoryCommands : ¬ Obligations.MemoryCommands := by
  rintro ⟨-, -, hread, -⟩
  obtain ⟨-, hchain, -⟩ := hread windowUpset rindReq 0 (by decide +kernel) (by decide +kernel) (by decide +kernel)
  have hexec := hchain (by decide +kernel) (by decide +kernel)
  have hout : nextOut (exec (.celIndDataRead rindReq 0) windowUpset) = some (.readData rindReq (pgCellar 0 + 0x110) 0) := by
    decide +kernel
  have hword : rdLe (indParity 0 0x80000 windowUpset) (spCellar 0) 0x80000 8 = 7 := by decide +kernel
  have hoff : 8 * windowUpset.fld (pgCellar 0) celIndAddr_off = 0x80000 := by decide +kernel
  rw [hexec, hoff, hword] at hout
  revert hout
  simp [nextOut, State.emit]

/-! ### Calls (R258, R262) -/

section Calls
variable {s : State} {core : Nat}

theorem takeCall_eq {wanted : Nat → Bool} (hserve : serving s core = true) (hnone : (serverOf s core).call = none)
    (hswait : swaitMet s (serverOf s core).obj (((serverOf s core).next + 1) % 2 ^ 64) = true)
    (hwanted : wanted (readBlk s core (nextOff (serverOf s core))).prog = true)
    (hdata : (callData core s).all (fun y => upsetIn s (upLocal (vatOf core)) y.1 y.2 = false) = true) :
    takeCall core wanted s =
      let b := readBlk s core (nextOff (serverOf s core))
      match hbmAsk s b.rmapQd (pageAddr b.rmapPg) (4 * callN s b) with
      | .ready => openCall core b s
      | .asleep => hbmWake b.rmapQd (pageAddr b.rmapPg) (4 * callN s b) s
      | .refused => libData core s
      | .beyond => libData core (lostMark core (.page b.rmapQd) s) := by
  have hsound : ¬ (callData core s).any (fun y => upsetIn s (upLocal (vatOf core)) y.1 y.2) = true := by
    rw [List.any_eq_true]
    rintro ⟨y, hy, hup⟩
    have hgood := List.all_eq_true.mp hdata y hy
    simp [hup] at hgood
  unfold takeCall
  dsimp only
  rw [if_neg (by rw [hserve, hnone, hswait, hwanted]; decide), if_neg hsound] <;> rfl

/-- The commands of the eight programs take the call whose block names their program. -/
theorem exec_call {p : Nat} {i : Instr} (hi : (p, i) ∈ [(1, Instr.callAgather core), (2, .callSort core), (3, .callFilter core),
    (4, .callTopk core), (5, .callDispatch core), (6, .callCombine core), (7, .callLsemerge core), (8, .callPgather core)]) :
    exec i s = .next (takeCall core (fun n => n == p) s) := by
  simp only [List.mem_cons, Prod.mk.injEq, List.not_mem_nil, or_false] at hi
  rcases hi with ⟨rfl, rfl⟩ | ⟨rfl, rfl⟩ | ⟨rfl, rfl⟩ | ⟨rfl, rfl⟩ | ⟨rfl, rfl⟩ | ⟨rfl, rfl⟩ | ⟨rfl, rfl⟩ | ⟨rfl, rfl⟩ <;> rfl

end Calls

/-! ### Packets of a call (R263) -/

section Packets
variable {s : State} {core : Nat} {c : Call}

theorem exec_libraryPacket (hcall : (serverOf s core).call = some c) (hserve : serving s core = true) (hwaits : c.waits = false) :
    exec (.libraryPacket core) s = .next (
      let b := readBlk s core c.off
      match intakeRefused s core (intakeQs s core b c.num), popIntake core (intakeQs s core b c.num) s with
      | some x, _ => libData core (lostMark core (.buf x) s)
      | none, none => if allDone s b c then closeCall core b c s else s
      | none, some (p, s1) =>
        match judge core b c p s1 with
        | .took c1 s2 => afterPacket core b c1 s2
        | .wake q off n => hbmWake q off n s
        | .data l => libData core (lostMark core l s)) := by
  show execLibraryPacket core s = _
  unfold execLibraryPacket
  rw [hcall]
  exact congrArg _ (if_neg (by rw [hserve, hwaits]; decide))

theorem exec_callLimitExpire {t : Nat} (hcall : (serverOf s core).call = some c) (hserve : serving s core = true)
    (hlimit : c.deadline = some t) : exec (.callLimitExpire core) s = .next (
      let b := readBlk s core c.off
      if s.cyc < t then s
      else if callBad s core b c then refuseCall core b c s
      else if c.prog = pgPgather then closePgather core b c true s
      else endCall core b c stMissing (incomplete s b c) (fun _ => if c.prog = pgAgather then callN s b * b.p 0 else 0) s) := by
  show execCallLimitExpire core s = _
  unfold execCallLimitExpire
  rw [hcall]
  dsimp only
  rw [hlimit]
  dsimp only
  exact congrArg _ (if_congr (by rw [hserve]; simp) rfl rfl)

end Packets

/-- Settles O44: the branches of a server's commands, each under the premises that choose it. -/
theorem libraryCalls : Obligations.LibraryCalls := by
  refine ⟨fun s core p i hi hserve hnone hswait hprog hdata => ?_, fun s core c p s1 hcall hserve hwaits hgood hpop => ?_,
    fun s core x c hcall hserve hwaits hbad => ?_, fun s core t c hcall hserve hlimit => ?_, fun s core c hcall hserve hwaits => ?_,
    fun s core hserve hnone hswait hprog => ?_⟩
  · intro sv b n fids c keep t ask
    have hexec := (exec_call (s := s) hi).trans (congrArg Host.Outcome.next
      (takeCall_eq hserve hnone hswait (by rw [hprog]; exact beq_self_eq_true p) hdata))
    have hopen : openCall core b s = if c.waits then pgReserve core b c true t else t := by
      rw [openCall, show (readBlk s core (nextOff (serverOf s core))).prog = p from hprog]
      rfl
    have hwaits : c.waits = true ↔ p = 8 ∧ callOk s core b = true := by
      show (p == pgPgather && !(!callOk s core b) && !false) = true ↔ _
      simp [pgPgather]
    rw [hexec]
    have hcase : ∀ a, ask = a → (.next (match hbmAsk s b.rmapQd (pageAddr b.rmapPg) (4 * callN s b) with
        | .ready => openCall core b s
        | .asleep => hbmWake b.rmapQd (pageAddr b.rmapPg) (4 * callN s b) s
        | .refused => libData core s
        | .beyond => libData core (lostMark core (.page b.rmapQd) s)) : Result) = .next (match a with
        | .ready => openCall core b s
        | .asleep => hbmWake b.rmapQd (pageAddr b.rmapPg) (4 * callN s b) s
        | .refused => libData core s
        | .beyond => libData core (lostMark core (.page b.rmapQd) s)) := fun a ha => by rw [← ha]
    refine ⟨fun hask hp => (hcase _ hask).trans (congrArg _ (hopen.trans (if_neg (fun hw => ?_)))),
      fun hask hp hok => (hcase _ hask).trans (congrArg _ (hopen.trans (if_pos (hwaits.mpr ⟨hp, hok⟩)))),
      fun hask => hcase _ hask, fun hask => hcase _ hask, fun hask => hcase _ hask⟩
    obtain ⟨h8, hok⟩ := hwaits.mp hw
    exact hp.elim (fun h => h h8) (fun h => absurd (hok.symm.trans h) (by decide))
  · intro b
    rw [exec_libraryPacket hcall hserve hwaits]
    dsimp only
    rw [hgood, hpop]
    dsimp only
    refine ⟨fun d u hj => ?_, fun q off n hj => ?_, fun l hj => ?_⟩ <;> rw [show judge core (readBlk s core c.off) c p s1 = _ from hj]
    rfl
  · rw [exec_libraryPacket hcall hserve hwaits]
    dsimp only
    rw [hbad]
  · intro b
    rw [exec_callLimitExpire hcall hserve hlimit]
    refine ⟨fun h => ?_, fun h hbad => ?_, fun h hbad hp => ?_, fun h hbad hp => ?_⟩
    · exact congrArg _ (if_pos h)
    · exact congrArg _ ((if_neg (Nat.not_lt.mpr h)).trans (if_pos hbad))
    · exact congrArg _ ((if_neg (Nat.not_lt.mpr h)).trans ((if_neg (by rw [hbad]; decide)).trans (if_neg hp)))
    · exact congrArg _ ((if_neg (Nat.not_lt.mpr h)).trans ((if_neg (by rw [hbad]; decide)).trans (if_pos hp)))
  · show execPgatherReserve core s = _
    unfold execPgatherReserve
    rw [hcall]
    exact congrArg _ (if_pos ⟨hserve, hwaits⟩)
  · exact congrArg _ (if_neg (by rw [hserve, hnone, hswait, hprog]; decide))

end Sys2Proof.Machine
end

/-!
PROOFS. How a Curd instruction issues, starts and runs (06_curd_execution.md, 07_curd_instructions.md): O39 and O42, and a state
that fails O41.
-/
section
namespace Sys2Proof.Machine

/-! ### O41: GATH over local memory with a word of wrong parity -/

/-- GATH of records of 4 bytes in the local data area, its indices from queue 0. -/
def gathWord : CurdWord := { curdFields 0 with rep := 1, imm := 2 }

/-- The first word of the local memory of Vat 0 has wrong parity. -/
def upsetLocal : State := { State.reset with upset := [(upLocal 0, 0)] }

/-- Refutes O41: the clause about GATH in the local data area does not ask that its records have good parity, and one with wrong
parity is lost. -/
theorem not_curdRawRows : ¬ Obligations.CurdRawRows := by
  rintro ⟨-, -, -, -, -, -, -, hgath⟩
  have hsees : seeSrcs upsetLocal 0 (freshSb 0 0x2A 0 gathWord) = .got [(srcOf 0, 1, [vecZero])] := by decide +kernel
  have hlook : gathLook upsetLocal 0 (freshSb 0 0x2A 0 gathWord) (indicesOf (rawOf [(srcOf 0, 1, [vecZero])] 0)) = .lost .local_ := by
    decide +kernel
  obtain ⟨-, -, hlocal, -⟩ := hgath upsetLocal 0 (freshSb 0 0x2A 0 gathWord) _ rfl (by decide) (by decide) hsees (by decide +kernel)
  have hgot := hlocal (by decide)
  rw [hlook] at hgot
  exact nomatch hgot

/-! ### O42 -/

theorem microStep_merge {core : Nat} {e : Sb} {s : State} (h : e.op = 0x32) : microStep core e s = mergeStep core e s := by
  unfold microStep
  rw [if_neg (by rw [h]; decide), if_pos h]

theorem microStep_asend {core : Nat} {e : Sb} {s : State} (h : e.op = 0x40) : microStep core e s = asendStep core e s := by
  unfold microStep
  rw [if_pos h]

/-! ### The table of cores -/

section Run
variable {s t : State} {core op n pc : Nat} {w : CurdWord} {e : Sb} {x y : Core}

theorem core_setCore_self (h : x ≠ Core.idle) : (s.setCore core x).core core = x := tget_tset_self _ _ _ _ h

theorem setCore_setCore (h : x ≠ Core.idle) : (s.setCore core x).setCore core y = s.setCore core y := by
  unfold State.setCore
  dsimp only
  rw [tset_tset _ _ _ _ _ h]

theorem updCore_setCore (f : Core → Core) (h : x ≠ Core.idle) : (s.setCore core x).updCore core f = s.setCore core (f x) := by
  rw [State.updCore, core_setCore_self h, setCore_setCore h]

theorem ne_idle_of_running (h : x.st = .running) : x ≠ Core.idle := fun hx => by rw [hx] at h; exact nomatch h

theorem ne_idle_of_sb (h : x.sb = e :: l) : x ≠ Core.idle := fun hx => by rw [hx] at h; exact nomatch h

/-! ### Issue (R201, R211) -/

theorem orNext_of_false {late : Bool} (h : late = false) : orNext late s = s := by rw [h]; rfl

theorem issueHeldNow_of_nil (h : retiredNow s core = []) : issueHeldNow s core = false := by rw [issueHeldNow, h]; rfl

theorem branchHeld_nil (c : Core) : branchHeld c [] op w = false := rfl

theorem branchOverlaps_nil (c : Core) : branchOverlaps c [] w = false := by simp [branchOverlaps]

theorem issueCycle_of_issues (h : CurdIssues core op w s) : issueCycle core op w s = s := by
  obtain ⟨-, -, -, -, -, -, hfrom, hissued, hretired, -⟩ := h
  have hlate : decide (s.cyc < (s.core core).issueFrom) = false := decide_eq_false (Nat.not_lt.mpr hfrom)
  unfold issueCycle
  dsimp only
  rw [orNext_of_false hlate, orNext_of_false hlate, hretired, hissued, issueHeldNow_of_nil hretired, branchHeld_nil,
    branchOverlaps_nil, orNext_of_false]
  simp

theorem opKnown_of_legal {cmode : Bool} (h : legal cmode op w = true) : opKnown op = true := by
  unfold legal at h
  simp only [Bool.and_eq_true] at h
  exact h.1.1.1.1.1

theorem issue_of_issues (h : CurdIssues core op w s) : issue core op w s = issueWord core op w s := by
  obtain ⟨hfetched, hst, hsb, hfetching, hpc, hlegal, -⟩ := h
  obtain ⟨word, hword, hfields⟩ := Option.map_eq_some_iff.mp hfetched
  obtain ⟨rfl, rfl⟩ := Prod.mk.inj hfields
  unfold issue
  dsimp only
  rw [if_neg (by rw [hst, hsb, hfetching, issueBlocked, hsb]; simp), if_neg (Nat.not_le.mpr hpc), hword]
  dsimp only
  rw [if_neg (by rw [opKnown_of_legal hlegal]; decide), if_pos ⟨rfl, rfl⟩]

/-- The state in which the issued instruction stands in the scoreboard and has not started. -/
def curdWaits (core op : Nat) (w : CurdWord) (s : State) : State :=
  (curdSent core s).setCore core { curdMoved core s with sb := [curdFresh core op w s] }

theorem curdWaits_core (hst : (s.core core).st = .running) :
    (curdWaits core op w s).core core = { curdMoved core s with sb := [curdFresh core op w s] } :=
  core_setCore_self (ne_idle_of_running hst)

theorem regionFault_curdWaits (hready : CurdReady core op w s) : regionFault (curdWaits core op w s) core = none := by
  obtain ⟨⟨-, hst, -⟩, hregions⟩ := hready
  unfold regionFault
  dsimp only
  rw [curdWaits_core hst]
  rcases hregions with hmode | hgood
  · exact if_pos hmode
  · split
    · rfl
    · refine List.find?_eq_none.mpr fun e he hbad => ?_
      obtain rfl := List.mem_singleton.mp he
      have hall : (regionsNow (s.core core) w).all (regionGood s (vatOf core)) = false := by
        simp only [Bool.and_eq_true, Bool.not_eq_true'] at hbad
        exact hbad.2
      rw [hgood] at hall
      exact nomatch hall

theorem issueWord_eq_startEntry (hready : CurdReady core op w s) (hbranch : isBranch op = false) :
    issueWord core op w s = startEntry core (s.core core).issued .good (curdWaits core op w s) := by
  have hfault := regionFault_curdWaits hready
  obtain ⟨hissues, -⟩ := hready
  have hcycle := issueCycle_of_issues hissues
  obtain ⟨-, hst, hsb, -, -, hlegal, -⟩ := hissues
  have hwaits : (noteAct (.issued core) 0 s).updCore core (fun c =>
      { c with sb := c.sb ++ [freshSb c.issued op c.pc w], issued := c.issued + 1,
               pc := (c.pc + 1) % 2 ^ 24 }) = curdWaits core op w s := by
    show State.setCore _ core { s.core core with sb := (s.core core).sb ++ _, issued := _, pc := _ } = _
    rw [hsb]
    rfl
  unfold issueWord
  dsimp only
  rw [hcycle, if_neg (by rw [hlegal]; decide), hbranch, if_neg (by decide), hwaits, judgeRegions, hfault]

/-! ### Start (R201, R227, R229) -/

theorem olderThan_single (hsb : x.sb = [e]) : olderThan x e.ord = [] := by
  rw [olderThan, hsb]
  simp

theorem entry_single (hsb : x.sb = [e]) : x.entry e.ord = some e := by
  rw [Core.entry, hsb]
  simp

theorem setEntry_single {f : Sb} (hsb : x.sb = [e]) (hord : e.ord = f.ord) : x.setEntry f = { x with sb := [f] } := by
  rw [Core.setEntry, hsb]
  simp [hord]

theorem canStart_single (hsb : (t.core core).sb = [e]) (hstarted : e.started = false) (hretired : retiredNow t core = []) :
    canStart t core e = true := by
  unfold canStart heldAt heldUntil
  rw [olderThan_single hsb, hretired, hstarted]
  rfl

/-- The one waiting instruction of a core starts, or takes the exception of what it finds first. -/
theorem startEntry_single {par : Parity} (hsb : (t.core core).sb = [freshSb n op pc w]) (hretired : retiredNow t core = []) :
    startEntry core n par t =
      let c := t.core core
      let e : Sb := { freshSb n op pc w with started := true, cap := capture c w }
      let s := noteAct (.begun core) n (countParity (vatQuad (vatOf core)) par t)
      if !c.cmode && !(regionsNow c w).all (regionGood t (vatOf core)) then curdExc core excRegion pc 0 s
      else if c.preg w.pr = (w.pn == 1) then retire core n s
      else if bindingOk c (freshSb n op pc w) = false then curdExc core excQbind pc 0 s
      else if op = 0x32 ∧ (2 ^ 28 < e.rs1 ∨ 2 ^ 28 < e.rs2) then curdExc core excRange pc 0 s
      else if par = .hard then curdExc core excData pc 0 s
      else serveUnit core (unitOf op) (s.updCore core (fun c => c.setEntry e)) := by
  have hentry : (t.core core).entry n = some (freshSb n op pc w) := entry_single hsb
  unfold startEntry
  dsimp only
  rw [hentry]
  dsimp only
  rw [if_neg (by rw [canStart_single hsb rfl hretired]; decide)]
  rfl

/-- A unit serves the one started instruction of a core. -/
theorem serveUnit_single (hsb : (t.core core).sb = [e]) (hstarted : e.started = true) (hactive : coreActive (t.core core) = true)
    (hstored : storedBefore t core e.ord = false) :
    serveUnit core (unitOf e.op) t = settle core e.ord (runSteps core (fuelOf e) e t) := by
  unfold serveUnit
  rw [hsb, List.filter_cons_of_pos (by rw [hstarted]; simp)]
  show (if coreActive (t.core core) = true then runEntry core e.ord t else t) = _
  rw [if_pos hactive]
  unfold runEntry
  dsimp only
  rw [orNext_of_false hstored, entry_single hsb]
  exact if_pos hstarted

/-- The state in which the issued instruction has started in this cycle, and its scoreboard entry does not say so yet. -/
def curdStarts (core op : Nat) (w : CurdWord) (s : State) : State := noteAct (.begun core) (s.core core).issued (curdWaits core op w s)

theorem curdStarts_eq : curdStarts core op w s =
    (curdBegun core s).setCore core { curdMoved core s with sb := [curdFresh core op w s] } := rfl

/-- What a ready instruction comes to. -/
theorem issueWord_of_ready (hready : CurdReady core op w s) (hbranch : isBranch op = false) :
    issueWord core op w s =
      let c := s.core core
      let e := curdEntry core op w s
      if c.preg w.pr = (w.pn == 1) then retire core c.issued (curdStarts core op w s)
      else if bindingOk c e = false then curdExc core excQbind c.pc 0 (curdStarts core op w s)
      else if op = 0x32 ∧ (2 ^ 28 < e.rs1 ∨ 2 ^ 28 < e.rs2) then curdExc core excRange c.pc 0 (curdStarts core op w s)
      else serveUnit core (unitOf op) (curdHeld core op w s) := by
  rw [issueWord_eq_startEntry hready hbranch]
  obtain ⟨⟨-, hst, -, -, -, -, -, -, hretired, -⟩, hregions⟩ := hready
  have hheld : (curdStarts core op w s).updCore core (fun c => c.setEntry (curdEntry core op w s)) = curdHeld core op w s := by
    rw [curdStarts_eq, updCore_setCore _ (ne_idle_of_sb rfl)]
    exact congrArg ((curdBegun core s).setCore core) (setEntry_single (e := curdFresh core op w s) rfl rfl)
  have hregion : (!(s.core core).cmode && !(regionsNow (s.core core) w).all (regionGood s (vatOf core))) = false := by
    rcases hregions with h | h <;> rw [h] <;> simp
  rw [startEntry_single (t := curdWaits core op w s) (n := (s.core core).issued) (pc := (s.core core).pc) (op := op) (w := w)
    (by rw [curdWaits_core hst]; rfl) hretired, curdWaits_core hst, ← hheld]
  refine (if_neg (Bool.not_eq_true _ ▸ hregion)).trans ?_
  refine if_congr Iff.rfl rfl (if_congr Iff.rfl rfl (if_congr Iff.rfl rfl (if_neg (by decide))))

/-- A ready instruction with a true guard and bound queues enters the scoreboard, starts and runs. -/
theorem issueWord_eq_settle (hready : CurdReady core op w s) (hguard : CurdGuard core w s) (hbranch : isBranch op = false)
    (hbound : bindingOk (s.core core) (curdEntry core op w s) = true)
    (hsmall : op ≠ 0x32 ∨ ((curdEntry core op w s).rs1 ≤ 2 ^ 28 ∧ (curdEntry core op w s).rs2 ≤ 2 ^ 28)) :
    issueWord core op w s =
      settle core (curdEntry core op w s).ord
        (runSteps core (fuelOf (curdEntry core op w s)) (curdEntry core op w s) (curdHeld core op w s)) := by
  rw [issueWord_of_ready hready hbranch]
  obtain ⟨⟨-, hst, -, -, -, -, -, -, -, hstored⟩, -⟩ := hready
  have hcore : (curdHeld core op w s).core core = { curdMoved core s with sb := [curdEntry core op w s] } :=
    core_setCore_self (ne_idle_of_running hst)
  have hserve := serveUnit_single (t := curdHeld core op w s) (e := curdEntry core op w s) (by rw [hcore]) rfl
    (by rw [hcore, coreActive]; show ((s.core core).st == .starting || (s.core core).st == .running || _) = true; rw [hst]; rfl)
    hstored
  have hguard' : ¬ (s.core core).preg w.pr = (w.pn == 1) := by
    rw [CurdGuard] at hguard
    exact bne_iff_ne.mp hguard
  dsimp only
  rw [if_neg hguard', if_neg (by rw [hbound]; decide), if_neg (by omega), ← hserve]
  rfl

theorem exec_curdInstr {i : Instr} (h : curdInstr core op w = some i) : exec i s = .next (issue core op w s) := by
  unfold curdInstr at h
  split at h
  case h_59 => exact nomatch h
  all_goals
    obtain rfl := Option.some.inj h
    rfl

theorem isBranch_of_vector (h : isVector op = true ∨ op = 0x32) : isBranch op = false := by
  have hle : op ≤ 0x40 := by
    rcases h with h | h
    · simp only [isVector, isFloat, Bool.or_eq_true, Bool.and_eq_true, decide_eq_true_eq, beq_iff_eq] at h
      omega
    · omega
  simp only [isBranch, Bool.or_eq_false_iff, beq_eq_false_iff_ne]
  omega

/-- What an exception leaves of a core does not depend on its scoreboard. -/
theorem curdExc_setCore (code pc vec : Nat) (hx : x ≠ Core.idle) (hy : y ≠ Core.idle)
    (h : { x with st := .faulted, sb := [], fetching := false, budgetAt := none } =
      { y with st := .faulted, sb := [], fetching := false, budgetAt := none }) :
    curdExc core code pc vec (s.setCore core x) = curdExc core code pc vec (s.setCore core y) := by
  unfold curdExc
  rw [updCore_setCore _ hx, updCore_setCore _ hy, h]

theorem curdMoved_ne_idle (hst : (s.core core).st = .running) : curdMoved core s ≠ Core.idle := ne_idle_of_running hst

theorem curdExc_curdStarts (hst : (s.core core).st = .running) (code pc vec : Nat) :
    curdExc core code pc vec (curdStarts core op w s) = curdExc core code pc vec (curdIssued core s) := by
  rw [curdStarts_eq, curdIssued]
  exact curdExc_setCore code pc vec (ne_idle_of_sb rfl) (curdMoved_ne_idle hst) rfl

theorem curdExc_curdHeld (hst : (s.core core).st = .running) (code pc vec : Nat) :
    curdExc core code pc vec (curdHeld core op w s) = curdExc core code pc vec (curdIssued core s) := by
  rw [curdHeld, curdIssued]
  exact curdExc_setCore code pc vec (ne_idle_of_sb rfl) (curdMoved_ne_idle hst) rfl

/-- A longer MERGE takes RANGE (R247). -/
theorem issueWord_merge_range (hready : CurdReady core 0x32 w s) (hguard : CurdGuard core w s)
    (hbound : bindingOk (s.core core) (curdEntry core 0x32 w s) = true)
    (hlong : 2 ^ 28 < (curdEntry core 0x32 w s).rs1 ∨ 2 ^ 28 < (curdEntry core 0x32 w s).rs2) :
    issueWord core 0x32 w s = curdExc core 4 (s.core core).pc 0 (curdIssued core s) := by
  have hguard' : ¬ (s.core core).preg w.pr = (w.pn == 1) := bne_iff_ne.mp hguard
  rw [issueWord_of_ready hready rfl, ← curdExc_curdStarts (op := 0x32) (w := w) hready.1.2.1]
  exact (if_neg hguard').trans ((if_neg (by rw [hbound]; decide)).trans (if_pos ⟨rfl, hlong⟩))

/-! ### O39 -/

theorem microStep_vector (hvector : isVector e.op = true) (hasend : e.op ≠ 0x40) : microStep core e s = vecStep core e s := by
  have hmerge : e.op ≠ 0x32 := fun h => by rw [h] at hvector; exact absurd hvector (by decide)
  unfold microStep
  rw [if_neg hasend, if_neg hmerge, if_pos hvector]

theorem isVector_of_float (h : isFloat e.op = true) : isVector e.op = true := by rw [isVector, h]; rfl

theorem isFloat_bounds (h : isFloat op = true) : 0x10 ≤ op ∧ op ≤ 0x1E := by
  simpa [isFloat] using h

/-- A vector instruction that has steps left and no full unit looks at its sources. -/
theorem vecStep_read (hacc : e.acc.length < unitSize e) (hsteps : e.steps < e.w.rep) : vecStep core e s = readStep core e s := by
  unfold vecStep
  rw [if_neg (Nat.not_le.mpr hacc), if_pos hsteps]

/-- A step of a floating-point instruction whose inputs are there and whose result finds room. -/
theorem readStep_float {xs : List (Src × Nat × List (List Byte))} (hfloat : isFloat e.op = true)
    (hsees : seeSrcs s core e = .got xs) (hreads : readsOk (s.core core) e xs = true)
    (hroom : roomNext s core (floatRead e xs) = true) :
    readStep core e s =
      .more { floatRead e xs with steps := e.steps + 1 } (popSrcs core xs (floatCensus core e xs s)) := by
  have hop := isFloat_bounds hfloat
  have htake : ∀ ix g, takeStep core e xs ix g s =
      .more { floatRead e xs with steps := e.steps + 1 } (popSrcs core xs (floatCensus core e xs s)) := by
    intro ix g
    unfold takeStep
    simp only [if_pos hfloat]
    rw [if_neg (by rw [hroom]; decide), if_neg (by omega)]
  unfold readStep
  rw [hsees, withLook, if_neg (by rw [hreads]; decide)]
  dsimp only
  rw [if_neg (by omega)]
  dsimp only
  rw [if_neg (by omega), htake]

/-- A lane instruction, MOV, KEYX or SORTV. -/
def isRaw (op : Nat) : Prop := isLane op = true ∨ op = 0x28 ∨ op = 0x30 ∨ op = 0x31

theorem isRaw_bounds (h : isRaw op) : (0x20 ≤ op ∧ op ≤ 0x27) ∨ op = 0x28 ∨ op = 0x30 ∨ op = 0x31 := by
  rw [isRaw, isLane, Bool.and_eq_true, decide_eq_true_eq, decide_eq_true_eq] at h
  exact h

theorem isFloat_of_raw (h : isRaw op) : isFloat op = false := by
  have hop := isRaw_bounds h
  simp only [isFloat, Bool.and_eq_false_iff, decide_eq_false_iff_not]
  omega

theorem isVector_of_raw (h : isRaw op) : isVector op = true := by
  have hop := isRaw_bounds h
  simp only [isVector, Bool.or_eq_true, Bool.and_eq_true, decide_eq_true_eq, beq_iff_eq]
  omega

theorem ne_of_raw (h : isRaw op) : op ≠ 0x2A ∧ op ≠ 0x2B ∧ op ≠ 0x40 := by
  have hop := isRaw_bounds h
  omega

theorem rawRead_of_raw {xs : List (Src × Nat × List (List Byte))} (g : List Byte) (h : isRaw e.op) :
    rawRead e g xs = ((rawRead e [] xs).1, 0) := by
  unfold rawRead
  rcases h with h | h | h | h
  · simp only [if_pos h]
  all_goals rw [h]; rfl

/-- A step of an instruction on raw vectors whose inputs are there and whose result finds room. -/
theorem readStep_raw {xs : List (Src × Nat × List (List Byte))} (hop : isRaw e.op) (hsees : seeSrcs s core e = .got xs)
    (hreads : readsOk (s.core core) e xs = true)
    (hroom : roomNext s core { e with acc := e.acc ++ (rawRead e [] xs).1.map (fun b => b.toNat) } = true) :
    readStep core e s =
      .more { e with acc := e.acc ++ (rawRead e [] xs).1.map (fun b => b.toNat), steps := e.steps + 1 } (popSrcs core xs s) := by
  obtain ⟨hgath, hscat, -⟩ := ne_of_raw hop
  have hfloat : ¬ isFloat e.op = true := by rw [isFloat_of_raw hop]; decide
  have htake : ∀ ix g, takeStep core e xs ix g s =
      .more { e with acc := e.acc ++ (rawRead e [] xs).1.map (fun b => b.toNat), steps := e.steps + 1 } (popSrcs core xs s) := by
    intro ix g
    unfold takeStep
    simp only [if_neg hfloat, if_neg hscat, rawRead_of_raw g hop]
    exact if_neg (by rw [Nat.add_zero, hroom]; decide)
  unfold readStep
  rw [hsees, withLook, if_neg (by rw [hreads]; decide)]
  dsimp only
  rw [if_neg (by omega)]
  dsimp only
  rw [if_neg hgath, htake]

/-- Settles O39: a ready instruction issues into an empty scoreboard, starts and runs; the other clauses are the branches of one
step. -/
theorem curdVectorRun : Obligations.CurdVectorRun := by
  refine ⟨?run, ?float, ?stops, ?raw, ?done⟩
  case run =>
    intro s core op w i hi hvector hready hguard hbound
    dsimp only
    rw [exec_curdInstr hi, issue_of_issues hready.1]
    refine ⟨fun hsmall => congrArg Host.Outcome.next ?_, fun hop hlong => congrArg Host.Outcome.next ?_⟩
    · exact issueWord_eq_settle hready hguard (isBranch_of_vector hvector) hbound hsmall
    · subst hop
      exact issueWord_merge_range hready hguard hbound hlong
  case float =>
    intro s core e xs hfloat hacc hsteps hsees hreads hroom
    have hop := isFloat_bounds hfloat
    rw [microStep_vector (isVector_of_float hfloat) (by omega), vecStep_read hacc hsteps]
    exact readStep_float hfloat hsees hreads hroom
  case stops =>
    intro s core e hvector hasend hacc hsteps
    rw [microStep_vector hvector hasend, vecStep_read hacc hsteps, readStep]
    refine ⟨fun h => by rw [h]; rfl, fun q off n h => by rw [h]; rfl, fun l h => by rw [h]; rfl⟩
  case raw =>
    intro s core e xs hop hacc hsteps hsees hreads hroom
    have hunit : unitSize e = 512 := by rw [unitSize, isFloat_of_raw hop]; rfl
    rw [microStep_vector (isVector_of_raw hop) (ne_of_raw hop).2.2, vecStep_read (by rw [hunit]; exact hacc) hsteps]
    exact readStep_raw hop hsees hreads hroom
  case done =>
    intro s core e hvector hasend hacc hsteps
    have hunit : 0 < unitSize e := by
      unfold unitSize unitElems
      split
      · split <;> decide
      · decide
    rw [microStep_vector hvector hasend, vecStep, if_neg (by rw [hacc]; exact Nat.not_le.mpr hunit),
      if_neg (Nat.not_lt.mpr hsteps), if_neg (fun h => h hacc)]

/-! ### O42 -/

/-- Two sides of a MERGE that both have records left see their heads. -/
theorem lookAll_heads {a b : Src} {va vb : List (List Byte)} (ha : peekVecs s core a.q 1 = .got va)
    (hb : peekVecs s core b.q 1 = .got vb) :
    lookAll (fun (x : Bool × Src) => if x.1 then peekVecs s core x.2.q 1 else .got []) [(true, a), (true, b)] = .got [va, vb] := by
  simp only [lookAll, if_true, ha, hb, Look.map]

/-- Record `k` of a side of a MERGE, whose head vector is `v`. -/
def sideRec (w : CurdWord) (v : List (List Byte)) (k : Nat) : List Byte :=
  ((v.flatMap id).drop (2 ^ sortLog w * (k % (512 / 2 ^ sortLog w)))).take (2 ^ sortLog w)

/-- MERGE takes a record, of A or of B. -/
def mergeTake (core : Nat) (e : Sb) (fromA : Bool) (ra rb : List Byte) (s : State) : StepRes :=
  let per := 512 / 2 ^ sortLog e.w
  let r := if fromA then ra else rb
  let e1 : Sb := { e with acc := e.acc ++ r.map (fun x => x.toNat), steps := e.steps + 1, sent := e.sent + bit01 fromA }
  if roomNext s core e1 = false then .wait e (waitNext core e1 s)
  else
    let spent := if fromA then (e.sent + 1) % per == 0 else (e.steps - e.sent + 1) % per == 0
    .more e1 (if spent then popVecs core (if fromA then (srcOf e.w.sa).q else (srcOf e.w.sb).q) 1 s else s)

theorem mergeStep_heads {va vb : List (List Byte)} (hacc : e.acc.length < 512) (hA : e.sent < e.rs1) (hB : e.steps - e.sent < e.rs2)
    (ha : peekVecs s core (srcOf e.w.sa).q 1 = .got va) (hb : peekVecs s core (srcOf e.w.sb).q 1 = .got vb)
    (hwa : windowOk (s.core core) e (srcOf e.w.sa).q false 1 = true)
    (hwb : windowOk (s.core core) e (srcOf e.w.sb).q false 1 = true) :
    mergeStep core e s =
      mergeTake core e (decide (recKey e.w (sideRec e.w va e.sent) ≤ recKey e.w (sideRec e.w vb (e.steps - e.sent))))
        (sideRec e.w va e.sent) (sideRec e.w vb (e.steps - e.sent)) s := by
  unfold mergeStep
  dsimp only
  rw [if_neg (Nat.not_le.mpr hacc), decide_eq_true hA, decide_eq_true hB, if_neg (by decide), lookAll_heads ha hb, withLook, hwa,
    hwb, if_neg (by decide)]
  rfl

theorem mergeTake_a {ra rb : List Byte}
    (hroom : roomNext s core { e with acc := e.acc ++ ra.map (fun x => x.toNat), steps := e.steps + 1, sent := e.sent + 1 } = true) :
    mergeTake core e true ra rb s =
      .more { e with acc := e.acc ++ ra.map (fun x => x.toNat), steps := e.steps + 1, sent := e.sent + 1 }
        (if (e.sent + 1) % (512 / 2 ^ sortLog e.w) = 0 then popVecs core (srcOf e.w.sa).q 1 s else s) := by
  refine (if_neg (by rw [bit01, if_pos rfl, if_pos rfl, hroom]; decide)).trans (congrArg _ ?_)
  exact if_congr beq_iff_eq rfl rfl

theorem mergeTake_b {ra rb : List Byte}
    (hroom : roomNext s core { e with acc := e.acc ++ rb.map (fun x => x.toNat), steps := e.steps + 1 } = true) :
    mergeTake core e false ra rb s =
      .more { e with acc := e.acc ++ rb.map (fun x => x.toNat), steps := e.steps + 1 }
        (if (e.steps - e.sent + 1) % (512 / 2 ^ sortLog e.w) = 0 then popVecs core (srcOf e.w.sb).q 1 s else s) := by
  refine (if_neg (fun h => ?_)).trans (congrArg _ ?_)
  · exact absurd (hroom.symm.trans h) (by decide)
  · exact if_congr beq_iff_eq rfl rfl

/-- Settles O42, by the branches of a step of MERGE and of ASEND. -/
theorem curdMergeAsend : Obligations.CurdMergeAsend := by
  refine ⟨?merge, ?hand, ?read, ?done⟩
  case merge =>
    intro s core e va vb hop hacc hA hB ha hb hwa hwb
    rw [microStep_merge hop, mergeStep_heads hacc hA hB ha hb hwa hwb]
    refine ⟨fun hle hroom => ?_, fun hlt hroom => ?_⟩
    · rw [sideRec, sideRec, decide_eq_true hle]
      exact mergeTake_a hroom
    · rw [sideRec, sideRec, decide_eq_false (Nat.not_le.mpr hlt)]
      exact mergeTake_b hroom
  case hand =>
    intro s core e hop hacc hfull
    rw [microStep_asend hop, asendStep, if_pos ⟨hacc, hfull⟩]
    refine ⟨fun hwait => if_pos hwait, fun holder hroom => if_neg ?_⟩
    rw [holder, hroom]
    decide
  case read =>
    intro s core e xs hop hpart hsteps hsees hreads
    have hfull : ¬(e.acc ≠ [] ∧ (e.steps % 8 = 0 ∨ e.steps = e.w.rep)) := by tauto
    rw [microStep_asend hop]
    unfold asendStep
    rw [if_neg hfull, if_neg (Nat.not_le.mpr hsteps), hsees]
    exact if_neg (by rw [hreads]; decide)
  case done =>
    intro s core e hop hacc hsteps
    rw [microStep_asend hop, asendStep, if_neg (fun h => h.1 hacc), if_pos hsteps]

end Run

end Sys2Proof.Machine
end

/-!
PROOFS. The start and the completion of a waiting instruction, and inbound delivery (06_curd_execution.md): O43.
-/
section
namespace Sys2Proof.Machine

section Steps
variable {s : State} {core n op pc : Nat} {w : CurdWord} {e : Sb}

theorem execInstructionStart_of_find {par : Parity} (hactive : coreActive (s.core core) = true)
    (hfind : (s.core core).sb.find? (canStart s core) = some e) :
    execInstructionStart core par s = .next (startEntry core e.ord par s) := by
  rw [execInstructionStart, hfind]
  exact congrArg _ (if_pos hactive)

/-- A hard parity error in what the one waiting instruction of a core reads (R345). -/
theorem startEntry_hard (hsb : (s.core core).sb = [freshSb n op pc w]) (hretired : retiredNow s core = [])
    (hmode : (s.core core).cmode = true) (hguard : CurdGuard core w s)
    (hbound : bindingOk (s.core core) (freshSb n op pc w) = true) (hop : op ≠ 0x32) :
    startEntry core n .hard s =
      curdExc core 6 pc 0 (noteAct (.begun core) n (s.addFld (pgCellar (vatQuad (vatOf core))) celPar_hard 1)) := by
  have hguard' : ¬ (s.core core).preg w.pr = (w.pn == 1) := bne_iff_ne.mp hguard
  rw [startEntry_single hsb hretired]
  dsimp only
  rw [if_neg (by rw [hmode]; simp), if_neg hguard', if_neg (by rw [hbound]; decide), if_neg (fun h => hop h.1), if_pos rfl]
  rfl

theorem execInstructionComplete_single (hactive : coreActive (s.core core) = true) (hsb : (s.core core).sb = [e])
    (hstarted : e.started = true) (hstored : storedBefore s core e.ord = false) :
    execInstructionComplete core s = .next (settle core e.ord (runSteps core (fuelOf e) e s)) := by
  have hrun : runEntry core e.ord s = settle core e.ord (runSteps core (fuelOf e) e s) := by
    unfold runEntry
    dsimp only
    rw [orNext_of_false hstored, entry_single hsb]
    exact if_pos hstarted
  unfold execInstructionComplete
  rw [if_pos hactive, hsb]
  refine congrArg _ ?_
  show (if ((runEntry core e.ord s).core core).sb.length < ((s.core core).sb).length then runEntry core e.ord s
    else runEntry core e.ord s) = _
  rw [ite_self, hrun]

end Steps

/-! ### What an allocation leaves of the register file -/

section Alloc
variable {s t : State} {q p b req : Nat}

/-- The rows of CEL_POOL hold 0 in `used` and `hwm` at reset, and no register beyond the four quadrants stands at such an address. -/
theorem pool_reset_rows : ∀ q < 64, ∀ p < 7, (locate (poolAddr q p + 0x140)).all (fun x =>
    x.kind == .cellar && fieldOf (fieldsReset x.fields) 32 16 == 0 && fieldOf (fieldsReset x.fields) 48 16 == 0) = true := by
  decide +kernel

theorem regReset_of_none {a : Nat} (f : Fuses) (h : locate a = none) : regReset f a = 0 := by rw [regReset, h]

theorem regReset_of_cellar {a : Nat} {x : Loc} (f : Fuses) (h : locate a = some x) (hkind : x.kind = .cellar) :
    regReset f a = fieldsReset x.fields := by
  obtain ⟨kind, inst, base, off⟩ := x
  subst hkind
  rw [regReset, h]

theorem pool_reset (f : Fuses) (hq : q < 64) (hp : p < 7) :
    fieldOf (regReset f (poolAddr q p + 0x140)) 32 16 = 0 ∧ fieldOf (regReset f (poolAddr q p + 0x140)) 48 16 = 0 := by
  have hrow := pool_reset_rows q hq p hp
  cases h : locate (poolAddr q p + 0x140) with
  | none =>
    rw [regReset_of_none f h]
    decide
  | some x =>
    rw [h, Option.all_some] at hrow
    simp only [Bool.and_eq_true, beq_iff_eq] at hrow
    obtain ⟨⟨hkind, hused⟩, hhwm⟩ := hrow
    rw [regReset_of_cellar f h hkind]
    exact ⟨hused, hhwm⟩

/-- A store of a value that is listed changes no other register, whatever the register file lists. -/
theorem rd_wr_other {a c : Nat} {v : U64} (hv : v ≠ regReset s.fuses a) (hc : c ≠ a) : (s.wr a v).rd c = s.rd c :=
  tget_tset_of_ne _ _ s.regs hv hc

theorem ne_of_fieldOf {v r : U64} {l w : Nat} (hv : fieldOf v l w ≠ 0) (hr : fieldOf r l w = 0) : v ≠ r := fun h => hv (h ▸ hr)

theorem bumpUsed_rd {a : Nat} (hq : q < 64) (hp : p < 7) (hused : poolUsed s q p < 65535) (ha : a ≠ poolAddr q p + 0x140) :
    (bumpUsed q p s).rd a = s.rd a := by
  obtain ⟨hresetUsed, hresetHwm⟩ := pool_reset s.fuses hq hp
  have hv : withField (s.rd (poolAddr q p + 0x140)) 32 16 (poolUsed s q p + 1) ≠ regReset s.fuses (poolAddr q p + 0x140) := by
    refine ne_of_fieldOf (l := 32) (w := 16) ?_ hresetUsed
    rw [fieldOf_withField _ _ _ _ (by decide), Nat.mod_eq_of_lt (by omega)]
    omega
  have hmark : ∀ n m r, n + 1 < 65536 → m < 65536 →
      withField r 48 16 (max (n + 1) m) ≠ regReset s.fuses (poolAddr q p + 0x140) := by
    intro n m r hn hm
    refine ne_of_fieldOf (l := 48) (w := 16) ?_ hresetHwm
    rw [fieldOf_withField _ _ _ _ (by decide), Nat.mod_eq_of_lt (by omega)]
    omega
  have hhwm : ∀ t : State, t.fld (poolAddr q p) celPool_hwm < 65536 := fun t => Nat.mod_lt _ (by decide)
  unfold bumpUsed
  dsimp only
  exact (rd_wr_other (s := s.setFld (poolAddr q p) celPool_used (poolUsed s q p + 1))
    (hmark _ _ _ (by omega) (hhwm _)) ha).trans (rd_wr_other hv ha)

theorem poolUsed_lt_of_canAllocate (h : canAllocate s q p = true) : poolUsed s q p < 65535 := by
  have hused := of_decide_eq_true (Bool.and_eq_true .. ▸ h).1
  have hcap : s.fld (poolAddr q p) celPool_cap < 65536 := Nat.mod_lt _ (by decide)
  have hmin : poolCap s q p ≤ s.fld (poolAddr q p) celPool_cap := Nat.min_le_left _ _
  omega

theorem takeBuf_some (h : takeBuf q p req s = some (b, t)) :
    canAllocate s q p = true ∧
      t = noteAct (.alloc q) req (bumpUsed q p (s.setBuf b { Buf.free with st := .owned, pool := p })) := by
  unfold takeBuf allocAfter allocBuf at h
  split at h
  · exact nomatch h
  · split at h
    · split at h
      · next hcan =>
        split at h
        · obtain ⟨rfl, rfl⟩ := Prod.mk.inj (Option.some.inj h)
          exact ⟨hcan, rfl⟩
        · exact nomatch h
      · exact nomatch h
    · exact nomatch h

theorem unitQuad_lt (u : Nat) : unitQuad u < 64 := by
  unfold unitQuad
  split_ifs <;> omega

theorem inbEntry_congr {n : Nat} (h : t.rd (inbAt n) = s.rd (inbAt n)) : inbEntry t n = inbEntry s n := by
  show InbEntry.mk (fieldOf (t.rd (inbAt n)) 0 1 != 0) (fieldOf (t.rd (inbAt n)) 1 5 * 8 + fieldOf (t.rd (inbAt n)) 6 3)
    (fieldOf (t.rd (inbAt n)) 9 6) = _
  rw [h]
  rfl

/-- An allocation leaves the inbound table alone. -/
theorem inbEntry_takeBuf {n : Nat} (hq : q < 64) (hp : p < 7) (hn : n < 4096) (h : takeBuf q p req s = some (b, t)) :
    inbEntry t n = inbEntry s n := by
  obtain ⟨hcan, rfl⟩ := takeBuf_some h
  have hrd : (bumpUsed q p (s.setBuf b { Buf.free with st := .owned, pool := p })).rd (inbAt n) = s.rd (inbAt n) := by
    refine bumpUsed_rd (s := s.setBuf b _) hq hp (poolUsed_lt_of_canAllocate hcan) ?_
    unfold inbAt poolAddr pgCellar
    omega
  exact inbEntry_congr hrd

end Alloc

/-! ### Inbound delivery (R191 to R194) -/

section Inbound
variable {s : State} {x : InPkt}

/-- The inbound entry of a packet names a bound STREAM_IN queue of an active core in GOLD (R191). -/
def inbOpen (s : State) (x : InPkt) : Prop :=
  let e := inbEntry s x.pkt.tag
  let q := (s.core e.core).queue e.queue
  vatPresent s.fuses (vatOf e.core) = true ∧ isGold s (puVat (vatOf e.core)) = true ∧ coreActive (s.core e.core) = true ∧
    q.bound = true ∧ q.kind = 3

theorem inbDeliver_open (hkind : inbKind x.pkt = true) (hvalid : (inbEntry s (x.pkt.tag % 4096)).valid = true)
    (htag : x.pkt.tag < 4096) (hopen : inbOpen s x) :
    inbDeliver x s =
      let e := inbEntry s x.pkt.tag
      let q := (s.core e.core).queue e.queue
      if isDup s x.pkt then consumed x (writeAck x.pkt s)
      else if q.len ≤ q.bufs.length then holdFull x s
      else if earlierIn s x then holdInbox x s
      else
        match x.pool with
        | some b => deliverWith { x with pool := none } b s
        | none =>
          match takeBuf (unitQuad x.port) (x.pkt.vc % 7) x.port s with
          | none => holdFull x (waitInbound x s)
          | some (b, s1) => deliverWith x b s1 := by
  rw [Nat.mod_eq_of_lt htag] at hvalid
  obtain ⟨-, hgold, hactive, hbound, hqueue⟩ := hopen
  unfold inbDeliver
  dsimp only
  rw [Nat.mod_eq_of_lt htag, if_neg (by rw [hkind, hvalid, Nat.div_eq_of_lt htag]; decide), if_neg (by rw [hgold]; simp),
    if_neg (by rw [hactive, hbound, hqueue]; decide)] <;> rfl

/-- A packet that stands alone in no buffer of the slice is copied into the buffer that it takes (R338). -/
theorem deliverWith_own {b : Nat} {t : State} (htag : x.pkt.tag < 4096) (hentry : inbEntry t x.pkt.tag = inbEntry s x.pkt.tag)
    (hhome : x.home = none) :
    deliverWith x b t =
      let e := inbEntry s x.pkt.tag
      let u := repCore e.core
      let own := freeBuf b u none (shareBuf b 1 u none (fillPacket b u x.pkt t))
      if bufRefused t b then consumed x (countParity (bufQuad b) .hard own)
      else
        let s2 := noteSeq x.pkt (appendBuf e.core e.queue x.pkt (some b) own)
        consumed x (if x.pkt.ptype = ptWrite then writeAck x.pkt s2 else s2) := by
  have hhand : handBuf (some x) b t = (b, t) := by
    unfold handBuf
    rw [Option.bind_some, hhome]
    rfl
  unfold deliverWith
  dsimp only
  rw [Nat.mod_eq_of_lt htag, hentry, hhand, if_pos rfl]

/-- A packet that stands alone in an ingress buffer of the slice stays there, and its port keeps the other one (R338). -/
theorem deliverWith_home {b h : Nat} {t : State} (htag : x.pkt.tag < 4096)
    (hentry : inbEntry t x.pkt.tag = inbEntry s x.pkt.tag) (hhome : x.home = some h) (hne : h ≠ b) (hquad : bufQuad h = bufQuad b)
    (hheld : (t.port x.port).credBufs.contains (x.pkt.vc, h) = true) (halone : isHome t h = false)
    (hgood : bufRefused t h = false) :
    deliverWith x b t =
      let e := inbEntry s x.pkt.tag
      let u := repCore e.core
      let s2 := noteSeq x.pkt (appendBuf e.core e.queue x.pkt (some h) (freeBuf h u none (shareBuf h 1 u none
        (t.updPort x.port (fun y =>
          { y with credBufs := y.credBufs.map (fun c => if c = (x.pkt.vc, h) then (x.pkt.vc, b) else c) })))))
      consumed x (if x.pkt.ptype = ptWrite then writeAck x.pkt s2 else s2) := by
  have hhand : handBuf (some x) b t = (h, t.updPort x.port (fun y =>
      { y with credBufs := y.credBufs.map (fun c => if c = (x.pkt.vc, h) then (x.pkt.vc, b) else c) })) := by
    unfold handBuf
    rw [Option.bind_some, hhome]
    exact if_pos ⟨hheld, halone, hquad⟩
  unfold deliverWith
  dsimp only
  rw [Nat.mod_eq_of_lt htag, hentry, hhand, if_neg hne, hgood]
  rfl

/-- A packet that R191 does not deliver is discarded; its Vat takes work (R378). -/
theorem inbDiscard_taking (hon : isEnabled s (pgVat (vatOf (inbEntry s (x.pkt.tag % 4096)).core)) = true)
    (hdark : isDark s (puVat (vatOf (inbEntry s (x.pkt.tag % 4096)).core)) = false)
    (hdrain : isDrain s (pgVat (vatOf (inbEntry s (x.pkt.tag % 4096)).core)) = false) :
    inbDiscard x s = consumed x (reportOpen x.pkt.src clsInbound x.port
      (if vatPresent s.fuses (vatOf (inbEntry s (x.pkt.tag % 4096)).core) then
        s.addFld (pgVat (vatOf (inbEntry s (x.pkt.tag % 4096)).core)) vatCnt_inb 1 else s)) := by
  unfold inbDiscard
  dsimp only
  rw [hon, hdark, hdrain]
  exact congrArg (consumed x) (if_neg (by simp))

/-- Settles O43: the branches of the start and the completion of an instruction, and of a delivery; an allocation leaves the
inbound table alone. -/
theorem curdStartComplete : Obligations.CurdStartComplete := by
  refine ⟨?start, ?hard, ?complete, ?command, ?taken, ?kept, ?discarded⟩
  case start => exact fun s core par e hactive hfind => execInstructionStart_of_find hactive hfind
  case hard =>
    intro s core w n op pc hactive hsb hretired hmode hguard hbound hop
    have hfind : (s.core core).sb.find? (canStart s core) = some (freshSb n op pc w) := by
      have hcan : canStart s core (freshSb n op pc w) = true := canStart_single hsb rfl hretired
      rw [hsb, List.find?_cons, hcan]
    exact (execInstructionStart_of_find hactive hfind).trans
      (congrArg _ (startEntry_hard hsb hretired hmode hguard hbound hop))
  case complete => exact fun s core e hactive hsb hstarted hstored => execInstructionComplete_single hactive hsb hstarted hstored
  case command =>
    intro s port p
    refine ⟨fun h => congrArg Host.Outcome.next (if_pos h), fun h hcrc => ?_, fun h hcrc => ?_⟩
    · refine congrArg Host.Outcome.next ((if_neg (by rw [h]; decide)).trans (if_neg (by rw [hcrc]; decide)))
    · refine congrArg Host.Outcome.next ((if_neg (by rw [h]; decide)).trans (if_pos hcrc))
  case taken =>
    intro s x b s1 hkind hvalid htag hopen hdup hearlier hpool htake
    obtain ⟨hpresent, hgold, hactive, hbound, hqueue, hroom⟩ := hopen
    have hentry : inbEntry s1 x.pkt.tag = inbEntry s x.pkt.tag :=
      inbEntry_takeBuf (unitQuad_lt _) (Nat.mod_lt _ (by decide)) htag htake
    have hdeliver : inbDeliver x s = deliverWith x b s1 := by
      rw [inbDeliver_open hkind hvalid htag ⟨hpresent, hgold, hactive, hbound, hqueue⟩]
      dsimp only
      rw [hdup, hearlier, if_neg (by decide), if_neg (Nat.not_le.mpr hroom), if_neg (by decide), hpool]
      dsimp only
      rw [htake]
    dsimp only
    rw [hdeliver]
    refine ⟨fun hhome hgood => ?_, fun hhome hbad => ?_, fun h hhome hne hquad hheld hwaiting hinbox hgood => ?_⟩
    · rw [deliverWith_own htag hentry hhome]
      exact if_neg (by rw [hgood]; decide)
    · rw [deliverWith_own htag hentry hhome]
      exact if_pos hbad
    · have halone : isHome s1 h = false := by
        simp only [isHome, Bool.or_eq_false_iff, List.any_eq_false, beq_iff_eq]
        exact ⟨fun y hy => bne_iff_ne.mp (List.all_eq_true.mp hwaiting y hy),
          fun y hy => bne_iff_ne.mp (List.all_eq_true.mp hinbox y hy)⟩
      rw [deliverWith_home htag hentry hhome hne hquad hheld halone hgood]
  case kept =>
    intro s x hkind hvalid htag hopen
    dsimp only
    rw [inbDeliver_open hkind hvalid htag hopen]
    dsimp only
    refine ⟨fun hdup => if_pos hdup, fun hdup hfull => ?_, fun hdup hroom hearlier => ?_,
      fun hdup hroom hearlier hpool htake => ?_⟩
    · rw [hdup, if_neg (by decide), if_pos hfull]
    · rw [hdup, if_neg (by decide), if_neg (Nat.not_le.mpr hroom), if_pos hearlier]
    · rw [hdup, hearlier, if_neg (by decide), if_neg (Nat.not_le.mpr hroom), if_neg (by decide), hpool]
      dsimp only
      rw [htake]
  case discarded =>
    intro s x hbad hon hdark hdrain
    have hdiscard : inbDeliver x s = inbDiscard x s := by
      refine if_pos ?_
      rcases hbad with h | h | h
      · exact .inl h
      · exact .inr (.inl (by have := Nat.div_le_div_right (c := 4096) h; omega))
      · exact .inr (.inr h)
    rw [hdiscard, inbDiscard_taking hon hdark hdrain]
    refine ⟨fun hpresent => ?_, fun hpresent => ?_⟩
    · rw [if_pos hpresent]
    · rw [if_neg (by rw [hpresent]; decide)]

end Inbound

end Sys2Proof.Machine
end

/-!
PROOFS. The scalar rows of 07_curd_instructions.md: O37, and a state that fails O38.
-/
section
namespace Sys2Proof.Machine

/-! ### O38: a table that lists a core twice -/

/-- A SWAIT that has started, for a counter of 0. -/
def metSwait : Sb := { freshSb 0 0x43 0 (curdFields 0) with started := true, cap := [0, 0, 0, 0, 0, 0, 0, 0, 0] }

/-- A NOP that declares more of the local data area than there is. -/
def wideNop : Sb := freshSb 0 0 0 { curdFields 0 with rg0 := 0x7FFC02 }

/-- The first entry of core 0 is that of an idle core but for the SWAIT in its scoreboard; the second one is a core that runs. -/
def coreTwice : State :=
  { State.reset with
    cores := [(0, { Core.idle with sb := [metSwait] }), (0, { Core.idle with st := .running, cmode := false, sb := [wideNop] })] }

/-- The state of a core in a result's next state. -/
def nextCoreSt (core : Nat) : Result → Option CoreState
  | .next s => some (s.core core).st
  | _ => none

/-- Refutes O38: the core without the SWAIT equals what an unlisted core reads as, so its entry goes; the second entry shows, and
its instruction takes REGION, which the statement's next state does not have. -/
theorem not_curdSync : ¬ Obligations.CurdSync := by
  rintro ⟨-, -, hwake, -⟩
  have hexec := hwake coreTwice 0 metSwait rfl rfl rfl (by decide +kernel) rfl
  have hst : nextCoreSt 0 (exec (.swaitWake 0) coreTwice) = some .faulted := by decide +kernel
  rw [hexec] at hst
  exact absurd hst (by decide +kernel)

end Sys2Proof.Machine
end

/-!
PROOFS. A state that fails O32 (05_collective_operation.md). The kernel evaluates the model on it.
-/
section
namespace Sys2Proof.Machine

/-- The register file lists an address beyond the BAR before the registers of group 0 and so hides them; a buffer that was freed in
this cycle leaves the pool at that address, and an input of the group has been judged in it. -/
def hiddenAccum : State :=
  { State.reset with
    regs := [(poolAddr 4 0 + 0x140, 2 ^ 32), (grpAt 0, 2 ^ grpCfg_accum.l), (grpAt 0 + grpSync_accBlocks.off, 2 ^ grpSync_accBlocks.l),
      (grpAt 0 + grpEpoch_curEpoch.off, 1)]
    same := { SameCycle.empty with freed := [8 * (2 ^ 20 + 4 * 2 ^ 23)], acts := [(.input ⟨0, 0, 0, 0⟩, 0)] } }

/-- Refutes O32: the boundary belongs to the next cycle, whose begin takes the entry that hides the group's registers out of the
register file; then the group is an ACCUM group, and its block settles, which the statement's state leaves out. -/
theorem not_boundaryEffect : ¬ Obligations.BoundaryEffect := by
  rintro ⟨-, hopen⟩
  obtain ⟨hstate, -⟩ := hopen hiddenAccum 0 (by decide +kernel) (by decide +kernel) (by decide +kernel) rfl
  have hshort : (groupSlots (orNext (inputsNow hiddenAccum 0) hiddenAccum) 0) = [] := by decide +kernel
  have hsettled : (boundary 0 hiddenAccum).mem ≠ [] := by decide +kernel
  have hkept : (epochAdvance 0 (orNext (inputsNow hiddenAccum 0) hiddenAccum)).mem = [] := by decide +kernel
  rw [hshort, List.filter_nil] at hstate
  exact hsettled ((congrArg State.mem hstate).trans hkept)

end Sys2Proof.Machine
end

/-!
PROOFS. The scalar rows of 07_curd_instructions.md: O37.
-/
section
namespace Sys2Proof.Machine

/-! ### The end of an instruction that stands alone in its scoreboard -/

section Settle
variable {s t : State} {core op : Nat} {w : CurdWord} {e : Sb} {x : Core}

theorem core_sb_nil (h : x.sb = []) : { x with sb := [] } = x := by
  cases x
  cases h
  rfl

/-- The scoreboard that becomes empty has no instruction whose region is to be judged. -/
theorem retire_single (hsb : (t.core core).sb = [e]) (hne : { t.core core with sb := [] } ≠ Core.idle) :
    retire core e.ord t = curdFreed core e t := by
  have hempty : (t.core core).sb.filter (fun f => f.ord != e.ord) = [] := by
    rw [hsb]
    simp
  have hfilter : t.updCore core (fun c => { c with sb := c.sb.filter (fun f => f.ord != e.ord) }) =
      t.updCore core (fun c => { c with sb := [] }) := congrArg (fun l => t.setCore core { t.core core with sb := l }) hempty
  have hcore : (curdFreed core e t).core core = { t.core core with sb := [] } := core_setCore_self hne
  have hfault : regionFault (curdFreed core e t) core = none := by
    unfold regionFault
    rw [hcore]
    exact ite_self _
  unfold retire
  dsimp only
  rw [entry_single hsb]
  dsimp only
  rw [hfilter]
  unfold judgeRegions
  rw [show regionFault (noteAct (.retired core e) 0 (t.updCore core (fun c => { c with sb := [] }))) core = none from hfault]
  rfl

theorem settle_done_setCore (hsb : x.sb = [e]) (hne : { x with sb := [] } ≠ Core.idle) :
    settle core e.ord (.done (t.setCore core x)) = curdRetired core e (t.setCore core { x with sb := [] }) := by
  have hx : x ≠ Core.idle := ne_idle_of_sb hsb
  have hcore : (t.setCore core x).core core = x := core_setCore_self hx
  refine (retire_single (by rw [hcore]; exact hsb) (by rw [hcore]; exact hne)).trans ?_
  unfold curdFreed
  rw [updCore_setCore _ hx]

theorem settle_done_curdDone {x : Core} (hst : x.st ≠ .idle) (hsb : x.sb = []) :
    settle core (curdEntry core op w s).ord (.done ((curdBegun core s).setCore core { x with sb := [curdEntry core op w s] })) =
      curdDone core op w x s := by
  have hne : ({ x with sb := [] } : Core) ≠ Core.idle := fun h => hst (by rw [show x.st = ({ x with sb := [] } : Core).st from rfl, h]; rfl)
  refine (settle_done_setCore (e := curdEntry core op w s) (x := { x with sb := [curdEntry core op w s] }) rfl hne).trans ?_
  rw [core_sb_nil (x := x) hsb]
  rfl

/-! ### One step of a scalar instruction -/

/-- An instruction outside the vector units that is no branch. -/
def scalarOp (op : Nat) : Prop := isVector op = false ∧ op ≠ 0x32 ∧ isBranch op = false

theorem microStep_scalar (h : scalarOp e.op) : microStep core e s = scalarStep core e s := by
  obtain ⟨hvector, hmerge, -⟩ := h
  have hasend : e.op ≠ 0x40 := fun h => by rw [h] at hvector; exact absurd hvector (by decide)
  unfold microStep
  rw [if_neg hasend, if_neg hmerge, if_neg (by rw [hvector]; decide)]

theorem fuelOf_scalar (h : scalarOp e.op) : fuelOf e = e.w.rep * 132 + 7 + 1 := if_neg h.2.1

section Row
variable {i : Instr} (hi : curdInstr core op w = some i) (hop : scalarOp op) (hready : CurdReady core op w s)
  (hguard : CurdGuard core w s) (hbound : bindingOk (s.core core) (curdEntry core op w s) = true)
include hi hop hready hguard hbound

theorem exec_scalar {r : StepRes} (hmore : ∀ f u, r ≠ .more f u)
    (hstep : scalarStep core (curdEntry core op w s) (curdHeld core op w s) = r) :
    exec i s = .next (settle core (curdEntry core op w s).ord r) := by
  have hrun : runSteps core (fuelOf (curdEntry core op w s)) (curdEntry core op w s) (curdHeld core op w s) = r := by
    rw [fuelOf_scalar (e := curdEntry core op w s) hop, runSteps, microStep_scalar (e := curdEntry core op w s) hop, hstep]
    cases r with
    | more f u => exact absurd rfl (hmore f u)
    | wait f u => rfl
    | done u => rfl
    | exc code f u => rfl
  rw [exec_curdInstr hi, issue_of_issues hready.1, issueWord_eq_settle hready hguard hop.2.2 hbound (.inl hop.2.1), hrun]

/-- It completes and leaves the core as `x`. -/
theorem exec_scalar_done {x : Core} (hst : x.st ≠ .idle) (hsb : x.sb = [])
    (hstep : scalarStep core (curdEntry core op w s) (curdHeld core op w s) =
      .done ((curdBegun core s).setCore core { x with sb := [curdEntry core op w s] })) :
    exec i s = .next (curdDone core op w x s) := by
  rw [exec_scalar hi hop hready hguard hbound (by intro f u h; exact nomatch h) hstep, settle_done_curdDone hst hsb]

/-- It takes an exception. -/
theorem exec_scalar_exc {code : Nat} {t : State}
    (hstep : scalarStep core (curdEntry core op w s) (curdHeld core op w s) = .exc code (curdEntry core op w s) t) :
    exec i s = .next (curdExc core code (s.core core).pc 0 t) :=
  exec_scalar hi hop hready hguard hbound (by intro f u h; exact nomatch h) hstep

end Row

theorem writeS_setCore (r : Nat) (v : U64) (hx : x ≠ Core.idle) :
    writeS core r v (s.setCore core x) = s.setCore core { x with s := if r = 0 then x.s else tset 0 x.s r v } := by
  unfold writeS
  split
  · rfl
  · rw [updCore_setCore _ hx]

theorem writeP_setCore (p : Nat) (b : Bool) (hx : x ≠ Core.idle) :
    writeP core p b (s.setCore core x) =
      s.setCore core { x with p := if p = 0 then x.p else x.p - x.p / 2 ^ p % 2 * 2 ^ p + bit01 b * 2 ^ p } := by
  unfold writeP
  split
  · rfl
  · rw [updCore_setCore _ hx]

theorem writeS_curdHeld (r : Nat) (v : U64) : writeS core r v (curdHeld core op w s) =
    (curdBegun core s).setCore core { ({ curdMoved core s with
      s := if r = 0 then (s.core core).s else tset 0 (s.core core).s r v } : Core) with sb := [curdEntry core op w s] } :=
  writeS_setCore r v (ne_idle_of_sb rfl)

theorem writeP_curdHeld (p : Nat) (b : Bool) : writeP core p b (curdHeld core op w s) =
    (curdBegun core s).setCore core { ({ curdMoved core s with
      p := if p = 0 then (s.core core).p else (s.core core).p - (s.core core).p / 2 ^ p % 2 * 2 ^ p + bit01 b * 2 ^ p } : Core) with
      sb := [curdEntry core op w s] } :=
  writeP_setCore p b (ne_idle_of_sb rfl)

/-! ### Operands (R204) -/

theorem ofNat_rs1 : BitVec.ofNat 64 (curdEntry core op w s).rs1 = (s.core core).sreg w.rs1 := BitVec.ofNat_toNat _ _ |>.trans (by simp)

theorem ofNat_rs2_imm :
    BitVec.ofNat 64 ((curdEntry core op w s).rs2 + w.imm) = (s.core core).sreg w.rs2 + BitVec.ofNat 64 w.imm := by
  show BitVec.ofNat 64 (((s.core core).sreg w.rs2).toNat + w.imm) = _
  rw [BitVec.ofNat_add, BitVec.ofNat_toNat, BitVec.setWidth_eq]

theorem rs1_imm : ((curdEntry core op w s).rs1 + w.imm) % 2 ^ 64 = ((s.core core).sreg w.rs1 + BitVec.ofNat 64 w.imm).toNat := by
  rw [BitVec.toNat_add, BitVec.toNat_ofNat, Nat.add_mod_mod]
  rfl

/-! ### The classes of scalar instructions -/

theorem scalarOp_of_ge (h : 0x50 ≤ op) (hbranch : isBranch op = false) : scalarOp op := by
  refine ⟨?_, by omega, hbranch⟩
  simp only [isVector, isFloat, Bool.or_eq_false_iff, Bool.and_eq_false_iff, decide_eq_false_iff_not, beq_eq_false_iff_ne]
  omega

theorem isAlu_bounds (h : isAlu op = true) : 0x50 ≤ op ∧ op ≤ 0x5E := by simpa [isAlu] using h

theorem isCompare_bounds (h : isCompare op = true) : 0x59 ≤ op ∧ op ≤ 0x5E := by simpa [isCompare] using h

theorem isBranch_of_le (h : op ≤ 0x67) : isBranch op = false := by
  simp only [isBranch, Bool.or_eq_false_iff, beq_eq_false_iff_ne]
  omega

theorem usesOf_of_ge (h : 0x50 ≤ op) : usesOf op w = scalarUses op := by
  have hfloat : ¬ isFloat op = true := fun hf => by have := isFloat_bounds hf; omega
  unfold usesOf
  rw [if_neg hfloat, if_neg (by omega), if_pos h]

/-- A scalar instruction names no queue. -/
theorem scalarUses_queues (op : Nat) : (scalarUses op).sa = 0 ∧ (scalarUses op).sb = 0 ∧ (scalarUses op).sc = 0 ∧
    (scalarUses op).dd = 0 ∧ (scalarUses op).de = 0 := by
  unfold scalarUses
  split
  · exact ⟨rfl, rfl, rfl, rfl, rfl⟩
  · split
    · exact ⟨rfl, rfl, rfl, rfl, rfl⟩
    · split <;> exact ⟨rfl, rfl, rfl, rfl, rfl⟩

theorem bindingOk_of_uses {c : Core} (hop : e.op ≠ 0x45 ∧ e.op ≠ 0x40)
    (h : (usesOf e.op e.w).sa = 0 ∧ (usesOf e.op e.w).sb = 0 ∧ (usesOf e.op e.w).sc = 0 ∧ (usesOf e.op e.w).dd = 0 ∧
      (usesOf e.op e.w).de = 0) : bindingOk c e = true := by
  obtain ⟨hsa, hsb, hsc, hdd, hde⟩ := h
  simp [bindingOk, srcsOf, dstsOf, hsa, hsb, hsc, hdd, hde, hop]

theorem bindingOk_of_ge {c : Core} (h : 0x50 ≤ e.op) : bindingOk c e = true := by
  refine bindingOk_of_uses (by omega) ?_
  rw [usesOf_of_ge h]
  exact scalarUses_queues _

/-! ### The rows -/

theorem moved_st (hready : CurdReady core op w s) : (curdMoved core s).st ≠ .idle := by
  have hst : (curdMoved core s).st = .running := hready.1.2.1
  rw [hst]
  decide

theorem curdHeld_core : (curdHeld core op w s).core core = { curdMoved core s with sb := [curdEntry core op w s] } :=
  core_setCore_self (ne_idle_of_sb rfl)

theorem scalarStep_compare (h : isCompare e.op = true) : scalarStep core e s =
    .done (writeP core (e.w.rd % 8) (cmpOp e.op (BitVec.ofNat 64 e.rs1) (BitVec.ofNat 64 (e.rs2 + e.w.imm))) s) := if_pos h

theorem scalarStep_alu (h : isAlu e.op = true) (hcompare : isCompare e.op = false) : scalarStep core e s =
    .done (writeS core e.w.rd (aluOp e.op (BitVec.ofNat 64 e.rs1) (BitVec.ofNat 64 (e.rs2 + e.w.imm))) s) :=
  (if_neg (by rw [hcompare]; decide)).trans (if_pos h)

theorem exec_alu {i : Instr} (hi : curdInstr core op w = some i) (halu : isAlu op = true) (hcompare : isCompare op = false)
    (hready : CurdReady core op w s) (hguard : CurdGuard core w s) :
    exec i s = .next (curdDone core op w { curdMoved core s with
      s := if w.rd = 0 then (s.core core).s else tset 0 (s.core core).s w.rd
        (aluOp op ((s.core core).sreg w.rs1) ((s.core core).sreg w.rs2 + BitVec.ofNat 64 w.imm)) } s) := by
  have hop := isAlu_bounds halu
  refine exec_scalar_done hi (scalarOp_of_ge hop.1 (isBranch_of_le (by omega))) hready hguard
    (bindingOk_of_ge (e := curdEntry core op w s) hop.1) (moved_st hready) hready.1.2.2.1 ?_
  rw [scalarStep_alu (e := curdEntry core op w s) halu hcompare, show (curdEntry core op w s).w = w from rfl, ofNat_rs1,
    ofNat_rs2_imm]
  exact congrArg StepRes.done (writeS_curdHeld _ _)

theorem rd_of_compare {cmode : Bool} (hcompare : isCompare op = true) (hlegal : legal cmode op w = true) : w.rd % 8 = w.rd := by
  have huses : (usesOf op w).rd = 7 := by
    rw [usesOf_of_ge (by have := isCompare_bounds hcompare; omega)]
    exact congrArg Uses.rd (if_pos hcompare)
  have hfits : fits w.rd 7 = true := by
    simp only [legal, usesOk, Bool.and_eq_true] at hlegal
    rw [← huses]
    tauto
  have hle : w.rd &&& 7 ≤ 7 := Nat.and_le_right
  rw [fits, beq_iff_eq] at hfits
  omega

theorem exec_compare {i : Instr} (hi : curdInstr core op w = some i) (hcompare : isCompare op = true)
    (hready : CurdReady core op w s) (hguard : CurdGuard core w s) :
    exec i s = .next (curdDone core op w { curdMoved core s with
      p := if w.rd = 0 then (s.core core).p else (s.core core).p - (s.core core).p / 2 ^ w.rd % 2 * 2 ^ w.rd +
        bit01 (cmpOp op ((s.core core).sreg w.rs1) ((s.core core).sreg w.rs2 + BitVec.ofNat 64 w.imm)) * 2 ^ w.rd } s) := by
  have hop := isCompare_bounds hcompare
  have hrd := rd_of_compare hcompare hready.1.2.2.2.2.2.1
  refine exec_scalar_done hi (scalarOp_of_ge (by omega) (isBranch_of_le (by omega))) hready hguard
    (bindingOk_of_ge (e := curdEntry core op w s) (by show 0x50 ≤ op; omega)) (moved_st hready) hready.1.2.2.1 ?_
  rw [scalarStep_compare (e := curdEntry core op w s) hcompare, show (curdEntry core op w s).w = w from rfl, ofNat_rs1,
    ofNat_rs2_imm, hrd]
  exact congrArg StepRes.done (writeP_curdHeld _ _)

/-! ### Local memory (R206, R245, R345) -/

/-- The region that a scalar access of 8 bytes lies in is declared. -/
def declared8 (c : Core) (w : CurdWord) (wr : Bool) (a : Nat) : Bool :=
  (regionsNow c w).any (fun x => x.1.w == wr && x.1.space == 1 && decide (x.2 ≤ a) && decide (a + 8 ≤ x.2 + x.1.pages * 4096))

theorem covered_local (wr : Bool) (a : Nat) : covered (curdEntry core op w s) wr 0 0 a 8 = declared8 (s.core core) w wr a := by
  unfold covered declared8
  refine congrArg (fun f => (regionsNow (s.core core) w).any f) (funext fun x => ?_)
  simp

theorem localExc_curdHeld (wr : Bool) (a : Nat) : localExc (curdHeld core op w s) core (curdEntry core op w s) wr a =
    if a % 8 ≠ 0 ∨ localEnd s (vatOf core) < a + 8 then some excRange
    else if (s.core core).cmode = false ∧ declared8 (s.core core) w wr a = false then some excRegion else none := by
  unfold localExc
  rw [curdHeld_core, covered_local]
  refine if_congr (or_congr Iff.rfl ?_) rfl (if_congr ?_ rfl rfl)
  · show decide (a + 8 ≤ localEnd s (vatOf core)) = false ↔ _
    rw [decide_eq_false_iff_not, Nat.not_le]
  · show (!(s.core core).cmode && !declared8 (s.core core) w wr a) = true ↔ _
    simp

theorem localRead_curdHeld (a n : Nat) : localRead (curdHeld core op w s) (vatOf core) a n = localRead s (vatOf core) a n := by
  have hbytes : rdBytes (curdHeld core op w s) (spLocal (vatOf core)) a n = rdBytes s (spLocal (vatOf core)) a n :=
    rdBytes_congr _ fun _ _ => rfl
  unfold localRead
  dsimp only
  rw [hbytes]
  rfl

theorem curdExc_countParity (hst : (s.core core).st = .running) (q code pc vec : Nat) :
    curdExc core code pc vec (countParity q .hard (curdHeld core op w s)) =
      curdExc core code pc vec (countParity q .hard (curdIssued core s)) :=
  curdExc_setCore (s := countParity q .hard (curdBegun core s)) code pc vec (ne_idle_of_sb rfl) (curdMoved_ne_idle hst) rfl

/-! ### SLD, SST and SCYC -/

theorem scalarStep_sld (h : e.op = 0x60) : scalarStep core e s =
    match localExc s core e false ((e.rs1 + e.w.imm) % 2 ^ 64) with
    | some code => .exc code e s
    | none => withLook core e s (spaceLook s (vatOf core) 0 0 ((e.rs1 + e.w.imm) % 2 ^ 64) 8)
        (fun b => .done (writeS core e.w.rd (BitVec.ofNat 64 (leVal b)) s)) := by
  unfold scalarStep
  rw [h]
  rfl

theorem scalarStep_sst (h : e.op = 0x61) : scalarStep core e s =
    match localExc s core e true ((e.rs1 + e.w.imm) % 2 ^ 64) with
    | some code => .exc code e s
    | none => .done (localWrite (vatOf core) ((e.rs1 + e.w.imm) % 2 ^ 64) (writeOrd core e.ord) (leBytes 8 e.rs2) s) := by
  unfold scalarStep
  rw [h]
  rfl

theorem scalarOp_sld : scalarOp 0x60 := scalarOp_of_ge (by decide) (by decide)
theorem scalarOp_sst : scalarOp 0x61 := scalarOp_of_ge (by decide) (by decide)

theorem bound_of_ge (h : 0x50 ≤ op) : bindingOk (s.core core) (curdEntry core op w s) = true :=
  bindingOk_of_ge (e := curdEntry core op w s) h

/-- An exception at the instruction's own access. -/
theorem exec_scalar_stop {i : Instr} {code : Nat} (hi : curdInstr core op w = some i) (hop : scalarOp op)
    (hready : CurdReady core op w s) (hguard : CurdGuard core w s)
    (hbound : bindingOk (s.core core) (curdEntry core op w s) = true)
    (hstep : scalarStep core (curdEntry core op w s) (curdHeld core op w s) = .exc code (curdEntry core op w s) (curdHeld core op w s)) :
    exec i s = .next (curdExc core code (s.core core).pc 0 (curdIssued core s)) := by
  rw [exec_scalar_exc hi hop hready hguard hbound hstep, curdExc_curdHeld hready.1.2.1]

/-- The address of SLD and SST. -/
def localAddr (core : Nat) (w : CurdWord) (s : State) : Nat := ((s.core core).sreg w.rs1 + BitVec.ofNat 64 w.imm).toNat

/-- The step of an SLD in its scoreboard. -/
theorem sld_step : scalarStep core (curdEntry core 0x60 w s) (curdHeld core 0x60 w s) =
    match localExc (curdHeld core 0x60 w s) core (curdEntry core 0x60 w s) false (localAddr core w s) with
    | some code => .exc code (curdEntry core 0x60 w s) (curdHeld core 0x60 w s)
    | none => withLook core (curdEntry core 0x60 w s) (curdHeld core 0x60 w s)
        (spaceLook (curdHeld core 0x60 w s) (vatOf core) 0 0 (localAddr core w s) 8)
        (fun b => .done (writeS core w.rd (BitVec.ofNat 64 (leVal b)) (curdHeld core 0x60 w s))) := by
  rw [scalarStep_sld (e := curdEntry core 0x60 w s) rfl, show (curdEntry core 0x60 w s).w = w from rfl, rs1_imm]
  rfl

theorem sst_step : scalarStep core (curdEntry core 0x61 w s) (curdHeld core 0x61 w s) =
    match localExc (curdHeld core 0x61 w s) core (curdEntry core 0x61 w s) true (localAddr core w s) with
    | some code => .exc code (curdEntry core 0x61 w s) (curdHeld core 0x61 w s)
    | none => .done (localWrite (vatOf core) (localAddr core w s) (writeOrd core (s.core core).issued)
        (leBytes 8 ((s.core core).sreg w.rs2).toNat) (curdHeld core 0x61 w s)) := by
  rw [scalarStep_sst (e := curdEntry core 0x61 w s) rfl, show (curdEntry core 0x61 w s).w = w from rfl, rs1_imm]
  rfl

/-- A misaligned access or one outside the local data area, and one in no declared region. -/
theorem localExc_range {wr : Bool} {a : Nat} (h : a % 8 ≠ 0 ∨ localEnd s (vatOf core) < a + 8) :
    localExc (curdHeld core op w s) core (curdEntry core op w s) wr a = some excRange := by
  rw [localExc_curdHeld, if_pos h]

theorem localExc_region {wr : Bool} {a : Nat} (halign : a % 8 = 0) (hinside : a + 8 ≤ localEnd s (vatOf core))
    (hmode : (s.core core).cmode = false) (hdeclared : declared8 (s.core core) w wr a = false) :
    localExc (curdHeld core op w s) core (curdEntry core op w s) wr a = some excRegion := by
  rw [localExc_curdHeld, if_neg (by omega), if_pos ⟨hmode, hdeclared⟩]

theorem localExc_none {wr : Bool} {a : Nat} (halign : a % 8 = 0) (hinside : a + 8 ≤ localEnd s (vatOf core))
    (hdeclared : (s.core core).cmode = true ∨ declared8 (s.core core) w wr a = true) :
    localExc (curdHeld core op w s) core (curdEntry core op w s) wr a = none := by
  rw [localExc_curdHeld, if_neg (by omega), if_neg]
  rintro ⟨hmode, hnone⟩
  rcases hdeclared with h | h
  · rw [hmode] at h; exact nomatch h
  · rw [hnone] at h; exact nomatch h

theorem exec_sld_stop {code : Nat} (hready : CurdReady core 0x60 w s) (hguard : CurdGuard core w s)
    (hexc : localExc (curdHeld core 0x60 w s) core (curdEntry core 0x60 w s) false (localAddr core w s) = some code) :
    exec (.cSld core w) s = .next (curdExc core code (s.core core).pc 0 (curdIssued core s)) := by
  refine exec_scalar_stop rfl scalarOp_sld hready hguard (bound_of_ge (by decide)) ?_
  rw [sld_step, hexc]

theorem exec_sst_stop {code : Nat} (hready : CurdReady core 0x61 w s) (hguard : CurdGuard core w s)
    (hexc : localExc (curdHeld core 0x61 w s) core (curdEntry core 0x61 w s) true (localAddr core w s) = some code) :
    exec (.cSst core w) s = .next (curdExc core code (s.core core).pc 0 (curdIssued core s)) := by
  refine exec_scalar_stop rfl scalarOp_sst hready hguard (bound_of_ge (by decide)) ?_
  rw [sst_step, hexc]

theorem exec_sld (hready : CurdReady core 0x60 w s) (hguard : CurdGuard core w s)
    (hexc : localExc (curdHeld core 0x60 w s) core (curdEntry core 0x60 w s) false (localAddr core w s) = none)
    (hgood : upsetIn s (upLocal (vatOf core)) (localAddr core w s) 8 = false) :
    exec (.cSld core w) s = .next (curdDone core 0x60 w { curdMoved core s with
      s := if w.rd = 0 then (s.core core).s else tset 0 (s.core core).s w.rd
        (BitVec.ofNat 64 (localLe s (vatOf core) (localAddr core w s) 8)) } s) := by
  have hlook : spaceLook (curdHeld core 0x60 w s) (vatOf core) 0 0 (localAddr core w s) 8 =
      .got (localRead s (vatOf core) (localAddr core w s) 8) := by
    rw [← localRead_curdHeld (op := 0x60) (w := w)]
    exact if_neg (by rw [show upsetIn (curdHeld core 0x60 w s) _ _ _ = false from hgood]; decide)
  refine exec_scalar_done rfl scalarOp_sld hready hguard (bound_of_ge (by decide)) (moved_st hready) hready.1.2.2.1 ?_
  rw [sld_step, hexc]
  dsimp only
  rw [hlook]
  exact congrArg StepRes.done (writeS_curdHeld _ _)

theorem exec_sld_upset (hready : CurdReady core 0x60 w s) (hguard : CurdGuard core w s)
    (hexc : localExc (curdHeld core 0x60 w s) core (curdEntry core 0x60 w s) false (localAddr core w s) = none)
    (hbad : upsetIn s (upLocal (vatOf core)) (localAddr core w s) 8 = true) :
    exec (.cSld core w) s =
      .next (curdExc core 6 (s.core core).pc 0 (countParity (vatQuad (vatOf core)) .hard (curdIssued core s))) := by
  have hlook : spaceLook (curdHeld core 0x60 w s) (vatOf core) 0 0 (localAddr core w s) 8 = .lost .local_ := if_pos hbad
  rw [← curdExc_countParity hready.1.2.1]
  refine exec_scalar_exc rfl scalarOp_sld hready hguard (bound_of_ge (by decide)) ?_
  rw [sld_step, hexc]
  dsimp only
  rw [hlook]
  rfl

/-! ### SST: a store to local memory and what is not memory -/

/-- A change of the state that no write to local memory sees and that touches nothing such a write touches. -/
structure BesideMemory (F : State → State) : Prop where
  wr : ∀ t sp off b, wrByte (F t) sp off b = F (wrByte t sp off b)
  rd : ∀ t sp off, rdByte (F t) sp off = rdByte t sp off
  stores : ∀ t, (F t).same.stores = t.same.stores
  put : ∀ t l, { F t with same := { (F t).same with stores := l } } = F { t with same := { t.same with stores := l } }
  upset : ∀ t, (F t).upset = t.upset
  clear : ∀ t l, { F t with upset := l } = F { t with upset := l }

theorem BesideMemory.wrBytes {F : State → State} (h : BesideMemory F) (sp : Nat) (bs : List Byte) (off : Nat) (t : State) :
    wrBytes (F t) sp off bs = F (wrBytes t sp off bs) := by
  induction bs generalizing off t with
  | nil => rfl
  | cons b bs ih => rw [Machine.wrBytes, h.wr, ih]; rfl

theorem forAll_comm {F : State → State} {α : Type} {f : α → State → State} (h : ∀ a t, f a (F t) = F (f a t)) (l : List α)
    (t : State) : forAll f l (F t) = F (forAll f l t) := by
  induction l generalizing t with
  | nil => rfl
  | cons a l ih =>
    show forAll f l (f a (F t)) = F (forAll f l (f a t))
    rw [h, ih]

theorem BesideMemory.localWrite {F : State → State} (h : BesideMemory F) (v off ord : Nat) (bs : List Byte) (t : State) :
    localWrite v off ord bs (F t) = F (localWrite v off ord bs t) := by
  have hbytes : rdBytes (F t) (spLocal v) off bs.length = rdBytes t (spLocal v) off bs.length :=
    rdBytes_congr _ fun _ _ => h.rd _ _ _
  have hstore : ∀ old, storeBytes (spLocal v) off ord old bs (F t) = F (storeBytes (spLocal v) off ord old bs t) := by
    intro old
    unfold storeBytes
    dsimp only
    rw [h.stores, h.wrBytes, forAll_comm (F := F)]
    · rw [← apply_ite F, h.stores, h.put]
    · intro x t
      split
      · rfl
      · exact h.wr _ _ _ _
  unfold Machine.localWrite goodParity
  rw [hbytes, hstore, h.upset, h.clear]

theorem besideMemory_setCore (core : Nat) (x : Core) : BesideMemory (fun t => t.setCore core x) where
  wr _ _ _ _ := rfl
  rd _ _ _ := rfl
  stores _ := rfl
  put _ _ := rfl
  upset _ := rfl
  clear _ _ := rfl

theorem besideMemory_noteAct (a : Act) (n : Nat) : BesideMemory (noteAct a n) where
  wr _ _ _ _ := rfl
  rd _ _ _ := rfl
  stores _ := rfl
  put _ _ := rfl
  upset _ := rfl
  clear _ _ := rfl

theorem exec_sst (hready : CurdReady core 0x61 w s) (hguard : CurdGuard core w s)
    (hexc : localExc (curdHeld core 0x61 w s) core (curdEntry core 0x61 w s) true (localAddr core w s) = none) :
    exec (.cSst core w) s = .next (localWrite (vatOf core) (localAddr core w s) (writeOrd core (s.core core).issued)
      (leBytes 8 ((s.core core).sreg w.rs2).toNat) (curdDone core 0x61 w (curdMoved core s) s)) := by
  have hmoved : ({ curdMoved core s with sb := [] } : Core) = curdMoved core s := core_sb_nil hready.1.2.2.1
  have hne : ({ curdMoved core s with sb := [] } : Core) ≠ Core.idle := fun h =>
    curdMoved_ne_idle hready.1.2.1 (hmoved.symm.trans h)
  have hstep := sst_step (core := core) (w := w) (s := s)
  rw [hexc] at hstep
  rw [exec_scalar rfl scalarOp_sst hready hguard (bound_of_ge (by decide)) (by intro f u h; exact nomatch h) hstep]
  refine congrArg Host.Outcome.next ?_
  rw [curdHeld, (besideMemory_setCore core _).localWrite]
  refine (settle_done_setCore (e := curdEntry core 0x61 w s) (x := { curdMoved core s with sb := [curdEntry core 0x61 w s] }) rfl
    hne).trans ?_
  refine .trans ?_ (((besideMemory_noteAct (.retired core (curdEntry core 0x61 w s)) 0).localWrite _ _ _ _ _).trans
    (congrArg (noteAct (.retired core (curdEntry core 0x61 w s)) 0)
      ((besideMemory_setCore core (curdMoved core s)).localWrite _ _ _ _ (curdBegun core s)))).symm
  exact congrArg (fun c => curdRetired core (curdEntry core 0x61 w s) (State.setCore _ core c)) hmoved

/-! ### NOP, BARRIER and END -/

/-- An instruction that does nothing and names no queue. -/
theorem issueWord_void (hready : CurdReady core op w s) (hop : scalarOp op)
    (hbound : bindingOk (s.core core) (curdEntry core op w s) = true)
    (hstep : ∀ t, scalarStep core (curdEntry core op w s) t = .done t) {i : Instr} (hi : curdInstr core op w = some i) :
    exec i s = .next (curdRetired core (if CurdGuard core w s then curdEntry core op w s else curdFresh core op w s)
      (curdIssued core s)) := by
  have hst : (s.core core).st = .running := hready.1.2.1
  have hsb : (s.core core).sb = [] := hready.1.2.2.1
  by_cases hguard : CurdGuard core w s
  · rw [if_pos hguard]
    exact exec_scalar_done (x := curdMoved core s) hi hop hready hguard hbound (moved_st hready) hsb (hstep _)
  · have hmoved : ({ curdMoved core s with sb := [] } : Core) = curdMoved core s := core_sb_nil hsb
    have hfalse : (s.core core).preg w.pr = (w.pn == 1) := by
      rw [CurdGuard, Bool.not_eq_true, bne_eq_false_iff_eq] at hguard
      exact hguard
    have hcore : (curdStarts core op w s).core core = { curdMoved core s with sb := [curdFresh core op w s] } :=
      core_setCore_self (ne_idle_of_sb rfl)
    have hne : { (curdStarts core op w s).core core with sb := [] } ≠ Core.idle := by
      rw [hcore]
      exact fun h => curdMoved_ne_idle hst (hmoved.symm.trans h)
    rw [if_neg hguard, exec_curdInstr hi, issue_of_issues hready.1, issueWord_of_ready hready hop.2.2]
    refine congrArg Host.Outcome.next ((if_pos hfalse).trans ?_)
    refine (retire_single (e := curdFresh core op w s) (by rw [hcore]) hne).trans ?_
    rw [curdFreed, curdStarts_eq, updCore_setCore _ (ne_idle_of_sb rfl)]
    exact congrArg (fun c => curdRetired core (curdFresh core op w s) (State.setCore _ core c)) hmoved

theorem scalarStep_cyc (h : e.op = 0x6A) : scalarStep core e s =
    .done (writeS core e.w.rd (BitVec.ofNat 64 (s.cyc - (s.core core).startAt)) s) := by
  unfold scalarStep
  rw [h]
  rfl

theorem scalarStep_end (h : e.op = 0x46) : scalarStep core e s = .done (s.updCore core (fun c => { c with st := .ending })) := by
  unfold scalarStep
  rw [h]
  rfl

theorem scalarStep_void (h : e.op = 0x00 ∨ e.op = 0x44) : scalarStep core e s = .done s := by
  unfold scalarStep
  rcases h with h | h <;> rw [h] <;> rfl

theorem bound_void (h : op = 0x00 ∨ op = 0x44 ∨ op = 0x46) : bindingOk (s.core core) (curdEntry core op w s) = true := by
  refine bindingOk_of_uses (e := curdEntry core op w s) ?_ ?_
  · show op ≠ 0x45 ∧ op ≠ 0x40
    omega
  · show (usesOf op w).sa = 0 ∧ (usesOf op w).sb = 0 ∧ (usesOf op w).sc = 0 ∧ (usesOf op w).dd = 0 ∧ (usesOf op w).de = 0
    rcases h with h | h | h <;> (rw [h]; exact ⟨rfl, rfl, rfl, rfl, rfl⟩)

end Settle

/-- Settles O37: a scalar instruction makes one step, which ends it or takes an exception. -/
theorem curdScalar : Obligations.CurdScalar := by
  refine ⟨?alu, ?compare, ?sld, ?sst, ?scyc, ?nop, ?barrier, ?end_⟩
  case alu => exact fun s core op w i hi halu hcompare hready hguard => exec_alu hi halu hcompare hready hguard
  case compare => exact fun s core op w i hi hcompare hready hguard => exec_compare hi hcompare hready hguard
  case sld =>
    intro s core w hready hguard
    refine ⟨fun halign hinside hdeclared => ⟨fun hgood => ?_, fun hbad => ?_⟩, fun halign hinside hmode hdeclared => ?_, fun hout => ?_⟩
    · exact exec_sld hready hguard (localExc_none halign hinside hdeclared) hgood
    · exact exec_sld_upset hready hguard (localExc_none halign hinside hdeclared) hbad
    · exact exec_sld_stop hready hguard (localExc_region halign hinside hmode hdeclared)
    · exact exec_sld_stop hready hguard (localExc_range hout)
  case sst =>
    intro s core w hready hguard
    refine ⟨fun halign hinside hdeclared => ?_, fun halign hinside hmode hdeclared => ?_, fun hout => ?_⟩
    · exact exec_sst hready hguard (localExc_none halign hinside hdeclared)
    · exact exec_sst_stop hready hguard (localExc_region halign hinside hmode hdeclared)
    · exact exec_sst_stop hready hguard (localExc_range hout)
  case scyc =>
    intro s core w hready hguard
    refine exec_scalar_done rfl (scalarOp_of_ge (by decide) (by decide)) hready hguard (bound_of_ge (by decide)) (moved_st hready)
      hready.1.2.2.1 ?_
    rw [scalarStep_cyc (e := curdEntry core 0x6A w s) rfl, curdHeld_core]
    exact congrArg StepRes.done (writeS_curdHeld _ _)
  case nop =>
    exact fun s core w hready => issueWord_void hready ⟨rfl, by decide, rfl⟩ (bound_void (.inl rfl))
      (fun t => scalarStep_void (e := curdEntry core 0x00 w s) (.inl rfl)) rfl
  case barrier =>
    exact fun s core w hready => issueWord_void hready ⟨rfl, by decide, rfl⟩ (bound_void (.inr (.inl rfl)))
      (fun t => scalarStep_void (e := curdEntry core 0x44 w s) (.inr rfl)) rfl
  case end_ =>
    intro s core w hready hguard
    refine exec_scalar_done rfl ⟨rfl, by decide, rfl⟩ hready hguard (bound_void (.inr (.inr rfl))) (x := { curdMoved core s with st := .ending })
      (fun h => nomatch h) hready.1.2.2.1 ?_
    rw [scalarStep_end (e := curdEntry core 0x46 w s) rfl, curdHeld, updCore_setCore _ (ne_idle_of_sb rfl)]

end Sys2Proof.Machine
end

/-!
PROOFS. What a report, a wake and a write to memory leave alone: the Curd cores, the library servers and the buffer waiters.
-/
section
namespace Sys2Proof.Machine

/-- The Curd cores, the library servers and the buffer waiters of a state. -/
def unitsOf (s : State) : Tab Core × Tab Server × List Waiter := (s.cores, s.servers, s.waiters)

section Units
variable {s : State}

@[simp] theorem unitsOf_wr (a : Nat) (v : U64) : unitsOf (s.wr a v) = unitsOf s := rfl
@[simp] theorem unitsOf_setFld (b : Nat) (f : Fd) (x : Nat) : unitsOf (s.setFld b f x) = unitsOf s := rfl
@[simp] theorem unitsOf_addFld (b : Nat) (f : Fd) (n : Nat) : unitsOf (s.addFld b f n) = unitsOf s := rfl
@[simp] theorem unitsOf_addWrap (b : Nat) (f : Fd) (n : Nat) : unitsOf (s.addWrap b f n) = unitsOf s := rfl
@[simp] theorem unitsOf_raiseEv (p k : Nat) : unitsOf (raiseEv p k s) = unitsOf s := rfl
@[simp] theorem unitsOf_errCount (p off c : Nat) : unitsOf (errCount p off c s) = unitsOf s := rfl
@[simp] theorem unitsOf_noteAct (a : Act) (n : Nat) : unitsOf (noteAct a n s) = unitsOf s := rfl
@[simp] theorem unitsOf_setPu (u : Nat) (x : PwrUnit) : unitsOf (s.setPu u x) = unitsOf s := rfl
@[simp] theorem unitsOf_askWake (u : Nat) : unitsOf (askWake u s) = unitsOf s := rfl
@[simp] theorem unitsOf_draw : unitsOf s.draw.2 = unitsOf s := rfl

theorem unitsOf_forAll {α : Type} {f : α → State → State} (h : ∀ x t, unitsOf (f x t) = unitsOf t) (l : List α) (s : State) :
    unitsOf (forAll f l s) = unitsOf s := by
  induction l generalizing s with
  | nil => rfl
  | cons x l ih => exact (ih (f x s)).trans (h x s)

@[simp] theorem unitsOf_wrBytes (sp off : Nat) (bs : List Byte) : unitsOf (wrBytes s sp off bs) = unitsOf s := by
  induction bs generalizing off s with
  | nil => rfl
  | cons b bs ih => exact ih (s := wrByte s sp off b) (off + 1)

@[simp] theorem unitsOf_storeBytes (sp off req : Nat) (old bs : List Byte) :
    unitsOf (storeBytes sp off req old bs s) = unitsOf s := by
  unfold storeBytes
  dsimp only
  refine Eq.trans (b := unitsOf (if _ then _ else _)) rfl ?_
  split
  · exact unitsOf_wrBytes _ _ _
  · refine unitsOf_forAll (fun x t => ?_) _ s
    split
    · rfl
    · rfl

@[simp] theorem unitsOf_cancelDark (u : Nat) : unitsOf (cancelDark u s) = unitsOf s := by
  unfold cancelDark
  split
  · exact unitsOf_forAll (f := fun (x : Nat × PwrUnit) t => t.setPu x.1 x.2) (fun _ _ => rfl) _ s
  · rfl

@[simp] theorem unitsOf_startWake (u : Nat) : unitsOf (startWake u s) = unitsOf s := by
  unfold startWake
  split <;> rfl

@[simp] theorem unitsOf_wakeUnit (u : Nat) : unitsOf (wakeUnit u s) = unitsOf s := by
  unfold wakeUnit
  split
  · simp
  · simp
  · split <;> simp
  · rfl

@[simp] theorem unitsOf_queueBursts (c : HbmClass) (u n : Nat) : unitsOf (queueBursts c u n s) = unitsOf s :=
  unitsOf_wakeUnit u

@[simp] theorem unitsOf_hbmWrite (c : HbmClass) (q off : Nat) (bs : List Byte) (req : Nat) :
    unitsOf (hbmWrite c q off bs req s) = unitsOf s := by
  refine unitsOf_forAll (fun x t => ?_) _ s
  unfold writeChunk
  dsimp only
  split <;> simp

/-! ### Reports (R381) -/

@[simp] theorem unitsOf_tallyWrite (e : TEntry) : unitsOf (tallyWrite e s) = unitsOf s := by
  unfold tallyWrite
  dsimp only
  split <;> simp

@[simp] theorem unitsOf_tallyDrop (e : TEntry) : unitsOf (tallyDrop e s) = unitsOf s := rfl
@[simp] theorem unitsOf_stormDrop : unitsOf (stormDrop s) = unitsOf s := rfl

@[simp] theorem unitsOf_tallyTake (r : Report) (now : Nat) : unitsOf (tallyTake r now s) = unitsOf s := by
  unfold tallyTake
  dsimp only
  split <;> rfl

theorem unitsOf_reportWith {close : TEntry → State → State} (hclose : ∀ e t, unitsOf (close e t) = unitsOf t)
    (subj cls rep det : Nat) : unitsOf (reportWith close subj cls rep det s) = unitsOf s := by
  have hdue : ∀ (o : Option TEntry) (t : State), unitsOf (match o with | some e => close e t | none => t) = unitsOf t := by
    rintro (_ | e) t
    · rfl
    · exact hclose e t
  have hstorm : ∀ (o : Option TEntry) (now : Nat) (t : State),
      unitsOf (match o with | some e => if e.closeAt < now then close e t else t | none => t) = unitsOf t := by
    rintro (_ | e) now t
    · rfl
    · dsimp only
      split
      · exact hclose e t
      · rfl
  unfold reportWith
  dsimp only
  split
  · simp
  · rw [unitsOf_tallyTake]
    exact (hstorm _ _ _).trans ((hdue _ _).trans (by simp))

theorem unitsOf_closeWith {ptr : State → State} (hptr : ∀ t, unitsOf (ptr t) = unitsOf t) (e : TEntry) :
    unitsOf (closeWith ptr e s) = unitsOf s := by
  unfold closeWith
  dsimp only
  split
  · simp
  · split
    · rw [hptr]
      split <;> simp
    · split <;> simp

theorem unitsOf_closeDeep (n : Nat) : ∀ (e : TEntry) (s : State), unitsOf (closeDeep n e s) = unitsOf s := by
  induction n with
  | zero => exact fun e s => unitsOf_closeWith (fun _ => rfl) e
  | succ n ih => exact fun e s => unitsOf_closeWith (fun t => (unitsOf_reportWith (s := t.draw.2) ih _ _ _ _).trans unitsOf_draw) e

@[simp] theorem unitsOf_report (subj cls rep det : Nat) : unitsOf (report subj cls rep det s) = unitsOf s :=
  unitsOf_reportWith (unitsOf_closeDeep 4) subj cls rep det

@[simp] theorem unitsOf_reportOwn (cls rep det : Nat) : unitsOf (reportOwn cls rep det s) = unitsOf s := unitsOf_report _ _ _ _

@[simp] theorem unitsOf_reportOpen (subj cls rep : Nat) : unitsOf (reportOpen subj cls rep s) = unitsOf s :=
  (unitsOf_report (s := s.draw.2) _ _ _ _).trans unitsOf_draw

@[simp] theorem unitsOf_reportOwnOpen (cls rep : Nat) : unitsOf (reportOwnOpen cls rep s) = unitsOf s := unitsOf_reportOpen _ _ _

end Units

end Sys2Proof.Machine
end

/-!
PROOFS. A program's life (06_curd_execution.md): O35.
-/
section
namespace Sys2Proof.Machine

section Vat
variable {s w : State} {req vat core : Nat}

theorem onVat_of_present {v off : Nat} (f : State → State) (hpresent : vatPresent s.fuses v = true)
    (hdark : isDark s (puVat v) = false) : onVat v off f s = f s :=
  (if_neg (by rw [hpresent]; decide)).trans (if_neg (by rw [hdark]; decide))

theorem fieldOf_ofNat_low {m n k : Nat} (hm : m < 2 ^ k) (hk : k ≤ 64) (hn : n = m) : fieldOf (BitVec.ofNat 64 n) 0 k = m := by
  have hlt : m < 2 ^ 64 := lt_of_lt_of_le hm (Nat.pow_le_pow_right (by decide) hk)
  rw [hn, fieldOf, BitVec.toNat_ofNat, Nat.mod_eq_of_lt hlt, Nat.shiftRight_zero, Nat.mod_eq_of_lt hm]

/-- The request enters the Vat's queue while that has room (R217). -/
theorem startRequest_room {d src : Nat} {bySync : Bool} (hpresent : vatPresent s.fuses vat = true)
    (hdark : isDark s (puVat vat) = false) (hon : isEnabled s (pgVat vat) = true) (hdrain : isDrain s (pgVat vat) = false)
    (hroom : (s.vat vat).startQ.length < 64) :
    startRequest vat d src bySync s = (true, noteStart vat (wakeUnit (puVat vat)
      (s.setVat vat { s.vat vat with startQ := (s.vat vat).startQ ++ [⟨d, bySync⟩] }))) := by
  unfold startRequest
  rw [hpresent, hdark, hon, hdrain]
  exact if_pos hroom

theorem startRequest_full {d src : Nat} (hpresent : vatPresent s.fuses vat = true) (hdark : isDark s (puVat vat) = false)
    (hon : isEnabled s (pgVat vat) = true) (hdrain : isDrain s (pgVat vat) = false) (hfull : 64 ≤ (s.vat vat).startQ.length) :
    startRequest vat d src false s = (true, s.addFld (pgVat vat) vatCnt_refused 1) := by
  unfold startRequest
  rw [hpresent, hdark, hon, hdrain]
  exact if_neg (Nat.not_lt.mpr hfull)

theorem exec_vatStart {d : Nat} (hopen : pathOpen s req = true) (hpresent : vatPresent s.fuses vat = true)
    (hdark : isDark s (puVat vat) = false) (hd : d < 2 ^ 24) :
    exec (.vatStart req vat d) s = .next (startRequest vat d req false
      (plainWrite req (locVat vat 0x110) (BitVec.ofNat 64 d) (fun _ => false) (woTurn req (pgVat vat + 0x110) s))).2 := by
  show Host.Outcome.next (onPath req _ s) = _
  rw [onPath_of_open _ _ _ hopen, if_pos hpresent, vatStartWrite, onVat_of_present _ hpresent hdark,
    fieldOf_ofNat_low hd (by decide) rfl]

theorem exec_coreStop {m : Nat} (hopen : pathOpen s req = true) (hpresent : vatPresent s.fuses vat = true)
    (hdark : isDark s (puVat vat) = false) (hm : m < 256) :
    exec (.coreStop req vat m) s = .next (coreCtrl vat m 0 (plainWrite req (locVat vat 0x120) (BitVec.ofNat 64 m)
      (fun _ => false) (woTurn req (pgVat vat + 0x120) s))) := by
  have hstop : fieldOf (BitVec.ofNat 64 m) 0 8 = m := fieldOf_ofNat_low hm (by decide) rfl
  have hclear : fieldOf (BitVec.ofNat 64 m) 8 8 = 0 := by
    rw [fieldOf, BitVec.toNat_ofNat, Nat.mod_eq_of_lt (by omega), Nat.shiftRight_eq_div_pow]
    omega
  show Host.Outcome.next (onPath req _ s) = _
  rw [onPath_of_open _ _ _ hopen, vatCtrlWrite, onVat_of_present _ hpresent hdark, Nat.mod_eq_of_lt hm, hstop, hclear]

theorem exec_coreClear {m : Nat} (hopen : pathOpen s req = true) (hpresent : vatPresent s.fuses vat = true)
    (hdark : isDark s (puVat vat) = false) (hm : m < 256) :
    exec (.coreClear req vat m) s = .next (coreCtrl vat 0 m (plainWrite req (locVat vat 0x120) (BitVec.ofNat 64 (m * 256))
      (fun _ => false) (woTurn req (pgVat vat + 0x120) s))) := by
  have hstop : fieldOf (BitVec.ofNat 64 (m * 256)) 0 8 = 0 := by
    rw [fieldOf, BitVec.toNat_ofNat, Nat.mod_eq_of_lt (show m * 256 < 2 ^ 64 by omega), Nat.shiftRight_zero]
    omega
  have hclear : fieldOf (BitVec.ofNat 64 (m * 256)) 8 8 = m := by
    rw [fieldOf, BitVec.toNat_ofNat, Nat.mod_eq_of_lt (show m * 256 < 2 ^ 64 by omega), Nat.shiftRight_eq_div_pow]
    omega
  show Host.Outcome.next (onPath req _ s) = _
  rw [onPath_of_open _ _ _ hopen, vatCtrlWrite, onVat_of_present _ hpresent hdark, Nat.mod_eq_of_lt hm, hstop, hclear]

/-! ### VAT_CORE_CTRL with one bit (R218, R221) -/

theorem forAll_bits_zero (f : Nat → State → State) (t : State) :
    forAll (fun j s => if 0 / 2 ^ j % 2 = 1 then f j s else s) (List.range 8) t = t := by
  refine forAll_eq_self (fun j _ u => if_neg ?_) t
  rw [Nat.zero_div]
  decide

theorem forAll_bits_pow (f : Nat → State → State) {k : Nat} (hk : k < 8) (t : State) :
    forAll (fun j s => if 2 ^ k / 2 ^ j % 2 = 1 then f j s else s) (List.range 8) t = f k t := by
  interval_cases k <;> rfl

theorem core_plainWrite (x : Loc) (v : U64) (held : FieldRow → Bool) (c : Nat) : (plainWrite req x v held s).core c = s.core c := by
  have hcores : (plainWrite req x v held s).cores = s.cores := plainWrite_frame State.cores (fun _ _ _ => rfl) (fun _ _ => rfl) x held
  rw [State.core, hcores]
  rfl

theorem woTurn_of_first {addr : Nat} (h : lostRace s req addr = false) : woTurn req addr s = s := orNext_of_false h

theorem stopCore_running (hst : (s.core core).st = .running) :
    stopCore core s = curdExc core excStopped (oldestAt (s.core core)).1 (oldestAt (s.core core)).2 s := by
  refine if_neg ?_
  rw [coreActive, hst]
  rintro (h | ⟨h, -⟩)
  · exact nomatch h
  · exact nomatch h

theorem oldestAt_eq (c : Core) : (oldestAt c).1 = (match c.sb with | e :: _ => e.pc | [] => c.pc) ∧
    (oldestAt c).2 = (match c.sb with | e :: _ => e.steps | [] => 0) := by
  unfold oldestAt
  cases c.sb <;> exact ⟨rfl, rfl⟩

theorem clearCore_faulted (hst : (s.core core).st = .faulted) (hitems : (s.core core).items = []) :
    clearCore core s = coreIdle core s := by
  unfold clearCore
  dsimp only
  rw [if_pos hst, if_pos hitems]

/-! ### CACHE_INVALIDATE and CACHE_FILL_DONE (R211, R213, R345) -/

theorem exec_cacheInvalidate {v : U64} (hopen : pathOpen s req = true) (hpresent : vatPresent s.fuses vat = true)
    (hdark : isDark s (puVat vat) = false) :
    exec (.cacheInvalidate req vat v) s = .next (
      if coresIdle s vat then
        let w := plainWrite req (locVat vat 0x100) v (fun _ => false) s
        if fieldOf v 3 1 = 1 then dropCaches vat w
        else if w.fld (pgVat vat) vatCfg_pcSize = s.fld (pgVat vat) vatCfg_pcSize then w
        else w.setVat vat { w.vat vat with pcache := [] }
      else
        plainWrite req (locVat vat 0x100) (withField v vatCfg_pcSize.l vatCfg_pcSize.w (s.fld (pgVat vat) vatCfg_pcSize))
          (fun _ => false) (discardWrite (locVat vat 0x100) s)) := by
  show Host.Outcome.next (onPath req _ s) = _
  rw [onPath_of_open _ _ _ hopen, vatCfgWrite, onVat_of_present _ hpresent hdark]

/-! ### An exception of a core without queues and server (R220) -/

theorem tget_of_tset_default {α : Type} [DecidableEq α] {d : α} {tab : Tab α} {k : Nat} (h : tset d tab k d = tab) :
    tget d tab k = d := by
  induction tab with
  | nil => rfl
  | cons y r ih =>
    obtain ⟨a, v⟩ := y
    unfold tset at h
    unfold tget
    split at h
    · next hlt => rw [if_neg (Nat.ne_of_lt hlt), if_pos hlt]
    · split at h
      · exact absurd (congrArg List.length h) (by simp)
      · next hlt hne => rw [if_neg hne, if_neg hlt, ih (List.cons.inj h).2]

/-- A core without queues and without a library server has nothing to release. -/
theorem releaseQueues_of_nil {c : Core} {t : State} (hcores : t.cores = (s.setCore core c).cores) (hc : c ≠ Core.idle)
    (hqueues : c.queues = []) (hserver : tset Server.none t.servers core Server.none = t.servers)
    (hwaiters : t.waiters.all (fun w => w.purpose != .pgather core) = true) : releaseQueues core t = t := by
  have hcore : t.core core = c := by
    rw [State.core, hcores]
    exact core_setCore_self hc
  have hsame : t.updCore core (fun c => { c with queues := [] }) = t := by
    have hempty : ({ c with queues := [] } : Core) = c := by
      cases c
      cases hqueues
      rfl
    have htable : tset Core.idle t.cores core c = t.cores := by
      rw [hcores]
      exact tset_tset _ _ _ _ _ hc
    show { t with cores := tset Core.idle t.cores core { t.core core with queues := [] } } = t
    rw [hcore, hempty, htable]
  have hnone : t.server core = Server.none := tget_of_tset_default hserver
  have hfilter : t.waiters.filter (fun w => w.purpose != .pgather core) = t.waiters :=
    List.filter_eq_self.mpr fun w hw => List.all_eq_true.mp hwaiters w hw
  unfold releaseQueues
  rw [hcore, hqueues, hsame]
  show dropServer core t = t
  unfold dropServer
  rw [hnone, hfilter]
  show { t with servers := tset Server.none t.servers core Server.none } = t
  rw [hserver]

/-- What an exception leaves of a core that holds no queue and no library server. -/
theorem curdExc_of_nil {code pc vec : Nat} (hqueues : (s.core core).queues = []) (hserver : s.setServer core Server.none = s)
    (hwaiters : s.waiters.all (fun w => w.purpose != .pgather core) = true) :
    curdExc core code pc vec s =
      reportOwnOpen clsCurdExc (repCore core) (raiseEv (pgVat (vatOf core)) 1
        ((((s.setCore core { s.core core with st := .faulted, sb := [], fetching := false, budgetAt := none }).setFld
          (pgVat (vatOf core) + 8 * (core % 8)) vatExc_code code).setFld (pgVat (vatOf core) + 8 * (core % 8)) vatExc_pc pc).setFld
          (pgVat (vatOf core) + 8 * (core % 8)) vatExc_vec vec)) := by
  have hne : ({ s.core core with st := .faulted, sb := [], fetching := false, budgetAt := none } : Core) ≠ Core.idle :=
    fun h => nomatch congrArg Core.st h
  unfold curdExc
  dsimp only
  generalize hX : reportOwnOpen clsCurdExc (repCore core) (raiseEv (pgVat (vatOf core)) 1 _) = X
  have hunits : unitsOf X = unitsOf (s.setCore core
      { s.core core with st := .faulted, sb := [], fetching := false, budgetAt := none }) := by
    rw [← hX]
    simp
    rfl
  obtain ⟨hcores, hrest⟩ := Prod.mk.inj hunits
  obtain ⟨hservers, hwaits⟩ := Prod.mk.inj hrest
  have hX' : releaseQueues core X = X := by
    refine releaseQueues_of_nil hcores hne hqueues ?_ ?_
    · rw [hservers]
      exact congrArg State.servers hserver
    · rw [hwaits]
      exact hwaiters
  rw [hX', ← hX]
  rfl

/-! ### PROGRAM_START (R216, R217) -/

theorem startCore_unbound {d : StartDesc} {bySync : Bool} (hbind : bindExc s core d = none) (hcount : d.qcount = 0) :
    startCore core d bySync s = (s.wr (pgVat (vatOf core) + 0x1C0 + 8 * (core % 8)) 0).setCore core { Core.idle with
      mask := d.mask, st := .starting, cmode := d.cmode, pc := d.entry, crg := crgBase d core, crgLog2 := d.crgLog2, startAt := s.cyc,
      s := tset 0 (tset 0 (tset 0 [] 1 (BitVec.ofNat 64 core)) 2 (BitVec.ofNat 64 d.w1)) 3 (BitVec.ofNat 64 d.w2),
      doneSync := d.doneSync, doneEn := d.doneEn, fetching := true, bySync := bySync,
      budgetAt := if d.budget = 0 then none else some (s.cyc + d.budget * 1024) } := by
  unfold startCore
  dsimp only
  rw [hbind, hcount]
  refine Eq.trans (updCore_setCore (core := core) (x := _) (fun c => c) ?_) rfl
  exact ne_of_apply_ne Core.st (show CoreState.starting ≠ CoreState.idle by decide)

end Vat

/-- Settles O35: each command of a program's life takes the branch that its premises name; an exception of a core that holds no
queue releases nothing. -/
theorem programLife : Obligations.ProgramLife := by
  refine ⟨?vatStart, ?start, ?startCore, ?fill, ?invalidate, ?end_, ?budget, ?ctrl, ?stop, ?clear, ?exc⟩
  case vatStart =>
    intro s w req vat d hopen hpresent hdark hd hw hpresent' hdark' hon hdrain
    rw [exec_vatStart hopen hpresent hdark hd, ← hw]
    refine ⟨fun hroom => ?_, fun hfull => ?_⟩
    · rw [startRequest_room hpresent' hdark' hon hdrain hroom]
    · rw [startRequest_full hpresent' hdark' hon hdrain hfull]
  case start =>
    intro s vat r rest hq hgold hdesc hidle
    have hexec : exec (.programStart vat) s = .next (match hbmAsk s (vatQuad vat) (storeAt s vat r.desc) 32 with
        | .ready => startHead vat r rest s
        | .asleep => hbmWake (vatQuad vat) (storeAt s vat r.desc) 32 s
        | .refused => startLost vat rest s
        | .beyond => startLost vat rest (refusePage (vatQuad vat) (repCore (8 * vat)) s)) := by
      show Host.Outcome.next (match (s.vat vat).startQ with | [] => s | r :: rest => _) = _
      rw [hq]
      exact congrArg Host.Outcome.next ((if_neg (by rw [hgold]; decide)).trans (if_neg (Nat.not_le.mpr hdesc)))
    dsimp only
    rw [hexec]
    refine ⟨fun h => ?_, fun h => by rw [h], fun h => by rw [h], fun h => by rw [h]⟩
    rw [h]
    exact congrArg Host.Outcome.next (if_pos hidle)
  case startCore => exact fun s core d bySync hbind hcount => startCore_unbound hbind hcount
  case fill =>
    intro s core par
    dsimp only
    refine ⟨fun hfetch hbeyond => ?_, fun hfetch hinside => ?_, fun hfetch hst hpar hhit => ?_⟩
    · exact congrArg Host.Outcome.next ((if_neg (by rw [hfetch]; decide)).trans (if_pos hbeyond))
    · have hawaits : execCacheFillDone core par s = .next (if par ≠ .good then fillFromStore core _ (dropLine core _ s)
          else if (cachedLine s core ((s.core core).pc / 8)).isSome then fetchEnd core s else fillLine core ((s.core core).pc / 8) s) :=
        congrArg Host.Outcome.next ((if_neg (by rw [hfetch]; decide)).trans (if_neg (Nat.not_le.mpr hinside)))
      refine ⟨fun hpar hhit => hawaits.trans ?_, fun hpar hmiss hin hgood => hawaits.trans ?_,
        fun hpar hmiss hin hbad => hawaits.trans ?_, fun hpar hmiss hout => hawaits.trans ?_, fun hpar => hawaits.trans ?_⟩
      · rw [if_neg (fun h => h hpar), if_pos hhit]
      · rw [if_neg (fun h => h hpar), hmiss, if_neg (by decide), fillLine, if_neg (by rw [hin]; decide), if_neg (by rw [hgood]; decide)]
      · rw [if_neg (fun h => h hpar), hmiss, if_neg (by decide)]
        exact congrArg Host.Outcome.next ((if_neg (by rw [hin]; decide)).trans (if_pos hbad))
      · rw [if_neg (fun h => h hpar), hmiss, if_neg (by decide)]
        exact congrArg Host.Outcome.next (if_pos hout)
      · rw [if_pos hpar]
        rfl
    · exact congrArg Host.Outcome.next ((if_pos hfetch).trans (if_pos ⟨hpar, hhit, hst⟩))
  case invalidate =>
    intro s req vat v hopen hpresent hdark
    dsimp only
    rw [exec_cacheInvalidate hopen hpresent hdark]
    refine ⟨fun hidle hinval => ?_, fun hidle hinval hsize => ?_, fun hidle hinval hsize => ?_, fun hbusy => ?_⟩
    · rw [if_pos hidle, if_pos hinval]
    · rw [if_pos hidle, if_neg (by rw [hinval]; decide), if_pos hsize]
    · rw [if_pos hidle, if_neg (by rw [hinval]; decide), if_neg hsize]
    · rw [if_neg (by rw [hbusy]; decide)]
  case end_ =>
    intro s core hst hsb hitems
    exact congrArg Host.Outcome.next (if_pos ⟨hst, hsb, hitems⟩)
  case budget =>
    intro s core t hat hdue hactive
    obtain ⟨hpc, hvec⟩ := oldestAt_eq (s.core core)
    show Host.Outcome.next (match (s.core core).budgetAt with | some t => _ | none => s) = _
    rw [hat]
    refine (congrArg Host.Outcome.next (if_pos ⟨hdue, hactive⟩)).trans ?_
    rw [hpc, hvec] <;> rfl
  case ctrl =>
    exact fun s req vat m hopen hpresent hdark hm =>
      ⟨exec_coreStop hopen hpresent hdark hm, exec_coreClear hopen hpresent hdark hm⟩
  case stop =>
    intro s req vat k hopen hpresent hdark hk hst hfirst
    obtain ⟨hpc, hvec⟩ := oldestAt_eq (s.core (vat * 8 + k))
    dsimp only
    rw [exec_coreStop hopen hpresent hdark (Nat.pow_lt_pow_right (by decide) hk), woTurn_of_first hfirst]
    generalize hw : plainWrite req (locVat vat 0x120) (BitVec.ofNat 64 (2 ^ k)) (fun _ => false) s = w
    have hcore : w.core (vat * 8 + k) = s.core (vat * 8 + k) := by rw [← hw, core_plainWrite]
    unfold coreCtrl
    dsimp only
    rw [forAll_bits_pow _ hk, forAll_bits_zero, stopCore_running (by rw [hcore]; exact hst), hcore, hpc, hvec] <;> rfl
  case clear =>
    intro s req vat k hopen hpresent hdark hk hst hfirst hitems
    dsimp only
    rw [exec_coreClear hopen hpresent hdark (Nat.pow_lt_pow_right (by decide) hk), woTurn_of_first hfirst]
    generalize hw : plainWrite req (locVat vat 0x120) (BitVec.ofNat 64 (2 ^ k * 256)) (fun _ => false) s = w
    have hcore : w.core (vat * 8 + k) = s.core (vat * 8 + k) := by rw [← hw, core_plainWrite]
    have hvat : vatOf (vat * 8 + k) = vat := by unfold vatOf; omega
    have hlane : (vat * 8 + k) % 8 = k := by omega
    unfold coreCtrl
    dsimp only
    rw [forAll_bits_zero, forAll_bits_pow _ hk, clearCore_faulted (by rw [hcore]; exact hst) (by rw [hcore]; exact hitems), coreIdle,
      hvat, hlane]
  case exc => exact fun s core code pc vec hqueues hserver hwaiters => curdExc_of_nil hqueues hserver hwaiters

end Sys2Proof.Machine
end

/-!
PROOFS. What the shared operations of the switch leave of the Curd cores: a push or a pop of a core reaches the pools, the sync
objects, the slots and the links, and none of them touches a core.
-/
section
namespace Sys2Proof.Machine

/-- The Curd cores of a state. -/
def coresOf (s : State) : Tab Core := s.cores

section Cores
variable {s : State}

theorem cores_of_unitsOf {t u : State} (h : unitsOf t = unitsOf u) : coresOf t = coresOf u := congrArg Prod.fst h

theorem cores_forAll {α : Type} {f : α → State → State} (h : ∀ x t, coresOf (f x t) = coresOf t) (l : List α)
    (s : State) : coresOf (forAll f l s) = coresOf s := by
  induction l generalizing s with
  | nil => rfl
  | cons x l ih => exact (ih (f x s)).trans (h x s)

/-! ### The report layer and memory -/

@[simp] theorem cores_setPort (p : Nat) (x : Port) : coresOf (s.setPort p x) = coresOf s := rfl
@[simp] theorem cores_setVat (v : Nat) (x : Vat) : coresOf (s.setVat v x) = coresOf s := rfl
@[simp] theorem cores_setBuf (b : Nat) (x : Buf) : coresOf (s.setBuf b x) = coresOf s := rfl
@[simp] theorem cores_setPu (u : Nat) (x : PwrUnit) : coresOf (s.setPu u x) = coresOf s := rfl
@[simp] theorem cores_setFld (b : Nat) (f : Fd) (x : Nat) : coresOf (s.setFld b f x) = coresOf s := rfl
@[simp] theorem cores_addFld (b : Nat) (f : Fd) (n : Nat) : coresOf (s.addFld b f n) = coresOf s := rfl
@[simp] theorem cores_raiseEv (p k : Nat) : coresOf (raiseEv p k s) = coresOf s := rfl
@[simp] theorem cores_errCount (p off c : Nat) : coresOf (errCount p off c s) = coresOf s := rfl
@[simp] theorem cores_withCycle (n : Nat) (x : SameCycle) : coresOf { s with cyc := n, same := x } = coresOf s := rfl
@[simp] theorem cores_withSame (x : SameCycle) : coresOf { s with same := x } = coresOf s := rfl
@[simp] theorem cores_withTwin (x : Twin) : coresOf { s with twin := x } = coresOf s := rfl
@[simp] theorem cores_withFires (x : List Fire) : coresOf { s with fires := x } = coresOf s := rfl
@[simp] theorem cores_withWaiting (x : List Waiting) : coresOf { s with waiting := x } = coresOf s := rfl
@[simp] theorem cores_withWaiters (x : List Waiter) : coresOf { s with waiters := x } = coresOf s := rfl
@[simp] theorem cores_addWrap (b : Nat) (f : Fd) (n : Nat) : coresOf (s.addWrap b f n) = coresOf s := rfl
@[simp] theorem cores_noteAct (a : Act) (n : Nat) : coresOf (noteAct a n s) = coresOf s := rfl
@[simp] theorem cores_wakeUnit (u : Nat) : coresOf (wakeUnit u s) = coresOf s := cores_of_unitsOf (unitsOf_wakeUnit u)
@[simp] theorem cores_queueBursts (c : HbmClass) (u n : Nat) : coresOf (queueBursts c u n s) = coresOf s :=
  cores_of_unitsOf (unitsOf_queueBursts c u n)
@[simp] theorem cores_storeBytes (sp off req : Nat) (old bs : List Byte) : coresOf (storeBytes sp off req old bs s) = coresOf s :=
  cores_of_unitsOf (unitsOf_storeBytes sp off req old bs)
@[simp] theorem cores_hbmWrite (c : HbmClass) (q off : Nat) (bs : List Byte) (req : Nat) :
    coresOf (hbmWrite c q off bs req s) = coresOf s := cores_of_unitsOf (unitsOf_hbmWrite c q off bs req)
@[simp] theorem cores_reportOwn (cls rep det : Nat) : coresOf (reportOwn cls rep det s) = coresOf s :=
  cores_of_unitsOf (unitsOf_reportOwn cls rep det)
@[simp] theorem cores_reportOpen (subj cls rep : Nat) : coresOf (reportOpen subj cls rep s) = coresOf s :=
  cores_of_unitsOf (unitsOf_reportOpen subj cls rep)
@[simp] theorem cores_reportOwnOpen (cls rep : Nat) : coresOf (reportOwnOpen cls rep s) = coresOf s :=
  cores_of_unitsOf (unitsOf_reportOwnOpen cls rep)

@[simp] theorem cores_updPort (p : Nat) (f : Port → Port) : coresOf (s.updPort p f) = coresOf s := rfl
@[simp] theorem cores_updGrp (g : Nat) (f : Grp → Grp) : coresOf (s.updGrp g f) = coresOf s := rfl
@[simp] theorem cores_dropSlot (k : Key) : coresOf (s.dropSlot k) = coresOf s := rfl
@[simp] theorem cores_goodParity (q off n : Nat) : coresOf (goodParity q off n s) = coresOf s := rfl
@[simp] theorem cores_touchUnit (u : Nat) : coresOf (touchUnit u s) = coresOf s := rfl
@[simp] theorem cores_addLines (st pc n : Nat) (lc : Bool) : coresOf (addLines st pc n lc s) = coresOf s := rfl

@[simp] theorem cores_localWrite (v off ord : Nat) (bs : List Byte) : coresOf (localWrite v off ord bs s) = coresOf s := by
  simp [localWrite]

@[simp] theorem cores_serveBurst (u : Nat) : coresOf (serveBurst u s) = coresOf s := by
  unfold serveBurst
  dsimp only
  split
  · split <;> rfl
  · rfl

@[simp] theorem cores_serveHbm : coresOf (serveHbm s) = coresOf s := by
  unfold serveHbm
  split
  · exact cores_forAll (fun x t => cores_serveBurst _) _ s
  · rfl

@[simp] theorem cores_hbmMoved (c : HbmClass) (q off n : Nat) : coresOf (hbmMoved c q off n s) = coresOf s :=
  cores_forAll (fun _ _ => cores_queueBursts _ _ _) _ s

@[simp] theorem cores_absentCmd (rep : Nat) : coresOf (absentCmd rep s) = coresOf s := by simp [absentCmd]
@[simp] theorem cores_disabledWork (rep : Nat) : coresOf (disabledWork rep s) = coresOf s := by simp [disabledWork]

/-! ### Packets that the switch originates -/

@[simp] theorem cores_sealPacket (p : Packet) : coresOf (sealPacket p s).2 = coresOf s := rfl
@[simp] theorem cores_enqueue (unit vc : Nat) (l : Load) (org : Origin) (buf : Option Nat) :
    coresOf (enqueue unit vc l org buf s) = coresOf s := rfl
@[simp] theorem cores_originate (unit : Nat) (p : Packet) (org : Origin) : coresOf (originate unit p org s) = coresOf s := rfl
@[simp] theorem cores_sendStatus (unit dst : Nat) (k : Key) (lo hi status n : Nat) :
    coresOf (sendStatus unit dst k lo hi status n s) = coresOf s := rfl
@[simp] theorem cores_statusDown (unit : Nat) (k : Key) (es : List ScopeE) (st n : Nat) :
    coresOf (statusDown unit k es st n s) = coresOf s := by
  unfold statusDown
  refine cores_forAll (fun e t => ?_) es s
  rw [cores_sendStatus]
@[simp] theorem cores_twinSend (kind : Nat) (bytes : List Byte) : coresOf (twinSend kind bytes s) = coresOf s := rfl

/-! ### Buffers and their pools -/

@[simp] theorem cores_refuseHandle (q req : Nat) : coresOf (refuseHandle q req s) = coresOf s := by simp [refuseHandle]
@[simp] theorem cores_bumpUsed (q p : Nat) : coresOf (bumpUsed q p s) = coresOf s := rfl

theorem cores_takeBuf {q p req b : Nat} {t : State} (h : takeBuf q p req s = some (b, t)) : coresOf t = coresOf s := by
  unfold takeBuf allocAfter allocBuf at h
  split at h
  · exact nomatch h
  split at h
  · split at h
    · split at h
      · obtain ⟨-, rfl⟩ := Prod.mk.inj (Option.some.inj h)
        rfl
      · exact nomatch h
    · exact nomatch h
  · exact nomatch h

@[simp] theorem cores_scanTables (q off n : Nat) : coresOf (scanTables q off n s) = coresOf s := rfl
@[simp] theorem cores_cellWrite (q off req : Nat) (bs : List Byte) : coresOf (cellWrite q off req bs s) = coresOf s := by
  simp [cellWrite]
@[simp] theorem cores_refusePage (q req : Nat) : coresOf (refusePage q req s) = coresOf s := by simp [refusePage]

@[simp] theorem cores_hbmPut (c : HbmClass) (q off : Nat) (bs : List Byte) (req : Nat) :
    coresOf (hbmPut c q off bs req s) = coresOf s := by
  unfold hbmPut
  dsimp only
  split <;> simp

@[simp] theorem cores_putBuf (b i req : Nat) (bs : List Byte) : coresOf (putBuf b i req bs s) = coresOf s := by
  unfold putBuf
  split <;> simp

@[simp] theorem cores_returnBuf (b : Nat) : coresOf (returnBuf b s) = coresOf s := by
  unfold returnBuf
  dsimp only
  split <;> rfl

@[simp] theorem cores_countDfree (q : Nat) : coresOf (countDfree q s) = coresOf s := rfl
@[simp] theorem cores_countBadfree (q : Nat) : coresOf (countBadfree q s) = coresOf s := rfl
@[simp] theorem cores_countRunder (q : Nat) : coresOf (countRunder q s) = coresOf s := rfl

theorem cores_onHandle {f : State → State} (hf : ∀ t, coresOf (f t) = coresOf t) (b req : Nat) :
    coresOf (onHandle b req f s) = coresOf s := by
  unfold onHandle
  split
  · exact hf s
  · simp

@[simp] theorem cores_fillPacket (b req : Nat) (p : Packet) : coresOf (fillPacket b req p s) = coresOf s :=
  cores_onHandle (fun t => by simp) b req

@[simp] theorem cores_freeBuf (b req : Nat) (key : Option Key) : coresOf (freeBuf b req key s) = coresOf s := by
  refine cores_onHandle (fun t => ?_) b req
  dsimp only
  split
  · simp
  · simp
  · split
    · split
      · simp
      · split <;> simp
    · simp

@[simp] theorem cores_shareBuf (b n req : Nat) (key : Option Key) : coresOf (shareBuf b n req key s) = coresOf s := by
  refine cores_onHandle (fun t => ?_) b req
  dsimp only
  split <;> simp

@[simp] theorem cores_releaseBuf (b req : Nat) : coresOf (releaseBuf b req s) = coresOf s := by
  refine cores_onHandle (fun t => ?_) b req
  dsimp only
  split
  · simp
  · simp
  · split
    · simp
    · split <;> simp

@[simp] theorem cores_countParity (q : Nat) (p : Parity) : coresOf (countParity q p s) = coresOf s := by cases p <;> rfl
@[simp] theorem cores_upsetRead (q off : Nat) : coresOf (upsetRead q off s) = coresOf s := by simp [upsetRead, parHardEvent]

/-! ### The end of a cycle -/

@[simp] theorem cores_teleAdd (port off n : Nat) : coresOf (teleAdd port off n s) = coresOf s := by
  unfold teleAdd
  split <;> rfl

@[simp] theorem cores_leavePool (x : Nat) : coresOf (leavePool x s) = coresOf s := by
  unfold leavePool
  dsimp only
  split <;> rfl

@[simp] theorem cores_stallPort (p : Nat) (x : Port) : coresOf (stallPort p x s) = coresOf s := by
  unfold stallPort
  split
  · refine cores_forAll (fun vc t => ?_) _ s
    split <;> simp
  · rfl

@[simp] theorem cores_nextCycle : coresOf (nextCycle s) = coresOf s := by
  unfold nextCycle
  rw [cores_withCycle, cores_serveHbm]
  exact (cores_forAll (fun x t => cores_stallPort _ _) _ _).trans (cores_forAll (fun x t => cores_leavePool _) _ _)

@[simp] theorem cores_orNext (late : Bool) : coresOf (orNext late s) = coresOf s := by
  unfold orNext
  split <;> simp

/-! ### Sync objects -/

@[simp] theorem cores_noteStart (v : Nat) : coresOf (noteStart v s) = coresOf s := rfl

@[simp] theorem cores_startRequest (v desc src : Nat) (bySync : Bool) :
    coresOf (startRequest v desc src bySync s).2 = coresOf s := by
  unfold startRequest
  split
  · simp
  split
  · simp
  split
  · dsimp only
    split <;> simp
  split
  · simp
  split <;> simp

@[simp] theorem cores_softSet (k src : Nat) : coresOf (softSet k src s) = coresOf s := by
  unfold softSet
  split
  · rfl
  · dsimp only
    split <;> rfl

@[simp] theorem cores_runAction (f : Fire) : coresOf (runAction f s).2 = coresOf s := by
  unfold runAction
  split
  · split <;> rfl
  split
  · simp
  split
  · dsimp only
    split <;> simp
  · rfl

@[simp] theorem cores_fireOne (f : Fire) : coresOf (fireOne f s) = coresOf s := by
  unfold fireOne
  split
  · rfl
  · dsimp only
    split <;> simp

@[simp] theorem cores_fireLoop (k d fuel before : Nat) : coresOf (fireLoop k d fuel before s) = coresOf s := by
  induction fuel generalizing s with
  | zero => rfl
  | succ fuel ih =>
    rw [fireLoop]
    dsimp only
    split
    · split <;> simp [ih]
    · rfl

@[simp] theorem cores_syncParity (k : Nat) : coresOf (syncParity k s) = coresOf s := by
  unfold syncParity
  split <;> simp

@[simp] theorem cores_noteSync (k : Nat) : coresOf (noteSync k s) = coresOf s := by
  unfold noteSync
  split <;> rfl

@[simp] theorem cores_syncIncr (k d src : Nat) : coresOf (syncIncr k d src s) = coresOf s := by
  unfold syncIncr
  split
  · simp
  · rw [cores_fireLoop, cores_withSame]
    simp

@[simp] theorem cores_syncIncrIf (en : Bool) (k d src : Nat) : coresOf (syncIncrIf en k d src s) = coresOf s := by
  unfold syncIncrIf
  split <;> simp

/-! ### Slots and groups -/

@[simp] theorem cores_openWrite (q off req reg : Nat) (bs : List Byte) : coresOf (openWrite q off req reg bs s) = coresOf s := by
  unfold openWrite
  dsimp only
  split
  · simp
  · rw [cores_forAll (fun g t => by simp), cores_forAll]
    intro x t
    split <;> simp

@[simp] theorem cores_clogWrite (bytes : List Byte) : coresOf (clogWrite bytes s) = coresOf s := by
  unfold clogWrite
  dsimp only
  split <;> simp

@[simp] theorem cores_sramNote (g : Nat) : coresOf (sramNote g s) = coresOf s := by
  unfold sramNote
  split <;> rfl

@[simp] theorem cores_freeParts (x : Slot) : coresOf (freeParts x s) = coresOf s := by
  refine cores_forAll (fun p t => ?_) _ s
  split <;> simp

@[simp] theorem cores_groupStop (g : Nat) : coresOf (groupStop g s) = coresOf s := by
  unfold groupStop
  split <;> rfl

@[simp] theorem cores_migrateEnd (g : Nat) : coresOf (migrateEnd g s) = coresOf s := by
  unfold migrateEnd
  split
  · split <;> rfl
  · rfl

@[simp] theorem cores_loadSlots (a : Nat) (n : Int) : coresOf (loadSlots a n s) = coresOf s := rfl

@[simp] theorem cores_twinDones : coresOf (twinDones s) = coresOf s := by
  refine cores_forAll (fun d t => ?_) _ s
  dsimp only
  split
  · rfl
  · split <;> simp

@[simp] theorem cores_staleNodes (k : Key) : coresOf (staleNodes k s) = coresOf s := rfl

@[simp] theorem cores_freeSlot (x : Slot) (st n : Nat) : coresOf (freeSlot x st n s) = coresOf s := by
  unfold freeSlot
  simp only [cores_twinDones, cores_migrateEnd, cores_groupStop, cores_syncIncrIf]
  split <;> simp

@[simp] theorem cores_setTag (g b settled missing : Nat) : coresOf (setTag g b settled missing s) = coresOf s := 
  cores_hbmPut _ _ _ _ _

@[simp] theorem cores_clearAcc (g b : Nat) : coresOf (clearAcc g b s) = coresOf s := by
  unfold clearAcc auxWrite
  exact cores_hbmPut _ _ _ _ _

@[simp] theorem cores_abortQuiet (x : Slot) (st n : Nat) : coresOf (abortQuiet x st n s) = coresOf s := by
  simp only [abortQuiet, apply_ite coresOf, cores_twinSend, cores_sramNote, cores_freeSlot, cores_setTag, cores_clearAcc,
    ite_self]
  split
  · simp [apply_ite coresOf]
  · simp [apply_ite coresOf]

@[simp] theorem cores_abortSlot (x : Slot) (st n : Nat) : coresOf (abortSlot x st n s) = coresOf s := by simp [abortSlot]

@[simp] theorem cores_abortKey (k : Key) (st n : Nat) : coresOf (abortKey k st n s) = coresOf s := by
  unfold abortKey
  split <;> simp

@[simp] theorem cores_releaseShared (b req : Nat) : coresOf (releaseShared b req s) = coresOf s := by
  unfold releaseShared
  dsimp only
  split
  · split <;> simp
  · simp

@[simp] theorem cores_itemRelease (b : Option Nat) (req : Nat) : coresOf (itemRelease b req s) = coresOf s := by
  cases b <;> simp [itemRelease]

/-! ### Ports and links -/

@[simp] theorem cores_trimBufs (port vc fuel : Nat) : coresOf (trimBufs port vc fuel s) = coresOf s := by
  induction fuel generalizing s with
  | zero => rfl
  | succ fuel ih =>
    rw [trimBufs]
    split
    · split
      · rw [ih]
        simp
      · rfl
    · rfl

@[simp] theorem cores_trimLand (port vc : Nat) : coresOf (trimLand port vc s) = coresOf s := rfl

@[simp] theorem cores_grantReserved (port vc : Nat) : coresOf (grantReserved port vc s) = coresOf s := by
  unfold grantReserved
  dsimp only
  split <;> rfl

@[simp] theorem cores_takeHeadroom (port t n : Nat) : coresOf (takeHeadroom port t n s) = coresOf s := by
  induction n generalizing s with
  | zero => rfl
  | succ n ih =>
    rw [takeHeadroom]
    split
    next b u h => rw [ih, cores_updPort, cores_takeBuf h]
    · rfl

@[simp] theorem cores_fillHeadroom (port : Nat) : coresOf (fillHeadroom port s) = coresOf s := by
  refine cores_forAll (fun t u => ?_) _ s
  dsimp only
  split
  · simp
  · exact (cores_forAll (fun _ _ => cores_freeBuf _ _ _) _ _).trans (cores_updPort _ _)

@[simp] theorem cores_pfcCheck (port t : Nat) : coresOf (pfcCheck port t s) = coresOf s := by
  unfold pfcCheck
  dsimp only
  split
  · rfl
  split
  · rfl
  split <;> rfl

@[simp] theorem cores_pfcCheckAll (port : Nat) : coresOf (pfcCheckAll port s) = coresOf s :=
  cores_forAll (fun _ _ => cores_pfcCheck _ _) _ s

@[simp] theorem cores_ingressLeft (port vc : Nat) : coresOf (ingressLeft port vc s) = coresOf s := by
  unfold ingressLeft
  split
  · rfl
  split <;> simp

@[simp] theorem cores_sendLctl (p kind : Nat) (body : List Byte) : coresOf (sendLctl p kind body s) = coresOf s := rfl

@[simp] theorem cores_lostPacket (p : Nat) (load : Load) (org : Origin) : coresOf (lostPacket p load org s) = coresOf s := by
  unfold lostPacket
  split
  case h_1 | h_2 => simp
  case h_3 | h_4 | h_5 => rfl
  all_goals
    dsimp only
    split <;> simp

@[simp] theorem cores_trimAll (p : Nat) : coresOf (trimAll p s) = coresOf s :=
  cores_forAll (fun _ _ => (cores_trimLand _ _).trans (cores_trimBufs _ _ _)) _ s

@[simp] theorem cores_unlink (p : Nat) : coresOf (unlink p s) = coresOf s := by
  unfold unlink
  rw [cores_fillHeadroom, cores_trimAll, cores_updPort]
  exact cores_forAll (fun _ _ => cores_setPu _ _) _ s

@[simp] theorem cores_armRetry (p : Nat) : coresOf (armRetry p s) = coresOf s := rfl

@[simp] theorem cores_linkDown (p : Nat) : coresOf (linkDown p s) = coresOf s := by
  refine (cores_forAll (fun _ _ => cores_lostPacket _ _ _) _ _).trans
    ((cores_forAll (fun _ _ => cores_releaseShared _ _) _ _).trans ?_)
  rw [cores_armRetry, cores_unlink, cores_reportOwnOpen, cores_raiseEv]
  split <;> simp

@[simp] theorem cores_drainedDown (p : Nat) : coresOf (drainedDown p s) = coresOf s := by
  unfold drainedDown
  dsimp only
  split <;> simp

/-! ### Packets that are lost on their way -/

@[simp] theorem cores_takeOut (w : Waiting) : coresOf (takeOut w s) = coresOf s := by
  unfold takeOut
  dsimp only
  split <;> simp

@[simp] theorem cores_dropRefs (bufs : List Nat) (unit : Nat) : coresOf (dropRefs bufs unit s) = coresOf s := by
  unfold dropRefs
  rw [cores_twinDones]
  exact cores_forAll (fun b t => cores_releaseShared b unit) bufs s
@[simp] theorem cores_discardW (w : Waiting) : coresOf (discardW w s) = coresOf s := by simp [discardW]

@[simp] theorem cores_failDown (w : Waiting) (h : Packet) : coresOf (failDown w h s) = coresOf s := by
  unfold failDown
  split <;> simp

@[simp] theorem cores_noteIdle (port : Nat) : coresOf (noteIdle port s) = coresOf s := by
  unfold noteIdle
  dsimp only
  split <;> rfl

@[simp] theorem cores_sharedLost (b : Nat) : coresOf (sharedLost b s) = coresOf s := by
  refine (cores_forAll (fun p t => cores_forAll (fun e u => ?_) _ t) _ _).trans (cores_forAll (fun w t => ?_) _ s)
  · simp
  · split <;> simp

@[simp] theorem cores_transitLost (w : Waiting) : coresOf (transitLost w s) = coresOf s := by
  unfold transitLost
  split
  case h_1 | h_2 | h_3 => simp
  dsimp only
  split
  · simp
  · split
    · simp
    · split <;> simp

@[simp] theorem cores_lostIfRefused (b : Nat) : coresOf (lostIfRefused b s) = coresOf s := by
  unfold lostIfRefused
  split
  · exact (cores_forAll (fun _ _ => cores_transitLost _) _ _).trans (cores_countParity _ _)
  · rfl

/-! ### What a core's own instructions call -/

@[simp] theorem cores_setRing (v r : Nat) (x : Ring) : coresOf (setRing v r x s) = coresOf s := rfl

@[simp] theorem cores_spaceWrite (core ord space qd a : Nat) (bs : List Byte) :
    coresOf (spaceWrite core ord space qd a bs s).2 = coresOf s := by
  unfold spaceWrite
  split
  · simp
  · simp
  · split <;> simp

@[simp] theorem cores_windowMoved (x : Queue) (i : Nat) : coresOf (windowMoved x i s) = coresOf s := by
  unfold windowMoved
  split <;> simp

@[simp] theorem cores_censusAdd (core nan inf rsv scale : Nat) : coresOf (censusAdd core nan inf rsv scale s) = coresOf s := rfl
@[simp] theorem cores_censusSrc (core afmt k : Nat) (x : Src) (vecs : List (List Byte)) :
    coresOf (censusSrc core afmt k x vecs s) = coresOf s := rfl

@[simp] theorem cores_floatCensus (core : Nat) (e : Sb) (xs : List (Src × Nat × List (List Byte))) :
    coresOf (floatCensus core e xs s) = coresOf s := by
  have hsources : ∀ ys, coresOf (forAll (fun (x : Src × Nat × List (List Byte)) s =>
      censusSrc core e.w.afmt e.steps x.1 x.2.2 s) ys s) = coresOf s := fun ys =>
    cores_forAll (fun _ _ => cores_censusSrc _ _ _ _ _) ys s
  unfold floatCensus
  dsimp only
  split
  · rw [cores_censusAdd, hsources]
  · exact hsources _

end Cores

end Sys2Proof.Machine
end

/-!
PROOFS. The floating-point rows of 07_curd_instructions.md with one step and one result vector: O40.
-/
section
namespace Sys2Proof.Machine

/-! ### A core keeps its one instruction while it pops and pushes -/

/-- A core whose scoreboard holds `e` alone and that is not IDLE. -/
def HoldsOne (core : Nat) (e : Sb) (s : State) : Prop := (s.core core).sb = [e] ∧ (s.core core).st ≠ .idle

section Holds
variable {s t : State} {core q n : Nat} {e : Sb} {x : Core}

theorem holdsOne_of_cores (h : HoldsOne core e s) (hcores : coresOf t = coresOf s) : HoldsOne core e t := by
  have hcore : t.core core = s.core core := congrArg (fun l => tget Core.idle l core) hcores
  rw [HoldsOne, hcore]
  exact h

theorem holdsOne_setCore (hsb : x.sb = [e]) (hst : x.st ≠ .idle) : HoldsOne core e (t.setCore core x) := by
  rw [HoldsOne, core_setCore_self (ne_idle_of_sb hsb)]
  exact ⟨hsb, hst⟩

/-- Storing a queue of the core keeps its scoreboard. -/
theorem holdsOne_setQueue (h : HoldsOne core e s) (y : Queue) :
    HoldsOne core e (t.setCore core ((s.core core).setQueue q y)) := holdsOne_setCore h.1 h.2

theorem holdsOne_dropEmpty (h : HoldsOne core e s) : HoldsOne core e (dropEmpty core q n s) := by
  induction n generalizing s with
  | zero => exact h
  | succ n ih =>
    rw [dropEmpty]
    split
    · split
      · exact ih (holdsOne_of_cores (holdsOne_setQueue h _) (cores_itemRelease _ _))
      · exact h
    · exact h

theorem holdsOne_popStream (h : HoldsOne core e s) : HoldsOne core e (popStream core q s) := by
  unfold popStream
  dsimp only
  split
  · split
    · exact holdsOne_dropEmpty (holdsOne_of_cores (holdsOne_setQueue h _)
        ((cores_syncIncrIf _ _ _ _).trans (cores_itemRelease _ _)))
    · exact holdsOne_setQueue h _
  · exact h

theorem holdsOne_popStreams (h : HoldsOne core e s) : HoldsOne core e (popStreams core q n s) := by
  induction n generalizing s with
  | zero => exact h
  | succ n ih => exact ih (holdsOne_popStream h)

theorem holdsOne_popVecs (h : HoldsOne core e s) : HoldsOne core e (popVecs core q n s) := by
  unfold popVecs
  dsimp only
  split
  · exact holdsOne_of_cores h ((cores_noteAct _ _).trans (cores_setRing _ _ _))
  · exact holdsOne_of_cores (holdsOne_setQueue h _) (cores_forAll (fun _ _ => cores_windowMoved _ _) _ _)
  · exact holdsOne_popStreams h
  · exact h

theorem holdsOne_popSrcs (xs : List (Src × Nat × List (List Byte))) (h : HoldsOne core e s) :
    HoldsOne core e (popSrcs core xs s) := by
  unfold popSrcs
  induction xs generalizing s with
  | nil => exact h
  | cons x xs ih =>
    refine ih ?_
    dsimp only
    split
    · exact holdsOne_of_cores h (cores_windowMoved _ _)
    · exact holdsOne_popVecs h

theorem holdsOne_handOn (y : Queue) (a : Asm) (h : HoldsOne core e s) : HoldsOne core e (handOn core q y a s).2 := by
  have hasm : HoldsOne core e (s.updCore core (fun c => c.setQueue q { y with asm := none })) := holdsOne_setQueue h _
  unfold handOn
  dsimp only
  split
  · exact holdsOne_of_cores hasm ((cores_addFld _ _ _).trans (cores_freeBuf _ _ _))
  · refine holdsOne_of_cores hasm ?_
    rw [cores_syncIncrIf, cores_lostIfRefused, cores_enqueue, cores_freeBuf, cores_shareBuf, cores_fillPacket, cores_sealPacket]

theorem holdsOne_pushOut {d : List Byte} {ok : Bool} (h : HoldsOne core e s) (hpush : pushOut core q d s = some (ok, t)) :
    HoldsOne core e t := by
  have htaken : ∀ (y : Queue) (a : Asm) (u : State), HoldsOne core e u →
      (if a.need ≤ a.vecs.length then some (handOn core q y a u)
        else some (true, u.updCore core (fun c => c.setQueue q { y with asm := some a }))) = some (ok, t) →
      HoldsOne core e t := by
    intro y a u hu heq
    split at heq
    · have hhand : handOn core q y a u = (ok, t) := Option.some.inj heq
      have hkept := holdsOne_handOn (q := q) y a hu
      rwa [hhand] at hkept
    · obtain ⟨-, rfl⟩ := Prod.mk.inj (Option.some.inj heq)
      exact holdsOne_setQueue hu _
  unfold pushOut at hpush
  dsimp only at hpush
  cases hasm : ((s.core core).queue q).asm with
  | some a =>
    rw [hasm] at hpush
    exact htaken _ _ s h hpush
  | none =>
    rw [hasm] at hpush
    cases htake : takeBuf (vatQuad (vatOf core)) (asmPool ((s.core core).queue q) d) (repCore core) s with
    | none =>
      rw [htake] at hpush
      exact nomatch hpush
    | some r =>
      rw [htake] at hpush
      exact htaken _ _ r.2 (holdsOne_of_cores h (cores_takeBuf htake)) hpush

/-- A push that is not refused keeps the instruction in the scoreboard. -/
theorem holdsOne_pushVec {d : List Byte} {ord : Nat} (h : HoldsOne core e s) (hpush : pushVec core ord q d s = some (true, t)) :
    HoldsOne core e t := by
  unfold pushVec at hpush
  dsimp only at hpush
  split at hpush
  · split at hpush
    · obtain ⟨-, rfl⟩ := Prod.mk.inj (Option.some.inj hpush)
      exact holdsOne_of_cores h ((cores_noteAct _ _).trans ((cores_setRing _ _ _).trans (cores_localWrite _ _ _ _)))
    · exact nomatch hpush
  · obtain ⟨-, rfl⟩ := Prod.mk.inj (Option.some.inj hpush)
    split
    · exact holdsOne_setQueue h _
    · exact holdsOne_of_cores h (cores_spaceWrite _ _ _ _ _ _)
  · exact holdsOne_pushOut h hpush
  · obtain ⟨-, rfl⟩ := Prod.mk.inj (Option.some.inj hpush)
    exact h

theorem holdsOne_writeS (r : Nat) (v : U64) (h : HoldsOne core e s) : HoldsOne core e (writeS core r v s) := by
  unfold writeS
  split
  · exact h
  · exact holdsOne_setCore h.1 h.2

theorem settle_done (h : HoldsOne core e t) : settle core e.ord (.done t) = curdFreed core e t :=
  retire_single h.1 (fun hidle => h.2 (congrArg Core.st hidle))

end Holds

/-! ### Lengths of pieces and codes -/

theorem length_pieces {α : Type} (n : Nat) (l : List α) : (pieces n l).length = ceilDiv l.length n := by
  rw [pieces, List.length_map, List.length_range]

theorem pieces_single {α : Type} {n : Nat} {l : List α} (hpos : 0 < n) (h : l.length = n) : pieces n l = [l] := by
  have hone : ceilDiv l.length n = 1 := by
    rw [h, ceilDiv]
    exact Nat.div_eq_of_lt_le (by omega) (by omega)
  rw [pieces, hone]
  show [(l.drop (n * 0)).take n] = [l]
  rw [Nat.mul_zero, List.drop_zero, List.take_of_length_le h.le]

theorem length_flatMap_leBytes (n : Nat) (cs : List Nat) : (cs.flatMap (leBytes n)).length = n * cs.length := by
  induction cs with
  | nil => rfl
  | cons c cs ih =>
    rw [List.flatMap_cons, List.length_append, ih, length_leBytes, List.length_cons, Nat.mul_succ, Nat.add_comm]

/-- The codes of a unit that makes one vector fill at most that vector. -/
theorem length_packCodes_unit {fmt : Nat} {cs : List Nat} (hfmt : fmt < 5) (h : cs.length ≤ unitElems fmt) :
    (packCodes (elemBits fmt) cs).length ≤ 512 := by
  have hlen : ∀ b, 8 ≤ b → (packCodes b cs).length = b / 8 * cs.length := fun b hb => by
    rw [packCodes, if_neg (Nat.not_lt.mpr hb), length_flatMap_leBytes]
  interval_cases fmt <;> rw [hlen _ (by decide)] <;> simp only [unitElems, elemBits] at h ⊢ <;> omega

theorem fmt_of_unitVecs {fmt : Nat} (h : unitVecs fmt = 1) : fmt < 5 := by
  unfold unitVecs at h
  split at h
  · exact absurd h (by decide)
  · split at h
    · exact absurd h (by decide)
    · omega

theorem length_unitOut {fmt : Nat} {xs : List Nat} (rnd : Nat → Option Nat) (hvecs : unitVecs fmt = 1)
    (h : xs.length ≤ unitElems fmt) : (unitOut fmt rnd xs).1.length = 512 := by
  have hfmt := fmt_of_unitVecs hvecs
  have hscaled : ¬ isScaled fmt = true := by
    simp only [isScaled, Bool.and_eq_true, decide_eq_true_eq]
    omega
  unfold unitOut
  dsimp only
  rw [if_neg hscaled, hvecs]
  dsimp only
  rw [List.length_append, List.length_replicate]
  exact Nat.add_sub_cancel' (length_packCodes_unit hfmt (by simpa using h))

theorem stepElems_eq (afmt : Nat) : stepElems afmt = 128 ∨ stepElems afmt = 256 := by
  unfold stepElems
  split
  · exact Or.inl rfl
  · exact Or.inr rfl

theorem length_maskVec {bs : List Bool} (h : bs.length = 128 ∨ bs.length = 256) : (maskVec bs).length = 512 := by
  have hpack : (packCodes 1 (bs.map bit01)).length = ceilDiv bs.length 8 := by
    rw [packCodes, if_pos (by decide), List.length_map, length_pieces, List.length_map]
  unfold maskVec
  dsimp only
  rw [List.length_append, List.length_replicate, hpack]
  rcases h with h | h <;> rw [h] <;> rfl

/-! ### What one step adds -/

section Read
variable {e : Sb} {xs : List (Src × Nat × List (List Byte))}

theorem floatRead_eq : floatRead e xs = { e with acc := (floatRead e xs).acc } := by
  unfold floatRead
  dsimp only
  split <;> rfl

theorem floatRead_acc (hop : e.op ≠ 0x16) : (floatRead e xs).acc = e.acc ++ (floatStep e.op e.w.afmt (operand e e.w.sa xs)
    (if usesBroadcast e then List.replicate (stepElems e.w.afmt) (broadcast e) else operand e e.w.sb xs)
    (if e.op = 0x13 then operand e e.w.sc xs else [])
    (match xs.getLast? with | some x => x.2.2.flatMap id | none => [])).map packVal := by
  unfold floatRead
  exact congrArg Sb.acc (if_neg hop)

theorem floatRead_elementwise (hop : e.op ≠ 0x16 ∧ e.op ≠ 0x17 ∧ e.op ≠ 0x19 ∧ e.op ≠ 0x1A) :
    (floatRead e xs).acc = e.acc ++ (List.range (stepElems e.w.afmt)).map (fun n => packVal (floatElem e.op e.w.afmt
      ((operand e e.w.sa xs).getD n (.zero false))
      ((if usesBroadcast e then List.replicate (stepElems e.w.afmt) (broadcast e) else operand e e.w.sb xs).getD n (.zero false))
      ((if e.op = 0x13 then operand e e.w.sc xs else []).getD n (.zero false)))) := by
  obtain ⟨hcmp, hsel, hsum, hmax⟩ := hop
  rw [floatRead_acc hcmp, floatStep]
  rw [if_neg (by omega), if_neg hsel, List.map_map]
  rfl

theorem floatRead_reduce (hop : e.op = 0x19 ∨ e.op = 0x1A) :
    (floatRead e xs).acc = e.acc ++ [packVal (reduceStep (e.op == 0x1A) e.w.afmt (operand e e.w.sa xs))] := by
  rw [floatRead_acc (by omega), floatStep]
  rw [if_pos hop]
  rfl

theorem floatRead_acc_ne_nil (hop : e.op ≠ 0x16) : (floatRead e xs).acc ≠ [] := by
  have hstep : ∀ as bs cs mask, floatStep e.op e.w.afmt as bs cs mask ≠ [] := by
    intro as bs cs mask hnil
    have hlen := congrArg List.length hnil
    have helems := stepElems_eq e.w.afmt
    unfold floatStep at hlen
    dsimp only at hlen
    split at hlen
    · exact absurd hlen (by simp)
    · split at hlen <;> simp at hlen <;> omega
  rw [floatRead_acc hop]
  simp [hstep]

theorem length_floatRead_cmp (hop : e.op = 0x16) (hacc : e.acc = []) : (floatRead e xs).acc.length = 512 := by
  unfold floatRead
  dsimp only
  rw [if_pos hop]
  dsimp only
  rw [hacc, List.nil_append, List.length_map]
  refine length_maskVec ?_
  rw [List.length_map, List.length_range]
  exact stepElems_eq _

end Read

/-! ### The push of one unit -/

section Emit
variable {s t : State} {core q fl : Nat} {e : Sb} {xs : List Nat} {out : List Byte}

/-- A unit of one vector that finds its window declared and its queue with room. -/
theorem emitUnit_single (hpushes : unitPushes e xs = ([(q, out)], fl)) (hcnt : e.cntA = 0)
    (hwindow : windowOk (s.core core) e q true 1 = true) (hroom : hasRoomFor s core q 1 out = true)
    (hpush : pushVec core e.ord q out s = some (true, t)) :
    emitUnit core e xs s =
      .more { e with acc := e.acc.drop xs.length, cntA := 0, cntB := e.cntB + xs.length, flag := e.flag + fl } t := by
  have hto : (pushesTo q [(q, out)]).length = 1 := by simp [pushesTo]
  have hany : ([(q, out)] : List (Nat × List Byte)).any
      (fun x => !windowOk (s.core core) e x.1 true (pushesTo x.1 [(q, out)]).length) = false := by
    simp [hto, hwindow]
  have hall : roomAll s core [(q, out)] = true := by simp [roomAll, hto, hroom]
  unfold emitUnit
  rw [hpushes, hcnt]
  dsimp only
  rw [List.drop_zero, if_neg (by rw [hany]; decide), if_neg (by rw [hall]; simp), pushAll, hpush]
  dsimp only [pushAll]
  exact if_pos rfl

/-- The one vector that a unit of values makes. -/
theorem unitPushes_float (hfloat : isFloat e.op = true) (hop : e.op ≠ 0x16) (hvecs : unitVecs (dstOf e.w.dd).fmt = 1)
    (hsize : xs.length ≤ unitElems (dstOf e.w.dd).fmt) (hcnt : e.cntB = 0) :
    unitPushes e xs = ([((dstOf e.w.dd).q, (unitOut (dstOf e.w.dd).fmt (floatRnd e) xs).1)],
      (unitOut (dstOf e.w.dd).fmt (floatRnd e) xs).2) := by
  have hrnd : (fun j => floatRnd e (e.cntB + j)) = floatRnd e := by simp [hcnt]
  unfold unitPushes
  dsimp only
  rw [if_pos (by rw [hfloat]; simpa using hop), hrnd, pieces_single (by decide) (length_unitOut _ hvecs hsize)]
  rfl

/-- The one vector that the mask of a CMP makes. -/
theorem unitPushes_cmp (hop : e.op = 0x16) (hlen : xs.length = 512) :
    unitPushes e xs = ([((dstOf e.w.dd).q, xs.map (fun b => (BitVec.ofNat 8 b : Byte)))], 0) := by
  unfold unitPushes
  rw [hop, hlen]
  dsimp only
  rw [if_neg (by decide), if_neg (fun h => absurd h.1 (by decide)), List.append_nil, Nat.sub_self,
    List.replicate_zero, List.append_nil]

theorem vecStep_emit (hsize : e.acc.length ≤ unitSize e) (hacc : e.acc ≠ []) (hsteps : e.w.rep ≤ e.steps) :
    vecStep core e s = emitUnit core e e.acc s := by
  unfold vecStep
  by_cases hfull : unitSize e ≤ e.acc.length
  · rw [if_pos hfull, List.take_of_length_le hsize]
  · rw [if_neg hfull, if_neg (Nat.not_lt.mpr hsteps)]
    exact if_pos hacc

theorem vecStep_done (hfloat : isFloat e.op = true) (hacc : e.acc = []) (hsteps : e.w.rep ≤ e.steps) :
    vecStep core e s = .done (writeS core e.w.rd (BitVec.ofNat 64 e.flag) s) := by
  have hunit : 0 < unitSize e := by
    unfold unitSize unitElems
    split
    · split <;> decide
    · decide
  unfold vecStep
  rw [if_neg (by rw [hacc]; exact Nat.not_le.mpr hunit), if_neg (Nat.not_lt.mpr hsteps), if_neg (fun h => h hacc),
    if_pos (Or.inl hfloat)]

end Emit

/-! ### A row of one step and one vector -/

section Row
variable {s s3 : State} {core op fl : Nat} {w : CurdWord} {i : Instr} {xs : List (Src × Nat × List (List Byte))}
  {out : List Byte}

theorem isBranch_of_float (h : isFloat op = true) : isBranch op = false :=
  isBranch_of_vector (Or.inl (by rw [isVector, h]; rfl))

/-- The entry after its one step. -/
def readEntry (e : Sb) (xs : List (Src × Nat × List (List Byte))) : Sb :=
  { e with acc := (floatRead e xs).acc, steps := e.steps + 1 }

/-- The entry after the push of its one unit. -/
def pushedEntry (e : Sb) (xs : List (Src × Nat × List (List Byte))) (fl : Nat) : Sb :=
  { e with acc := [], steps := e.steps + 1, cntA := 0, cntB := e.cntB + (floatRead e xs).acc.length, flag := e.flag + fl }

/-- The state after the pops and the census of that step. -/
def readState (core : Nat) (e : Sb) (xs : List (Src × Nat × List (List Byte))) (s : State) : State :=
  popSrcs core xs (floatCensus core e xs s)

theorem exec_oneStep (hi : curdInstr core op w = some i) (hfloat : isFloat op = true) (hrep : w.rep = 1)
    (hready : CurdReady core op w s) (hguard : CurdGuard core w s)
    (hbound : bindingOk (s.core core) (curdEntry core op w s) = true)
    (hsees : seeSrcs (curdHeld core op w s) core (curdEntry core op w s) = .got xs)
    (hreads : readsOk ((curdHeld core op w s).core core) (curdEntry core op w s) xs = true)
    (hroom : roomNext (curdHeld core op w s) core (floatRead (curdEntry core op w s) xs) = true)
    (hacc : (floatRead (curdEntry core op w s) xs).acc ≠ [])
    (hsize : (floatRead (curdEntry core op w s) xs).acc.length ≤ unitSize (curdEntry core op w s))
    (hpushes : unitPushes (readEntry (curdEntry core op w s) xs) (floatRead (curdEntry core op w s) xs).acc =
      ([((dstOf w.dd).q, out)], fl))
    (hwindow : windowOk ((readState core (curdEntry core op w s) xs (curdHeld core op w s)).core core) (curdEntry core op w s)
      (dstOf w.dd).q true 1 = true)
    (hfree : hasRoomFor (readState core (curdEntry core op w s) xs (curdHeld core op w s)) core (dstOf w.dd).q 1 out = true)
    (hpush : pushVec core (curdEntry core op w s).ord (dstOf w.dd).q out
      (readState core (curdEntry core op w s) xs (curdHeld core op w s)) = some (true, s3)) :
    exec i s = .next (curdFreed core (curdEntry core op w s) (writeS core w.rd (BitVec.ofNat 64 fl) s3)) := by
  have hop := isFloat_bounds hfloat
  have hmicro : ∀ (f : Sb) (u : State), f.op = op → microStep core f u = vecStep core f u := fun f u hf =>
    microStep_vector (isVector_of_float (by rw [hf]; exact hfloat)) (by omega)
  have hunit : 0 < unitSize (curdEntry core op w s) := lt_of_lt_of_le (List.length_pos_iff.mpr hacc) hsize
  have hread : microStep core (curdEntry core op w s) (curdHeld core op w s) =
      .more (readEntry (curdEntry core op w s) xs) (readState core (curdEntry core op w s) xs (curdHeld core op w s)) := by
    rw [hmicro _ _ rfl, vecStep_read (e := curdEntry core op w s) hunit (by show 0 < w.rep; omega),
      readStep_float hfloat hsees hreads hroom, floatRead_eq]
    rfl
  have hemit : microStep core (readEntry (curdEntry core op w s) xs)
      (readState core (curdEntry core op w s) xs (curdHeld core op w s)) =
      .more (pushedEntry (curdEntry core op w s) xs fl) s3 := by
    rw [hmicro _ _ rfl, vecStep_emit (e := readEntry (curdEntry core op w s) xs) hsize hacc (by show w.rep ≤ 1; omega)]
    refine (emitUnit_single (q := (dstOf w.dd).q) hpushes rfl hwindow hfree hpush).trans ?_
    unfold readEntry pushedEntry
    dsimp only
    rw [List.drop_length]
  have hdone : ∀ f : Sb, f.op = op → f.w = w → f.acc = [] → f.steps = 1 → f.flag = fl →
      microStep core f s3 = .done (writeS core w.rd (BitVec.ofNat 64 fl) s3) := by
    intro f hfop hfw hfacc hfsteps hfflag
    rw [hmicro _ _ hfop, vecStep_done (by rw [hfop]; exact hfloat) hfacc (by rw [hfw, hfsteps]; omega), hfw, hfflag]
  have hrun : runSteps core (fuelOf (curdEntry core op w s)) (curdEntry core op w s) (curdHeld core op w s) =
      .done (writeS core w.rd (BitVec.ofNat 64 fl) s3) := by
    have hfuel : fuelOf (curdEntry core op w s) = 137 + 1 + 1 + 1 := by
      unfold fuelOf
      rw [if_neg (by show op ≠ 0x32; omega)]
      show w.rep * 132 + 8 = _
      rw [hrep]
    rw [hfuel, runSteps, hread]
    dsimp only
    rw [runSteps, hemit]
    dsimp only
    rw [runSteps, hdone _ rfl rfl rfl rfl (Nat.zero_add fl)]
  have hheld : HoldsOne core (curdEntry core op w s) (curdHeld core op w s) := by
    rw [HoldsOne, curdHeld_core]
    refine ⟨rfl, fun h => ?_⟩
    have hrunning : (s.core core).st = .running := hready.1.2.1
    rw [show (s.core core).st = .idle from h] at hrunning
    exact nomatch hrunning
  have hend := holdsOne_writeS w.rd (BitVec.ofNat 64 fl)
    (holdsOne_pushVec (holdsOne_popSrcs xs (holdsOne_of_cores hheld (cores_floatCensus core _ xs))) hpush)
  rw [exec_curdInstr hi, issue_of_issues hready.1,
    issueWord_eq_settle hready hguard (isBranch_of_float hfloat) hbound (Or.inl (by omega)), hrun, settle_done hend]

end Row

/-! ### O40 -/

/-- The parts of a packed value: the flag below, then the kind, then the significand and exponent. -/
theorem packVal_parts {f : Bool} {kind rest : Nat} (h : kind < 8) :
    (bit01 f + 2 * (kind + 8 * rest)) / 2 / 8 = rest ∧ (bit01 f + 2 * (kind + 8 * rest)) / 2 % 8 = kind ∧
      ((bit01 f + 2 * (kind + 8 * rest)) % 2 == 1) = f := by
  cases f <;> simp only [bit01, beq_eq_false_iff_ne, beq_iff_eq] <;> simp <;> omega

theorem unpackVal_packVal {x : Val} (f : Bool) (h : match x with | .fin _ _ e => -2048 ≤ e ∧ e < 2048 | _ => True) :
    unpackVal (packVal (x, f)) = (x, f) := by
  cases x with
  | nan => cases f <;> rfl
  | inf s => cases s <;> cases f <;> rfl
  | zero s => cases s <;> cases f <;> rfl
  | fin s m e =>
    have hkind : 5 + bit01 s < 8 := by cases s <;> decide
    obtain ⟨hrest, hmod, hflag⟩ := packVal_parts (f := f) (rest := (e + 2048).toNat + 4096 * m) hkind
    have hexp : (e + 2048).toNat < 4096 := by omega
    have hsig : ((e + 2048).toNat + 4096 * m) / 4096 = m := by omega
    have hlow : ((((e + 2048).toNat + 4096 * m) % 4096 : Nat) : Int) - 2048 = e := by omega
    unfold unpackVal packVal
    dsimp only
    rw [hrest, hmod, hflag, hsig, hlow]
    cases s <;> rfl

theorem isNan_pickVal (m : Bool) (a b : Val) : (pickVal m a b).isNan = (a.isNan || b.isNan) := by
  unfold pickVal
  split
  next hnan => rw [hnan]; rfl
  next hnan =>
    obtain ⟨ha, hb⟩ := Bool.or_eq_false_iff.mp (Bool.eq_false_iff.mpr hnan)
    rw [ha, hb]
    split
    · rfl
    · split <;> split <;> assumption

/-- Settles O40: a row of one step reads, pushes its one vector and completes, and none of what a pop or a push reaches takes the
instruction out of its scoreboard. -/
theorem curdFloatRows : Obligations.CurdFloatRows := by
  refine ⟨?float, ?cmp, ?elementwise, ?reduce, ?packed, ?picked⟩
  case float =>
    intro s s3 core op w i xs hi hfloat hop hrep hvecs hready hguard hbound hsees hreads hroom hsize ⟨hwindow, hfree, hpush⟩
    have hunit : unitSize (curdEntry core op w s) = unitElems (dstOf w.dd).fmt :=
      if_pos (by show (isFloat op && op != 0x16) = true; rw [hfloat]; simpa using hop)
    exact exec_oneStep hi hfloat hrep hready hguard hbound hsees hreads hroom (floatRead_acc_ne_nil hop) (hunit ▸ hsize)
      (unitPushes_float (e := readEntry (curdEntry core op w s) xs) hfloat hop hvecs hsize rfl) hwindow hfree hpush
  case cmp =>
    intro s s3 core w xs hrep hready hguard hbound hsees hreads hroom ⟨hwindow, hfree, hpush⟩
    have hlen : (floatRead (curdEntry core 0x16 w s) xs).acc.length = 512 := length_floatRead_cmp rfl rfl
    exact exec_oneStep (fl := 0) rfl rfl hrep hready hguard hbound hsees hreads hroom
      (fun hnil => by rw [hnil] at hlen; exact absurd hlen (by decide)) hlen.le
      (unitPushes_cmp (e := readEntry (curdEntry core 0x16 w s) xs) rfl hlen) hwindow hfree hpush
  case elementwise =>
    intro e xs hfloat hop
    exact floatRead_elementwise hop
  case reduce =>
    intro e xs hop
    exact floatRead_reduce hop
  case packed =>
    intro x f h
    exact unpackVal_packVal f h
  case picked =>
    intro m a b
    exact ⟨isNan_pickVal m a b, rfl, rfl⟩

end Sys2Proof.Machine
end

/-!
PROOFS. The row routines of 09_sparsity.md. What O46 says of a core outside Vat 41 holds. The local memory of Vat 41 has the
number of the boot ROM's space, whose bytes the model leaves open (`Config.bootRom`), and O46 stands or falls with them: a blank
ROM gives it, and a ROM that holds a 1 behind an empty row's directory fails it.
-/
section
namespace Sys2Proof.Machine

/-! ### The stores of a row routine -/

section Rows
variable {s t : State} {v core off o w n : Nat} {bs : List Byte} {code : Nat → Nat}

/-- Where nothing of this cycle has been stored in a space from `off` on, a store writes every byte. -/
theorem storeBytes_of_unmet {sp req : Nat} (h : ∀ y ∈ s.same.stores, y.sp = sp → y.off + y.len ≤ off) (old bs : List Byte) :
    storeBytes sp off req old bs s =
      { wrBytes s sp off bs with same := { s.same with stores := ⟨sp, off, bs.length, req, old⟩ :: s.same.stores } } := by
  have hnone : higherStores s sp off req bs.length = [] := by
    simp only [higherStores, List.filter_eq_nil_iff, Bool.and_eq_true, beq_iff_eq, decide_eq_true_eq]
    rintro y hy ⟨⟨⟨hsp, -⟩, -⟩, hmeets⟩
    exact Nat.not_lt_of_le (h y hy hsp) hmeets
  rw [higherStores] at hnone
  simp only [storeBytes, hnone, List.isEmpty_nil, if_true, wrBytes_same]

/-- What `t` is after the outputs of rows 0 to `n - 1`, of `w` bytes each from `o` of local memory `v` on, have been stored in `s`. -/
structure RowsStored (s : State) (v o w : Nat) (code : Nat → Nat) (n : Nat) (t : State) : Prop where
  regs : t.regs = s.regs
  wf : Memory.wf t.mem = true
  stores : ∀ y ∈ t.same.stores, y.sp = spLocal v → y.off + y.len ≤ o + w * n
  frame : ∀ sp a, (∀ i, i < w * n → memKey sp a ≠ memKey (spLocal v) (o + i)) → rdByte t sp a = rdByte s sp a
  outs : spLocal v ≠ spRom → ∀ r, r < n → rdBytes t (spLocal v) (o + w * r) w = leBytes w (code r)

theorem rowsStored_zero (hm : Memory.wf s.mem = true) (hst : s.same.stores.all (fun y => y.sp != spLocal v) = true) :
    RowsStored s v o w code 0 s where
  regs := rfl
  wf := hm
  stores y hy hsp := absurd hsp (by simpa using List.all_eq_true.mp hst y hy)
  frame _ _ _ := rfl
  outs _ r hr := absurd hr (Nat.not_lt_zero r)

theorem rowsStored_succ (h : RowsStored s v o w code n t) (req : Nat) :
    RowsStored s v o w code (n + 1) (localWrite v (o + w * n) req (leBytes w (code n)) t) := by
  have hlen := length_leBytes w (code n)
  have hmul : w * (n + 1) = w * n + w := Nat.mul_succ w n
  have hwrite : localWrite v (o + w * n) req (leBytes w (code n)) t =
      goodParity (upLocal v) (o + w * n) (leBytes w (code n)).length
        { wrBytes t (spLocal v) (o + w * n) (leBytes w (code n)) with
          same := { t.same with stores := ⟨spLocal v, o + w * n, (leBytes w (code n)).length, req,
            rdBytes t (spLocal v) (o + w * n) (leBytes w (code n)).length⟩ :: t.same.stores } } := by
    rw [localWrite, storeBytes_of_unmet h.stores]
  have hmem : (localWrite v (o + w * n) req (leBytes w (code n)) t).mem =
      (wrBytes t (spLocal v) (o + w * n) (leBytes w (code n))).mem := by rw [hwrite]; rfl
  refine ⟨?regs, ?wf, ?stores, ?frame, ?outs⟩
  case regs =>
    rw [hwrite]
    exact (wrBytes_regs _ _ _ _).1.trans h.regs
  case wf =>
    rw [hmem]
    exact wrBytes_wf _ _ _ _ h.wf
  case stores =>
    rw [hwrite]
    intro y hy hsp
    rcases List.mem_cons.mp hy with rfl | hy
    · dsimp only
      omega
    · have hold := h.stores y hy hsp
      omega
  case frame =>
    intro sp a hne
    rw [rdByte_congr hmem, rdByte_wrBytes_of_ne h.wf (fun i hi => by
      rw [Nat.add_assoc]
      exact hne _ (by omega))]
    exact h.frame sp a (fun i hi => hne i (by omega))
  case outs =>
    intro hrom r hr
    rcases Nat.lt_succ_iff_lt_or_eq.mp hr with hr | rfl
    · have hbelow : w * (r + 1) ≤ w * n := Nat.mul_le_mul_left w hr
      rw [← h.outs hrom r hr]
      refine rdBytes_congr _ (fun i hi => ?_)
      rw [rdByte_congr hmem]
      refine rdByte_wrBytes_of_ne h.wf (fun j hj => memKey_ne ?_)
      rw [Nat.mul_succ] at hbelow
      omega
    · have hread := rdBytes_wrBytes h.wf hrom (o + w * r) (leBytes w (code r))
      rw [hlen] at hread
      exact (rdBytes_congr _ (fun i _ => rdByte_congr hmem _ _)).trans hread

theorem forAll_concat {α : Type} (f : α → State → State) (l : List α) (x : α) (s : State) :
    forAll f (l ++ [x]) s = f x (forAll f l s) := by
  induction l generalizing s with
  | nil => rfl
  | cons y l ih => exact ih (f y s)

theorem vatOf_chunkCore (s : State) (core k : Nat) : vatOf (chunkCore s core k) = vatOf core := by
  have hlow : ∀ i, ((List.range 8).filter (fun j => (s.core core).mask / 2 ^ j % 2 == 1)).getD i (core % 8) < 8 := by
    intro i
    rw [List.getD_eq_getElem?_getD]
    cases hget : ((List.range 8).filter (fun j => (s.core core).mask / 2 ^ j % 2 == 1))[i]? with
    | none => exact Nat.mod_lt _ (by decide)
    | some j => exact List.mem_range.mp (List.mem_filter.mp (List.mem_of_getElem? hget)).1
  have hj := hlow ((k % max 1 ((List.range 8).filter (fun j => (s.core core).mask / 2 ^ j % 2 == 1)).length))
  unfold vatOf chunkCore vatOf
  dsimp only
  omega

/-- A routine over the local data area whose row `r` is written by a core of the same Vat. -/
theorem rowsStored_rowWrites {x : RowStream} {writer : Nat → Nat} (hspace : x.space = 0) (hwriter : ∀ r, vatOf (writer r) = v)
    (hm : Memory.wf s.mem = true) (hst : s.same.stores.all (fun y => y.sp != spLocal v) = true) (n : Nat) :
    RowsStored s v x.outOff (accBytes x.fmt) code n
      (rowWrites x ((List.range n).map (fun r => (writer r, r, code r))) s) := by
  induction n with
  | zero => exact rowsStored_zero hm hst
  | succ n ih =>
    unfold rowWrites at ih ⊢
    dsimp only at ih ⊢
    rw [List.range_succ, List.map_append, List.map_singleton, forAll_concat, hspace]
    rw [hspace] at ih
    dsimp only [spaceWrite]
    rw [hwriter n]
    exact rowsStored_succ ih _

end Rows

/-! ### What a routine reads -/

section Look
variable {s : State} {v core : Nat} {x : RowStream} {d : RowData}

/-- A read of local memory that nothing of this cycle has stored to gives its bytes. -/
theorem spaceLook_local {a n : Nat} {bs : List Byte} (hst : s.same.stores.all (fun y => y.sp != spLocal v) = true)
    (h : spaceLook s v 0 qd a n = .got bs) : bs = rdBytes s (spLocal v) a n := by
  have hnone : s.same.stores.filter (fun y => y.sp == spLocal v && decide (y.off < a + n) && decide (a < y.off + y.len)) = [] := by
    simp only [List.filter_eq_nil_iff, Bool.and_eq_true, beq_iff_eq]
    rintro y hy ⟨⟨hsp, -⟩, -⟩
    exact absurd hsp (by simpa using List.all_eq_true.mp hst y hy)
  have hlook : spaceLook s v 0 qd a n =
      if upsetIn s (upLocal v) a n then .lost .local_ else .got (rdBytes s (spLocal v) a n) := by
    show (if _ then _ else Look.got (localRead s v a n)) = _
    rw [localRead, hnone]
    rfl
  rw [hlook] at h
  split at h
  · exact nomatch h
  · exact (Look.got.inj h).symm

theorem lookAll_pair {α β : Type} {f : α → Look β} {a b : α} {ds : List β} (h : lookAll f [a, b] = .got ds) :
    ∃ y z, f a = .got y ∧ f b = .got z ∧ ds = [y, z] := by
  rw [lookAll, lookAll, lookAll] at h
  cases ha : f a with
  | got y =>
    cases hb : f b with
    | got z =>
      rw [ha, hb] at h
      exact ⟨y, z, rfl, rfl, (Look.got.inj h).symm⟩
    | _ => rw [ha, hb] at h; exact nomatch h
  | _ => rw [ha] at h; exact nomatch h

/-- What a ROW_SUM over the local data area has read, and where its output lies. -/
theorem rowLook_local (hspace : x.space = 0) (hst : s.same.stores.all (fun y => y.sp != spLocal v) = true)
    (h : rowLook s v x false = .got d) :
    d.dir = rdBytes s (spLocal v) x.dirOff (8 * (x.rows + 1)) ∧
      d.vals = rdBytes s (spLocal v) x.valOff (accBytes x.fmt * d.entry x.rows) ∧
      (accBytes x.fmt * x.rows ≠ 0 → x.outOff + accBytes x.fmt * x.rows ≤ localEnd s v) := by
  have hpart : ∀ (a n : Nat) (l : List Byte), (if n = 0 then .got [] else spaceLook s v 0 x.qd a n) = .got l →
      l = rdBytes s (spLocal v) a n := by
    intro a n l hl
    split at hl
    next hn => rw [hn]; exact (Look.got.inj hl).symm
    · exact spaceLook_local hst hl
  unfold rowLook at h
  dsimp only at h
  simp only [hspace, Bool.false_eq_true, if_false] at h
  split at h
  · exact nomatch h
  split at h
  next dir hdir =>
    split at h
    · exact nomatch h
    next hrange =>
      split at h
      · exact nomatch h
      split at h
      next ds hds =>
        obtain rfl := RowLook.got.inj h
        have hdirEq := spaceLook_local hst hdir
        refine ⟨hdirEq, ?_, ?_⟩
        · obtain ⟨vals, facs, hvals, -, rfl⟩ := lookAll_pair hds
          exact hpart _ _ vals hvals
        · intro hne
          have hout := hrange
          simp only [rowParts, List.any_cons, List.any_nil, Bool.or_false, Bool.or_eq_true, not_or] at hout
          simpa [hne, inSpace] using hout.2.2.2
      all_goals exact nomatch h
  all_goals exact nomatch h

end Look

theorem localEnd_le (s : State) (v : Nat) : localEnd s v ≤ 8388608 := Nat.sub_le _ _

/-! ### The clauses of O46 -/

/-- A routine on a running core, by what it meets when it reads its stream. -/
theorem rowRoutine_runs : ∀ (s : State) (core : Nat) (x : RowStream),
    (s.core core).st = .running →
    let v := vatOf core
    (∀ d, rowLook s v x true = .got d → exec (.rowScale core x) s = .next (rowWrites x
      ((List.range x.rows).flatMap (fun r => (d.row r).map (fun e => (chunkCore s core (e / 4096), e,
        toCode x.fmt (Val.mul (ofCode x.fmt (d.val x.fmt e)) (ofCode x.fmt (d.fac x.fmt r))))))) (rowMoved x d s))) ∧
    (∀ d, rowLook s v x false = .got d → exec (.rowSum core x) s = .next (rowWrites x
      ((List.range x.rows).map (fun r => (chunkCore s core ((d.entry (r + 1) - 1) / 4096), r, rowSumOf x.fmt d r)))
      (rowMoved x d s))) ∧
    (∀ sc i, i = (if sc then Instr.rowScale core x else .rowSum core x) →
      (rowLook s v x sc = .range → exec i s =
        .next (curdExc core 4 (oldestAt (s.core core)).1 (oldestAt (s.core core)).2 s)) ∧
      (∀ q a n, rowLook s v x sc = .sleep q a n → exec i s = .next (hbmWake q a n s)) ∧
      (∀ l, rowLook s v x sc = .lost l → exec i s = .next (libData core (lostMark core l s)))) := by
  intro s core x hrun v
  have hrows : ∀ sc outs, runRows core x sc outs s = match rowLook s v x sc with
      | .got d => rowWrites x (outs d) (rowMoved x d s)
      | .range => curdExc core excRange (oldestAt (s.core core)).1 (oldestAt (s.core core)).2 s
      | .sleep q a n => hbmWake q a n s
      | .lost l => libData core (lostMark core l s) := by
    intro sc outs
    unfold runRows
    exact if_pos hrun
  have hexec : ∀ sc : Bool, ∃ outs, exec (if sc then Instr.rowScale core x else .rowSum core x) s =
      .next (runRows core x sc outs s) := by
    intro sc
    cases sc
    · exact ⟨_, rfl⟩
    · exact ⟨_, rfl⟩
  refine ⟨fun d hd => ?_, fun d hd => ?_, ?_⟩
  · show Host.Outcome.next (runRows core x true _ s) = _
    rw [hrows, hd]
  · show Host.Outcome.next (runRows core x false _ s) = _
    rw [hrows, hd]
  · rintro sc i rfl
    obtain ⟨outs, hout⟩ := hexec sc
    refine ⟨fun h => ?_, fun q a n h => ?_, fun l h => ?_⟩
    · rw [hout, hrows, h]
      rfl
    · rw [hout, hrows, h]
    · rw [hout, hrows, h]

section Sum
variable {s : State} {core : Nat} {x : RowStream} {d : RowData}

/-- ROW_SUM over the local data area (R307): what it has read, and what its outputs leave. -/
theorem rowSum_stores (hc : Canon s) (hrun : (s.core core).st = .running) (hspace : x.space = 0)
    (hst : s.same.stores.all (fun y => y.sp != spLocal (vatOf core)) = true) (hlook : rowLook s (vatOf core) x false = .got d) :
    ∃ t, exec (.rowSum core x) s = .next t ∧ Canon t ∧
      RowsStored s (vatOf core) x.outOff (accBytes x.fmt) (rowSumOf x.fmt d) x.rows t := by
  have hexec := (rowRoutine_runs s core x hrun).2.1 d hlook
  refine ⟨_, hexec, ?_, ?_⟩
  · have hkept := exec_canon (.rowSum core x) s hc
    exact hkept _ hexec
  · rw [rowMoved, if_neg (by rw [hspace]; decide)]
    exact rowsStored_rowWrites hspace (fun r => vatOf_chunkCore s core _) hc.2 hst x.rows

/-- The bytes below the boot flash that are no output stay. -/
theorem rowSum_frame {t : State} {v : Nat} {code : Nat → Nat}
    (hout : accBytes x.fmt * x.rows ≠ 0 → x.outOff + accBytes x.fmt * x.rows ≤ localEnd s v)
    (h : RowsStored s v x.outOff (accBytes x.fmt) code x.rows t) {sp a : Nat} (ha : a < 2 ^ 40)
    (hne : ¬ (sp = spLocal v ∧ x.outOff ≤ a ∧ a < x.outOff + accBytes x.fmt * x.rows)) : rdByte t sp a = rdByte s sp a := by
  refine h.frame sp a (fun i hi => ?_)
  have hend := hout (by omega)
  have hle := localEnd_le s v
  by_cases hsp : sp = spLocal v
  · subst hsp
    exact memKey_ne (fun heq => hne ⟨rfl, by omega, by omega⟩)
  · exact memKey_ne_of_space_ne hsp (by omega) ha

end Sum

/-! ### What the boot ROM decides -/

/-- Wherever a ROW_SUM of a core of Vat 41 reads its stream in the boot ROM, the ROM holds the row's sum at the row's output. -/
def RomHoldsSums : Prop :=
  ∀ (s : State) (core r : Nat) (x : RowStream) (d : RowData), Canon s → (s.core core).st = .running → x.space = 0 →
    s.same.stores.all (fun y => y.sp != spRom) = true → vatOf core = spRom → rowLook s spRom x false = .got d → r < x.rows →
    rdLe s spRom (x.outOff + accBytes x.fmt * r) (accBytes x.fmt) = rowSumOf x.fmt d r % 2 ^ (8 * accBytes x.fmt)

theorem rdLe_rom (s t : State) (off n : Nat) : rdLe s spRom off n = rdLe t spRom off n := by rw [rdLe, rdLe, rdBytes_rom s t]

theorem rdLe_of_rdBytes {s : State} {sp off w c : Nat} (h : rdBytes s sp off w = leBytes w c) :
    rdLe s sp off w = c % 2 ^ (8 * w) := by
  rw [rdLe, h, leVal_leBytes, Nat.pow_mul]

/-- O46 says no more and no less than what the boot ROM holds: the model leaves the ROM's bytes open, so it decides O46 neither
way. -/
theorem rowRoutines_iff_romHoldsSums : Obligations.RowRoutines ↔ RomHoldsSums := by
  constructor
  · rintro ⟨-, hsum⟩ s core r x d hc hrun hspace hst hrom hlook hr
    have hlocal : spLocal (vatOf core) = spRom := hrom
    obtain ⟨-, -, t, -, -, -, -, hread⟩ :=
      hsum s core r x d hc hrun hspace (by rw [hlocal]; exact hst) (by rw [hrom]; exact hlook) hr
    rw [hlocal] at hread
    rw [rdLe_rom s t]
    exact hread
  · intro hrom
    refine ⟨rowRoutine_runs, ?_⟩
    intro s core r x d hc hrun hspace hst hlook hr
    obtain ⟨hdir, hvals, hout⟩ := rowLook_local hspace hst hlook
    obtain ⟨t, hexec, hct, hrows⟩ := rowSum_stores hc hrun hspace hst hlook
    refine ⟨hdir, hvals, t, hexec, hrows.regs, hct, fun sp a _ ha hne => rowSum_frame hout hrows ha hne, ?_⟩
    by_cases hv : vatOf core = spRom
    · have hlocal : spLocal (vatOf core) = spRom := hv
      rw [hlocal, rdLe_rom t s]
      exact hrom s core r x d hc hrun hspace (by rw [← hlocal]; exact hst) hv (by rw [← hv]; exact hlook) hr
    · exact rdLe_of_rdBytes (hrows.outs hv r hr)

/-- A run of bytes of the boot ROM that is blank. -/
theorem rdBytes_blankRom {off n : Nat} (h : ∀ i, i < n → Config.bootRom (off + i) = 0) (s : State) :
    rdBytes s spRom off n = List.replicate n 0 := by
  induction n generalizing off with
  | zero => rfl
  | succ n ih =>
    have htail := ih (off := off + 1) (fun i hi => by
      rw [Nat.add_assoc, Nat.add_comm 1 i]
      exact h (i + 1) (Nat.succ_lt_succ hi))
    rw [rdBytes, rdByte, if_pos rfl, htail, List.replicate_succ, show Config.bootRom off = 0 from h 0 (Nat.succ_pos n)]

theorem leVal_replicate_zero (n : Nat) : leVal (List.replicate n 0) = 0 := by
  induction n with
  | zero => rfl
  | succ n ih => rw [List.replicate_succ, leVal, ih]; rfl

/-- A blank boot ROM gives O46: every row that it lists is empty, and so is its sum. -/
theorem rowRoutines_of_blankRom (h : ∀ off, Config.bootRom off = 0) : Obligations.RowRoutines := by
  refine rowRoutines_iff_romHoldsSums.mpr ?_
  intro s core r x d _ _ hspace hst _ hlook hr
  have hdir := (rowLook_local (v := spRom) hspace hst hlook).1
  have hentry : ∀ k, d.entry k = 0 := by
    intro k
    rw [RowData.entry, leAt, hdir, show spLocal spRom = spRom from rfl, rdBytes_blankRom (fun i _ => h _),
      List.drop_replicate, List.take_replicate,
      leVal_replicate_zero]
  have hrow : d.row r = [] := by rw [RowData.row, hentry, hentry]; rfl
  have hsum : rowSumOf x.fmt d r = 0 := by rw [rowSumOf, hrow]; rfl
  rw [hsum, rdLe, rdBytes_blankRom (fun i _ => h _), leVal_replicate_zero, Nat.zero_mod]

/-- One empty row, its directory at the begin of the local memory and its sum behind it. -/
def emptyRow : RowStream := { fmt := 1, rows := 1, space := 0, qd := 0, dirOff := 0, valOff := 0, facOff := 0, outOff := 16 }

/-- A running core of Vat 41. -/
def romRunning : State := State.reset.setCore romCore { Core.idle with st := .running }

/-- A boot ROM that holds a 1 behind 16 bytes of 0 fails O46: the sum of the empty row is 0. -/
theorem not_rowRoutines_of_rom (hzero : ∀ off, off < 16 → Config.bootRom off = 0) (hone : Config.bootRom 16 = 1) :
    ¬ Obligations.RowRoutines := by
  intro h
  have hdir : rdBytes romRunning spRom 0 16 = List.replicate 16 0 :=
    rdBytes_blankRom (fun i hi => by rw [Nat.zero_add]; exact hzero i hi) romRunning
  have hlook : rowLook romRunning spRom emptyRow false = .got ⟨List.replicate 16 0, [], []⟩ := by
    have hread : spaceLook romRunning spRom 0 0 0 16 = .got (List.replicate 16 0) :=
      (show spaceLook romRunning spRom 0 0 0 16 = .got (rdBytes romRunning spRom 0 16) from rfl).trans (by rw [hdir])
    have hstart : inSpace romRunning spRom 0 0 0 16 = true := by decide +kernel
    have hend : inSpace romRunning spRom 0 0 16 2 = true := by decide +kernel
    unfold rowLook
    simp only [emptyRow, Bool.false_eq_true, if_false]
    rw [if_neg (by rw [hstart]; decide), hread]
    dsimp only
    rw [show leAt (List.replicate 16 0) (8 * 1) 8 = 0 from rfl]
    rw [if_neg (by simp [rowParts, accBytes, hstart, hend])]
    rfl
  have hread := rowRoutines_iff_romHoldsSums.mp h romRunning romCore 0 emptyRow _ ⟨rfl, rfl⟩ (by decide) rfl rfl (by decide) hlook
    (by decide)
  have hbytes : rdLe romRunning spRom 16 2 = 1 + 256 * (Config.bootRom 17).toNat := by
    simp [rdLe, rdBytes, rdByte, leVal, hone]
  have hsum : rdLe romRunning spRom 16 2 = 0 := hread
  omega

end Sys2Proof.Machine
end
